-- ==== Sys2Proof/Word.lean ====
section
/-! DEFINITION. The word types of the module and their plainest arithmetic. -/

namespace Sys2Proof

/-- One octet (R9). -/
abbrev Byte := BitVec 8

/-- A 32-bit register word (R356), or the bits of an F32. -/
abbrev Word := BitVec 32

/-- A 64-bit counter or command word. -/
abbrev DWord := BitVec 64

/-- An octet string: a dictionary value, a record, a frame payload. -/
abbrev Octets := List Byte

end Sys2Proof
end

