-- ==== Sys2Proof/Syntax.lean ====
section
/-! DEFINITION. The commands of the KDM-16: one constructor per row of the opcode table, with the operands the
row's rule names. What only the outside world decides (a converter's reports, a sensor's readings, the outcome of
a standard cryptographic check, a peer's answer) is an operand of the command that brings it. -/

namespace Sys2Proof

/-- An agent that reaches registers (R358). -/
inductive RegAgent where
  | mgmt
  | sec
  | vat (v : Nat)
  | window
  deriving DecidableEq, Repr

/-- An agent that issues memory accesses, sync operations and fences (the agents of R304 and R306). -/
inductive Agent where
  | engine (n : Nat)
  | vatCore (v : Nat)
  | mgmt
  | sec
  | array (n : Nat)
  | qp (handle : Nat)
  | stream (handle : Nat)
  deriving DecidableEq, Repr

/-- An inner FAP message as it arrives (R350). `rsv` holds the three reserved octets as one number. -/
structure FapMsg where
  op : Nat
  flags : Nat
  tag : Nat
  status : Nat
  index : Nat
  sub : Nat
  rsv : Nat
  offset : Nat
  count : Nat
  data : Octets
  deriving DecidableEq, Repr

/-- A converter's report that differs from the nominal one (R51): `half` is 0 for a full pass, 1 and 2 for the
half-passes of a split; `report` is a count, or none for overrange. -/
structure ConvReport where
  half : Nat
  segment : Nat
  column : Nat
  report : Option Nat
  deriving DecidableEq, Repr

/-- A delay tap and a threshold tap, as one calibration run finds them (R75, R76). -/
structure TapPair where
  delay : Nat
  thresh : Nat
  deriving DecidableEq, Repr

/-- What the security core's standard algorithms answer for an envelope (R111): the plaintext when the GCM tag
verifies, whether the owner's ECDSA signature verifies, and the SHA-384 of the body. -/
structure EnvelopeCrypto where
  plain : Option Octets
  sigOk : Bool
  digest : Octets
  deriving DecidableEq, Repr

/-- What the security core answers for a firmware image or kernel package (R441, R443). -/
structure ImageCrypto where
  signerRenzel : Bool
  sigOk : Bool
  digestOk : Bool
  deriving DecidableEq, Repr

/-- A hardware upset of an engine during a task (R148, R363), or a silent one (seen only by R167). -/
inductive EngineUpset where
  | residue (expected found : Nat)
  | scratchCe
  | scratchUe (offset : Nat)
  | silent (bit : Nat)
  deriving DecidableEq, Repr

/-- A unit that can be fenced, tested and re-admitted (R372, R385). -/
inductive HealthUnit where
  | array (n : Nat)
  | engine (n : Nat)
  | vat (v : Nat)
  deriving DecidableEq, Repr

/-- How a brine slice ends (R383, R384). -/
inductive BrineResult where
  | interrupted
  | passed
  | failed (test : Nat)
  | suspect (segment column : Nat)
  deriving DecidableEq, Repr

/-- An ECC event on a line (R257). -/
inductive EccError where
  | corrected (die : Nat)
  | uncorrectable (die : Option Nat)
  deriving DecidableEq, Repr

/-- A received Xatravis frame whose checks 1, 2, 4 and 6 of R273 pass: its header fields (R271) and payload. -/
structure Frame where
  port : Nat
  sub : Nat
  ver : Nat
  flags : Nat
  srcChip : Nat
  dstChip : Nat
  lseq : Nat
  lack : Nat
  stream : Nat
  eseq : Nat
  offset : Nat
  op : Nat
  hops : Nat
  path : Nat
  credit : Nat
  aux : Nat
  payload : Octets
  deriving DecidableEq, Repr

/-- A frame as the port receives it, with the outcomes of the checks that need its raw octets (R273). -/
structure RawFrame where
  fcsOk : Bool
  etherType : Nat
  vid : Nat
  typ : Nat
  reservedZero : Bool
  lengthField : Nat
  frameOctets : Nat
  crcOk : Bool
  frame : Frame
  deriving DecidableEq, Repr

/-- Who issues a sync operation (R310): an agent of the die for a partition, a SYNC frame of a stream (R313), a
RoCEv2 queue pair (R292), or a threshold firing of this die (R311). -/
inductive SyncBy where
  | agent (a : Agent) (part : Nat)
  | wire (f : Frame)
  | roce (qp : Nat)
  | fired
  deriving DecidableEq, Repr

/-- What a peer chip's security core and firmware answer when a channel to it is opened (R323, R454). -/
structure PeerReport where
  chip : Nat
  chainOk : Bool
  lifecycle : Nat
  debugLevel : Nat
  fallback : Bool
  press : Bool
  handle : Option Nat
  deriving DecidableEq, Repr

/-- A length table entry (R188). -/
structure LenEntry where
  seq : Nat
  kind : Nat
  qpos : Nat
  qlen : Nat
  row : Nat
  deriving DecidableEq, Repr

/-- The plan of a step (R215): step number, epoch, length table, input tokens and the named lengths. -/
structure Plan where
  step : Nat
  epoch : Nat
  entries : List LenEntry
  tokens : List Nat
  named : List (Nat × Nat)
  deriving DecidableEq, Repr

/-- What SAMPLE and SPEC_VERIFY decided for one request of the step (R227, R232, R236): its tokens in index order,
the drafted tokens accepted, whether a logit was not finite, and a task failure's status or 0. -/
structure RowOutcome where
  seq : Nat
  tokens : List Nat
  accepted : Nat
  nonfinite : Bool
  failure : Nat
  deriving DecidableEq, Repr

/-- What a standby fetches for REC_ADOPT (R390): the replica if a holder has it, its verification, and the
journal's requests (channel handle, submission entry, stop block, context, the tokens of each journaled step with its number
and epoch, and how the request ended). -/
structure JournalReq where
  handle : Nat
  entry : Octets
  stops : Octets
  ctx : List Nat
  emitted : List (Nat × Nat × List Nat)
  ended : Option (Nat × Nat)
  deriving DecidableEq, Repr

structure AdoptFetch where
  envelope : Option Octets
  crypto : EnvelopeCrypto
  journal : List JournalReq
  holdersLost : Bool
  deriving DecidableEq, Repr

/-- The wake events of R400. -/
inductive Wake where
  | doorbell (mbx : Nat)
  | stateReq
  | frame (port : Nat)
  | fapCommand
  deriving DecidableEq, Repr

/-- Who requests an urgent conversion (R425). -/
inductive UrgentBy where
  | sensorHub
  | faultLine (controller : Nat)
  | power (vat : Nat)
  deriving DecidableEq, Repr

/-- A monitor command arrives at its dictionary object or at its register bit (R430, R431). -/
inductive MonCalBy where
  | session (sess : Nat) (arg : Octets)
  | register (agent : RegAgent) (index value : Nat)
  deriving DecidableEq, Repr

/-- Who signed an unlock token, and whether the signature verifies (R461, R462). -/
inductive TokenSigner where
  | renzel (sigOk : Bool)
  | operator (sigOk : Bool)
  | other
  deriving DecidableEq, Repr

/-- What the boot finds (R441, R475): the status of each bank's verification (0 when it passes), and the slices
and ports whose training and calibration are accepted. -/
structure BootCheck where
  markedStatus : Nat
  otherStatus : Nat
  slicesTrained : Nat
  portsTrained : Nat
  distance : List Nat
  deriving DecidableEq, Repr

/-- The fuse values programmed on entry to VENDOR_TEST (R432). -/
structure FuseImage where
  lot : Octets
  wafer : Nat
  dieX : Nat
  dieY : Nat
  serial : Nat
  mac : Octets
  product : Octets
  uds : Octets
  deriving DecidableEq, Repr

/-- A FAP datagram that is dropped (R345, R347, R348, R350), with what the port finds of it. -/
structure BadDatagram where
  headerOk : Bool
  sess : Nat
  tagOk : Bool
  seq : Nat
  innerOctets : Nat
  deriving DecidableEq, Repr

/-- A management port frame that is not FAP (R344). -/
inductive MgmtFrame where
  | arp
  | neighbourDiscovery
  | icmpEcho
  | icmp6Echo
  | other
  deriving DecidableEq, Repr

/-- What a RoCEv2 responder answers to a request of this module (R291). -/
inductive RoceAck where
  | ack (psn : Nat)
  | nak (psn code : Nat)
  | response (psn : Nat) (data : Octets)
  deriving DecidableEq, Repr

/-- Where a steal claim is resolved (R161): an engine's queue or a vat's overflow list. -/
inductive Victim where
  | queue (engine : Nat)
  | overflow (vat : Nat)
  deriving DecidableEq, Repr

/-- Who posts a task descriptor (R153). -/
inductive Poster where
  | vatCore (v : Nat) (part : Nat)
  | mgmt (part : Nat)
  | partition (part : Nat)
  deriving DecidableEq, Repr

/-- Who opens a stream (R323): a session of this module, with what the destination's security core and firmware answer, or the
firmware of a peer chip, which asks this module for the receive end of a partition and class. -/
inductive StreamOpener where
  | session (sess : Nat) (arg : Octets) (peer : PeerReport)
  | peer (report : PeerReport) (part cls : Nat)
  deriving DecidableEq, Repr

/-- An end of a mailbox (R326, R329). -/
inductive MbxEnd where
  | mgmt
  | sec
  | vat (v : Nat)
  | session (sess : Nat)
  deriving DecidableEq, Repr

/-- The commands (rows of the opcode table). -/
inductive Instr where
  /-- STEP_BOUNDARY (R225): A step boundary of the module: pending STEP values and commands apply, and the lead admits requests, composes the plan and sends it. -/
  | stepBoundary
  /-- IDLE_STEP_BOUNDARY (R19): With no step in progress, the module makes a boundary within 10 µs of accepting a STEP value, command or edit, and applies everything pending at STEP. -/
  | idleStepBoundary
  /-- REGISTER_WRITE (R356): A write to a register that has no row of its own: the value is applied, held pending or refused, and CFG_ERR is set where the block has one. -/
  | registerWrite (agent : RegAgent) (addr width value : Nat)
  /-- FAP_READ (R351): A FAP READ request returns octets of an object's value in force after the checks of R353. -/
  | fapRead (sess seq : Nat) (m : FapMsg)
  /-- FAP_WRITE (R352): A FAP WRITE request writes an object value or a segment of one, after the checks of R353. -/
  | fapWrite (sess seq : Nat) (m : FapMsg)
  /-- FAP_DESCRIBE (R336): A FAP DESCRIBE request returns the 64-octet description of an object. -/
  | fapDescribe (sess seq : Nat) (m : FapMsg)
  /-- FAP_NEXT (R351): A FAP NEXT request returns the first object at or after the given index that the session may reach. -/
  | fapNext (sess seq : Nat) (m : FapMsg)
  /-- FAP_KEEPALIVE (R351): A FAP KEEPALIVE request restarts the session's idle timer and is answered. -/
  | fapKeepalive (sess seq : Nat) (m : FapMsg)
  /-- FAP_CLOSE (R349): A FAP CLOSE request is answered and the session ends. -/
  | fapClose (sess seq : Nat) (m : FapMsg)
  /-- FAP_SESSION_IDLE_TIMEOUT (R349): A session with no accepted message for FAP_IDLE_S ends. -/
  | fapSessionIdleTimeout (sess : Nat)
  /-- SPDM_KEY_EXCHANGE (R438): An SPDM KEY_EXCHANGE fixes the session's rights class from the requester's chain, or refuses it. -/
  | spdmKeyExchange (renzelRoot : Bool) (keyDigests : List Octets)
  /-- SPDM_FINISH (R346): An SPDM FINISH completes session setup, after which the session carries FAP messages. -/
  | spdmFinish (sess : Nat)
  /-- SPDM_END_SESSION (R349): An SPDM END_SESSION ends the FAP session. -/
  | spdmEndSession (sess : Nat)
  /-- SPDM_KEY_UPDATE (R348): An SPDM KEY_UPDATE changes the session keys without extending the message limit. -/
  | spdmKeyUpdate (sess : Nat)
  /-- SPDM_GET_MEASUREMENTS (R445): GET_MEASUREMENTS inside a session returns AK-signed measurement blocks, filtered by the session's class. -/
  | spdmGetMeasurements (sess : Nat) (nonce : Octets)
  /-- ARRAY_INPUT_RECORD (R83): An input record arrives at an array and is checked, quantised and accepted, or refused. -/
  | arrayInputRecord (sender : Agent) (vat slot : Nat) (record : Octets) (poisoned : Bool)
  /-- ARRAY_WAKE (R61): A gated array completes its 40 ns wake after an input arrives for it. -/
  | arrayWake (array : Nat)
  /-- PASS_GRANT (R62): A waiting array receives a pass grant in the order in which it asked. -/
  | passGrant (vat : Nat)
  /-- ARRAY_PASS_LAUNCH (R60): An array that holds a grant launches the next regular plane pass in a free 1 ns slot. -/
  | arrayPassLaunch (array : Nat)
  /-- SPLIT (R53): A void plane is re-run as two half-passes in the first slot at least 4 ns after the void pass. -/
  | split (array : Nat)
  /-- PASS_COUNTS_READY (R59): A pass's counts and flags are ready, its checks are decided and it is folded into the accumulators. -/
  | passCountsReady (array : Nat) (reports : List ConvReport) (residueFail : Option (Nat × Nat))
  /-- CHAIN_PARTIAL_SUM (R99): A chain member receives the previous member's partial sums, adds its own and forwards the result. -/
  | chainPartialSum (array : Nat)
  /-- PAIR_JOIN (R95): The gate array pairs its product with the up partner's product, or releases a conflict record. -/
  | pairJoin (array : Nat)
  /-- OUTPUT_RELEASE (R104): A tail or unchained array releases its output record to the bulk mesh in acceptance order. -/
  | outputRelease (array : Nat)
  /-- ARRAY_IDLE_GATE (R61): An array with no queued product for ARR_IDLE_HOLD_NS is power-gated when GATE_EN is 1. -/
  | arrayIdleGate (array : Nat)
  /-- ARR_CAL_START (R78): The command starts a FULL or IDLE calibration of the vats in its mask, or is refused. -/
  | arrCalStart (sess : Nat) (arg : Octets)
  /-- CC_VAT_START (R80): Writing 1 to START starts a calibration of the vat in the mode given by MODE. -/
  | ccVatStart (agent : RegAgent) (vat value : Nat)
  /-- CONVERTER_CAL_RESULT (R75): A column converter's measurement runs end, and its taps are applied, it is marked suspect and measured again, or it fails and its array is fenced. -/
  | converterCalResult (array segment column : Nat) (runs : List TapPair)
  /-- REF_LINE_CAL_RESULT (R76): A reference delay line's result is accepted or rejected, and the vat is fenced when both lines are rejected. -/
  | refLineCalResult (vat line : Nat) (taps : TapPair)
  /-- CAL_RUN_DONE (R74): A calibration run of the named vats completes and its status is reported. -/
  | calRunDone (vat stepFs : Nat)
  /-- DRIFT_CALIBRATION (R73): The vat control core starts an IDLE calibration for an array whose tolerated mismatches or temperature drift exceed their limits. -/
  | driftCalibration (array : Nat)
  /-- PER_TABLE_LOAD (R107): The command loads the session's staged custom table into a vat's table slot at the next step boundary, or is refused. -/
  | perTableLoad (sess : Nat) (arg : Octets)
  /-- WHL_STAGE (R137): The command moves a partition's pending wheel from EMPTY to STAGING and returns a staging channel handle. -/
  | whlStage (sess : Nat) (arg : Octets)
  /-- WHL_VERIFY (R117): The command checks the staged sealed wheel completely and moves it to VERIFIED, or back to EMPTY on refusal. -/
  | whlVerify (sess : Nat) (arg : Octets) (crypto : EnvelopeCrypto)
  /-- WHL_PLACE (R138): The command places the pending wheel's images in shadow or in-place mode and moves it to PROGRAMMING. -/
  | whlPlace (sess : Nat) (arg : Octets)
  /-- WHL_ARM (R140): The command arms the replacement with its sync objects and new epoch, and moves the wheel to ARMED. -/
  | whlArm (sess : Nat) (arg : Octets)
  /-- WHL_CANCEL (R137): The command returns a pending wheel in states 1–4 to EMPTY and frees its arrays and slots. -/
  | whlCancel (sess : Nat) (arg : Octets)
  /-- OPEN_WRITE (R118): A partition's open-weight descriptor is checked and its tensor is quantised into the pending wheel. -/
  | openWrite (sess : Nat) (arg : Octets)
  /-- REPLICA_STORE (R128): A holder stores a peer's pushed envelope in a free or oldest replica slot and acknowledges it, or refuses it with NO_SPACE. -/
  | replicaStore (chip part epoch : Nat) (envelope : Octets)
  /-- REPLICA_PUSH_ACK (R128): The pushing module receives a holder's acknowledgement or refusal of a replica push. -/
  | replicaPushAck (part holder status : Nat)
  /-- REPLICA_FETCH_DONE (R129): A module finishes fetching a sealed envelope from its replica holders for a remap, refill, recovery or takeover. -/
  | replicaFetchDone (part : Nat) (envelope : Option Octets) (crypto : EnvelopeCrypto)
  /-- PROGRAM_ROW (R121): One row of an array is written and verified in 30 ns; it is rewritten after a failure, and the array is fenced after the fourth. -/
  | programRow (array : Nat) (verified : Bool)
  /-- ARRAY_PROGRAM_DONE (R122): After its last row, an array runs 16 test passes and is found ready 200 ns later, or is fenced. -/
  | arrayProgramDone (array : Nat) (raisedTest : Option Nat)
  /-- SWAP_ARRIVE (R140): After its fabric fence, the holding module adds 1 to the arrive object and waits on the decision object. -/
  | swapArrive (part : Nat)
  /-- SWAP_DECISION (R140): The decision object reaches commit or abort, and the module flips, starts rewriting or releases its holds. -/
  | swapDecision (part value : Nat)
  /-- SWAP_HOLD_ALARM (R140): A hold that lasts past SWAP_HOLD_ALARM_MS writes a SWAP_STALLED record and keeps holding. -/
  | swapHoldAlarm (part : Nat)
  /-- REWRITE_DONE (R142): All changed arrays of an in-place replacement are ready, and the module arrives at the done object and waits. -/
  | rewriteDone (part : Nat)
  /-- REWRITE_ROLLBACK_DONE (R142): After a failed rewrite, the old images have been programmed back, and the module arrives with status ABORTED. -/
  | rewriteRollbackDone (part : Nat)
  /-- OVERFLOW_LAYER_LOAD (R132): An overflow layer is written into its reload pool positions before the step's first product on it. -/
  | overflowLayerLoad (part layer : Nat)
  /-- RETENTION_AGE_TICK (R126): The rind advances each array's equivalent age at 85 °C from its temperature. -/
  | retentionAgeTick (array tempC milliHours : Nat)
  /-- TASK_POST (R154): A task descriptor is checked by the receiving vat and queued on an engine or the overflow list, or refused. -/
  | taskPost (poster : Poster) (desc : Octets)
  /-- TASK_START (R156): An engine chooses and starts its next runnable task, placing a secondary copy when the task is selected for dual execution. -/
  | taskStart (engine : Nat) (dual : Bool)
  /-- ENGINE_WAKE (R147): A gated engine wakes after a post to its queue, or when the vat's queue depth calls for it. -/
  | engineWake (engine : Nat)
  /-- ENGINE_IDLE_GATE (R147): An engine whose queue has been empty for VE_IDLE_HOLD_NS is power-gated when GATE_EN is 1. -/
  | engineIdleGate (engine : Nat)
  /-- STEAL_SEARCH (R159): An engine whose own sources are empty searches victims in the order of R159 and sends a claim. -/
  | stealSearch (engine : Nat)
  /-- STEAL_CLAIM (R161): A queue arbiter resolves arriving steal claims in order and moves one descriptor to each winning thief. -/
  | stealClaim (victim : Victim) (thieves : List Nat)
  /-- DUAL_COMPARE (R167): The signatures of a dual-executed task are compared, and the task completes, runs a third time, or fences engines. -/
  | dualCompare (taskKey : Nat)
  /-- VE_INBUF_SET (R170): The command defines an engine input buffer, which takes effect at the next step boundary. -/
  | veInbufSet (sess : Nat) (arg : Octets)
  /-- INBUF_RECORD_ARRIVAL (R171): An output record arrives at an input buffer and is dropped, held or written, with ARRIVE_OBJ signalled. -/
  | inbufRecordArrival (sender : Agent) (part buffer : Nat) (record : Octets)
  /-- INBUF_RECORD_WRITE (R171): A record held for lack of room is written once a slot frees, and the releasing array continues. -/
  | inbufRecordWrite (buffer : Nat)
  /-- GEMM (R172): A GEMM task computes a scaled matrix product and completes, or is refused. -/
  | gemm (engine busyNs : Nat) (upset : Option EngineUpset)
  /-- NORM (R173): A NORM task normalises rows in RMS or LAYER mode and completes. -/
  | norm (engine busyNs : Nat) (upset : Option EngineUpset)
  /-- ATTN_DECODE (R195): An ATTN_DECODE task walks a stripe with the online softmax, or writes or merges partials. -/
  | attnDecode (engine busyNs : Nat) (upset : Option EngineUpset)
  /-- ATTN_PREFILL (R195): An ATTN_PREFILL task computes attention for a prefill chunk. -/
  | attnPrefill (engine busyNs : Nat) (upset : Option EngineUpset)
  /-- KV_APPEND (R184): A KV_APPEND task quantises keys and values into a sequence's blocks, growing block scales when needed. -/
  | kvAppend (engine busyNs : Nat) (upset : Option EngineUpset)
  /-- GATHER_POOL (R209): A GATHER_POOL task gathers and pools embedding rows and writes rows or sends input records. -/
  | gatherPool (engine busyNs : Nat) (upset : Option EngineUpset)
  /-- SAMPLE (R230): A SAMPLE task reduces a logit shard to partials, or merges partials and draws tokens. -/
  | sample (engine busyNs : Nat) (upset : Option EngineUpset)
  /-- SPEC_VERIFY (R236): A SPEC_VERIFY task accepts drafted tokens and decides the bonus or residual token. -/
  | specVerify (engine busyNs : Nat) (upset : Option EngineUpset)
  /-- OPEN_QUANT (R119): An OPEN_QUANT task quantises an open-weight tensor per output column. -/
  | openQuant (engine busyNs : Nat) (upset : Option EngineUpset)
  /-- PACKAGE_KERNEL (R153): A task of a loaded kernel package runs as its manifest defines. -/
  | packageKernel (engine busyNs : Nat) (upset : Option EngineUpset)
  /-- SEQ_EDIT (R180): The command accepts a CREATE, TRUNCATE or RELEASE of a sequence descriptor, pending the next boundary, or refuses it. -/
  | seqEdit (sess : Nat) (arg : Octets)
  /-- EMB_TABLE_EDIT (R199): The command accepts a DEFINE or RELEASE of an embedding table, pending the next boundary, or refuses it. -/
  | embTableEdit (sess : Nat) (arg : Octets)
  /-- EMB_INVALIDATE (R201): The command accepts an invalidation of hot copies of table rows, applied at the next boundary. -/
  | embInvalidate (sess : Nat) (arg : Octets)
  /-- EMB_PIN (R206): The command pins or unpins a row in the hot-row directory at the next boundary. -/
  | embPin (sess : Nat) (arg : Octets)
  /-- HOT_ROW_COPY (R205): Once every gather task started before the boundary has completed, the vat copies a promoted row from the cave into its slot. -/
  | hotRowCopy (dirSet way : Nat)
  /-- HOT_ROW_COPY_DONE (R205): The copy of a promoted row completes, and the entry becomes valid at the next boundary. -/
  | hotRowCopyDone (dirSet way : Nat)
  /-- DIRECTORY_DECAY (R204): Every EMB_DECAY_STEPS boundaries, directory ages decrease and sketch counters are halved. -/
  | directoryDecay (part : Nat)
  /-- PLAN_RECEIVE (R215): A group member receives the lead's plan for a step. -/
  | planReceive (part : Nat) (plan : Plan)
  /-- MEMBER_STEP_START (R216): A member starts a step once it has finished the previous step, holds the plan and its epoch matches. -/
  | memberStepStart (part : Nat)
  /-- SEQ_INVALID_REPORT (R216): The lead receives a member's report of an invalid sequence and ends that request at its next commit fence. -/
  | seqInvalidReport (part seq chip : Nat)
  /-- REQ_CHAN_OPEN (R217): The command opens a request channel and returns its handle, or refuses. -/
  | reqChanOpen (sess : Nat) (arg : Octets)
  /-- REQ_CHAN_CLOSE (R222): The command closes a request channel, or is refused while requests remain. -/
  | reqChanClose (sess : Nat) (arg : Octets)
  /-- SUBMIT (R220): The home vat core reads a SUBMIT entry and queues a request, ends it at once, or refuses the entry. -/
  | submit (chan : Nat)
  /-- CANCEL (R237): The home vat core reads a CANCEL entry and resolves it against the request with its REQ_ID. -/
  | cancel (chan : Nat)
  /-- QP_TRANSPORT_ERROR (R222): A transport error on a channel's queue pair ends its requests CANCELLED and closes the channel to input. -/
  | qpTransportError (qp : Nat)
  /-- DRAFT_MESSAGE (R235): Members receive the lead's drafted tokens, and the main layers of a verify entry proceed. -/
  | draftMessage (part seq : Nat) (drafts : List Nat)
  /-- COMMIT_FENCE (R225): The home vat core decides each request's emitted tokens, named length and end, applying stop tests and cancels. -/
  | commitFence (vat : Nat) (outcomes : List RowOutcome)
  /-- JOURNAL_RECORD (R244): A journal holder stores a lead's journal record and acknowledges it, or refuses a ninth lead. -/
  | journalRecord (lead : Nat) (record : Octets)
  /-- JOURNAL_ACK (R243): The lead receives a holder's acknowledgement, which allows the stream and terminal records it covers to be written. -/
  | journalAck (holder seqno status : Nat)
  /-- COMPLETION_RECORD_WRITE (R221): The module writes completion ring records by RDMA WRITE as credit allows, then an immediate. -/
  | completionRecordWrite (chan : Nat)
  /-- MEM_REGION_SET (R252): The command defines or releases a memory region of a partition, applied at the next boundary. -/
  | memRegionSet (sess : Nat) (arg : Octets)
  /-- PATROL_SCRUB (R258): A slice's patrol scrubber reads and corrects lines as its period requires. -/
  | patrolScrub (slice line : Nat) (err : Option EccError)
  /-- MEMORY_ZERO_DONE (R256): Zeroing of released memory completes, and the key slot is cleared or the memory is given away. -/
  | memoryZeroDone (job : Nat)
  /-- REPLICA_LOST_NOTICE (R261): A peer receives REPLICA_LOST from a rebooted holder and pushes its replicas again. -/
  | replicaLostNotice (chip : Nat)
  /-- PORT_ENABLE_WRITE (R301): A write of ENABLE disables a port into electrical idle or enables it for bring-up. -/
  | portEnableWrite (agent : RegAgent) (port value : Nat)
  /-- LINK_TRAINING_DONE (R294): Auto-negotiation and link training of a port complete. -/
  | linkTrainingDone (port sub : Nat) (accepted : Bool)
  /-- PCS_LOCK (R294): A port reaches PCS and FEC lock and begins the 802.3br verify procedure. -/
  | pcsLock (port sub : Nat)
  /-- PREEMPT_VERIFY_DONE (R268): The 802.3br verify procedure completes, and the port starts exchanging HELLO. -/
  | preemptVerifyDone (port sub : Nat) (verified : Bool)
  /-- HELLO (R295): A received HELLO is checked, and the port goes UP, QUARANTINED or MISWIRED. -/
  | hello (port sub : Nat) (srcChip : Nat) (payload : Octets)
  /-- HELLO_SEND_TIMER (R294): A HELLO is sent every 10 µs during bring-up, or every 1 ms while quarantined or miswired. -/
  | helloSendTimer (port sub : Nat)
  /-- HELLO_TIMEOUT (R295): A partner that stops sending STATE 1 for XTV_HELLO_TIMEOUT_MS puts the port into QUARANTINED. -/
  | helloTimeout (port sub : Nat)
  /-- DATA_WRITE (R277): A DATA WRITE frame is deduplicated, applied to the exported space and acknowledged end to end. -/
  | dataWrite (f : Frame)
  /-- DATA_READ_REQ (R272): A DATA READ_REQ frame is answered with READ_RESP writes on the response stream. -/
  | dataReadReq (f : Frame)
  /-- DATA_READ_RESP (R272): A READ_RESP frame writes read data on the response stream. -/
  | dataReadResp (f : Frame)
  /-- SYNC_ADD (R310): An ADD on a sync object adds to its counter and returns the old value. -/
  | syncAdd (by_ : SyncBy) (addr a : Nat)
  /-- SYNC_CMP_SWAP (R310): A CMP_SWAP on a sync object replaces the counter when it matches, and returns the old value. -/
  | syncCmpSwap (by_ : SyncBy) (addr c v : Nat)
  /-- SYNC_RELEASE (R310): A RELEASE raises a sync object's counter to at least its value. -/
  | syncRelease (by_ : SyncBy) (addr v : Nat)
  /-- SYNC_READ (R310): A READ returns a sync object's counter. -/
  | syncRead (by_ : SyncBy) (addr : Nat)
  /-- SYNC_WAIT (R312): A WAIT takes a waiter entry and completes when the counter reaches its value. -/
  | syncWait (by_ : SyncBy) (addr v timeoutUs : Nat)
  /-- SYNC_WAIT_TIMEOUT (R312): A waiter whose timeout expires first completes with SYNC_TIMEOUT, or is reissued for a task. -/
  | syncWaitTimeout (waiter : Nat)
  /-- SYNC_RESPONSE (R313): A SYNC response frame returns a remote operation's result to the requester. -/
  | syncResponse (f : Frame)
  /-- PRESS (R289): A PRESS contribution is held, or discarded or dropped, and a complete chunk is summed and sent as PRESS_RESULT. -/
  | press (f : Frame)
  /-- PRESS_RESULT (R289): A member writes a deduplicated chunk result at DST and signals DONE_OBJ when the invocation is complete. -/
  | pressResult (f : Frame)
  /-- PRESS_ACK (R272): A PRESS_ACK acknowledges a chunk contribution at its source. -/
  | pressAck (f : Frame)
  /-- EACK_ACK (R277): An end-to-end ACK releases acknowledged frames of a stream at the source. -/
  | eackAck (f : Frame)
  /-- EACK_REFUSE (R273): An end-to-end REFUSE fails the issuing operation, or ends the stream on STALE_HANDLE. -/
  | eackRefuse (f : Frame)
  /-- LINK_ACK (R274): A LINK ACK releases acknowledged frames from the replay buffer of a DIRECT port. -/
  | linkAck (port sub lack : Nat)
  /-- LINK_NAK (R274): A LINK NAK makes the sender replay in order from LACK + 1. -/
  | linkNak (port sub lack : Nat)
  /-- LINK_CREDIT (R275): A LINK CREDIT returns buffer credit to a sender. -/
  | linkCredit (port sub cls units : Nat)
  /-- LINK_KEEPALIVE (R297): A LINK KEEPALIVE is received and keeps the port's receive timer alive. -/
  | linkKeepalive (port sub srcChip : Nat)
  /-- DOZE_REQ (R300): A DOZE_REQ in S2 is answered with DOZE_ACK, and the port dozes. -/
  | dozeReq (port sub : Nat)
  /-- DOZE_ACK (R300): A DOZE_ACK puts the port into doze, with keepalives every 100 µs. -/
  | dozeAck (port sub : Nat)
  /-- LINK_WAKE (R300): A WAKE returns a dozing port to UP within 20 µs. -/
  | linkWake (port sub : Nat)
  /-- LINK_ACK_TIMER (R274): After 32 accepted frames or 200 ns, the receiver sends a LINK ACK. -/
  | linkAckTimer (port sub : Nat)
  /-- LINK_REPLAY_TIMEOUT (R274): After 2 µs without ACK progress, the sender replays from the oldest frame, retraining after XTV_REPLAY_MAX tries. -/
  | linkReplayTimeout (port sub : Nat)
  /-- KEEPALIVE_SEND_TIMER (R297): A DIRECT port sends a LINK KEEPALIVE when no frame has been sent for 2 µs. -/
  | keepaliveSendTimer (port sub : Nat)
  /-- PORT_KEEPALIVE_TIMEOUT (R297): A port with no frame received for XTV_KEEPALIVE_US goes DOWN. -/
  | portKeepaliveTimeout (port sub : Nat)
  /-- PCS_LOCK_LOSS (R298): Loss of PCS lock takes a port DOWN, passes its frames to end-to-end retransmission and starts retraining. -/
  | pcsLockLoss (port sub : Nat)
  /-- E2E_ACK_TIMER (R277): After 16 frames or 500 ns, the destination sends an EACK ACK for applied frames. -/
  | e2eAckTimer (stream : Nat)
  /-- E2E_RETRANSMIT_TIMEOUT (R278): An unacknowledged frame is retransmitted with RETX, and the chip is declared lost after XTV_E2E_RETRY_MAX retries. -/
  | e2eRetransmitTimeout (stream eseq : Nat)
  /-- E2E_KEEPALIVE_TIMER (R297): After 20 µs without traffic, an end-to-end keepalive is sent to a switched or isolated peer chip. -/
  | e2eKeepaliveTimer (chip : Nat)
  /-- PEER_TIMEOUT (R297): A chip silent on every path for XTV_PEER_TIMEOUT_US is declared lost. -/
  | peerTimeout (chip : Nat)
  /-- COLL_CREATE (R286): The command creates a collective and returns its handle, or refuses. -/
  | collCreate (sess : Nat) (arg : Octets) (peers : List PeerReport)
  /-- COLL_DESTROY (R321): The command destroys a collective, abandoning any invocation in progress. -/
  | collDestroy (sess : Nat) (arg : Octets)
  /-- COLL_INVOCATION_START (R287): A member starts an invocation once START_OBJ reaches it and the previous invocation is done, and sends its chunks. -/
  | collInvocationStart (coll : Nat)
  /-- ROCE_SEND (R291): A RoCEv2 SEND is received on a queue pair. -/
  | roceSend (qp psn : Nat) (data : Octets) (ce : Bool)
  /-- ROCE_WRITE (R291): A RoCEv2 RDMA WRITE, with or without immediate, is applied in packet sequence order. -/
  | roceWrite (qp psn addr rkey : Nat) (data : Octets) (imm : Option Nat) (ce : Bool)
  /-- ROCE_READ (R291): A RoCEv2 RDMA READ is answered from the exported space. -/
  | roceRead (qp psn addr rkey len : Nat) (ce : Bool)
  /-- ROCE_FETCH_ADD (R292): A RoCEv2 FETCH_ADD performs ADD on a sync object, or is answered with a NAK. -/
  | roceFetchAdd (qp psn addr rkey a : Nat) (ce : Bool)
  /-- ROCE_CMP_SWAP (R292): A RoCEv2 CMP_SWAP performs CMP_SWAP on a sync object, or is answered with a NAK. -/
  | roceCmpSwap (qp psn addr rkey c v : Nat) (ce : Bool)
  /-- ROCE_CNP (R293): A congestion notification packet multiplies the queue pair's send rate by 7/8. -/
  | roceCnp (qp : Nat)
  /-- ROCE_RATE_RECOVERY (R293): After 55 µs without a CNP, a queue pair's rate rises by 1 % of the port rate. -/
  | roceRateRecovery (qp : Nat)
  /-- PFC_FRAME (R293): A received PFC frame pauses or resumes transmission on a priority. -/
  | pfcFrame (port sub priority : Nat) (pause : Bool)
  /-- FENCE_LOCAL (R306): An engine issues a LOCAL fence over its own accesses. -/
  | fenceLocal (agent : Agent)
  /-- FENCE_DIE (R306): An agent issues a DIE fence, so its earlier writes become visible across the die. -/
  | fenceDie (agent : Agent)
  /-- FENCE_FABRIC (R306): An agent issues a FABRIC fence, which waits for end-to-end acknowledgement of its remote writes. -/
  | fenceFabric (agent : Agent)
  /-- FENCE_COMPLETE (R306): A fence completes, with any failure status, and the agent's later accesses proceed. -/
  | fenceComplete (agent : Agent)
  /-- SYNC_ALLOC (R308): The command allocates a contiguous run of sync objects to the partition. -/
  | syncAlloc (sess : Nat) (arg : Octets)
  /-- SYNC_FREE (R308): The command frees a run of sync objects, failing their waiters. -/
  | syncFree (sess : Nat) (arg : Octets)
  /-- SYNC_CONFIG (R311): The command writes an object's threshold action as one operation and applies R311 at once. -/
  | syncConfig (sess : Nat) (arg : Octets)
  /-- SYNC_THRESH_HI_WRITE (R330): A write of THRESH_HI applies both threshold halves as one operation on the object. -/
  | syncThreshHiWrite (agent : RegAgent) (obj value : Nat)
  /-- SYNC_TARGET_HI_WRITE (R330): A write of TARGET_HI applies both target halves. -/
  | syncTargetHiWrite (agent : RegAgent) (obj value : Nat)
  /-- SYNC_GROUP_CREATE (R314): The command creates a barrier group, arming ARRIVE on the root. -/
  | syncGroupCreate (sess : Nat) (arg : Octets) (peers : List PeerReport)
  /-- SYNC_GROUP_DESTROY (R321): The command destroys a sync group, disarming ARRIVE and failing waiters. -/
  | syncGroupDestroy (sess : Nat) (arg : Octets)
  /-- STREAM_OPEN (R323): The command opens a Xatravis stream, with peer session and key agreement, and returns its handle. -/
  | streamOpen (by_ : StreamOpener)
  /-- STREAM_CLOSE (R321): The command closes a stream after its unacknowledged frames are resolved. -/
  | streamClose (sess : Nat) (arg : Octets)
  /-- QP_CREATE (R324): The command creates a RoCEv2 queue pair and returns its handle, QPN and key. -/
  | qpCreate (sess : Nat) (arg : Octets)
  /-- QP_DESTROY (R321): The command destroys a queue pair, flushing outstanding work. -/
  | qpDestroy (sess : Nat) (arg : Octets)
  /-- TASK_CHAN_OPEN (R325): The command opens a task channel ring. -/
  | taskChanOpen (sess : Nat) (arg : Octets)
  /-- TASK_CHAN_CLOSE (R321): The command closes a task channel, discarding unread descriptors. -/
  | taskChanClose (sess : Nat) (arg : Octets)
  /-- TASK_CHAN_DESCRIPTOR_READ (R325): The vat reads the next posted descriptor of a task channel, queues or refuses it, and advances CONSUMED. -/
  | taskChanDescriptorRead (chan : Nat)
  /-- MBX_MSG_WRITE (R327): The sender writes message words of a mailbox when its state allows. -/
  | mbxMsgWrite (mbx : Nat) (end_ : MbxEnd) (word value : Nat)
  /-- MBX_DOORBELL (R328): A doorbell write moves a mailbox to PENDING and raises a wake event for the receiver. -/
  | mbxDoorbell (mbx : Nat) (end_ : MbxEnd) (len : Nat)
  /-- MBX_INTERRUPT (R328): The receiver takes the doorbell interrupt once it is running. -/
  | mbxInterrupt (mbx : Nat)
  /-- MBX_ACK (R327): The receiver writes the return code and moves the mailbox to DONE. -/
  | mbxAck (mbx : Nat) (end_ : MbxEnd) (rc : Nat)
  /-- CFG_DEFAULTS (R338): The command marks persistent values to return to their defaults at the next boot. -/
  | cfgDefaults (sess : Nat) (arg : Octets)
  /-- FW_ACTIVATE (R441): The command verifies the staged firmware image and writes it to the idle bank for the next boot. -/
  | fwActivate (sess : Nat) (arg : Octets) (crypto : ImageCrypto)
  /-- REG_WIN_DATA (R341): A vendor window access reads or writes the register at REG_WIN_ADDR under the debug-level conditions. -/
  | regWinData (sess : Nat) (write : Option Nat)
  /-- REG_WIN_BULK (R341): A vendor window bulk read returns successive register words, stopping at the first fault. -/
  | regWinBulk (sess count : Nat)
  /-- VAT_HEARTBEAT (R365): A vat control core sends its heartbeat to the management core every 100 µs. -/
  | vatHeartbeat (vat : Nat)
  /-- VAT_WATCHDOG (R365): Two missing heartbeats fence the vat with mechanism WATCHDOG. -/
  | vatWatchdog (vat : Nat)
  /-- VAT_FENCE_GATE (R380): 50 µs after a vat fence, its arrays, engines and core are power-gated. -/
  | vatFenceGate (vat : Nat)
  /-- MGMT_CORE_RESET (R365): The rind resets a management core that misses its 10 ms timer, ending every FAP session. -/
  | mgmtCoreReset
  /-- MGMT_CORE_RESET_DONE (R365): The management core completes its reset and resumes its commands. -/
  | mgmtCoreResetDone
  /-- MGMT_RECOVERY_TIMEOUT (R483): A management core not recovered 200 ms after its reset makes the management service unavailable. -/
  | mgmtRecoveryTimeout
  /-- ERROR_RECORD_PERSIST (R370): An error record is copied into the configuration store ring within 100 µs of being written. -/
  | errorRecordPersist
  /-- BRINE_SLICE_START (R384): A brine slice starts on a unit that has been idle for 20 µs, where the schedule and grants allow. -/
  | brineSliceStart (u : HealthUnit)
  /-- BRINE_SLICE_DONE (R383): A brine slice ends with a pass, a failure that fences the unit, or a suspect converter, and counts toward re-admission. -/
  | brineSliceDone (u : HealthUnit) (result : BrineResult)
  /-- HEALTH_FENCE (R372): The command fences the named array, engine or vat. -/
  | healthFence (sess : Nat) (arg : Octets)
  /-- HEALTH_READMIT (R385): The command starts re-admission testing of a fenced unit. -/
  | healthReadmit (sess : Nat) (arg : Octets)
  /-- HEALTH_CLEAR (R387): The command returns a retired unit to the fenced state. -/
  | healthClear (sess : Nat) (arg : Octets)
  /-- REC_ADOPT (R390): The command makes a standby take over a lost chip's share from replicas and, as lead, rebuild the tracker. -/
  | recAdopt (sess : Nat) (arg : Octets) (fetch : AdoptFetch)
  /-- REC_REPLACE (R391): The command replaces a lost chip in the group table, after which live requests are prefilled again. -/
  | recReplace (sess : Nat) (arg : Octets)
  /-- REC_REBIND (R392): The command rebinds an old lead's channel to a new channel and streams recovered and replayed records. -/
  | recRebind (sess : Nat) (arg : Octets)
  /-- REBIND_TIMEOUT (R392): Requests of a channel not rebound within REC_REBIND_S end MODULE_LOST. -/
  | rebindTimeout (oldChip oldHandle : Nat)
  /-- PWR_STATE_REQ (R399): The command requests entry to S1, S2 or S3, or a return to S0, or is refused. -/
  | pwrStateReq (sess : Nat) (arg : Octets)
  /-- AUTO_S1_ENTRY (R399): After PWR_IDLE_US of idle time with PWR_AUTO_S1 set, the module enters S1. -/
  | autoS1Entry
  /-- POWER_STATE_ENTRY_DONE (R402): Entry to a low-power state completes, and a kept wake event then returns the module to S0. -/
  | powerStateEntryDone
  /-- WAKE_EVENT (R400): A wake event starts the module's exit from S1, S2 or S3. -/
  | wakeEvent (w : Wake)
  /-- POWER_STATE_EXIT_DONE (R401): Exit to S0 completes with restored tables, taps and maps. -/
  | powerStateExitDone
  /-- REFCLK_LOSS (R406): Loss of the fabric reference takes every port DOWN and writes CLOCK_LOST. -/
  | refclkLoss
  /-- REFCLK_RESTORED (R406): The fabric reference returns, and the ports retrain. -/
  | refclkRestored
  /-- CORE_PLL_LOCK_LOSS (R406): Loss of core PLL lock in S0 stops all passes and tasks and writes CLOCK_LOST. -/
  | corePllLockLoss
  /-- CORE_PLL_RELOCK (R406): The core PLL relocks, and work in flight is replayed. -/
  | corePllRelock
  /-- POWER_CAP_TICK (R410): Every 1 ms, the power manager compares input power with PWR_CAP_W and steps n_power. -/
  | powerCapTick (inputWatts : Nat)
  /-- BRAKE_ASSERT (R411): PWR_BRAKE_N falling sets n_brake to PWR_BRAKE_LEVEL and revokes grants. -/
  | brakeAssert
  /-- BRAKE_RELEASE (R411): PWR_BRAKE_N rising starts the ramp of n_brake down to 0. -/
  | brakeRelease
  /-- BRAKE_RAMP_TICK (R411): Every 10 µs after the release, n_brake falls by 1. -/
  | brakeRampTick
  /-- THERMAL_SAMPLE (R413): The sensor hub samples every sensor and updates health, compensation and n_thermal. -/
  | thermalSample (readings : List (Nat × Int))
  /-- ORDERED_STOP_TIMEOUT (R417): An ordered stop not finished 1.5 ms after it began becomes a fast stop. -/
  | orderedStopTimeout
  /-- THERMAL_TRIP (R421): The hardware comparator or a power-stage trip asserts THERM_TRIP_N, sets the trip flag and cuts every rail. -/
  | thermalTrip (sensor : Option Nat)
  /-- RAIL_EXCURSION (R415): A vat rail leaves its window, which stops pass launches and requests an urgent confirming conversion. -/
  | railExcursion (vat : Nat)
  /-- RAIL_RECOVERED (R415): The vat rail returns to its window, and launches resume. -/
  | railRecovered (vat : Nat)
  /-- URGENT_CONVERSION (R425): An urgent conversion preempts a monitor sequence and returns its result to the requester. -/
  | urgentConversion (requester : UrgentBy) (input code : Nat)
  /-- MON_TIMER_TRIGGER (R423): A TIMER-triggered monitor sequence starts a run every PERIOD µs, or counts a missed trigger. -/
  | monTimerTrigger (seq : Nat)
  /-- MON_VR_SYNC (R423): A converter controller's switching-sync event starts a VR_SYNC sequence after DELAY. -/
  | monVrSync (controller : Nat)
  /-- MON_CONVERSION_DONE (R424): An entry's conversion completes and is accumulated, and the sequence advances or restarts. -/
  | monConversionDone (seq raw : Nat)
  /-- MON_CAL_START (R426): The command, or the CAL_START bit, starts self-calibration of the selected monitor converters. -/
  | monCalStart (by_ : MonCalBy)
  /-- MON_CAL_DONE (R426): Monitor converter calibration completes, with offset and gain applied or the converter fenced. -/
  | monCalDone (converter : Nat) (runs : List TapPair)
  /-- MON_CLEAR (R424): The command, or the CLR bit, clears a sequence's accumulators at its next entry. -/
  | monClear (by_ : MonCalBy)
  /-- LC_TRANSITION (R446): The command requests a forward lifecycle transition and starts its effect. -/
  | lcTransition (sess : Nat) (arg : Octets)
  /-- LC_EFFECT_DONE (R447): The erasure and zeroing of a lifecycle transition complete, and the fuse is blown. -/
  | lcEffectDone
  /-- SEC_PART_CREATE (R449): The command creates a partition or changes its rights. -/
  | secPartCreate (sess : Nat) (arg : Octets)
  /-- SEC_PART_ASSIGN (R450): The command assigns arrays, engines or custom table slots to a partition at the next step boundary. -/
  | secPartAssign (sess : Nat) (arg : Octets)
  /-- SEC_PART_RELEASE (R452): The command releases a partition, ending its work and erasing or retaining its arrays. -/
  | secPartRelease (sess : Nat) (arg : Octets)
  /-- SEC_DEBUG_CHALLENGE (R461): A read of the challenge returns a fresh nonce, which replaces every earlier one. -/
  | secDebugChallenge (sess : Nat) (nonce : Octets)
  /-- SEC_DEBUG_UNLOCK (R462): The command checks an unlock token and sets DEBUG_LEVEL. -/
  | secDebugUnlock (sess : Nat) (arg : Octets) (signer : TokenSigner)
  /-- SEC_DEBUG_CLOSE (R463): The command returns DEBUG_LEVEL to NONE. -/
  | secDebugClose (sess : Nat) (arg : Octets)
  /-- DEBUG_EXPIRY (R463): VALID_S seconds after an unlock, DEBUG_LEVEL returns to NONE. -/
  | debugExpiry
  /-- CORE_HALT (R460): At HALT or above, a management or vat control core is halted. -/
  | coreHalt (core : Nat)
  /-- CORE_SINGLE_STEP (R460): At HALT or above, a halted core executes a single step. -/
  | coreSingleStep (core : Nat)
  /-- CORE_RESUME (R460): At HALT or above, a halted core resumes. -/
  | coreResume (core : Nat)
  /-- SEC_PKG_LOAD (R443): The command verifies the staged kernel package and loads it for a partition at the next boundary. -/
  | secPkgLoad (sess : Nat) (arg : Octets) (crypto : ImageCrypto)
  /-- SEC_ENROLL_WRITE (R439): A write of enrolment rows is checked and ends the sessions admitted through the changed rows. -/
  | secEnrollWrite (sess row : Nat) (rows : List Octets)
  /-- SEC_KEY_LOAD (R467): The LOAD bit loads a fresh key pair into the selected memory key slot. -/
  | secKeyLoad (agent : RegAgent) (slot : Nat)
  /-- SEC_KEY_CLEAR (R467): The CLEAR bit clears the selected memory key slot. -/
  | secKeyClear (agent : RegAgent) (slot : Nat)
  /-- FW_SELF_TEST_DONE (R442): Firmware reports its completed self-test, and the rollback fuses are blown up to its SVN. -/
  | fwSelfTestDone
  /-- FW_SELF_TEST_TIMEOUT (R441): A marked bank that does not report its self-test within 30 s makes the boot ROM fall back to the other bank. -/
  | fwSelfTestTimeout
  /-- POWER_UP (R475): The input rises above the turn-on threshold, and the module boots to the management and compute services. -/
  | powerUp (straps : Nat) (check : BootCheck)
  /-- SUPPLY_LOSS (R470): An input below turn-off or in overvoltage idles transmitters, saves records on hold-up power and enters S4. -/
  | supplyLoss (overvoltage : Bool)
  /-- RESET_ASSERT (R485): MOD_RESET_N held low places the module in S4. -/
  | resetAssert
  /-- RESET_RELEASE (R485): The rising edge of MOD_RESET_N boots the module. -/
  | resetRelease (straps : Nat) (check : BootCheck)
  /-- JTAG_IDCODE (R487): The IDCODE instruction selects the identification register. -/
  | jtagIdcode
  /-- JTAG_BYPASS (R487): The BYPASS instruction, or any instruction the lifecycle forbids, selects the bypass register. -/
  | jtagBypass
  /-- JTAG_SAMPLE_PRELOAD (R487): The SAMPLE/PRELOAD instruction, where the lifecycle allows it. -/
  | jtagSamplePreload
  /-- JTAG_EXTEST (R487): The EXTEST instruction, where the lifecycle allows it. -/
  | jtagExtest
  /-- JTAG_FUSE_PROGRAM (R446): In BLANK, fuse programming over JTAG moves the module to VENDOR_TEST. -/
  | jtagFuseProgram (f : FuseImage)
  /-- JTAG_TAP_RESET (R487): TRST_N low holds the TAP in reset. -/
  | jtagTapReset
  /-- FRAME_CHECK_DROP (R273): A received frame that fails FCS or fragment reassembly, EtherType or VID, version, type or length checks is dropped, with a NAK on DIRECT ports or an error record. -/
  | frameCheckDrop (port sub : Nat) (raw : RawFrame)
  /-- FAP_DATAGRAM_DROP (R347): A FAP datagram with a bad header, a failed tag check, an unknown session, a replayed SEQ or a too-short inner message is dropped and counted, and after 16 consecutive authentication failures the session ends. -/
  | fapDatagramDrop (d : BadDatagram)
  /-- MGMT_PORT_ARP_ND_ICMP (R344): The management port answers ARP, IPv6 neighbour discovery and ICMP or ICMPv6 echo, and drops other frames that are not FAP. -/
  | mgmtPortArpNdIcmp (k : MgmtFrame)
  /-- SPDM_GET_CERTIFICATE (R437): The security core returns the SPDM certificate chain, which is ID_CERT_CHAIN plus the current AK certificate. -/
  | spdmGetCertificate (sess : Nat)
  /-- ROCE_ACKNOWLEDGE (R291): As RoCEv2 requester, the module receives ACKs, NAKs and READ or atomic responses for its own requests on a queue pair, such as its completion-record writes. -/
  | roceAcknowledge (qp : Nat) (ack : RoceAck)
  /-- IDLE_CALIBRATION_SLICE (R74): An IDLE calibration takes an array after 20 µs without work, measures its converters, and releases the array within 200 ns of work arriving. -/
  | idleCalibrationSlice (array : Nat) (cut : Bool)
  /-- ENVELOPE_VERIFY_DONE (R111): The security core finishes opening and checking a staged sealed envelope, and the wheel moves to VERIFIED or back to EMPTY, or the adoption proceeds to programming. -/
  | envelopeVerifyDone (part : Nat) (crypto : EnvelopeCrypto)
  /-- SLOT_ID_CHANGE (R489): A change of the SLOT_ID straps while the module runs is ignored until the next boot. -/
  | slotIdChange (straps : Nat)
  /-- THERM_TRIP_LATCH_CLEAR (R486): The THERM_TRIP_N latch clears when the input falls below 30 V, which allows the module to restart. -/
  | thermTripLatchClear
  /-- OVERVOLTAGE_LOCKOUT_RELEASE (R469): An input that falls back below 63.0 V after an overvoltage lockout restarts conversion and the module. -/
  | overvoltageLockoutRelease (straps : Nat) (check : BootCheck)
  /-- TELEMETRY_UPDATE (R340): Module telemetry updates every 1 ms, and partition telemetry at each multiple of 10 ms of local time. -/
  | telemetryUpdate
  deriving DecidableEq, Repr

end Sys2Proof
end

