-- ==== Sys2Proof/Config.lean ====
section
/-! DEFINITION. The free values: what the spec leaves open. Each is a constant without a body, so nothing can be proved
of its value; the assumption log's entry for each says which rule leaves it open. -/

namespace Sys2Proof.Config

/-- The sensor nearest to a unit that no sensor of R412 covers (error record field SENSOR, R368), by kind and unit. -/
opaque nearSensor : Nat → Nat → Nat

/-- The monitor input of the supply of a unit for which R422 lists none of its own (field RAIL, R368). -/
opaque supplyRail : Nat → Nat → Nat

/-- Rounding of knot `k` of the built-in table of an ACT_SHAPE, in units of the last place from the nearest: R90 bounds
the table's result and gives no entry. Read through a clamp to −1, 0 and 1. -/
opaque tableUlp : Nat → Nat → Int

/-- Which of the values within the bound of R149 an engine's recip gives, by operand: the offset in units of the last
place from the exact value's truncation, read through a clamp to what the bound allows. The engines are deterministic,
so it is a function of the operand. -/
opaque recipUlp : BitVec 32 → Int

/-- As `recipUlp`, for rsqrt. -/
opaque rsqrtUlp : BitVec 32 → Int

/-- As `recipUlp`, for exp. -/
opaque expUlp : BitVec 32 → Int

/-- As `recipUlp`, for log. -/
opaque logUlp : BitVec 32 → Int

/-- The hash of an (address, value) pair in a dual-execution signature: R166 names a hash and does not define it. -/
opaque dualHash : Nat → Nat → Nat

/-- The wheel digest of a body that the module builds from open weights (R109, R111): the SHA-384 of a body whose octets the
spec does not lay out, by the old digest and the descriptor's tensor. -/
opaque builtDigest : List (BitVec 8) → List (BitVec 8) → List (BitVec 8)

/-- What a kernel of a loaded package (R153), or a firmware-internal one, does: the values it writes (offset, octets) and its
status, 0 for success. The manual does not describe it; it is a function of the package digest, the opcode, the argument
block and the memory the task can read, since the engines are deterministic. -/
opaque packageRun : List (BitVec 8) → Nat → List (BitVec 8) → List (Nat × BitVec 8) → List (Nat × List (BitVec 8)) × Nat

/-- The fixed hash of TABLE and row number that chooses a row's set within a partition's run (R202), read modulo the sets. -/
opaque dirHash : Nat → Nat → Nat

/-- The counter of a sketch row that counts a table's row (R204), read modulo the counters of the row: by sketch row, TABLE and
row number. -/
opaque sketchHash : Nat → Nat → Nat → Nat

/-- Octets of the journal ring that a holder chip keeps for this lead (R243): one eighth of the holder's own area, which the
lead's module does not hold. -/
opaque journalRing : Nat → Nat

/-- The prefill share of a vat's engines where R228 divides 0 by 0 (a step whose two pools were busy for no time); read
modulo the engines. -/
opaque poolSplit : Nat → Nat

/-- The package of a cave slice that holds a line (R247, R257), by slice and line; read modulo 12. The spec names the packages and
not how lines lie over them. -/
opaque cavePackage : Nat → Nat → Nat

/-- The remote key issued for a queue pair (R291, R324): the spec names no value. -/
opaque remoteKey : Nat → BitVec 32

/-- The nominal value of a vat rail, in mV (R415): the spec gives the window around it and not the value. -/
opaque railNominal : Nat → Nat

/-- What the manifest of a kernel package names (R153, R165), by its body's digest: the first opcode above 0x4000, how many more,
and whether its kernels are marked in-place. The spec does not lay a manifest out. -/
opaque pkgManifest : List (BitVec 8) → Nat × Nat × Bool

/-- The nonce of SEC_DEBUG_CHALLENGE that CTR_DRBG draws for a read over FAP (R435, R461), by the count of draws. -/
opaque drbgNonce : Nat → List (BitVec 8)

/-- The status of an error record for which a rule asks and names no status (R40, R441), by the index of the free value. -/
opaque openStatus : Nat → Nat

/-- Octets the module derives with the standard algorithms from its fused secret or holds as certificates (R435, R437): by what
they are, and by the generation of the key they belong to. -/
opaque derivedOctets : Nat → Nat → List (BitVec 8)

/-- What a read of a write-only register field returns (R329, R430), by the number of the read. Free (entry 91). -/
opaque writeOnlyWord : Nat → BitVec 32

/-- TOPO_BOARD_CLASS under invalid straps, of which the spec states no value (R39, R43), by the straps; read modulo 256. Free. -/
opaque invalidClass : Nat → Nat

/-- SHA-384 of octets and ECDSA P-384 signature under the attestation key of a generation, as a measurement report carries them
(R444, R445). Standard algorithms of the security core; no statement rests on their values. -/
opaque sha384 : List (BitVec 8) → List (BitVec 8)
opaque akSign : Nat → List (BitVec 8) → List (BitVec 8)

end Sys2Proof.Config
end

