-- ==== Sys2Proof/Machine/State.lean ====
section
/-! DEFINITION. The state of a KDM-16: plain data, grouped as the spec's chapters group it. Banks of like units
(arrays, engines, sync objects, memory bytes) are sparse tables in one canonical form: keys rising, no entry equal
to the reset value of its bank. Each field's comment gives its name in the spec, its width, the rule that names it
and its reset value. -/

namespace Sys2Proof.Machine

/-- A sparse bank: key and value pairs, keys strictly rising, no value equal to the bank's default. -/
abbrev Tab (α : Type) := List (Nat × α)

/-- The points at which a written value takes effect (R16). -/
inductive Point where
  | imm | pass | step | frame | slot | boot
  deriving DecidableEq, Repr

/-! ## Identity and fuses -/

/-- The fuses and the certificates of the module (R432, R437). -/
structure FuseSt where
  /-- CAP_VARIANT (U8: 1 KDM-16F, 2 KDM-16L, 3 KDM-12F; 01_module_and_die.md R38; reset: fuse, DESIGN CHOICE 1, entry 2) -/
  variant : Nat := 1
  /-- CAP_DIE_STEPPING (2 characters; R38, R495; reset: fuse, DESIGN CHOICE "B1", entry 2) -/
  stepping : Octets := [0x42, 0x31]
  /-- LOT (64 bits; 15_security.md R432; reset: fuse, DESIGN CHOICE zeros, entry 2) -/
  lot : Octets := List.replicate 8 0
  /-- WAFER (8 bits, 1–25; R432; reset: fuse, DESIGN CHOICE 1, entry 2) -/
  wafer : Nat := 1
  /-- DIE_X (8 bits signed; R432; reset: fuse, DESIGN CHOICE 0, entry 2) -/
  dieX : BitVec 8 := 0
  /-- DIE_Y (8 bits signed; R432; reset: fuse, DESIGN CHOICE 0, entry 2) -/
  dieY : BitVec 8 := 0
  /-- SERIAL (64 bits; R432; reset: fuse, DESIGN CHOICE 0, entry 2) -/
  serial : BitVec 64 := 0
  /-- MGMT_MAC (48 bits; R432; reset: fuse, DESIGN CHOICE zeros, entry 2) -/
  mac : Octets := List.replicate 6 0
  /-- PRODUCT (16 characters; R432, R494; reset: fuse, DESIGN CHOICE "KDM-16F-B1-Q", entry 2) -/
  product : Octets := [0x4B, 0x44, 0x4D, 0x2D, 0x31, 0x36, 0x46, 0x2D, 0x42, 0x31, 0x2D, 0x51, 0, 0, 0, 0]
  /-- UDS (256 bits; R432; reset: fuse, DESIGN CHOICE zeros, entry 2; no command reads it out) -/
  uds : Octets := List.replicate 32 0
  /-- LIFECYCLE fuses (5 one-way bits, bit 0 VENDOR_TEST to bit 4 SCRAPPED; R432; reset: 0b00011, PROVISIONED, R496) -/
  lifecycleBits : BitVec 5 := 0b00011
  /-- ROLLBACK (128 thermometer fuses, the number blown; R432; reset: fuse, DESIGN CHOICE 0, entry 2) -/
  rollback : Nat := 0
  /-- KEY_ID: SHA-384 of the module's provisioning public key (R110, R437; reset: fuse, DESIGN CHOICE zeros, entry 2) -/
  pkKeyId : Octets := List.replicate 48 0
  /-- IK certificate stored (R437; reset: true, R496) -/
  ikCert : Bool := true
  /-- PK certificate issued, SEC_PROV_CERT (R437; reset: true, R496) -/
  pkCert : Bool := true
  deriving DecidableEq, Repr

/-- A firmware bank of the security core's isolated memory (R440, R441): the header fields and the body's digest. -/
structure FwImage where
  svn : Nat
  version : Nat
  digest : Octets
  deriving DecidableEq, Repr

/-! ## Sessions and the dictionary -/

/-- A response of FAP (R350). -/
structure FapResp where
  op : Nat
  tag : Nat
  status : Nat
  index : Nat
  sub : Nat
  offset : Nat
  data : Octets
  deriving DecidableEq, Repr

/-- A FAP session (R346–R354). -/
structure Session where
  /-- rights class (1 VENDOR, 2 OPERATOR, 3 OWNER, 4 PARTITION; R438) -/
  cls : Nat
  /-- partition of a PARTITION session (R438) -/
  part : Nat
  /-- row of SEC_ENROLL that admitted it (R438); none for VENDOR -/
  row : Option Nat
  /-- key digest of that row (R439) -/
  digest : Octets
  /-- FINISH has completed (R346) -/
  ready : Bool := false
  /-- next SEQ above the highest accepted (R348) -/
  seqNext : Nat := 0
  /-- SEQ values accepted: the highest, and those of the 64 below it (R348) -/
  seqSeen : List Nat := []
  /-- messages accepted from the requester (R348) -/
  rxCount : Nat := 0
  /-- the module's own SEQ (R348) -/
  txSeq : Nat := 0
  /-- key epoch of SPDM KEY_UPDATE (R348) -/
  keyGen : Nat := 0
  /-- consecutive authentication failures (R347) -/
  authFails : Nat := 0
  /-- local time of the last accepted message (R349) -/
  lastMsg : Nat := 0
  /-- _SELECT values (R335), by object key -/
  selects : Tab Octets := []
  /-- command words of the commands this session started (R342), by object key -/
  words : Tab DWord := []
  /-- held segments: object key, offset of the next segment, and the octets held (R352) -/
  held : Option (Nat × Nat × Octets) := none
  /-- staged custom table, PER_TABLE_STAGE (R107) -/
  tableStage : Option Octets := none
  /-- staged firmware, FW_STAGE (R338) -/
  fwStage : Option Octets := none
  /-- staged kernel package, SEC_PKG_STAGE (R443) -/
  pkgStage : Option Octets := none
  /-- SESSION_RESULT: QPN and remote key of the last QP_CREATE (R324) -/
  result : Octets := List.replicate 8 0
  /-- responses kept for the last 32 TAGs (R354), newest first -/
  kept : List (Nat × FapResp) := []
  deriving DecidableEq, Repr

/-- A value waiting for its boundary (R17). `key` is the object key or register address. -/
structure PendVal where
  key : Nat
  point : Point
  value : Octets
  /-- commands with Applies STEP that were accepted before it and still wait (R19) -/
  after_ : Nat
  deriving DecidableEq, Repr

/-- A command pending its step boundary (R343). -/
structure StepCmd where
  sess : Nat
  part : Nat
  obj : Nat
  arg : Octets
  deriving DecidableEq, Repr

/-- The dictionary and FAP (chapter 12). -/
structure DicSt where
  /-- dictionary values in force that differ from their defaults, by object key (R334, R335; reset: none, every object at its Default) -/
  vals : Tab Octets := []
  /-- pending values for PASS, STEP, FRAME and SLOT, oldest first (R17; reset: none) -/
  pend : List PendVal := []
  /-- pending BOOT values of the configuration store (R18; reset: none) -/
  bootPend : List PendVal := []
  /-- CFG_DEFAULTS accepted for the next boot (R338; reset: no) -/
  cfgDefaults : Bool := false
  /-- FAP sessions by SESSION_ID (R346; reset: none) -/
  sessions : Tab Session := []
  /-- SESSION_ID of the next session (R346; the model's own numbers; reset 1) -/
  nextSess : Nat := 1
  /-- commands pending a STEP boundary, in acceptance order (R343; reset: none) -/
  stepCmds : List StepCmd := []
  /-- commands that wait for what their peers' security cores and firmware answer (R323, R454): object key, session, argument
  (reset: none) -/
  waitPeers : List (Nat × Nat × Octets) := []
  /-- running command instances: object key and scope (R343; reset: none) -/
  running : List (Nat × Nat × Nat) := []
  /-- FAP_AUTH_FAIL (U64; R338; reset 0) -/
  authFail : DWord := 0
  /-- FAP_REPLAY_DROP (U64; R338; reset 0) -/
  replayDrop : DWord := 0
  /-- REG_WIN_ADDR (U32; R341; reset 0) -/
  winAddr : Nat := 0
  /-- latched high words by agent code and register address (R356; reset 0) -/
  latches : Tab Word := []
  /-- telemetry of the module: TEL_INPUT_W, TEL_JUNCTION_MAX, TEL_GRANTS (R340; reset 0) -/
  telInputW : Nat := 0
  telJunction : Int := 0
  telGrants : Nat := 0
  /-- partition telemetry as last published: TEL_P_TOKENS, PASSES, ENGINE_NS, MEM_BYTES, TIME (R340; reset 0) -/
  telPart : Tab (Nat × Nat × Nat × Nat × Nat) := []
  /-- partition counters behind it, running (R340; reset 0) -/
  telRun : Tab (Nat × Nat × Nat × Nat) := []
  /-- bootstrap coordinate TOPO_DISTANCE rows as measured (R35; reset: measured at boot, DESIGN CHOICE the design values, entry 3) -/
  distance : List Nat := []
  deriving DecidableEq, Repr

/-! ## Arrays (chapters 2 and 3) -/

/-- A pass in flight (R59): plane, whether it is a split, and its launch time. -/
structure Pass where
  plane : Nat
  split : Bool
  launch : Nat
  deriving DecidableEq, Repr

/-- Partial sums on their way to a chain member (R99): tag, s_x, sums, flags and whether the sum is void (R101). -/
structure Partial where
  tag : Nat
  sx : Word
  sums : List Int
  sat : Bool
  split : Bool
  tol : Bool
  nonfinite : Bool
  tagConflict : Bool
  sxConflict : Bool
  void : Bool
  /-- the time A of R104 at which the sum is formed -/
  at_ : Nat
  deriving DecidableEq, Repr

/-- An accepted product (R60, R376): its quantised vector and everything formed of it so far. -/
structure Product where
  tag : Nat
  sx : Word
  q : List Int
  nonfinite : Bool
  acceptedAt : Nat
  /-- planes not yet launched, ascending (R55 removes the skipped ones) -/
  todo : List Nat
  /-- planes waiting for their split, with the launch time of the void pass (R53) -/
  voids : List (Nat × Nat) := []
  inFlight : List Pass := []
  /-- accumulators, one per output formed (R56) -/
  acc : List Int
  split : Bool := false
  tol : Bool := false
  /-- launch time of the last pass (R59) -/
  lastLaunch : Nat := 0
  /-- own accumulators are final -/
  final : Bool := false
  /-- chain addition done: the sums this member forwards or scales (R99) -/
  chained : Option Partial := none
  /-- a refused or returned member record: the product is discarded along its chain (R101) -/
  void : Bool := false
  /-- pair result of the gate: conflict reason or 0, z values, and its NONFINITE, SAT, SPLIT and TOL (R94, R95) -/
  joined : Option (Nat × List Word × Bool × Bool × Bool × Bool) := none
  /-- forwarded to the next member already -/
  forwarded : Bool := false
  epoch : Nat := 0
  /-- its array is fenced once it is released (R364): the repeated mismatch and its OPERATION; then none is launched behind it -/
  tolFence : Option (Int × Nat) := none
  deriving DecidableEq, Repr

/-- An input record that waits for its array (R61, R374): whether it came poisoned, and whether the array has checked it. -/
structure WaitRec where
  sender : Agent
  record : Octets
  at_ : Nat
  poisoned : Bool := false
  checked : Bool := false
  deriving DecidableEq, Repr

/-- The image of an array record (R116): register images, scales, biases and rows. -/
structure ArrImg where
  vat : Nat
  pool : Bool
  slot : Nat
  chain : Nat
  position : Nat
  ctrl : Word
  perCfg : Word
  perOut : Word
  inScale : Word
  outScale : Word
  chainReg : Word
  sw : List (BitVec 16)
  b : List Word
  /-- rows that hold a 1, as 1,136-bit numbers, logical column j in bit j -/
  rows : Tab Nat
  deriving DecidableEq, Repr

/-- One physical array (R79, R80, R106 and the state behind them). -/
structure ArrSt where
  /-- ARR_n_CTRL (32 bits; 02_array_arithmetic.md R79; reset W_FMT 1, IN_FMT 0, ROWS_USED 1,024, GATE_EN 1) -/
  ctrl : Word := 0x0000C001
  /-- ARR_n_PER_CFG (32 bits; 03_array_periphery.md R106; reset IQ_MODE 0b10, others 0) -/
  perCfg : Word := 0x00000002
  /-- ARR_n_PER_OUT (R106; reset OUT_USED 256) -/
  perOut : Word := 256
  /-- IN_SCALE (F32; R106; reset 0x3F80_0000) -/
  inScale : Word := 0x3F800000
  /-- OUT_SCALE (F32; R106; reset 0x3F80_0000) -/
  outScale : Word := 0x3F800000
  /-- ARR_n_CHAIN (R106; reset 0) -/
  chain : Word := 0
  /-- pending STEP values of those registers, by offset (R17; reset: none) -/
  pend : Tab (Option Word) := []
  /-- STATUS.AWAKE (1 bit; R79; reset 0) -/
  awake : Bool := false
  /-- a wake of 40 ns is running since (R61; reset: no) -/
  waking : Option Nat := none
  /-- STATUS.GRANTED (1 bit; R79; reset 0) -/
  granted : Bool := false
  /-- STATUS.FENCED (1 bit; R79; reset 0) -/
  fenced : Bool := false
  /-- STATUS.CAL_ACTIVE (1 bit; R79; reset 0) -/
  calActive : Bool := false
  /-- STATUS.UNDER_TEST (1 bit; R79; reset 0) -/
  underTest : Bool := false
  /-- STATUS.CFG_ERR (1 bit; R79; reset 0) -/
  cfgErr : Bool := false
  /-- PASS_CNT (64 bits; R79; reset 0) -/
  passCnt : DWord := 0
  /-- SKIP_CNT, SPLIT_CNT, TOL_CNT (32 bits each; R79; reset 0) -/
  skipCnt : Word := 0
  splitCnt : Word := 0
  tolCnt : Word := 0
  /-- ARR_n_LAST_CHECK, offset 0x1C (32 bits; R79; reset 0) -/
  lastCheck : Word := 0
  /-- SAT_CNT, NONFIN_CNT, CONFLICT_CNT (32 bits each; R106; reset 0) -/
  satCnt : Word := 0
  nonfinCnt : Word := 0
  conflictCnt : Word := 0
  /-- last tolerated mismatch per segment and check group: plane, m, PASS_CNT (R364; reset: none) -/
  tolLast : Tab (Nat × Int × Nat) := []
  /-- cells: rows that hold a 1, as 1,136-bit numbers (R46; reset: every array is erased, R496) -/
  rows : Tab Nat := []
  /-- periphery store: weight scales sw (BF16) and biases b (FP32) (R87; reset: erased, R496) -/
  sw : List (BitVec 16) := []
  bias : List Word := []
  /-- permutation store: loaded for the array's number (R125; reset: not loaded) -/
  permLoaded : Bool := false
  /-- CC_n_SEL: segment and column (R80; reset 0, 0) -/
  ccSeg : Nat := 0
  ccCol : Nat := 0
  /-- converter taps that differ from 32 and 8, by segment × 2,048 + column (R80; reset delay 32, threshold 8) -/
  taps : Tab (Nat × Nat) := []
  /-- converter taps pending the next pass (R77; reset: none) -/
  tapsPend : Tab (Option (Nat × Nat)) := []
  /-- converters now suspect (R75; reset: none) -/
  suspect : List Nat := []
  /-- converters that failed calibration (R75; reset: none) -/
  failed : List Nat := []
  /-- temperature at the array's last accepted IDLE calibration, 1/16 °C; none when the vat's FULL calibration is later
  (R73; reset: none) -/
  calTemp : Option Int := none
  /-- tolerated mismatches and checks since the last drift decision (R73; reset 0) -/
  driftTol : Nat := 0
  driftChecks : Nat := 0
  /-- an IDLE calibration is due (R73, R383; reset: no) -/
  calDue : Bool := false
  /-- inputs that wait for the wake and the grant (R61; reset: none) -/
  waiting : List WaitRec := []
  /-- products accepted and not yet released, oldest first, at most two (R60; reset: none) -/
  products : List Product := []
  /-- partial sums received from the previous chain member, oldest first (R99; reset: none) -/
  inbox : List Partial := []
  /-- output record that waits for room in an input buffer (R171): partition, buffer, record; reset: none -/
  stuck : Option (Nat × Nat × Octets) := none
  /-- time of the last launch (R60; reset: none) -/
  lastLaunch : Option Nat := none
  /-- time since which no product is queued (R61; reset 0) -/
  idleSince : Nat := 0
  /-- image being programmed: next row, failed attempts at it, image, partition (0 for an erasure or a test image) (R121; reset: none) -/
  prog : Option (Nat × Nat × ArrImg × Nat) := none
  /-- an image that was programmed and found ready or not (R122): reset: no -/
  ready : Bool := false
  /-- programmings since first use (R133; reset 0) -/
  programs : Nat := 0
  /-- equivalent age at 85 °C, in thousandths of an hour (R126; reset 0) -/
  age : Nat := 0
  /-- retained sealed image: wheel digest and owner key (R453; reset: none) -/
  retained : Option (Octets × Octets) := none
  /-- the image the array holds: partition and chain and position (R139; reset: none) -/
  holds : Option (Nat × ArrImg) := none
  deriving DecidableEq, Repr

/-! ## Vats -/

/-- A remap in progress (R375): slot, failed array (it keeps the products to replay, R376), target, and the inputs held
for it (R374). -/
structure Remap where
  slot : Nat
  from_ : Nat
  target : Nat
  held : List WaitRec
  deriving DecidableEq, Repr

/-- A task descriptor in the machine (R152) with its module-side key and place. -/
structure Task where
  key : Nat
  part : Nat
  opcode : Nat
  flags : Nat
  pool : Nat
  scratchKib : Nat
  waitObj : Nat
  waitValue : Nat
  doneObj : Nat
  argPtr : Nat
  argLen : Nat
  taskId : Nat
  step : Nat
  inbuf : Nat
  consume : Nat
  vat : Nat
  /-- dual role: 0 none, 1 primary, 2 secondary, 3 third (R166) -/
  role : Nat := 0
  /-- engine that must not run it: the primary's of a secondary (R166), or those of a third (R167) -/
  notOn : List Nat := []
  /-- PIN and LOCAL are lifted: its engine is fenced (R163) -/
  freed : Bool := false
  deriving DecidableEq, Repr

structure VatSt where
  /-- REF_0 and REF_1 taps (6 and 4 bits; 02_array_arithmetic.md R80; reset 32 and 8) -/
  ref0 : TapPair := ⟨32, 8⟩
  ref1 : TapPair := ⟨32, 8⟩
  /-- CC_VAT_v MODE (1 bit; R80; reset 0) -/
  calMode : Nat := 0
  /-- CAL STATE (2 bits; R80; reset 0) -/
  calState : Nat := 0
  /-- REF_REJECT (1 bit; R80; reset 0) -/
  refReject : Bool := false
  /-- FENCED_NUM (16 bits; R80; reset 0) -/
  calFenced : Nat := 0
  /-- STEP_FS (16 bits; R80; reset 0) -/
  stepFs : Nat := 0
  /-- reference lines rejected at this calibration (R76; reset: none) -/
  refBad : List Nat := []
  /-- this run belongs to an ARR_CAL_START command (R78; reset: no) -/
  calCmd : Bool := false
  /-- temperatures of the vat's sensors at its last FULL calibration, 1/16 °C, by sensor (R73; reset: DESIGN CHOICE 0, entry 4) -/
  calTemps : Tab Int := []
  /-- ARR_CAL_TIME (U64; R78; reset 0) -/
  calTime : Nat := 0
  /-- arrays that hold a grant, most recently granted first (R62, R408; reset: none) -/
  grants : List Nat := []
  /-- arrays that wait for a grant, in the order they asked (R62; reset: none) -/
  asking : List Nat := []
  /-- custom table slots that hold a table (R92; reset: empty) -/
  tables : Tab Octets := []
  /-- logical slots whose physical array differs from R21's (R21–R23; reset: none) -/
  slotMap : Tab Nat := []
  /-- logical slots without a target (R375; reset: none) -/
  noTarget : List Nat := []
  /-- remaps in progress (R375; reset: none) -/
  remaps : List Remap := []
  /-- overflow list: marked engine and task, oldest first (R155; reset: empty) -/
  overflow : List (Nat × Task) := []
  /-- VE_VAT REFUSED (32 bits; 05_vector_engines.md R175; reset 0) -/
  refused : Word := 0
  /-- VE_TASKS_TOTAL, VE_DUAL_MISMATCH_TOTAL, PER_SAT_TOTAL, PER_CONFLICT_TOTAL (U64; R176, R107; reset 0) -/
  tasksTotal : DWord := 0
  mismatchTotal : DWord := 0
  satTotal : DWord := 0
  conflictTotal : DWord := 0
  /-- consecutive heartbeats missing (13_fault_tolerance.md R365; reset 0) -/
  missed : Nat := 0
  /-- heartbeat last seen (R365; reset 0) -/
  lastBeat : Nat := 0
  /-- vat fenced (R379; reset: no) and since when -/
  fenced : Option Nat := none
  /-- vat power-gated (R380, R398; reset: gated until the boot) -/
  gated : Bool := true
  /-- pass launches stopped by the rail (R415; reset: no) -/
  railOut : Bool := false
  /-- pool assignment rotation in bays (R133; reset 0) -/
  rotation : Nat := 0
  deriving DecidableEq, Repr

/-! ## Engines (chapter 5) -/

/-- A sequence descriptor (R179). -/
structure SeqD where
  part : Nat
  fmt : Nat
  headDim : Nat
  layers : Nat
  heads : Nat
  maxLen : Nat
  len : Nat
  gen : Nat
  base : Nat
  regionBytes : Nat
  epoch : Nat
  deriving DecidableEq, Repr

/-- A table descriptor (R198). -/
structure EmbD where
  part : Nat
  home : Nat
  fmt : Nat
  promote : Bool
  dim : Nat
  stride : Nat
  scale : Word
  rows : Nat
  base : Nat
  bytes : Nat
  deriving DecidableEq, Repr

/-- A directory entry (R202–R206). -/
structure DirEnt where
  part : Nat
  table : Nat
  row : Nat
  valid : Bool
  age : Nat
  pinned : Bool
  /-- copying: 0 not begun, 1 running, 2 complete (R205) -/
  copy : Nat
  /-- place in the order of task starts at the boundary that made the entry (R205; the model's own) -/
  since : Nat
  deriving DecidableEq, Repr

/-- A running task: the task, when it started, its place in the order of starts, and the step's snapshot of sequences, tables
and directory as it started (R181, R200). -/
structure Running where
  task : Task
  start : Nat
  order : Nat := 0
  seqs : Tab (Option SeqD) := []
  tables : Tab (Option EmbD) := []
  dir : Tab (Option DirEnt) := []
  deriving DecidableEq, Repr

structure EngSt where
  /-- VE_n_CTRL POOL (2 bits; 05_vector_engines.md R174; reset 0) -/
  pool : Nat := 0
  /-- pending POOL (R164; reset: none) -/
  poolPend : Option Nat := none
  /-- STEAL_EN (1 bit; R174; reset 1) -/
  stealEn : Bool := true
  /-- GATE_EN (1 bit; R174; reset 1) -/
  gateEn : Bool := true
  /-- AWAKE (1 bit; R174; reset 0) -/
  awake : Bool := false
  /-- FENCED (1 bit; R174; reset 0) -/
  fenced : Bool := false
  /-- UNDER_TEST (1 bit; R174; reset 0) -/
  underTest : Bool := false
  /-- running task, BUSY and DUAL_ROLE (R174; reset: none) -/
  run : Option Running := none
  /-- own queue, oldest first, at most 64 (R146; reset: empty) -/
  queue : List Task := []
  /-- PARTITION (16 bits; R174; reset 0) -/
  part : Nat := 0
  /-- TASKS (64 bits), STOLEN_IN, STOLEN_OUT, DUAL_RUN, DUAL_MISMATCH, SCRATCH_CE (32 bits; R174; reset 0) -/
  tasks : DWord := 0
  stolenIn : Word := 0
  stolenOut : Word := 0
  dualRun : Word := 0
  dualMismatch : Word := 0
  scratchCe : Word := 0
  /-- scratch (512 KiB; R146, R148): none = all zero, some k = as the task with key k left it; reset: DESIGN CHOICE zeros, entry 5 -/
  scratch : Option Nat := none
  /-- time since which the queue is empty (R147; reset 0) -/
  idleSince : Nat := 0
  /-- victim to which a steal claim is on its way (R159, R161; reset: none) -/
  claim : Option Victim := none
  /-- victims whose claims of this search found nothing left (R161; reset: none) -/
  tried : List Victim := []
  deriving DecidableEq, Repr

/-- A dual execution (R166, R167): the task, the engines and their signatures. -/
structure DualSt where
  task : Task
  primary : Nat
  /-- engines that ran the secondary and the third execution, once they have formed their signatures -/
  secondary : Option Nat := none
  third : Option Nat := none
  sig1 : Option Nat := none
  sig2 : Option Nat := none
  sig3 : Option Nat := none
  /-- a third execution has been placed (R167) -/
  thirdPlaced : Bool := false
  /-- what the completion still does: input records to send to arrays (vat, slot, record) (R211) -/
  records : List (Nat × Nat × Octets) := []
  deriving DecidableEq, Repr

/-- An engine input buffer (R170). -/
structure InBuf where
  part : Nat
  slotBytes : Nat
  slots : Nat
  base : Nat
  obj : Nat
  w : Nat := 0
  r : Nat := 0
  deriving DecidableEq, Repr

/-- A loaded kernel package (R443). -/
structure Pkg where
  part : Nat
  first : Nat
  last : Nat
  inPlace : Bool
  digest : Octets
  deriving DecidableEq, Repr

structure EngBank where
  /-- vector engines by number (R146; reset: every field at its reset value) -/
  eng : Tab EngSt := []
  /-- next task key, and place in the order of starts (the model's own) -/
  nextKey : Nat := 0
  /-- dual executions open (R166; reset: none) -/
  duals : List DualSt := []
  /-- a selection that waits for an eligible task, by vat (R165; reset: none) -/
  selDue : List Nat := []
  /-- engine input buffers defined (R170; reset: none) -/
  bufs : Tab InBuf := []
  /-- loaded kernel packages (R443; reset: none) -/
  pkgs : List Pkg := []
  deriving DecidableEq, Repr

/-! ## Wheels (chapter 4) -/

/-- A layer entry (R114). -/
structure Layer where
  layer : Nat
  kind : Nat
  draft : Bool
  chainFirst : Nat
  chainCount : Nat
  openK : Nat
  openN : Nat
  openFmt : Nat
  deriving DecidableEq, Repr

/-- A chain entry (R115): members are (vat, pool, slot). -/
structure ChainE where
  chain : Nat
  pair : Nat
  destKind : Nat
  destChip : Nat
  destIndex : Nat
  members : List (Nat × Bool × Nat)
  deriving DecidableEq, Repr

/-- A wheel body (R112–R116). -/
structure Wheel where
  cls : Nat
  wheelId : Octets
  vatMask : Nat
  layers : List Layer
  chains : List ChainE
  arrays : List ArrImg
  tables : List (Nat × Nat × Octets)
  overflow : List ArrImg
  digest : Octets
  ownerKey : Octets
  deriving DecidableEq, Repr

/-- A cave wheel slot (R127). -/
inductive CaveSlot where
  | free
  | active (part : Nat)
  | pending (part : Nat)
  | replica (chip part epoch order : Nat) (envelope : Octets)
  deriving DecidableEq, Repr

/-- The arming of a replacement (R140): arrive, decision, done-arrive, done-decision, epoch. -/
structure Arming where
  arrive : Nat
  decision : Nat
  doneArrive : Nat
  doneDecision : Nat
  epoch : Nat
  deriving DecidableEq, Repr

/-- The wheel state of a partition (R137). -/
structure WhlSt where
  /-- WHL_STATE (U8; 04_weight_residency.md R145; reset 0) -/
  state : Nat := 0
  /-- WHL_RESULT (U16; R145; reset 0) -/
  result : Nat := 0
  /-- WHL_EPOCH (U32; R145; reset 0) -/
  epoch : Nat := 0
  /-- wheel in force (R108; reset: none) -/
  inForce : Option Wheel := none
  /-- pending wheel (R108; reset: none) -/
  pending : Option Wheel := none
  /-- staged envelope: length, handle slot, octets received so far (R137; reset: none) -/
  staged : Option (Nat × Nat × List (Nat × Byte)) := none
  /-- sealed envelope of the wheel in force and of the pending wheel (R128; reset: none) -/
  envelope : Option Octets := none
  pendEnvelope : Option Octets := none
  /-- replacement mode: 0 shadow, 1 in place (R138; reset 0) -/
  mode : Nat := 0
  /-- replica push: status of each holder; none = not answered (R128; reset: none) -/
  acks : List (Option Nat) := []
  /-- arming (R140; reset: none) -/
  arming : Option Arming := none
  /-- hold began at, and its alarm was written (R140; reset: none) -/
  holdSince : Option Nat := none
  alarmed : Bool := false
  /-- the module has arrived at its arrive object, or done object (R140, R142; reset: no) -/
  arrived : Bool := false
  /-- shadow targets: vat, slot, physical array, planned remap or not (R138; reset: none) -/
  targets : List (Nat × Nat × Nat × Bool) := []
  /-- arrays still to be found ready (R137; reset: none) -/
  toReady : List Nat := []
  /-- a failed rewrite is being rolled back, or has arrived ABORTED (R142; reset: no) -/
  rollback : Bool := false
  /-- the second decision was an abort: the old images are being programmed back (R142; reset: no) -/
  abortSeen : Bool := false
  /-- a WHL_VERIFY that came over FAP waits for the security core (R111; reset: no) -/
  verifying : Bool := false
  /-- layers written by open weights since the copy (R118; reset: none) -/
  openBusy : List Nat := []
  /-- an adoption by REC_ADOPT that programs its images: epoch and role (R390; reset: none) -/
  adopt : Option (Nat × Nat) := none
  /-- admission paused (R141; reset: no) -/
  paused : Bool := false
  /-- steps of the partition may not start (R140; reset: no) -/
  held : Bool := false
  /-- SERVICE_LOST on this module (R380; reset: no) -/
  lost : Bool := false
  /-- overflow layers now in the reload pool: layer, and whether its step's products are done (R132; reset: none) -/
  poolLayers : List Nat := []
  /-- overflow layers already written in this step (R132; reset: none) -/
  poolDone : List Nat := []
  deriving DecidableEq, Repr

structure WhlBank where
  /-- per-partition wheel states (R137; reset: EMPTY) -/
  parts : Tab WhlSt := []
  /-- cave wheel slots 0–15 (R127; reset FREE) -/
  cave : Tab CaveSlot := []
  /-- replica order counter (R128; the model's own) -/
  order : Nat := 0
  /-- peers whose replicas or journals the configuration store records as held (R261; reset: none) -/
  heldFor : List Nat := []
  deriving DecidableEq, Repr

/-! ## Sequences and the KV cache (chapter 6) -/

/-- A completed append (R182): sequence, layer, first head, heads, first position, positions. -/
structure Append where
  seq : Nat
  layer : Nat
  head : Nat
  heads : Nat
  pos : Nat
  count : Nat
  deriving DecidableEq, Repr

structure KvSt where
  /-- sequence table, VALID descriptors by index (R179; reset: none VALID) -/
  seqs : Tab (Option SeqD) := []
  /-- step snapshot (R181; reset: empty) -/
  snap : Tab (Option SeqD) := []
  /-- appends completed in this step (R182; reset: none) -/
  appends : List Append := []
  /-- accepted lengths the tracker named, by sequence (R182; reset: none) -/
  named : Tab (Option Nat) := []
  /-- KV_RESCALE_CNT, KV_CLAMP_CNT, KV_NONFINITE_CNT by partition (U64; R197; reset 0) -/
  rescale : Tab Nat := []
  clamp : Tab Nat := []
  nonfinite : Tab Nat := []
  deriving DecidableEq, Repr

/-! ## Embedding tables (chapter 7) -/

structure EmbSt where
  /-- table descriptors (R198; reset: none VALID) -/
  tables : Tab (Option EmbD) := []
  /-- step snapshot of descriptors and directory (R200; reset: empty) -/
  snapTables : Tab (Option EmbD) := []
  snapDir : Tab (Option DirEnt) := []
  /-- hot-row directory by set × 16 + way (R202; reset: empty) -/
  dir : Tab (Option DirEnt) := []
  /-- miss sketch counters by (partition × 4 + row) × 65,536 + column (R204; reset 0) -/
  sketch : Tab Nat := []
  /-- candidates in the order they arose: partition, table, row (R204; reset: none) -/
  cands : List (Nat × Nat × Nat) := []
  /-- boundaries since the last decay, by partition (R204; reset 0) -/
  decay : Tab Nat := []
  /-- directory run of each partition: first unit, units (R202; reset: none) -/
  runs : Tab (Nat × Nat) := []
  /-- EMB_HITS, EMB_MISSES, EMB_PROMOTIONS, EMB_DEMOTIONS by partition (U64; R213; reset 0) -/
  hits : Tab Nat := []
  misses : Tab Nat := []
  promotions : Tab Nat := []
  demotions : Tab Nat := []
  deriving DecidableEq, Repr

/-! ## Serving (chapter 8) -/

inductive ReqState where
  | queued | prefill | decode | ended
  deriving DecidableEq, Repr

/-- A request of the tracker (R223, R239). -/
structure Req where
  chan : Nat
  part : Nat
  /-- entry number k of its SUBMIT (R218) -/
  entry : Nat
  reqId : Nat
  seq : Nat
  ctxPtr : Nat
  ctxLen : Nat
  maxNew : Nat
  temp : Word
  topP : Word
  topK : Nat
  specDraft : Nat
  seed : Nat
  stopIds : List Nat
  stopSeqs : List (List Nat)
  raw : Octets
  stopsRaw : Octets
  state : ReqState := .queued
  /-- HELD conditions other than the channel's and the wheel's: replay after takeover or replacement (R223) -/
  replayHeld : Bool := false
  ctx : List Nat := []
  emitted : List Nat := []
  /-- steps waited since its last entry (R226) -/
  waited : Nat := 0
  /-- place in the order of admission (R226) -/
  order : Nat := 0
  /-- its entry of the step in progress, until the commit fence -/
  planned : Option LenEntry := none
  /-- a CANCEL was read before the commit fence of the step (R237) -/
  cancel : Bool := false
  /-- status of an entry that was removed (R189, R216) -/
  failStatus : Nat := 0
  drafted : Nat := 0
  accepted : Nat := 0
  prefilled : Nat := 0
  firstStep : Nat := 0
  lastStep : Nat := 0
  firstEpoch : Nat := 0
  lastEpoch : Nat := 0
  admitTime : Nat := 0
  /-- length the tracker names for the sequence (R227) -/
  named : Nat := 0
  status : Nat := 0
  reason : Nat := 0
  stopIndex : Nat := 0
  /-- number of its terminal record on the channel, once written (R224) -/
  termRec : Option Nat := none
  /-- journal octets written before its latest ADMIT or CHECKPOINT record (R244) -/
  journalAt : Nat := 0
  deriving DecidableEq, Repr

/-- A record waiting to be written to a completion ring (R242): octets, the journal SEQNO that must be acknowledged. -/
structure OutRec where
  octets : Octets
  /-- SEQNO of the journal record that covers it, 0 when none does (R243) -/
  journal : Nat
  /-- REQ_ID whose terminal record this is -/
  terminal : Option Nat
  /-- the step it belongs to, and its place among that step's records: 1, 2, 3 as R242 lists them -/
  batch : Nat := 0
  cls : Nat := 1
  deriving DecidableEq, Repr

/-- The prefill and decode law of a partition (R228): tp, td and f (F32; reset 1, 1, 0), whether f has started, the previous step's
positions, and the busy times of this step (reset 0). -/
structure PoolLaw where
  tp : Word := 0x3F800000
  td : Word := 0x3F800000
  f : Word := 0
  started : Bool := false
  prevP : Nat := 0
  prevD : Nat := 0
  busyP : Nat := 0
  busyD : Nat := 0
  deriving DecidableEq, Repr

structure SrvSt where
  /-- SRV_STEP (U64; 08_serving_firmware.md R246; reset 0) -/
  step : Nat := 0
  /-- a step is in progress (R19; reset: no) -/
  inStep : Bool := false
  /-- the plan a member holds for its next step, with its partition (R215, R216; reset: none) -/
  plan : Option (Nat × Plan) := none
  /-- length table in force (R188; reset: empty) -/
  table : List LenEntry := []
  /-- the commit fence of this step has passed (R225; reset: no) -/
  fencePassed : Bool := false
  /-- requests of the tracker, oldest first (R223; reset: none) -/
  reqs : List Req := []
  /-- admission order counter -/
  order : Nat := 0
  /-- drafted tokens of the step's verify entries, by sequence, once the draft message has passed (R235; reset: none) -/
  drafts : Tab (List Nat) := []
  /-- records waiting, by channel slot, oldest first (R221, R242; reset: none) -/
  recs : Tab (List OutRec) := []
  /-- sequences whose hold is released at the next boundary (R224) -/
  unhold : List Nat := []
  /-- sequences the tracker holds (R220; reset: none) -/
  holds : List Nat := []
  /-- prefill and decode law of each partition (R228) -/
  law : Tab PoolLaw := []
  /-- SRV_LIVE: live requests of each partition at the last boundary (U32; R246; reset 0) -/
  liveSeen : Tab Nat := []
  /-- SRV_PREFILL_FRACTION: f of the last boundary at which the law ran (F32; R246; reset 0.0) -/
  fraction : Word := 0
  /-- SRV_TOKENS_TOTAL, SRV_DRAFTED_TOTAL, SRV_ACCEPTED_TOTAL by partition (U64; R246; reset 0) -/
  tokens : Tab Nat := []
  drafted : Tab Nat := []
  accepted : Tab Nat := []
  /-- journal: next SEQNO, highest acknowledged by each holder, holders lost (R243; reset 1, 0, no) -/
  jNext : Nat := 1
  jAck : List Nat := [0, 0]
  jLost : List Bool := [false, false]
  /-- octets of journal records written since boot (R244; the model's own measure of the ring) -/
  jBytes : Nat := 0
  /-- the lead sends a CHECKPOINT for every live request before its next STEP record (R261, R391; reset: no) -/
  checkpointDue : Bool := false
  /-- journal rings held for leads, oldest record first (R243; reset: none) -/
  rings : Tab (List Octets) := []
  /-- journaled requests adopted from a lost lead and not yet rebound: old chip, old handle, request (R390; reset: none) -/
  adopted : List (Nat × Nat × JournalReq) := []
  /-- partition of that adoption, and when it completed (R392; reset: none) -/
  adoptPart : Nat := 0
  adoptDone : Option Nat := none
  /-- requests whose sequences are truncated at the next boundary (R245, R391; reset: none) -/
  truncate : List Nat := []
  /-- EPOCH_MISMATCH was written for the plan held (R216; reset: no) -/
  mismatchSaid : Bool := false
  deriving DecidableEq, Repr

/-! ## Memory (chapter 9) -/

/-- A region of a partition (R249). -/
structure Region where
  part : Nat
  tier : Nat
  index : Nat
  mask : Nat
  g : Nat
  n : Nat
  deriving DecidableEq, Repr

structure SliceSt where
  /-- PSTATE (2 bits; 09_memory_tiers.md R262; reset 0) -/
  pstate : Nat := 0
  /-- TRAINED (1 bit; R262; reset 0) -/
  trained : Bool := false
  /-- dies marked, as 256 times the device and the die within it: DEGRADED and NO_CHIPKILL (R257, R262; reset: none) -/
  marked : List Nat := []
  /-- lines corrected in this scrub pass, by die (R257; reset 0) -/
  corrected : Tab Nat := []
  /-- CE_CNT, UE_CNT (32 bits; R262; reset 0) -/
  ceCnt : Word := 0
  ueCnt : Word := 0
  /-- MEM_CE_TOTAL, MEM_UE_TOTAL (U64; R263; reset 0) -/
  ceTotal : DWord := 0
  ueTotal : DWord := 0
  /-- SCRUB_EN (1 bit; R262; reset 1) -/
  scrubEn : Bool := true
  /-- LAST_UE (36 bits; R262; reset 0) -/
  lastUe : Nat := 0
  /-- next line the patrol scrub reads (R258; reset 0) -/
  scrubAt : Nat := 0
  deriving DecidableEq, Repr

/-- A zeroing in progress (R256): the slice bytes (first, count), and what happens after. -/
structure ZeroJob where
  job : Nat
  part : Nat
  regions : List Region
  clearKey : Bool
  deriving DecidableEq, Repr

structure MemSt where
  /-- memory bytes of all slices: slice × 2^40 + slice offset (R247; reset: nothing listed; an unlisted byte reads 0, entry 6) -/
  bytes : List Host.Cell := []
  /-- regions in force (R249; reset: none, R496) -/
  regions : List Region := []
  /-- poisoned lines: slice × 2^40 + line (R257; reset: none) -/
  poison : List Nat := []
  /-- regions whose lines decrypt to garbage since their key was replaced, and the lines written whole since (R467; reset: none) -/
  garbled : List Region := []
  rewritten : List Nat := []
  /-- slice registers, 0–5 A0–A5, 6–7 B0–B1 (R262) -/
  slices : Tab SliceSt := []
  /-- memory key slots in use: slot, partition and key generation (R255; reset: none) -/
  keys : Tab (Option (Nat × Nat)) := []
  keyGen : Nat := 0
  /-- SEC_ memory key register SLOT (8 bits; R467; reset 0) -/
  keySlot : Nat := 0
  /-- zeroing jobs (R256; reset: none) -/
  zero : List ZeroJob := []
  nextJob : Nat := 0
  deriving DecidableEq, Repr

/-! ## Fabric (chapter 10) -/

/-- States of a sub-port (R301). -/
inductive SubState where
  | down | training | hello | up | quarantined | miswired | doze | disabled
  deriving DecidableEq, Repr

/-- A frame of this module: the header fields that identify it (R271), and what the source keeps of it until it is
acknowledged (R274, R277, R278). -/
structure SentFrame where
  typ : Nat
  op : Nat
  dst : Nat
  stream : Nat
  eseq : Nat
  offset : Nat
  aux : Nat
  payload : Octets
  /-- traffic class (R267) -/
  cls : Nat
  /-- handle of the own stream that carries it, 0 when none does -/
  own : Nat := 0
  /-- agent that issued it -/
  by_ : Option Agent := none
  /-- sync object whose firing it is (R311) -/
  obj : Option Nat := none
  lseq : Nat := 0
  sentAt : Nat := 0
  retries : Nat := 0
  /-- port × 4 + sub-port that carried it, none while it waits for credit, window or replay room (R275, R276) -/
  port : Option Nat := none
  path : Nat := 0
  /-- sent to a multicast group: the member's acknowledgement is awaited (R283) -/
  mcast : Bool := false
  /-- forwarded for another chip: its source retransmits it, not this module (R282) -/
  transit : Bool := false
  deriving DecidableEq, Repr

structure SubSt where
  /-- STATE_k (4 bits; 10_fabric_and_ports.md R301; reset 0 DOWN) -/
  state : SubState := .down
  /-- PEER_CHIP, PEER_PORT, PEER_SUB (R301; reset 0) -/
  peerChip : Nat := 0
  peerPort : Nat := 0
  peerSub : Nat := 0
  /-- VER (4 bits; R301; reset 0) -/
  ver : Nat := 0
  /-- preemption verified (R268; reset: no) -/
  preempt : Bool := false
  /-- link training accepted and PCS lock (R294; reset: no) -/
  trained : Bool := false
  lock : Bool := false
  /-- the last SerDes calibration of its lanes was accepted (R294, R394; reset: no) -/
  calOk : Bool := false
  /-- the partner's HELLO was seen; it passed R295; the partner sends STATE 1 (R294; reset: no) -/
  seen : Bool := false
  passed : Bool := false
  peerReady : Bool := false
  /-- this end has sent STATE 1 (R294; reset: no) -/
  txReady : Bool := false
  /-- the partner's doze capability, slot and serial, and its version and credits, from its last HELLO (R294; reset 0) -/
  peerDoze : Bool := false
  peerSlot : Nat := 0
  peerSerial : Nat := 0
  peerVer : Nat := 0
  peerCredits : List Nat := [0, 0, 0, 0]
  /-- a DOZE_REQ was sent (R300; reset: no) -/
  dozeSent : Bool := false
  /-- credits held for X0–X3 (R275; reset 0) -/
  credits : List Nat := [0, 0, 0, 0]
  /-- next LSEQ to send and next LSEQ expected (R274; reset 1, 1) -/
  txNext : Nat := 1
  rxNext : Nat := 1
  /-- frames accepted since the last LINK ACK (R274; reset 0) -/
  unacked : Nat := 0
  /-- a NAK was sent for the present gap (R274; reset: no) -/
  naked : Bool := false
  /-- unacknowledged link-reliable frames, oldest first (R274; reset: none) -/
  replay : List SentFrame := []
  /-- replays without progress (R274; reset 0) -/
  replayTries : Nat := 0
  /-- times of the last frame received and sent, and of the last ACK progress (R274, R297; reset 0) -/
  lastRx : Nat := 0
  lastTx : Nat := 0
  lastProgress : Nat := 0
  /-- PFC: priorities paused by the partner (R293; reset: none) -/
  paused : List Nat := []
  deriving DecidableEq, Repr

structure PortSt where
  /-- SPLIT (2 bits; R301; reset 0) -/
  split : Nat := 0
  /-- MODE (2 bits; R301; reset: role of R265; none = the role's default) -/
  mode : Option Nat := none
  /-- PREEMPT_EN (1 bit; R301; reset 1) and its pending value (FRAME) -/
  preemptEn : Bool := true
  preemptPend : Option Bool := none
  /-- ENABLE (1 bit; R301; reset 1) -/
  enable : Bool := true
  /-- CFG_ERR (1 bit; R301; reset 0) -/
  cfgErr : Bool := false
  /-- sub-ports 0–3 -/
  subs : Tab SubSt := []
  /-- FEC_CORR, FEC_UNCORR, FCS_ERR, REPLAYS, PREEMPTS, DROPS (32 bits; R301; reset 0) -/
  fecCorr : Word := 0
  fecUncorr : Word := 0
  fcsErr : Word := 0
  replays : Word := 0
  preempts : Word := 0
  drops : Word := 0
  deriving DecidableEq, Repr

/-- A press unit's registers (R302). -/
structure PressSt where
  dup : Word := 0
  stale : Word := 0
  ahead : Word := 0
  done : Word := 0
  deriving DecidableEq, Repr

/-- A home chunk of a collective (R289): invocation worked on, contributions for it and the next. -/
structure HomeChunk where
  chunk : Nat
  inv : Nat := 1
  now : Tab (List Word) := []
  nxt : Tab (List Word) := []
  deriving DecidableEq, Repr

structure FabSt where
  /-- ports 0–23 (R301) -/
  ports : Tab PortSt := []
  /-- press units 0–3 (R302; reset 0) -/
  press : Tab PressSt := []
  /-- XTV_ROUTE entries, by chip × 8 + path (R279; reset: board entries at bring-up, others 0) -/
  routes : Tab Word := []
  /-- chips declared lost (R299; reset: none) -/
  lost : List Nat := []
  /-- time of the last frame from each chip in use (R297; reset: none) -/
  heard : Tab (Option Nat) := []
  /-- chips whose end-to-end HELLO failed on SWITCHED paths (R296; reset: none) -/
  barred : List Nat := []
  /-- version in effect with a chip on SWITCHED paths, once its end-to-end HELLO has passed (R296; reset: none) -/
  peerVer : Tab Nat := []
  /-- chips to which an end-to-end keepalive was sent and not yet answered (R297; reset: none) -/
  kept : List Nat := []
  /-- board peers as observed on ports that went UP, by port: slot, chip, the partner's port (R281, R295; reset: none) -/
  wiring : Tab (Nat × Nat × Nat) := []
  /-- next path index in the rotation, by chip (R280; reset 0) -/
  rotate : Tab Nat := []
  /-- frames sent and not acknowledged end to end, oldest first (R277, R278; reset: none) -/
  sent : List SentFrame := []
  /-- frames that wait for credit, window or replay room, oldest first (R274–R276; reset: none) -/
  waitq : List SentFrame := []
  /-- next ESEQ of the flow without a stream handle that carries firings' RELEASEs (R311; reset 0) -/
  flowNext : Nat := 0
  /-- peer sessions of the security core (R454; reset: none) -/
  peers : List Nat := []
  deriving DecidableEq, Repr

/-! ## Sync objects, channels and mailboxes (chapter 11) -/

/-- A sync object (R308–R311, R330). -/
structure SyncObj where
  /-- ALLOCATED (1 bit; 11_ordering_sync_channels.md R330; reset 0) -/
  alloc : Bool := false
  /-- OWNER (16 bits; R330; reset 0) -/
  owner : Nat := 0
  /-- C (64 bits; R310; reset 0) -/
  c : DWord := 0
  /-- THRESHOLD (64 bits; R330; reset 0) -/
  thr : DWord := 0
  /-- STRIDE (32 bits; R330; reset 0) -/
  stride : Word := 0
  /-- TARGET (64 bits; R330; reset 0) -/
  target : DWord := 0
  /-- GEN (64 bits; R330; reset 0) -/
  gen : DWord := 0
  /-- ARMED, BROKEN (1 bit each; R330; reset 0) -/
  armed : Bool := false
  broken : Bool := false
  /-- THRESH_LO and TARGET_LO held until the high half is written (R330; reset 0) -/
  thrLo : Word := 0
  targetLo : Word := 0
  /-- the root's own release object, in the same operation (R314): none when not a root -/
  rootLocal : Option Nat := none
  /-- other members for the unicast release of a group without MCAST (R314): reset: none -/
  unicast : List Nat := []
  deriving DecidableEq, Repr

/-- A waiter entry (R312). -/
structure Waiter where
  id : Nat
  obj : Nat
  value : Nat
  by_ : SyncBy
  since : Nat
  timeoutUs : Nat
  deriving DecidableEq, Repr

/-- RELEASEs sent by the firings of one operation and not yet delivered (R311): firing object, target address, the
value next to deliver and the last one. -/
structure Flight where
  obj : Nat
  target : Nat
  value : Nat
  last : Nat
  deriving DecidableEq, Repr

/-- A request channel (R217). -/
structure ReqChan where
  subBase : Nat
  subSlots : Nat
  cqSlots : Nat
  posted : Nat
  consumed : Nat
  credit : Nat
  qp : Nat
  rkey : Nat
  cqAddr : Nat
  vat : Nat
  /-- entries read, and runs freed so far (R218) -/
  read : Nat := 0
  freed : Nat := 0
  retired : List Nat := []
  /-- completion records written since open (R221) -/
  written : Nat := 0
  /-- closed to input after a transport error (R222) -/
  dead : Bool := false
  deriving DecidableEq, Repr

/-- A RoCEv2 queue pair (R291, R324). -/
structure QpSt where
  port : Nat
  pmtu : Nat
  remoteQpn : Nat
  sqPsn : Nat
  rqPsn : Nat
  remoteAddr : Octets
  rkey : Nat
  error : Bool := false
  /-- outstanding requests of this module: PSNs (R291) -/
  outstanding : List Nat := []
  /-- send rate in thousandths of the port rate (R293) -/
  rate : Nat := 1000000
  lastCnp : Option Nat := none
  lastCut : Option Nat := none
  lastRise : Nat := 0
  deriving DecidableEq, Repr

/-- An end of a Xatravis stream (R277, R323). -/
structure StreamSt where
  /-- this end sends; otherwise it receives -/
  sender : Bool
  chip : Nat
  cls : Nat
  /-- handle at the other end -/
  peer : Nat
  keyGen : Nat
  /-- next ESEQ to send -/
  next : Nat := 0
  /-- destination: next expected N and the bitmap above it (R277) -/
  expect : Nat := 0
  got : List Nat := []
  /-- frames applied since the last EACK (R277) -/
  unacked : Nat := 0
  /-- ended with this status, until destroyed (R322) -/
  ended : Option Nat := none
  closing : Bool := false
  deriving DecidableEq, Repr

/-- A sync group (R314). -/
structure GroupSt where
  members : Nat
  rank : Nat
  root : Nat
  mcast : Bool
  group : Nat
  arrive : Nat
  release : Nat
  chips : List Nat
  broken : Bool := false
  deriving DecidableEq, Repr

/-- A collective (R286–R290). -/
structure CollSt where
  members : Nat
  rank : Nat
  fmt : Nat
  elements : Nat
  src : Nat
  dst : Nat
  startObj : Nat
  doneObj : Nat
  collId : Nat
  chips : List Nat
  /-- last invocation started and last done by this member (R287) -/
  started : Nat := 0
  finished : Nat := 0
  /-- chunks whose result has been written in the invocation in progress (R289) -/
  results : List Nat := []
  /-- chunks this member contributed that are not acknowledged -/
  unacked : List Nat := []
  home : List HomeChunk := []
  broken : Bool := false
  ended : Option Nat := none
  deriving DecidableEq, Repr

/-- A task channel (R325). -/
structure TaskChan where
  base : Nat
  slots : Nat
  vat : Nat
  posted : Nat
  consumed : Nat
  read : Nat := 0
  deriving DecidableEq, Repr

/-- What a channel slot holds (R318). -/
inductive Chan where
  | req (c : ReqChan)
  | qp (c : QpSt)
  | stream (c : StreamSt)
  | group (c : GroupSt)
  | coll (c : CollSt)
  | task (c : TaskChan)
  | staging (part : Nat)
  deriving DecidableEq, Repr

/-- A channel slot (R318, R319): generation, owner, contents, and when it was freed. -/
structure ChanSlot where
  gen : Nat := 1
  part : Nat := 0
  chan : Option Chan := none
  freedAt : Nat := 0
  deriving DecidableEq, Repr

/-- A mailbox (R326–R329). -/
structure Mbx where
  /-- MSG_0–MSG_63 (32 bits each; R329; reset 0) -/
  msg : Tab Word := []
  /-- RC (16 bits; R329; reset 0) -/
  rc : Nat := 0
  /-- STATE (2 bits; R329; reset 0) -/
  state : Nat := 0
  /-- WR_ERR (1 bit; R329; reset 0) -/
  wrErr : Bool := false
  /-- MSG_LEN (9 bits; R329; reset 0) -/
  len : Nat := 0
  /-- SENDER, RECEIVER, PART (R329; reset: set by firmware, DESIGN CHOICE 0, 0, 0, entry 7) -/
  sender : Nat := 0
  receiver : Nat := 0
  part : Nat := 0
  /-- the doorbell interrupt waits to be taken (R328; reset: no) -/
  irq : Bool := false
  deriving DecidableEq, Repr

/-- A fence in progress (R306): agent, scope (1 LOCAL, 2 DIE, 3 FABRIC), the frames it waits for (stream, ESEQ). -/
structure FenceSt where
  agent : Agent
  scope : Nat
  waits : List (Nat × Nat)
  qpWaits : List (Nat × Nat)
  since : Nat
  deriving DecidableEq, Repr

/-- A remote operation that awaits its response (R312, R313): its token, who asked, the operation, address, operands. -/
structure SyncReq where
  token : Nat
  by_ : SyncBy
  op : Nat
  addr : Nat
  value : Nat
  /-- the vat issued it for a task's WAIT_OBJ -/
  task : Bool := false
  deriving DecidableEq, Repr

structure SynSt where
  /-- sync objects 0–65,535 (R308; reset: free, zeroed) -/
  objs : Tab SyncObj := []
  /-- waiter entries in use (R312; reset: none of 131,072) -/
  waiters : List Waiter := []
  nextWaiter : Nat := 0
  /-- RELEASE messages of firings in flight, oldest first (R311; reset: none) -/
  flights : List Flight := []
  /-- remote operations awaiting their responses, and the next token (R313; reset: none) -/
  requests : List SyncReq := []
  nextToken : Nat := 0
  /-- counter values that remote WAITs of tasks returned, by global address (R312; reset: none) -/
  remoteSeen : Tab Nat := []
  /-- channel slots 0–65,535 (R318, R319; reset: free with GEN 1) -/
  slots : Tab ChanSlot := []
  /-- freeing order counter (R319) -/
  freed : Nat := 0
  /-- mailboxes 0–63 (R329) -/
  mbx : Tab Mbx := []
  /-- fences in progress (R306; reset: none) -/
  fences : List FenceSt := []
  /-- status a completed FABRIC fence returned to its agent (R306; reset: none) -/
  fenceStatus : List (Agent × Nat) := []
  /-- failures of frames before a fence: agent, status (R306; reset: none) -/
  lateStatus : List (Agent × Nat) := []
  deriving DecidableEq, Repr

/-! ## Faults and recovery (chapter 13) -/

/-- An error record (R368). -/
structure ErrRec where
  seqno : Nat := 0
  mech : Nat := 16
  status : Nat := 0
  action : Nat := 0
  unitKind : Nat := 0
  unit : Nat := 0
  part : Nat := 0
  operation : Nat := 0
  step : Nat := 0
  time : Nat := 0
  sensor : Nat := 0
  temp : Int := 0
  rail : Nat := 0
  railMv : Nat := 0
  tag : Nat := 0
  detailA : Nat := 0
  detailB : Nat := 0
  fences : Nat := 0
  deriving DecidableEq, Repr

/-- Health of a unit that is not simply in service (R385–R387, R397). -/
structure HealthSt where
  /-- health code: 0 in service, 1 spare, 2 fenced, 3 re-admission in progress, 4 retired (R397) -/
  code : Nat := 0
  /-- fence times in powered ns, newest first (R368, R386) -/
  times : List Nat := []
  /-- consecutive slices passed (R385) -/
  passed : Nat := 0
  deriving DecidableEq, Repr

structure FltSt where
  /-- records written since boot, newest first (R370: the last 8,192 are held; reset: none) -/
  recs : List ErrRec := []
  /-- ERR_COUNT and HEAD (U64; R396, R397; reset 0) -/
  count : Nat := 0
  /-- records of each partition's own sequence, newest first, and their number (R370; reset: none) -/
  partRecs : Tab (List ErrRec) := []
  partCount : Tab Nat := []
  /-- ring of 256 records in the configuration store, newest first (R370; reset: empty) -/
  store : List ErrRec := []
  /-- records not yet copied there, oldest first (R370; reset: none) -/
  toStore : List ErrRec := []
  /-- ERR_PREV, newest first (R370; reset: empty) -/
  prev : List ErrRec := []
  /-- ERRLOG SELECT (13 bits; R396; reset 0) -/
  select : Nat := 0
  /-- health of arrays, engines and vats that are not in their first state (R386; reset: none) -/
  arrays : Tab HealthSt := []
  engines : Tab HealthSt := []
  vats : Tab HealthSt := []
  /-- management core: resetting since, recovered or not (R365; reset: no) -/
  mgmtReset : Option Nat := none
  mgmtLost : Bool := false
  /-- cores halted (R460; reset: none): 0 management, 2–9 vat control cores -/
  halted : List Nat := []
  /-- single steps executed by each core while halted (R460; the model's own counter) -/
  coreSteps : Tab Nat := []
  deriving DecidableEq, Repr

/-! ## Power, clocks, thermal, monitor (chapter 14) -/

inductive PState where
  | s0 | s1 | s2 | s3 | s4
  deriving DecidableEq, Repr

structure Sensor where
  /-- TEMP_i (I16, 1/16 °C; 14_power_clocks_thermal.md R429; reset 0) -/
  temp : Int := 0
  /-- HEALTHY_i (1 bit; R429; reset 0) -/
  healthy : Bool := false
  deriving DecidableEq, Repr

/-- A monitor sequence (R423, R430). -/
structure MonSeq where
  en : Bool := false
  trig : Nat := 0
  lenM1 : Nat := 0
  vrSel : Nat := 0
  delay : Nat := 0
  period : Nat := 1000
  inputs : Tab Nat := []
  entry : Nat := 0
  running : Bool := false
  trigMiss : BitVec 16 := 0
  clearDue : Bool := false
  /-- when the last TIMER trigger came and when the entry in progress began (R423; reset 0) -/
  trigAt : Nat := 0
  entryAt : Nat := 0
  pend : List PendVal := []
  deriving DecidableEq, Repr

/-- A monitor accumulator (R424, R430). -/
structure MonAcc where
  sum : Nat := 0
  count : Nat := 0
  min : Nat := 0xFFF
  max : Nat := 0
  deriving DecidableEq, Repr

/-- A monitor converter (R426, R430). -/
structure MonConv where
  gain : Nat := 0x4000
  offset : Int := 0
  gainPend : Option Nat := none
  offsetPend : Option Int := none
  fenced : Bool := false
  suspect : Bool := false
  calibrating : Bool := false
  deriving DecidableEq, Repr

structure PwrSt where
  /-- power state (3 bits; R428; reset S4: the module is off until POWER_UP or RESET_RELEASE boots it, entry 1) -/
  state : PState := .s4
  /-- an entry to S1, S2 or S3 is running (R402; reset: none) -/
  entering : Option PState := none
  /-- an exit to S0 is running (R401; reset: no) -/
  exiting : Bool := false
  /-- wake events kept (R402, R420; reset: none) -/
  kept : List Wake := []
  /-- sessions whose PWR_STATE_REQ runs: session, target (R399; reset: none) -/
  waitReq : Option (Nat × Nat) := none
  /-- THERMAL_HOLD (1 bit; R428; reset 0) -/
  hold : Bool := false
  /-- N_EFF, N_THERMAL, N_POWER, N_BRAKE (4 bits each; R428; reset 0) -/
  nEff : Nat := 0
  nThermal : Nat := 0
  nPower : Nat := 0
  nBrake : Nat := 0
  /-- G_V (10 bits), CAP (12 bits) (R428; reset 0) -/
  gV : Nat := 0
  cap : Nat := 0
  /-- BRAKE_IN (1 bit; R428; reset 0) -/
  brakeIn : Bool := false
  /-- BRAKE_CNT (32 bits; R428; reset 0) -/
  brakeCnt : Word := 0
  /-- SPREAD_EN in force (1 bit; R428; reset 1) -/
  spread : Bool := true
  /-- REF_LOCK, CORE_LOCK (1 bit each; R428; reset 0) -/
  refLock : Bool := false
  coreLock : Bool := false
  /-- local time at which the module last came to S0 (R399; reset 0) -/
  idleSince : Nat := 0
  /-- input power of the last interval and when it ended (R410; reset 0), and the last step of the brake's ramp (R411; reset 0) -/
  inputW : Nat := 0
  capTick : Nat := 0
  brakeAt : Nat := 0
  /-- sensors TS_0–TS_287 (R412, R429) -/
  sensors : Tab Sensor := []
  /-- readings of the last samples: time and the readings (R417; reset: none) -/
  history : List (Nat × List (Nat × Int)) := []
  /-- MAX_TEMP, MAX_SENSOR, RATE (R429; reset 0) -/
  maxTemp : Int := 0
  maxSensor : Nat := 0
  rate : Int := 0
  /-- FAST_SAMPLE (1 bit; R429; reset 0) -/
  fast : Bool := false
  /-- STOP (2 bits; R429; reset 0) and when it began -/
  stop : Nat := 0
  stopBegan : Nat := 0
  /-- THM_ORDERED_STOPS, THM_FAST_STOPS (U32, kept in the configuration store; R431; reset 0) -/
  orderedStops : Word := 0
  fastStops : Word := 0
  /-- trip flag: none, some none for a power stage, some sensor (R421; reset: clear) -/
  tripFlag : Option (Option Nat) := none
  /-- monitor: sequences 0–3, converters 0–3, accumulators 0–127 (R430) -/
  seqs : Tab MonSeq := []
  convs : Tab MonConv := []
  accs : Tab MonAcc := []
  /-- CAL_MASK (4 bits; R430; reset 0xF), CAL_STATE (2 bits; reset 0), converters still to calibrate -/
  calMask : Nat := 0xF
  calState : Nat := 0
  calTodo : List Nat := []
  /-- sequences whose next entry a MON_CLEAR command waits for, as a mask (4 bits; R342, R424; reset 0) -/
  clearWait : Nat := 0
  /-- URG_DONE, URG_DROP (32 bits; R430; reset 0) -/
  urgDone : Word := 0
  urgDrop : Word := 0
  /-- an urgent conversion is pending since (R425; reset: none) -/
  urgSince : Option Nat := none
  /-- last reading of each monitor input, code (R368 RAIL_MV; reset 0) -/
  lastCode : Tab Nat := []
  deriving DecidableEq, Repr

/-! ## Security (chapter 15) -/

/-- A partition (R449, R450, R339). -/
structure PartSt where
  /-- PART_STATE (U8; R339; reset 0) -/
  state : Nat := 0
  /-- PART_RIGHTS (U32; R339; reset 0) -/
  rights : Nat := 0
  /-- logical slots of each vat (R450; reset: none): first and count -/
  arrays : Tab (Nat × Nat) := []
  /-- its release waits for the commit fence of the step in progress (R452; reset: no) -/
  waitFence : Bool := false
  /-- engine mask of each vat (R450; reset 0) -/
  engines : Tab Nat := []
  /-- custom table slots of each vat (R450; reset 0) -/
  tables : Tab Nat := []
  deriving DecidableEq, Repr

structure SecSt where
  /-- partitions 1–255 (R449; reset: none, R496) -/
  parts : Tab PartSt := []
  /-- SEC_ENROLL rows 0–63: session class the row gives (CLASS + 1: 2 OPERATOR, 3 OWNER, 4 PARTITION), partition, key digest (R439;
  reset: empty, R496) -/
  enroll : Tab (Option (Nat × Nat × Octets)) := []
  /-- DEBUG_LEVEL (2 bits; R467; reset 0) -/
  debug : Nat := 0
  /-- local time at which it expires (R463; reset: none) -/
  debugUntil : Nat := 0
  /-- valid challenge nonce and when it was read (R461; reset: none) -/
  nonce : Option (Octets × Nat) := none
  /-- attestation key generation (R445; reset 0) -/
  akGen : Nat := 0
  /-- lifecycle transition whose effect runs: target, session (R446; reset: none) -/
  lcTarget : Option (Nat × Nat) := none
  /-- firmware banks 0 and 1 (R441; reset: the release image in both, R496; its header DESIGN CHOICE, entry 2) -/
  bank0 : Option FwImage := some ⟨0, 0x01000000, List.replicate 48 0⟩
  bank1 : Option FwImage := some ⟨0, 0x01000000, List.replicate 48 0⟩
  /-- BOOT_BANK (1 bit; R467; reset: not given, DESIGN CHOICE 0, entry 2) and the bank marked for the next boot -/
  bank : Nat := 0
  marked : Nat := 0
  /-- FALLBACK (1 bit; R467; reset 0) -/
  fallback : Bool := false
  /-- the running firmware has reported its self-test (R441; reset: no) -/
  selfTest : Bool := false
  /-- key pair generation behind CTR_DRBG (R435; the model's own counter) -/
  drbg : Nat := 0
  deriving DecidableEq, Repr

/-! ## Sideband (chapter 16) -/

/-- JTAG instruction register (R487). -/
inductive JtagIr where
  | idcode | bypass | samplePreload | extest | fuse
  deriving DecidableEq, Repr

structure PinSt where
  /-- the input is above the turn-on threshold (R469; reset: no) -/
  input : Bool := false
  /-- overvoltage lockout (R469; reset: no) -/
  overvolt : Bool := false
  /-- MOD_RESET_N asserted (R485; reset: no, entry 1) -/
  reset : Bool := false
  /-- SLOT_ID[5:0] as read at boot, TOPO_STRAPS (6 bits; R39; reset: straps, DESIGN CHOICE 0b100000, entry 2) -/
  straps : Nat := 0b100000
  /-- SLOT_ID pins now (R489; reset as above) -/
  strapPins : Nat := 0b100000
  /-- MOD_HEARTBEAT running (R483; reset: low) -/
  heartbeat : Bool := false
  /-- THERM_TRIP_N latch (R486; reset: clear) -/
  tripLatch : Bool := false
  /-- PWR_BRAKE_N low (R485; reset: high) -/
  brakeLow : Bool := false
  /-- transmitters in electrical idle (R297; reset: yes) -/
  txIdle : Bool := true
  /-- JTAG instruction, none in TAP reset (R487; reset: held in reset) -/
  tap : Option JtagIr := none
  deriving DecidableEq, Repr

/-! ## What the module sends -/

/-- A message the module has sent, an interrupt it has raised, or an answer it has given. -/
inductive Out where
  | fap (sess : Nat) (r : FapResp)
  | spdmKeyExchange (sess : Nat)
  | spdmError (code : Nat)
  | spdmAnswer (sess code : Nat) (data : Octets)
  | status (to_ : Agent) (code : Nat)
  | record (destKind chip index : Nat) (data : Octets)
  | frame (typ op dst stream eseq offset aux : Nat) (retx : Bool) (path : Nat) (data : Octets)
  | link (port sub op value : Nat)
  | hello (port sub state : Nat)
  | rdmaWrite (qp addr : Nat) (data : Octets)
  | rdmaImm (qp imm : Nat)
  | roceAck (qp psn : Nat) (data : Octets)
  | roceNak (qp psn code : Nat)
  | cnp (qp : Nat)
  | pfc (port priority : Nat) (pause : Bool)
  | interrupt (mbx receiver : Nat)
  | busError (agent : RegAgent) (addr cause : Nat)
  | faultRecord (vat taskId step : Nat)
  | plan (chip : Nat) (p : Plan)
  | drafts (chip seq : Nat) (d : List Nat)
  | journal (holder : Nat) (kind seqno step : Nat) (data : Octets)
  | journalAck (lead seqno status : Nat)
  | replica (holder part epoch : Nat) (envelope : Octets)
  | replicaAck (chip part status : Nat)
  | replicaLost (chip : Nat)
  | seqInvalid (chip part seq : Nat)
  | mgmtReply (k : MgmtFrame)
  | uart (line : Nat) (data : Octets)
  | syncResult (by_ : SyncBy) (result status : Nat)
  | urgent (by_ : UrgentBy) (code : Nat)
  | jtag (value : Nat)
  deriving DecidableEq, Repr

/-! ## The state -/

structure State where
  fuse : FuseSt := {}
  dic : DicSt := {}
  /-- physical arrays by global number (R12, R46) -/
  arr : Tab ArrSt := []
  /-- vats 0–7 -/
  vat : Tab VatSt := []
  eng : EngBank := {}
  whl : WhlBank := {}
  kv : KvSt := {}
  emb : EmbSt := {}
  srv : SrvSt := {}
  mem : MemSt := {}
  fab : FabSt := {}
  syn : SynSt := {}
  flt : FltSt := {}
  pwr : PwrSt := {}
  sec : SecSt := {}
  pin : PinSt := {}
  /-- local time counter (U64, ns since boot; R317, R405; reset 0) -/
  time : Nat := 0
  /-- powered time summed across boots, ns (R368; reset 0) -/
  powered : Nat := 0
  /-- the model's own: next index of a free value (entry 8) -/
  free : Nat := 0
  /-- the model's own: messages sent, newest first (entry 9) -/
  out : List Out := []
  /-- the queue of waiting commands, first in, first out -/
  pending : List Instr := []
  deriving DecidableEq, Repr

/-- The reasons the block could stop. No rule of the spec stops the module on a command: what it refuses it
answers with a status, and what it cannot do leaves the state as it is. The one constructor is raised by nothing. -/
inductive Fault where
  /-- Raised by no meaning; safe. -/
  | halted
  deriving DecidableEq, Repr

/-- The reasons the model could refuse a command. -/
inductive Refusal where
  /-- Raised by a dispatch arm whose command has no meaning yet; safe. -/
  | notModelled (mnemonic : String)
  deriving DecidableEq, Repr

/-- The module in its shipped condition (R496), off (S4), every register at its Reset value. -/
def State.reset : State := {}

end Sys2Proof.Machine
end

