-- ==== Sys2Proof/Machine/Bits.lean ====
section
/-! DEFINITION. Sparse banks in their canonical form, octet strings and bit fields: the shared data operations. -/

namespace Sys2Proof.Machine

/-! ## Sparse banks -/

/-- The value of a bank at a key; `d` is what an unlisted key reads as. -/
def tget {α : Type} (d : α) : Tab α → Nat → α
  | [], _ => d
  | (k, v) :: t, i => if k = i then v else tget d t i

/-- Writing a bank at a key keeps the canonical form: writing the default removes the entry. -/
def tput {α : Type} [DecidableEq α] (d : α) : Tab α → Nat → α → Tab α
  | [], i, v => if v = d then [] else [(i, v)]
  | (k, w) :: t, i, v =>
    if i < k then (if v = d then (k, w) :: t else (i, v) :: (k, w) :: t)
    else if i = k then (if v = d then t else (i, v) :: t)
    else (k, w) :: tput d t i v

/-- The canonical form of a bank: keys strictly rising, no value equal to the default. -/
def twf {α : Type} [DecidableEq α] (d : α) : Tab α → Bool
  | [] => true
  | [(_, v)] => v != d
  | (k, v) :: (k', v') :: t => v != d && k < k' && twf d ((k', v') :: t)

/-- A change of one entry. -/
def tmod {α : Type} [DecidableEq α] (d : α) (t : Tab α) (i : Nat) (f : α → α) : Tab α := tput d t i (f (tget d t i))

/-- A change of every listed entry. -/
def tmapv {α : Type} [DecidableEq α] (d : α) (f : α → α) (t : Tab α) : Tab α := t.foldl (fun m q => tput d m q.1 (f q.2)) t

/-! ## Octets: little-endian values (R9) -/

/-- The number a little-endian octet string holds. -/
def leNat : Octets → Nat
  | [] => 0
  | b :: t => b.toNat + 256 * leNat t

/-- A number as `w` little-endian octets. -/
def natLe : Nat → Nat → Octets
  | 0, _ => []
  | w + 1, n => BitVec.ofNat 8 n :: natLe w (n / 256)

/-- A number as `w` big-endian octets (frames on the wire). -/
def natBe (w n : Nat) : Octets := (natLe w n).reverse

/-- The number a big-endian octet string holds. -/
def beNat (o : Octets) : Nat := leNat o.reverse

/-- `n` octets from offset `o`, zeros past the end. -/
def octs (b : Octets) (o n : Nat) : Octets :=
  let t := (b.drop o).take n
  t ++ List.replicate (n - t.length) 0

/-- The little-endian field of `n` octets at offset `o`. -/
def fld (b : Octets) (o n : Nat) : Nat := leNat ((b.drop o).take n)

/-- Whether `n` octets from offset `o` are all zero. -/
def zeroAt (b : Octets) (o n : Nat) : Bool := ((b.drop o).take n).all (· == 0)

/-- Octets padded with zeros, or cut, to `n`. -/
def padTo (b : Octets) (n : Nat) : Octets := octs b 0 n

/-- Replacing part of an octet string. -/
def splice (b : Octets) (o : Nat) (v : Octets) : Octets := octs b 0 o ++ v ++ b.drop (o + v.length)

/-! ## Bit fields -/

/-- Bits [hi:lo] of a number (R8). -/
def bits (n hi lo : Nat) : Nat := (n / 2 ^ lo) % 2 ^ (hi + 1 - lo)

/-- Bit `i` of a number. -/
def bit (n i : Nat) : Bool := n.testBit i

def b2n (b : Bool) : Nat := if b then 1 else 0

/-- A field of `w` bits read as two's complement (R8). -/
def sext (w n : Nat) : Int := if n % 2 ^ w < 2 ^ (w - 1) then (n % 2 ^ w : Nat) else (n % 2 ^ w : Nat) - (2 ^ w : Nat)

/-- An integer as a field of `w` bits in two's complement. -/
def toField (w : Nat) (i : Int) : Nat := (i % (2 ^ w : Nat)).toNat

/-- Number of bits set among the low `n`. -/
def popcount (n w : Nat) : Nat := ((List.range w).filter (fun i => n.testBit i)).length

/-- The positions of the bits set among the low `w`, ascending. -/
def bitsOf (n w : Nat) : List Nat := (List.range w).filter (fun i => n.testBit i)

/-- The mask with the listed bits set. -/
def maskOf (l : List Nat) : Nat := l.foldl (fun m i => m ||| 2 ^ i) 0

/-- A 32-bit counter that counts up (it wraps as its width says, R8). -/
def Word.bump (w : Word) (n : Nat) : Word := w + BitVec.ofNat 32 n

def DWord.bump (w : DWord) (n : Nat) : DWord := w + BitVec.ofNat 64 n

def clampI (lo hi x : Int) : Int := if x < lo then lo else if hi < x then hi else x

/-- The last `n` elements dropped beyond a bound: keeps the newest `n` of a newest-first list. -/
def keep {α : Type} (n : Nat) (l : List α) : List α := l.take n

/-- Replaces element `i` of a list, where it has one. -/
def lset {α : Type} (l : List α) (i : Nat) (v : α) : List α := l.set i v

def ascii (t : String) : Octets := t.toList.map (fun c => BitVec.ofNat 8 c.toNat)

end Sys2Proof.Machine
end

