-- ==== Sys2Proof/Machine/F32.lean ====
section
/-! DEFINITION. The floating formats, on bit patterns and exact integers: binary32 with subnormals read and flushed as
zeros (R86), BF16, and OCP FP8 E4M3 (R82). Every operation rounds once, to nearest with ties to even. -/

namespace Sys2Proof.Machine

/-- A decoded value: m × 2^e with a sign, an infinity, or a NaN. -/
inductive FV where
  | nan
  | inf (neg : Bool)
  | fin (neg : Bool) (m : Nat) (e : Int)
  deriving DecidableEq, Repr

/-- m × 2^e rounded to an integer multiple of 2^q, ties to even: that multiple. -/
def rneTo (m : Nat) (e q : Int) : Nat :=
  if q ≤ e then m * 2 ^ (e - q).toNat
  else
    let k := (q - e).toNat
    let h := m / 2 ^ k
    let r := m % 2 ^ k
    if 2 * r < 2 ^ k then h
    else if 2 * r = 2 ^ k then h + h % 2
    else h + 1

/-- The exponent of the quantum of a value in a format of `p` significant bits whose smallest quantum is 2^qmin. -/
def quantum (p : Nat) (qmin : Int) (m : Nat) (e : Int) : Int := max (e + (Nat.log2 m + 1 : Nat) - p) qmin

/-! ## binary32 -/

def f32Nan : Word := 0x7FC00000

def f32Inf (neg : Bool) : Word := if neg then 0xFF800000 else 0x7F800000

def f32Zero (neg : Bool) : Word := if neg then 0x80000000 else 0

def f32Neg? (w : Word) : Bool := w.getLsbD 31

def f32Exp (w : Word) : Nat := bits w.toNat 30 23

def f32Man (w : Word) : Nat := bits w.toNat 22 0

def f32IsNan (w : Word) : Bool := f32Exp w = 255 && f32Man w != 0

def f32IsInf (w : Word) : Bool := f32Exp w = 255 && f32Man w = 0

def f32Finite (w : Word) : Bool := f32Exp w != 255

/-- A normal number: the exponent field is neither 0 nor 255. -/
def f32Normal (w : Word) : Bool := f32Exp w != 0 && f32Exp w != 255

def f32PosNormal (w : Word) : Bool := f32Normal w && !(f32Neg? w)

/-- Decoding; a subnormal operand is read as zero of the same sign (R86). -/
def f32Dec (w : Word) : FV :=
  if f32IsNan w then .nan
  else if f32IsInf w then .inf (f32Neg? w)
  else if f32Exp w = 0 then .fin (f32Neg? w) 0 0
  else .fin (f32Neg? w) (2 ^ 23 + f32Man w) ((f32Exp w : Int) - 150)

/-- Rounding m × 2^e to binary32: IEEE rounding, then a subnormal result flushed to zero of the same sign (R86). -/
def f32Round (neg : Bool) (m : Nat) (e : Int) : Word :=
  if m = 0 then f32Zero neg
  else
    let q := quantum 24 (-149) m e
    let n := rneTo m e q
    let (n, q) := if n = 2 ^ 24 then (2 ^ 23, q + 1) else (n, q)
    if n < 2 ^ 23 then f32Zero neg
    else if 104 < q then f32Inf neg
    else BitVec.ofNat 32 ((b2n neg) * 2 ^ 31 + (q + 150).toNat * 2 ^ 23 + (n - 2 ^ 23))

def f32Mul (a b : Word) : Word :=
  match f32Dec a, f32Dec b with
  | .nan, _ => f32Nan
  | _, .nan => f32Nan
  | .inf s, .inf t => f32Inf (s != t)
  | .inf s, .fin t m _ => if m = 0 then f32Nan else f32Inf (s != t)
  | .fin t m _, .inf s => if m = 0 then f32Nan else f32Inf (s != t)
  | .fin s m e, .fin t n f => f32Round (s != t) (m * n) (e + f)

/-- m × 2^e as a signed multiple of 2^q, q not above e. -/
def sgnMul (neg : Bool) (m : Nat) (e q : Int) : Int :=
  let v : Int := (m * 2 ^ (e - q).toNat : Nat)
  if neg then -v else v

/-- An exact sum rounded once; an exact zero takes the sign both terms share, else plus. -/
def f32RoundInt (v : Int) (e : Int) (zeroNeg : Bool) : Word :=
  if v = 0 then f32Zero zeroNeg else f32Round (v < 0) v.natAbs e

def f32Add (a b : Word) : Word :=
  match f32Dec a, f32Dec b with
  | .nan, _ => f32Nan
  | _, .nan => f32Nan
  | .inf s, .inf t => if s = t then f32Inf s else f32Nan
  | .inf s, _ => f32Inf s
  | _, .inf s => f32Inf s
  | .fin s m e, .fin t n f =>
    let q := min e f
    f32RoundInt (sgnMul s m e q + sgnMul t n f q) q (s && t)

def f32Neg (a : Word) : Word := a ^^^ 0x80000000

def f32Abs (a : Word) : Word := a &&& 0x7FFFFFFF

def f32Sub (a b : Word) : Word := f32Add a (f32Neg b)

/-- m / n as an integer and an exponent, with a sticky last bit: enough bits that one rounding is exact. -/
def divSticky (m n : Nat) (bitsWanted : Nat) : Nat :=
  let q := (m * 2 ^ bitsWanted) / n
  2 * q + (if (m * 2 ^ bitsWanted) % n = 0 then 0 else 1)

def f32Div (a b : Word) : Word :=
  match f32Dec a, f32Dec b with
  | .nan, _ => f32Nan
  | _, .nan => f32Nan
  | .inf _, .inf _ => f32Nan
  | .inf s, .fin t _ _ => f32Inf (s != t)
  | .fin s _ _, .inf t => f32Zero (s != t)
  | .fin s m e, .fin t n f =>
    if n = 0 then (if m = 0 then f32Nan else f32Inf (s != t))
    else f32Round (s != t) (divSticky m n 64) (e - f - 65)

/-- An order on non-NaN patterns: the sign-magnitude integer of the value, zeros equal. -/
def f32Ord (w : Word) : Int :=
  if f32Exp w = 0 then 0 else if f32Neg? w then -((w.toNat % 2 ^ 31 : Nat) : Int) else ((w.toNat % 2 ^ 31 : Nat) : Int)

def f32Lt (a b : Word) : Bool := !(f32IsNan a) && !(f32IsNan b) && f32Ord a < f32Ord b

def f32Le (a b : Word) : Bool := !(f32IsNan a) && !(f32IsNan b) && f32Ord a ≤ f32Ord b

/-- The larger, NaN if either is NaN, +0 above −0 (R96). -/
def f32Max (a b : Word) : Word :=
  if f32IsNan a || f32IsNan b then f32Nan
  else if f32Lt a b then b
  else if f32Lt b a then a
  else if f32Neg? a then b else a

def f32OfInt (v : Int) : Word := f32Round (v < 0) v.natAbs 0

def f32OfNat (n : Nat) : Word := f32Round false n 0

/-- Rounding a finite value to an integer, half to even; none for NaN and infinities. -/
def f32ToInt (w : Word) : Option Int :=
  match f32Dec w with
  | .fin s m e => let n := rneTo m e 0; some (if s then -(n : Int) else n)
  | _ => none

/-- floor of a finite value. -/
def f32Floor (w : Word) : Int :=
  match f32Dec w with
  | .fin s m e =>
    if 0 ≤ e then (if s then -1 else 1) * (m * 2 ^ e.toNat : Nat)
    else
      let k := (-e).toNat
      if s then -((m + 2 ^ k - 1) / 2 ^ k : Nat) else (m / 2 ^ k : Nat)
  | _ => 0

/-- Clamp of a rounded value: infinities to the ends, NaN to 0. -/
def f32ClampInt (lo hi : Int) (w : Word) : Int :=
  match f32Dec w with
  | .nan => 0
  | .inf s => if s then lo else hi
  | .fin .. => clampI lo hi ((f32ToInt w).getD 0)

/-- An operation on finite operands that overflowed (R86). -/
def ovf (args : List Word) (r : Word) : Bool := f32IsInf r && args.all f32Finite

/-! ## BF16 -/

/-- BF16 widened exactly. -/
def bf16ToF32 (h : BitVec 16) : Word := BitVec.ofNat 32 (h.toNat * 2 ^ 16)

/-- Rounding to BF16: nearest, ties to even, subnormals flushed, NaN to 0x7FC0 (R102). -/
def f32ToBf16 (w : Word) : BitVec 16 :=
  match f32Dec w with
  | .nan => 0x7FC0
  | .inf s => if s then 0xFF80 else 0x7F80
  | .fin s m e =>
    if m = 0 then (if s then 0x8000 else 0)
    else
      let q := quantum 8 (-133) m e
      let n := rneTo m e q
      let (n, q) := if n = 2 ^ 8 then (2 ^ 7, q + 1) else (n, q)
      if n < 2 ^ 7 then (if s then 0x8000 else 0)
      else if 120 < q then (if s then 0xFF80 else 0x7F80)
      else BitVec.ofNat 16 ((b2n s) * 2 ^ 15 + (q + 134).toNat * 2 ^ 7 + (n - 2 ^ 7))

def bf16IsNan (h : BitVec 16) : Bool := f32IsNan (bf16ToF32 h)

/-! ## FP8 E4M3 -/

/-- FP8 E4M3 widened exactly; NaN is S.1111.111 (R82). -/
def fp8ToF32 (b : Byte) : Word :=
  let n := b.toNat
  let s := bit n 7
  let e := bits n 6 3
  let m := bits n 2 0
  if e = 15 && m = 7 then f32Nan
  else if e = 0 then f32Round s m (-9)
  else f32Round s (8 + m) ((e : Int) - 10)

/-- Rounding to FP8 E4M3, subnormals kept; a magnitude that would round above 448 gives ±448 (R102). The flag says that. -/
def f32ToFp8 (w : Word) : Byte × Bool :=
  match f32Dec w with
  | .nan => (0x7F, false)
  | .inf s => (if s then 0xFE else 0x7E, true)
  | .fin s m e =>
    if m = 0 then (if s then 0x80 else 0, false)
    else
      let q := quantum 4 (-9) m e
      let n := rneTo m e q
      let (n, q) := if n = 16 then (8, q + 1) else (n, q)
      if 5 < q || (q = 5 && 14 < n) then (if s then 0xFE else 0x7E, true)
      else if n < 8 then (BitVec.ofNat 8 ((b2n s) * 128 + n), false)
      else (BitVec.ofNat 8 ((b2n s) * 128 + (q + 10).toNat * 8 + (n - 8)), false)

/-! ## Sums -/

/-- One level of the balanced tree: adjacent pairs added, an odd last term kept (R96). -/
def treeLevel (f : Word → Word → Word) : List Word → List Word
  | a :: b :: t => f a b :: treeLevel f t
  | l => l

def treeFuel (f : Word → Word → Word) : Nat → List Word → Word
  | _, [] => 0
  | _, [a] => a
  | 0, a :: _ => a
  | n + 1, l => treeFuel f n (treeLevel f l)

/-- The balanced tree sum of R96. -/
def treeSum (l : List Word) : Word := treeFuel f32Add l.length l

/-- Overflow anywhere in the tree. -/
def treeOvfFuel : Nat → List Word → Bool
  | _, [] => false
  | _, [_] => false
  | 0, _ => false
  | n + 1, l =>
    let rec pairs : List Word → Bool
      | a :: b :: t => ovf [a, b] (f32Add a b) || pairs t
      | _ => false
    pairs l || treeOvfFuel n (treeLevel f32Add l)

def treeOvf (l : List Word) : Bool := treeOvfFuel l.length l

end Sys2Proof.Machine
end

