-- ==== Sys2Proof/Machine/Fx.lean ====
section
/-! DEFINITION. The transcendental operations of the engines (R149) and the built-in activation tables (R89, R90): exact
values to 240 fractional bits, and the choice the bounds leave open taken from the free values of Config. -/

namespace Sys2Proof.Machine

/-- Fractional bits of the fixed-point reference. -/
def fxF : Nat := 240

def fxOne : Nat := 2 ^ fxF

def fxMul (a b : Nat) : Nat := a * b / fxOne

/-- Taylor terms of exp from term k on: `t` is the term before it. -/
def fxTaylor (z : Nat) : Nat → Nat → Nat → Nat
  | 0, _, _ => 0
  | n + 1, k, t => let t' := fxMul t z / k; t' + fxTaylor z n (k + 1) t'

def fxSquare : Nat → Nat → Nat
  | 0, r => r
  | n + 1, r => fxSquare n (fxMul r r)

/-- e^y for y ≥ 0, as a multiple of 2^-240. -/
def fxExpPos (y : Nat) : Nat := fxSquare 9 (fxOne + fxTaylor (y / 2 ^ 9) 60 1 fxOne)

/-- e^x for any fixed-point x. -/
def fxExp (x : Int) : Nat := if 0 ≤ x then fxExpPos x.toNat else fxOne * fxOne / fxExpPos (-x).toNat

/-- Terms t^(2k+1) / (2k+1) from k on, `p` being t^(2k+1). -/
def fxAtanh (t2 : Nat) : Nat → Nat → Nat → Nat
  | 0, _, _ => 0
  | n + 1, k, p => p / (2 * k + 1) + fxAtanh t2 n (k + 1) (fxMul p t2)

/-- ln(u) for u = n / d in [1, 2]. -/
def fxLn (n d : Nat) : Nat :=
  let t := (n - d) * fxOne / (n + d)
  2 * fxAtanh (fxMul t t) 80 0 t

/-- Integer square root by bits. -/
def isqrtGo (n : Nat) : Nat → Nat → Nat
  | 0, r => r
  | k + 1, r => isqrtGo n k (if (r + 2 ^ k) * (r + 2 ^ k) ≤ n then r + 2 ^ k else r)

def isqrt (n : Nat) : Nat := isqrtGo n (Nat.log2 n / 2 + 1) 0

/-- A positive value truncated to binary32: the magnitude's bits, and whether nothing was cut. 0 below the normal range. -/
def f32Trunc (m : Nat) (e : Int) : Nat × Bool :=
  if m = 0 then (0, true)
  else
    let q := e + (Nat.log2 m + 1 : Nat) - 24
    let n := if q ≤ e then m * 2 ^ (e - q).toNat else m / 2 ^ (q - e).toNat
    let ex := if q ≤ e then true else m % 2 ^ (q - e).toNat = 0
    if q + 150 < 1 then (0, false)
    else if 104 < q then (0x7F800000, false)
    else ((q + 150).toNat * 2 ^ 23 + (n - 2 ^ 23), ex)

/-- A value within `b` units of the last place of m × 2^e: the free offset `d` decides among those the bound allows. A
result below the normal range is a zero, one above it an infinity. -/
def withinUlp (neg : Bool) (m : Nat) (e : Int) (exact : Bool) (b : Nat) (d : Int) : Word :=
  let t := f32Trunc m e
  if t.1 = 0 then f32Zero neg
  else if 0x7F800000 ≤ t.1 then f32Inf neg
  else
    let lo : Int := if t.2 && exact then -(b : Int) else -(b : Int) + 1
    let r := ((t.1 : Int) + clampI lo b d).toNat
    if r < 0x00800000 then f32Zero neg
    else if 0x7F800000 ≤ r then f32Inf neg
    else BitVec.ofNat 32 ((b2n neg) * 2 ^ 31 + r)

/-- recip(x) within 1 ulp (R149). -/
def f32Recip (w : Word) : Word :=
  match f32Dec w with
  | .nan => f32Nan
  | .inf s => f32Zero s
  | .fin s m e =>
    if m = 0 then f32Inf s
    else withinUlp s (2 ^ 200 / m) (-200 - e) (2 ^ 200 % m = 0) 1 (Config.recipUlp w)

/-- rsqrt(x) within 1 ulp (R149). -/
def f32Rsqrt (w : Word) : Word :=
  match f32Dec w with
  | .nan => f32Nan
  | .inf s => if s then f32Nan else 0
  | .fin s m e =>
    if m = 0 then f32Inf s
    else if s then f32Nan
    else
      let (m, e) := if e % 2 = 0 then (m, e) else (2 * m, e - 1)
      let q := isqrt (2 ^ 200 / m)
      withinUlp false q (-100 - e / 2) (q * q * m = 2 ^ 200) 1 (Config.rsqrtUlp w)

/-- A decoded finite value in fixed point. -/
def fxOf (neg : Bool) (m : Nat) (e : Int) : Int :=
  let v : Nat := if 0 ≤ e + fxF then m * 2 ^ (e + fxF).toNat else m / 2 ^ (-(e + fxF)).toNat
  if neg then -(v : Int) else v

/-- exp(x) within 2 ulp (R149); exactly 1.0 for ±0 (R194). -/
def f32ExpFn (w : Word) : Word :=
  match f32Dec w with
  | .nan => f32Nan
  | .inf s => if s then 0 else f32Inf false
  | .fin s m e =>
    if m = 0 then 0x3F800000
    else
      let x := fxOf s m e
      if (90 * fxOne : Nat) < x then f32Inf false
      else if x < -(104 * fxOne : Nat) then 0
      else withinUlp false (fxExp x) (-fxF) false 2 (Config.expUlp w)

/-- log(x) within 2 ulp (R149). -/
def f32LogFn (w : Word) : Word :=
  match f32Dec w with
  | .nan => f32Nan
  | .inf s => if s then f32Nan else f32Inf false
  | .fin s m e =>
    if m = 0 then f32Inf true
    else if s then f32Nan
    else
      let k := Nat.log2 m
      let v : Int := (e + k) * (fxLn 2 1 : Nat) + (fxLn m (2 ^ k) : Nat)
      if v = 0 then 0 else withinUlp (v < 0) v.natAbs (-fxF) false 2 (Config.logUlp w)

/-! ## Built-in activation tables (R89, R90) -/

/-- 1/√(2π). -/
def fxInvSqrt2Pi : Nat := 398942280401432677939946059934381868475858631164934657665926 * fxOne / 10 ^ 60

/-- x + x³/3 + x⁵/15 + …, the series of Φ, from a term on. -/
def fxPhiSum (x2 : Nat) : Nat → Nat → Nat → Nat
  | 0, _, _ => 0
  | n + 1, k, t => t + fxPhiSum x2 n (k + 1) (fxMul t x2 / (2 * k + 3))

/-- Φ(x), x ≥ 0. -/
def fxPhiPos (x : Nat) : Nat :=
  let x2 := fxMul x x
  fxOne / 2 + fxMul (fxMul fxInvSqrt2Pi (fxOne * fxOne / fxExpPos (x2 / 2))) (fxPhiSum x2 200 0 x)

def fxPhi (x : Int) : Nat := if 0 ≤ x then fxPhiPos x.toNat else fxOne - fxPhiPos (-x).toNat

def fxSigma (x : Int) : Nat := fxOne * fxOne / (fxOne + fxExp (-x))

/-- The exact shape of codes 2 GELU, 3 SILU and 4 TANH at a fixed-point x (R89). -/
def fxShape (shape : Nat) (x : Int) : Int :=
  if shape = 2 then x * (fxPhi x : Nat) / (fxOne : Nat)
  else if shape = 3 then x * (fxSigma x : Nat) / (fxOne : Nat)
  else
    let t : Int := (fxExp (2 * x) : Nat)
    (t - fxOne) * fxOne / (t + fxOne)

/-- Half the domain of a built-in table (R89). -/
def shapeDomain (shape : Nat) : Nat := if shape = 2 then 8 else if shape = 3 then 16 else 4

/-- Entry k of a built-in table: the shape at the knot, to the nearest or one unit of the last place beside it. -/
def builtinEntry (shape k : Nat) : Word :=
  let d := shapeDomain shape
  let x : Int := (2 * (k : Int) - 255) * (d * fxOne : Nat) / 255
  let v := fxShape shape x
  let r := f32Round (v < 0) v.natAbs (-fxF)
  if f32Normal r then r + BitVec.ofInt 32 (clampI (-1) 1 (Config.tableUlp shape k)) else r

end Sys2Proof.Machine
end

