-- ==== Sys2Proof/Machine/Flags.lean ====
section
/-! DEFINITION. The codes the spec fixes: status codes (R355, R371, R427, R466), detection mechanisms (R362), unit kinds and
action bits of an error record (R368). -/

namespace Sys2Proof.Machine

/-! Status codes -/

abbrev St.ok : Nat := 0x00
abbrev St.outOfRange : Nat := 0x01
abbrev St.lengthExceedsBuffer : Nat := 0x02
abbrev St.lengthMismatch : Nat := 0x03
abbrev St.formatMismatch : Nat := 0x04
abbrev St.accessDenied : Nat := 0x05
abbrev St.accessUnmapped : Nat := 0x06
abbrev St.unitAbsent : Nat := 0x07
abbrev St.wrongState : Nat := 0x08
abbrev St.configConflict : Nat := 0x09
abbrev St.configLocked : Nat := 0x0A
abbrev St.noSpace : Nat := 0x0B
abbrev St.staleHandle : Nat := 0x0C
abbrev St.queueFull : Nat := 0x0D
abbrev St.slotMismatch : Nat := 0x0E
abbrev St.vatInService : Nat := 0x0F
abbrev St.memPoisoned : Nat := 0x10
abbrev St.scratchBounds : Nat := 0x11
abbrev St.objectUnknown : Nat := 0x20
abbrev St.readOnly : Nat := 0x21
abbrev St.writeOnly : Nat := 0x22
abbrev St.commandBusy : Nat := 0x23
abbrev St.messageFormat : Nat := 0x24
abbrev St.invalidTable : Nat := 0x25
abbrev St.wheelFormat : Nat := 0x30
abbrev St.wheelNotRecipient : Nat := 0x31
abbrev St.wheelAuth : Nat := 0x32
abbrev St.wheelSignature : Nat := 0x33
abbrev St.wheelCheckMismatch : Nat := 0x34
abbrev St.nonfiniteWeight : Nat := 0x35
abbrev St.replicaPending : Nat := 0x36
abbrev St.epochInvalid : Nat := 0x37
abbrev St.swapStalled : Nat := 0x38
abbrev St.aborted : Nat := 0x39
abbrev St.replicaLost : Nat := 0x3A
abbrev St.descriptorFormat : Nat := 0x40
abbrev St.unknownOpcode : Nat := 0x41
abbrev St.inbufUnderflow : Nat := 0x42
abbrev St.dualUnresolved : Nat := 0x44
abbrev St.kvNotAppended : Nat := 0x45
abbrev St.complete : Nat := 0x50
abbrev St.cancelled : Nat := 0x51
abbrev St.alreadyComplete : Nat := 0x52
abbrev St.unknownRequest : Nat := 0x53
abbrev St.nonfiniteLogits : Nat := 0x54
abbrev St.seqInvalid : Nat := 0x55
abbrev St.epochMismatch : Nat := 0x56
abbrev St.moduleLost : Nat := 0x57
abbrev St.miswired : Nat := 0x60
abbrev St.versionMismatch : Nat := 0x61
abbrev St.peerQuarantined : Nat := 0x62
abbrev St.routeUnreachable : Nat := 0x63
abbrev St.peerLost : Nat := 0x64
abbrev St.streamExhausted : Nat := 0x65
abbrev St.collMemberLost : Nat := 0x66
abbrev St.capabilityMismatch : Nat := 0x67
abbrev St.syncTimeout : Nat := 0x68
abbrev St.unitFenced : Nat := 0x70
abbrev St.unitRetired : Nat := 0x71
abbrev St.spareExhausted : Nat := 0x72
abbrev St.serviceLost : Nat := 0x73
abbrev St.sliceDegraded : Nat := 0x74
abbrev St.notStandby : Nat := 0x75
abbrev St.rebindUnknown : Nat := 0x76
abbrev St.brineFail : Nat := 0x77
abbrev St.thermalStop : Nat := 0x78
abbrev St.thermalHold : Nat := 0x79
abbrev St.thermalTrip : Nat := 0x7A
abbrev St.sensorFault : Nat := 0x7B
abbrev St.clockLost : Nat := 0x7C
abbrev St.supplyFault : Nat := 0x7D
abbrev St.powerBrake : Nat := 0x7E
abbrev St.lifecycleForbids : Nat := 0x80
abbrev St.transitionInvalid : Nat := 0x81
abbrev St.tokenInvalid : Nat := 0x82
abbrev St.tokenExpired : Nat := 0x83
abbrev St.partitionsPresent : Nat := 0x84
abbrev St.imageFormat : Nat := 0x85
abbrev St.imageSignature : Nat := 0x86
abbrev St.imageRollback : Nat := 0x87
abbrev St.notEnrolled : Nat := 0x88
abbrev St.peerUntrusted : Nat := 0x89

/-! Mechanisms (R362) -/

abbrev Mech.checkColumn : Nat := 1
abbrev Mech.splitOverrange : Nat := 2
abbrev Mech.tolRepeat : Nat := 3
abbrev Mech.calibration : Nat := 4
abbrev Mech.programVerify : Nat := 5
abbrev Mech.programCheck : Nat := 6
abbrev Mech.residue : Nat := 7
abbrev Mech.dualExec : Nat := 8
abbrev Mech.scratchEcc : Nat := 9
abbrev Mech.memoryEcc : Nat := 10
abbrev Mech.xtvE2eCrc : Nat := 11
abbrev Mech.xtvFormat : Nat := 12
abbrev Mech.link : Nat := 13
abbrev Mech.brine : Nat := 14
abbrev Mech.watchdog : Nat := 15
abbrev Mech.report : Nat := 16
abbrev Mech.environment : Nat := 17
abbrev Mech.peer : Nat := 18

/-! Unit kinds (R368) -/

abbrev Kind.module : Nat := 0
abbrev Kind.array : Nat := 1
abbrev Kind.engine : Nat := 2
abbrev Kind.vat : Nat := 3
abbrev Kind.core : Nat := 4
abbrev Kind.subPort : Nat := 5
abbrev Kind.slice : Nat := 6
abbrev Kind.press : Nat := 7
abbrev Kind.sensor : Nat := 8
abbrev Kind.chip : Nat := 9
abbrev Kind.object : Nat := 10

/-! Action bits (R368) -/

abbrev Act.fenced : Nat := 1
abbrev Act.replayed : Nat := 2
abbrev Act.remapped : Nat := 4
abbrev Act.retired : Nat := 8
abbrev Act.serviceLost : Nat := 16
abbrev Act.suspect : Nat := 32

end Sys2Proof.Machine
end

