-- ==== Sys2Proof/Machine/Ops.lean ====
section
/-! DEFINITION. The named operations over the state that every family shares: units and their presence, sent messages,
free values, memory, and error records. -/

namespace Sys2Proof.Machine

/-! ## Units (R12, R21, R38) -/

def vatPresent (s : State) (v : Nat) : Bool := v < 8 && (s.fuse.variant != 3 || v < 6)

/-- Slices 0–5 are A0–A5, 6–7 are B0–B1 (R247); B0 and B1 are absent on a KDM-16L. -/
def slicePresent (s : State) (k : Nat) : Bool := k < 6 || (k < 8 && s.fuse.variant != 2)

def hasCave (s : State) : Bool := s.fuse.variant != 2

def arrPresent (s : State) (n : Nat) : Bool := n < 17408 && vatPresent s (n / 2176)

def engPresent (s : State) (n : Nat) : Bool := n < 512 && vatPresent s (n / 64)

/-- Present vats, ascending. -/
def vatsOf (s : State) : List Nat := (List.range 8).filter (vatPresent s)

/-- Passes and tasks run: S0 with the core PLL locked (R398, R406). -/
def running (s : State) : Bool := s.pwr.state = .s0 && s.pwr.coreLock

def State.arrAt (s : State) (n : Nat) : ArrSt := tget {} s.arr n

def State.setArr (s : State) (n : Nat) (a : ArrSt) : State := { s with arr := tput {} s.arr n a }

def State.modArr (s : State) (n : Nat) (f : ArrSt → ArrSt) : State := s.setArr n (f (s.arrAt n))

def State.vatAt (s : State) (v : Nat) : VatSt := tget {} s.vat v

def State.setVat (s : State) (v : Nat) (a : VatSt) : State := { s with vat := tput {} s.vat v a }

def State.modVat (s : State) (v : Nat) (f : VatSt → VatSt) : State := s.setVat v (f (s.vatAt v))

def State.engAt (s : State) (n : Nat) : EngSt := tget {} s.eng.eng n

def State.setEng (s : State) (n : Nat) (e : EngSt) : State :=
  { s with eng := { s.eng with eng := tput {} s.eng.eng n e } }

def State.modEng (s : State) (n : Nat) (f : EngSt → EngSt) : State := s.setEng n (f (s.engAt n))

def State.partAt (s : State) (p : Nat) : PartSt := tget {} s.sec.parts p

def State.setPart (s : State) (p : Nat) (a : PartSt) : State :=
  { s with sec := { s.sec with parts := tput {} s.sec.parts p a } }

def State.whlAt (s : State) (p : Nat) : WhlSt := tget {} s.whl.parts p

def State.setWhl (s : State) (p : Nat) (w : WhlSt) : State :=
  { s with whl := { s.whl with parts := tput {} s.whl.parts p w } }

def State.modWhl (s : State) (p : Nat) (f : WhlSt → WhlSt) : State := s.setWhl p (f (s.whlAt p))

def State.sliceAt (s : State) (k : Nat) : SliceSt := tget {} s.mem.slices k

/-- Two marked dies lie in one device (R257, R262); dies are numbered by 256 times the device. -/
def noChipkill (l : List Nat) : Bool := l.any (fun d => 2 ≤ (l.filter (fun e => e / 256 = d / 256)).length)

def State.setSlice (s : State) (k : Nat) (a : SliceSt) : State :=
  { s with mem := { s.mem with slices := tput {} s.mem.slices k a } }

def State.objAt (s : State) (n : Nat) : SyncObj := tget {} s.syn.objs n

def State.setObj (s : State) (n : Nat) (o : SyncObj) : State :=
  { s with syn := { s.syn with objs := tput {} s.syn.objs n o } }

def State.slotAt (s : State) (n : Nat) : ChanSlot := tget {} s.syn.slots n

def State.setSlot (s : State) (n : Nat) (c : ChanSlot) : State :=
  { s with syn := { s.syn with slots := tput {} s.syn.slots n c } }

def State.mbxAt (s : State) (n : Nat) : Mbx := tget {} s.syn.mbx n

def State.setMbx (s : State) (n : Nat) (m : Mbx) : State :=
  { s with syn := { s.syn with mbx := tput {} s.syn.mbx n m } }

def State.portAt (s : State) (p : Nat) : PortSt := tget {} s.fab.ports p

def State.setPort (s : State) (p : Nat) (a : PortSt) : State :=
  { s with fab := { s.fab with ports := tput {} s.fab.ports p a } }

def State.modPort (s : State) (p : Nat) (f : PortSt → PortSt) : State := s.setPort p (f (s.portAt p))

def State.subAt (s : State) (p k : Nat) : SubSt := tget {} (s.portAt p).subs k

def State.setSub (s : State) (p k : Nat) (a : SubSt) : State :=
  s.modPort p (fun q => { q with subs := tput {} q.subs k a })

def State.modSub (s : State) (p k : Nat) (f : SubSt → SubSt) : State := s.setSub p k (f (s.subAt p k))

def dfltSession : Session := { cls := 0, part := 0, row := none, digest := [] }

def State.sessAt (s : State) (n : Nat) : Session := tget dfltSession s.dic.sessions n

def State.setSess (s : State) (n : Nat) (a : Session) : State :=
  { s with dic := { s.dic with sessions := tput dfltSession s.dic.sessions n a } }

def State.modSess (s : State) (n : Nat) (f : Session → Session) : State := s.setSess n (f (s.sessAt n))

/-- A partition that has been created (R449): active or releasing. -/
def partCreated (s : State) (p : Nat) : Bool := p != 0 && (s.partAt p).state != 0

/-- Created partitions, ascending. -/
def partsOf (s : State) : List Nat := (s.sec.parts.filter (fun q => q.1 != 0 && q.2.state != 0)).map (·.1)

/-- The physical array, by global number, that holds a logical slot (R21–R23). -/
def physOf (s : State) (v l : Nat) : Nat := tget (v * 2176 + (l / 16) * 17 + l % 16) (s.vatAt v).slotMap l

/-- The logical slot that a physical array holds, if it holds one. -/
def slotOf (s : State) (n : Nat) : Option Nat :=
  let v := n / 2176
  match (s.vatAt v).slotMap.find? (fun q => q.2 = n) with
  | some q => some q.1
  | none =>
    let loc := n % 2176
    let l := (loc / 17) * 16 + loc % 17
    if loc % 17 < 16 && physOf s v l = n then some l else none

/-- The partition to which a logical slot of a vat is assigned (R450), 0 when none. -/
def slotPart (s : State) (v l : Nat) : Nat :=
  match s.sec.parts.find? (fun q => let r := tget (0, 0) q.2.arrays v; r.1 ≤ l && l < r.1 + r.2) with
  | some q => q.1
  | none => 0

/-- The partition whose logical slot a physical array holds, 0 when none. -/
def arrPart (s : State) (n : Nat) : Nat :=
  match slotOf s n with
  | some l => slotPart s (n / 2176) l
  | none => 0

/-! ## Sent messages and free values -/

def State.emit (s : State) (o : Out) : State := { s with out := o :: s.out }

def State.emits (s : State) (l : List Out) : State := { s with out := l.reverse ++ s.out }

/-- The index of the next free value, and the state that has used it. -/
def State.fresh (s : State) : Nat × State := (s.free, { s with free := s.free + 1 })

/-! ## Telemetry counters (R340) -/

def State.tel (s : State) (p tokens passes ns bytes : Nat) : State :=
  if p = 0 then s else
  let t := tget (0, 0, 0, 0) s.dic.telRun p
  let r := tput (0, 0, 0, 0) s.dic.telRun p (t.1 + tokens, t.2.1 + passes, t.2.2.1 + ns, t.2.2.2 + bytes)
  { s with dic := { s.dic with telRun := r } }

/-! ## Memory (R247–R257) -/

/-- The key of a byte: slice and slice offset. -/
def memKey (slice off : Nat) : Nat := slice * 2 ^ 40 + off

/-- The key of the line that holds a byte. -/
def lineKey (k : Nat) : Nat := (k / 2 ^ 40) * 2 ^ 40 + (k % 2 ^ 40) / 64

def memByte (s : State) (k : Nat) : Byte := tget 0 s.mem.bytes k

def putBytes (m : Tab Byte) : List Nat → Octets → Tab Byte
  | k :: ks, b :: bs => putBytes (tput 0 m k b) ks bs
  | _, _ => m

/-- Bytes a region holds (R249). -/
def regionBytes (r : Region) : Nat := popcount r.mask 8 * r.n * 2 ^ 30

/-- Interleave within a region (R250). -/
def regionKey (r : Region) (x : Nat) : Nat :=
  let sl := bitsOf r.mask 8
  let k := sl.length
  let g := x / 256
  memKey ((if r.tier = 1 then 6 else 0) + sl.getD (g % k) 0) (r.g * 2 ^ 30 + (g / k) * 256 + x % 256)

def regionsOf (s : State) (part tier : Nat) : List Region :=
  s.mem.regions.filter (fun r => r.part = part && r.tier = tier)

def spaceSize (s : State) (part tier : Nat) : Nat := ((regionsOf s part tier).map regionBytes).sum

def spaceKeyIn : List Region → Nat → Option Nat
  | [], _ => none
  | r :: t, x => if x < regionBytes r then some (regionKey r x) else spaceKeyIn t (x - regionBytes r)

/-- The key of an offset of a partition's tier A (0) or cave (1) space (R251). -/
def spaceKey (s : State) (part tier off : Nat) : Option Nat := spaceKeyIn (regionsOf s part tier) off

/-- Keys of `n` consecutive offsets. -/
def spaceKeys (s : State) (part tier off n : Nat) : List Nat :=
  (List.range n).filterMap (fun i => spaceKey s part tier (off + i))

/-- The lines of a space that `n` octets at an offset touch, with whether the access covers the whole line. -/
def linesOf (off n : Nat) : List (Nat × Bool) :=
  if n = 0 then [] else
  (List.range ((off + n - 1) / 64 - off / 64 + 1)).map (fun i =>
    let l := off / 64 + i
    (l * 64, off ≤ l * 64 && l * 64 + 64 ≤ off + n))

def lineOf (s : State) (part tier off : Nat) : Option Nat := (spaceKey s part tier off).map lineKey

/-- Whether a byte key lies in a region (R249). -/
def inRegion (r : Region) (k : Nat) : Bool :=
  let sl := k / 2 ^ 40
  let o := k % 2 ^ 40
  (bitsOf r.mask 8).any (fun i => (if r.tier = 1 then 6 else 0) + i = sl) && r.g * 2 ^ 30 ≤ o && o < (r.g + r.n) * 2 ^ 30

/-- A poisoned line (R257), or one that decrypts to garbage (R467). -/
def linePoisoned (s : State) (l : Nat) : Bool :=
  s.mem.poison.contains l ||
    (s.mem.garbled.any (fun r => inRegion r (l / 2 ^ 40 * 2 ^ 40 + l % 2 ^ 40 * 64)) && !(s.mem.rewritten.contains l))

/-- A read of a partition's space: ACCESS_UNMAPPED past its end (R251), MEM_POISONED on a poisoned line (R257). -/
def memRead (s : State) (part tier off n : Nat) : Except Nat Octets :=
  if spaceSize s part tier < off + n then .error St.accessUnmapped
  else if (linesOf off n).any (fun l => (lineOf s part tier l.1).any (linePoisoned s)) then .error St.memPoisoned
  else .ok ((spaceKeys s part tier off n).map (memByte s))

/-- A write to a partition's space: a partial write of a poisoned line is refused, a full one clears the poison (R257). -/
def memWrite (s : State) (part tier off : Nat) (d : Octets) : Nat × State :=
  let n := d.length
  if spaceSize s part tier < off + n then (St.accessUnmapped, s)
  else
    let ls := (linesOf off n).filterMap (fun l => (lineOf s part tier l.1).map (·, l.2))
    if ls.any (fun l => linePoisoned s l.1 && !l.2) then (St.memPoisoned, s)
    else
      let m := { s.mem with
        bytes := putBytes s.mem.bytes (spaceKeys s part tier off n) d
        poison := s.mem.poison.filter (fun k => !(ls.any (fun l => l.1 = k)))
        rewritten := if s.mem.garbled.isEmpty then s.mem.rewritten
          else s.mem.rewritten ++ (ls.map (·.1)).filter (fun k => !(s.mem.rewritten.contains k)) }
      (St.ok, State.tel { s with mem := m } part 0 0 0 n)

/-- The read of one byte of a partition's space, 0 where the space has none: the model's read for frames. -/
def spaceByte (s : State) (part tier off : Nat) : Byte :=
  match spaceKey s part tier off with
  | some k => memByte s k
  | none => 0

/-- Where an offset of the exported space lies (R254). -/
inductive ExpAt where
  | space (tier off : Nat)
  | sync (off : Nat)
  | bad (status : Nat)
  deriving DecidableEq, Repr

def expAt (s : State) (off : Nat) : ExpAt :=
  if off < 2 ^ 40 then .space 0 off
  else if 0x020000000000 ≤ off && off < 0x040000000000 then
    (if hasCave s then .space 1 (off - 0x020000000000) else .bad St.unitAbsent)
  else if 0x040000000000 ≤ off && off ≤ 0x040000FFFFFF then .sync (off - 0x040000000000)
  else .bad St.accessUnmapped

def expRead (s : State) (part off n : Nat) : Except Nat Octets :=
  match expAt s off with
  | .space t o => memRead s part t o n
  | .sync _ => .error St.accessUnmapped
  | .bad e => .error e

def expWrite (s : State) (part off : Nat) (d : Octets) : Nat × State :=
  match expAt s off with
  | .space t o => memWrite s part t o d
  | .sync _ => (St.accessUnmapped, s)
  | .bad e => (e, s)

/-- Zeroing the bytes of a slice range: every listed byte of it is removed (R256, R260). -/
def zeroKeys (s : State) (p : Nat → Bool) : State :=
  let line (k : Nat) : Bool := !(p ((k / 2 ^ 40) * 2 ^ 40 + (k % 2 ^ 40) * 64))
  let m := { s.mem with
    bytes := s.mem.bytes.filter (fun c => !(p c.1)), poison := s.mem.poison.filter line
    garbled := s.mem.garbled.filter (fun r => !(p (regionKey r 0))), rewritten := s.mem.rewritten.filter line }
  { s with mem := m }

/-! ## Error records (R368–R370) -/

/-- The sensor that covers a unit (R412); for the others of R368 the nearest one is open. -/
def unitSensor (kind unit : Nat) : Nat :=
  if kind = Kind.array then 32 * (unit / 2176) + (unit % 2176) / 68
  else if kind = Kind.engine then 32 * (unit / 64) + (unit % 64) / 2
  else if kind = Kind.subPort then 264 + unit / 4
  else if kind = Kind.slice then 256 + unit
  else if kind = Kind.sensor then unit
  else Config.nearSensor kind unit % 288

/-- The monitor input of a unit's supply (R422). -/
def unitRail (kind unit : Nat) : Nat :=
  if kind = Kind.array then unit / 2176
  else if kind = Kind.engine then unit / 64
  else if kind = Kind.vat then unit
  else if kind = Kind.subPort then 22
  else if kind = Kind.slice then (if unit < 6 then 18 else 20)
  else if kind = Kind.core then (if 2 ≤ unit then unit - 2 else 24)
  else Config.supplyRail kind unit % 64

/-- Full scale of a voltage input, mV (R422). -/
def railFs (input : Nat) : Nat :=
  if input = 18 || input = 20 then 1500 else if input = 26 then 80000 else 1200

/-- The last reading of a monitor input, mV (R422). -/
def railMv (s : State) (input : Nat) : Nat := tget 0 s.pwr.lastCode input * railFs input / 4096

def sensorAt (s : State) (i : Nat) : Sensor := tget {} s.pwr.sensors i

def healthTab (s : State) (kind : Nat) : Tab HealthSt :=
  if kind = Kind.array then s.flt.arrays else if kind = Kind.engine then s.flt.engines
  else if kind = Kind.vat then s.flt.vats else []

def healthAt (s : State) (kind unit : Nat) : HealthSt := tget {} (healthTab s kind) unit

def setHealth (s : State) (kind unit : Nat) (h : HealthSt) : State :=
  if kind = Kind.array then { s with flt := { s.flt with arrays := tput {} s.flt.arrays unit h } }
  else if kind = Kind.engine then { s with flt := { s.flt with engines := tput {} s.flt.engines unit h } }
  else if kind = Kind.vat then { s with flt := { s.flt with vats := tput {} s.flt.vats unit h } }
  else s

/-- FENCES: fences of a unit in the last 86,400 s of powered time, saturating at 255 (R368). -/
def fencesOf (s : State) (kind unit : Nat) : Nat :=
  min 255 ((healthAt s kind unit).times.filter (fun t => s.powered ≤ t + 86400 * 10 ^ 9)).length

/-- One step of CRC-32C (reflected polynomial 0x82F63B78) over an octet. -/
def crc32cByte (c : Word) (b : Byte) : Word :=
  (List.range 8).foldl (fun c _ => if c.getLsbD 0 then (c >>> 1) ^^^ 0x82F63B78 else c >>> 1) (c ^^^ b.setWidth 32)

def crc32c (o : Octets) : Word := ~~~ (o.foldl crc32cByte 0xFFFFFFFF)

/-- The 60 octets of a record before its CRC (R368). -/
def errBody (r : ErrRec) : Octets :=
  natLe 4 r.seqno ++ natLe 1 r.mech ++ natLe 1 r.status ++ natLe 1 r.action ++ natLe 1 r.unitKind ++ natLe 4 r.unit
    ++ natLe 2 r.part ++ natLe 2 r.operation ++ natLe 8 r.step ++ natLe 8 r.time ++ natLe 2 r.sensor
    ++ natLe 2 (toField 16 r.temp) ++ natLe 1 r.rail ++ [0] ++ natLe 2 r.railMv ++ natLe 4 r.tag ++ natLe 4 r.detailA
    ++ natLe 8 r.detailB ++ natLe 1 r.fences ++ [0, 0, 0]

def errOctets (r : ErrRec) : Octets := errBody r ++ natLe 4 (crc32c (errBody r)).toNat

/-- What a PARTITION session sees of a record of its sequence (R370). -/
def errForPart (r : ErrRec) : ErrRec :=
  { r with time := r.time / 10000000 * 10000000, sensor := 0, temp := 0, rail := 0, railMv := 0 }

/-- Writes an error record (R368, R370): numbers it, stamps it and puts it into the rings; at OBSERVE or above the debug UART
carries its summary (R488). -/
def State.writeErr (s : State) (r : ErrRec) : State :=
  let sensor := if r.sensor = 0 then unitSensor r.unitKind r.unit else r.sensor
  let rail := unitRail r.unitKind r.unit
  let r := { r with
    seqno := s.flt.count % 2 ^ 32, step := s.srv.step, time := s.time, sensor := sensor,
    temp := (sensorAt s sensor).temp, rail := rail, railMv := railMv s rail,
    fences := fencesOf s r.unitKind r.unit }
  let f := { s.flt with
    recs := keep 8192 (r :: s.flt.recs), count := s.flt.count + 1, toStore := s.flt.toStore ++ [r] }
  let f := if r.part = 0 then f else
    let c := tget 0 f.partCount r.part
    { f with
      partRecs := tput [] f.partRecs r.part (keep 1024 ({ r with seqno := c % 2 ^ 32 } :: tget [] f.partRecs r.part))
      partCount := tput 0 f.partCount r.part (c + 1) }
  let s : State := { s with flt := f }
  if s.sec.debug = 0 then s else s.emit (.uart 1 (errOctets (errForPart r)))

/-- A record of an event or refusal (mechanism REPORT, R362). -/
def reportErr (status kind unit part : Nat) : ErrRec :=
  { mech := Mech.report, status := status, unitKind := kind, unit := unit, part := part }

/-! ## The clock -/

/-- One nanosecond of local and powered time while the module runs (R317, R405, R368); nothing in S4, where the counter is
off. Everything else that happens in time is a command of its own. -/
def tick (s : State) : State :=
  if s.pwr.state = .s4 then s else { s with time := (s.time + 1) % 2 ^ 64, powered := s.powered + 1 }

/-- Local time moves on to `t`, the earliest time a rule gives a command's event; later it stays as it is (entry 11). -/
def State.until (s : State) (t : Nat) : State :=
  if s.time < t then { s with time := t, powered := s.powered + (t - s.time) } else s

end Sys2Proof.Machine
end

