-- ==== Sys2Proof/Machine/ObjectTable.lean ====
section
/-! DEFINITION. The object table of the dictionary: one row per object row of the chapters (R38, R43, R78, R107, R145, R176,
R197, R213, R246, R263, R303, R331, R337–R341, R397, R431, R468), with the codes of R333 and R336. -/

namespace Sys2Proof.Machine

/-- A row of the object tables: index, first subindex, number of subindices, TYPE, ACCESS, RIGHTS, APPLIES, SIZE,
row size, FLAGS and name (R336). -/
structure ObjRow where
  index : Nat
  sub : Nat
  subs : Nat
  typ : Nat
  acc : Nat
  rights : Nat
  applies : Nat
  size : Nat
  row : Nat
  flags : Nat
  name : String
  deriving DecidableEq, Repr

def objRows0 : List ObjRow := [
  ⟨0x1000, 1, 1, 11, 1, 16, 5, 32, 0, 4, "ID_VENDOR"⟩,
  ⟨0x1000, 2, 1, 11, 1, 16, 5, 16, 0, 4, "ID_PRODUCT"⟩,
  ⟨0x1000, 3, 1, 5, 1, 16, 5, 8, 0, 0, "ID_SERIAL"⟩,
  ⟨0x1000, 4, 1, 11, 1, 16, 5, 8, 0, 4, "ID_LOT"⟩,
  ⟨0x1000, 5, 1, 2, 1, 16, 5, 1, 0, 0, "ID_WAFER"⟩,
  ⟨0x1000, 6, 1, 6, 1, 16, 5, 1, 0, 0, "ID_DIE_X"⟩,
  ⟨0x1000, 7, 1, 6, 1, 16, 5, 1, 0, 0, "ID_DIE_Y"⟩,
  ⟨0x1000, 8, 1, 12, 1, 16, 5, 97, 0, 0, "ID_PUBKEY"⟩,
  ⟨0x1000, 9, 1, 12, 1, 16, 5, 8192, 0, 4, "ID_CERT_CHAIN"⟩,
  ⟨0x1000, 10, 1, 12, 1, 16, 5, 6, 0, 0, "ID_MGMT_MAC"⟩,
  ⟨0x1100, 1, 1, 2, 1, 16, 5, 1, 0, 0, "CAP_VARIANT"⟩,
  ⟨0x1100, 2, 1, 11, 1, 16, 5, 2, 0, 4, "CAP_DIE_STEPPING"⟩,
  ⟨0x1101, 1, 8, 1, 1, 16, 5, 1, 0, 0, "CAP_VAT_PRESENT"⟩,
  ⟨0x1102, 1, 8, 3, 1, 16, 5, 2, 0, 0, "CAP_ARRAYS_PHYSICAL"⟩,
  ⟨0x1103, 1, 8, 3, 1, 16, 5, 2, 0, 0, "CAP_ARRAYS_SPARE"⟩,
  ⟨0x1104, 1, 8, 5, 1, 16, 5, 8, 0, 0, "CAP_ENGINE_MAP"⟩,
  ⟨0x1105, 1, 6, 3, 1, 16, 5, 2, 0, 0, "CAP_TIER_A_GIB"⟩,
  ⟨0x1106, 1, 2, 3, 1, 16, 5, 2, 0, 0, "CAP_TIER_B_GIB"⟩,
  ⟨0x1107, 1, 1, 4, 1, 16, 5, 4, 0, 0, "CAP_PORT_MAP"⟩,
  ⟨0x1107, 2, 1, 2, 1, 16, 5, 1, 0, 0, "CAP_PRESS_UNITS"⟩,
  ⟨0x1108, 1, 1, 4, 1, 16, 5, 4, 0, 0, "CAP_SYNC_OBJECTS"⟩,
  ⟨0x1108, 2, 1, 4, 1, 16, 5, 4, 0, 0, "CAP_CHANNEL_SLOTS"⟩,
  ⟨0x1108, 3, 1, 4, 1, 16, 5, 4, 0, 0, "CAP_ROCE_QPS"⟩,
  ⟨0x1108, 4, 1, 4, 1, 16, 5, 4, 0, 0, "CAP_SEQUENCES"⟩]

def objRows1 : List ObjRow := [
  ⟨0x1108, 5, 1, 4, 1, 16, 5, 4, 0, 0, "CAP_HOT_ROW_ENTRIES"⟩,
  ⟨0x1108, 6, 1, 2, 1, 16, 5, 1, 0, 0, "CAP_MAILBOXES"⟩,
  ⟨0x1200, 1, 1, 3, 2, 2, 0, 2, 0, 0, "TOPO_POD"⟩,
  ⟨0x1200, 2, 1, 3, 2, 2, 0, 2, 0, 0, "TOPO_BOARD"⟩,
  ⟨0x1200, 3, 1, 2, 2, 2, 0, 1, 0, 0, "TOPO_SLOT"⟩,
  ⟨0x1200, 4, 1, 3, 2, 2, 0, 2, 0, 0, "TOPO_CHIP"⟩,
  ⟨0x1201, 1, 1, 2, 1, 16, 5, 1, 0, 0, "TOPO_STRAPS"⟩,
  ⟨0x1201, 2, 1, 2, 1, 16, 5, 1, 0, 0, "TOPO_BOARD_CLASS"⟩,
  ⟨0x1205, 0, 1, 14, 1, 16, 5, 128, 16, 0, "TOPO_DISTANCE"⟩,
  ⟨0x1800, 1, 1, 4, 1, 16, 5, 4, 0, 0, "FW_VERSION"⟩,
  ⟨0x1800, 2, 1, 3, 1, 16, 5, 2, 0, 0, "FW_ROLLBACK"⟩,
  ⟨0x1800, 3, 1, 2, 1, 16, 0, 1, 0, 0, "LIFECYCLE"⟩,
  ⟨0x1800, 4, 1, 2, 1, 16, 0, 1, 0, 0, "DEBUG_LEVEL"⟩,
  ⟨0x1801, 1, 1, 12, 4, 3, 0, 67108864, 0, 4, "FW_STAGE"⟩,
  ⟨0x1801, 2, 1, 15, 5, 3, 5, 1, 0, 8, "FW_ACTIVATE"⟩,
  ⟨0x1802, 1, 1, 15, 5, 2, 5, 1, 0, 9, "CFG_DEFAULTS"⟩,
  ⟨0x1810, 1, 1, 2, 2, 16, 0, 1, 0, 0, "MBX_SELECT"⟩,
  ⟨0x1810, 2, 1, 12, 2, 16, 0, 256, 0, 0, "MBX_MSG"⟩,
  ⟨0x1810, 3, 1, 15, 5, 16, 0, 2, 0, 8, "MBX_DOORBELL"⟩,
  ⟨0x1820, 1, 1, 3, 2, 2, 5, 2, 0, 0, "FAP_UDP_PORT"⟩,
  ⟨0x1820, 2, 1, 12, 2, 2, 5, 16, 0, 0, "FAP_MGMT_ADDR"⟩,
  ⟨0x1820, 3, 1, 1, 2, 2, 0, 1, 0, 0, "FAP_INBAND_EN"⟩,
  ⟨0x1820, 4, 1, 3, 2, 2, 0, 2, 0, 0, "FAP_IDLE_S"⟩,
  ⟨0x1820, 5, 1, 2, 1, 2, 0, 1, 0, 0, "FAP_SESSIONS"⟩]

def objRows2 : List ObjRow := [
  ⟨0x1820, 6, 1, 5, 1, 2, 0, 8, 0, 0, "FAP_AUTH_FAIL"⟩,
  ⟨0x1820, 7, 1, 5, 1, 2, 0, 8, 0, 0, "FAP_REPLAY_DROP"⟩,
  ⟨0x2010, 1, 1, 15, 5, 2, 0, 4, 0, 0, "ARR_CAL_START"⟩,
  ⟨0x2011, 1, 1, 4, 2, 2, 0, 4, 0, 0, "ARR_DRIFT_LIMIT"⟩,
  ⟨0x2011, 2, 1, 2, 2, 2, 0, 1, 0, 0, "ARR_DRIFT_DELTA_T"⟩,
  ⟨0x2011, 3, 1, 4, 2, 2, 0, 4, 0, 0, "ARR_IDLE_HOLD_NS"⟩,
  ⟨0x2012, 1, 8, 5, 1, 16, 0, 8, 0, 0, "ARR_CAL_TIME"⟩,
  ⟨0x2020, 1, 1, 12, 4, 12, 0, 1056, 0, 0, "PER_TABLE_STAGE"⟩,
  ⟨0x2020, 2, 1, 15, 5, 12, 2, 4, 0, 0, "PER_TABLE_LOAD"⟩,
  ⟨0x2021, 1, 8, 5, 1, 2, 0, 8, 0, 0, "PER_SAT_TOTAL"⟩,
  ⟨0x2022, 1, 8, 5, 1, 2, 0, 8, 0, 0, "PER_CONFLICT_TOTAL"⟩,
  ⟨0x2040, 1, 1, 2, 2, 2, 0, 1, 0, 0, "VE_DUAL_LOG2"⟩,
  ⟨0x2040, 2, 1, 2, 2, 2, 2, 1, 0, 1, "VE_DUAL_TOL_BITS"⟩,
  ⟨0x2040, 3, 1, 1, 2, 2, 2, 1, 0, 0, "VE_CROSS_POOL_STEAL"⟩,
  ⟨0x2040, 4, 1, 2, 2, 2, 2, 1, 0, 0, "VE_XVAT_MIN_DEPTH"⟩,
  ⟨0x2040, 5, 1, 4, 2, 2, 0, 4, 0, 0, "VE_IDLE_HOLD_NS"⟩,
  ⟨0x2041, 1, 1, 15, 5, 8, 2, 32, 0, 0, "VE_INBUF_SET"⟩,
  ⟨0x2042, 1, 8, 5, 1, 2, 0, 8, 0, 0, "VE_TASKS_TOTAL"⟩,
  ⟨0x2043, 1, 8, 5, 1, 2, 0, 8, 0, 0, "VE_DUAL_MISMATCH_TOTAL"⟩,
  ⟨0x3000, 1, 1, 3, 1, 16, 5, 2, 0, 0, "XTV_VER_RANGE"⟩,
  ⟨0x3000, 2, 1, 2, 2, 2, 0, 1, 0, 0, "XTV_MISWIRE_POLICY"⟩,
  ⟨0x3000, 3, 1, 3, 2, 2, 5, 2, 0, 0, "XTV_VLAN"⟩,
  ⟨0x3000, 4, 1, 2, 2, 2, 0, 1, 0, 0, "XTV_KEEPALIVE_US"⟩,
  ⟨0x3000, 5, 1, 3, 2, 2, 0, 2, 0, 0, "XTV_PEER_TIMEOUT_US"⟩]

def objRows3 : List ObjRow := [
  ⟨0x3000, 6, 1, 3, 2, 2, 0, 2, 0, 0, "XTV_E2E_TIMEOUT_US"⟩,
  ⟨0x3000, 7, 1, 2, 2, 2, 0, 1, 0, 0, "XTV_E2E_RETRY_MAX"⟩,
  ⟨0x3000, 8, 1, 2, 2, 2, 0, 1, 0, 0, "XTV_REPLAY_MAX"⟩,
  ⟨0x3000, 9, 1, 3, 2, 2, 0, 2, 0, 0, "XTV_E2E_WINDOW_KIB"⟩,
  ⟨0x3000, 10, 1, 4, 2, 2, 3, 4, 0, 0, "XTV_WEIGHTS"⟩,
  ⟨0x3000, 11, 1, 3, 2, 2, 0, 2, 0, 0, "XTV_HELLO_TIMEOUT_MS"⟩,
  ⟨0x3001, 1, 24, 2, 2, 2, 0, 1, 0, 1, "PORT_CFG"⟩,
  ⟨0x3002, 0, 1, 14, 2, 2, 0, 2096608, 32, 1, "XTV_ROUTE"⟩,
  ⟨0x3003, 1, 16, 4, 2, 2, 0, 4, 0, 0, "XTV_MCAST"⟩,
  ⟨0x3004, 1, 1, 15, 5, 8, 0, 192, 0, 0, "COLL_CREATE"⟩,
  ⟨0x3004, 2, 1, 15, 5, 8, 0, 4, 0, 0, "COLL_DESTROY"⟩,
  ⟨0x3005, 1, 1, 2, 2, 2, 0, 1, 0, 0, "ROCE_PRIORITY"⟩,
  ⟨0x3005, 2, 1, 3, 2, 2, 0, 2, 0, 0, "ROCE_MTU"⟩,
  ⟨0x3006, 1, 4, 12, 2, 2, 0, 16, 0, 0, "ROCE_ADDR"⟩,
  ⟨0x3100, 1, 1, 15, 5, 8, 0, 4, 0, 0, "SYNC_ALLOC"⟩,
  ⟨0x3100, 2, 1, 15, 5, 8, 0, 8, 0, 0, "SYNC_FREE"⟩,
  ⟨0x3100, 3, 1, 15, 5, 8, 0, 32, 0, 0, "SYNC_CONFIG"⟩,
  ⟨0x3100, 4, 1, 3, 2, 8, 0, 2, 0, 0, "SYNC_SELECT"⟩,
  ⟨0x3100, 5, 1, 12, 1, 8, 0, 48, 0, 0, "SYNC_VIEW"⟩,
  ⟨0x3100, 6, 1, 4, 1, 2, 0, 4, 0, 0, "SYNC_FREE_NUM"⟩,
  ⟨0x3101, 1, 1, 15, 5, 8, 0, 160, 0, 0, "SYNC_GROUP_CREATE"⟩,
  ⟨0x3101, 2, 1, 15, 5, 8, 0, 4, 0, 0, "SYNC_GROUP_DESTROY"⟩,
  ⟨0x3102, 1, 1, 15, 5, 8, 0, 8, 0, 0, "STREAM_OPEN"⟩,
  ⟨0x3102, 2, 1, 15, 5, 8, 0, 4, 0, 0, "STREAM_CLOSE"⟩]

def objRows4 : List ObjRow := [
  ⟨0x3103, 1, 1, 15, 5, 8, 0, 32, 0, 0, "QP_CREATE"⟩,
  ⟨0x3103, 2, 1, 15, 5, 8, 0, 4, 0, 0, "QP_DESTROY"⟩,
  ⟨0x3103, 3, 1, 12, 1, 8, 0, 8, 0, 0, "SESSION_RESULT"⟩,
  ⟨0x3104, 1, 1, 15, 5, 8, 0, 32, 0, 0, "TASK_CHAN_OPEN"⟩,
  ⟨0x3104, 2, 1, 15, 5, 8, 0, 4, 0, 0, "TASK_CHAN_CLOSE"⟩,
  ⟨0x3105, 1, 1, 4, 1, 2, 0, 4, 0, 0, "CHAN_FREE_SLOTS"⟩,
  ⟨0x3105, 2, 1, 4, 1, 2, 0, 4, 0, 0, "SYNC_WAITERS_FREE"⟩,
  ⟨0x3800, 1, 1, 15, 5, 2, 2, 16, 0, 0, "MEM_REGION_SET"⟩,
  ⟨0x3800, 2, 1, 3, 2, 2, 0, 2, 0, 0, "MEM_REGION_SELECT"⟩,
  ⟨0x3800, 3, 1, 12, 1, 2, 0, 16, 0, 0, "MEM_REGION_VIEW"⟩,
  ⟨0x3801, 1, 1, 3, 1, 10, 2, 2, 0, 2, "MEM_A_SPACE_GIB"⟩,
  ⟨0x3801, 2, 1, 3, 1, 10, 2, 2, 0, 2, "MEM_B_SPACE_GIB"⟩,
  ⟨0x3802, 1, 1, 3, 2, 2, 0, 2, 0, 0, "MEM_SCRUB_HOURS"⟩,
  ⟨0x3803, 1, 8, 5, 1, 2, 0, 8, 0, 0, "MEM_CE_TOTAL"⟩,
  ⟨0x3804, 1, 8, 5, 1, 2, 0, 8, 0, 0, "MEM_UE_TOTAL"⟩,
  ⟨0x4000, 1, 1, 2, 2, 2, 5, 1, 0, 0, "WHL_STORE_SLOTS"⟩,
  ⟨0x4000, 2, 1, 2, 2, 2, 0, 1, 0, 0, "WHL_REPLICA_RATE"⟩,
  ⟨0x4000, 3, 1, 3, 2, 2, 0, 2, 0, 0, "WHL_REPLICA_HOLDER_0"⟩,
  ⟨0x4000, 4, 1, 3, 2, 2, 0, 2, 0, 0, "WHL_REPLICA_HOLDER_1"⟩,
  ⟨0x4000, 5, 1, 1, 2, 2, 0, 1, 0, 0, "WHL_REPLICA_REQUIRED"⟩,
  ⟨0x4000, 6, 1, 3, 2, 6, 0, 2, 0, 0, "WHL_PARTITION"⟩,
  ⟨0x4001, 1, 1, 15, 5, 6, 0, 8, 0, 2, "WHL_STAGE"⟩,
  ⟨0x4001, 2, 1, 15, 5, 6, 0, 1, 0, 2, "WHL_VERIFY"⟩,
  ⟨0x4001, 3, 1, 15, 5, 14, 0, 4, 0, 2, "WHL_PLACE"⟩]

def objRows5 : List ObjRow := [
  ⟨0x4001, 4, 1, 15, 5, 14, 2, 36, 0, 2, "WHL_ARM"⟩,
  ⟨0x4001, 5, 1, 15, 5, 14, 0, 1, 0, 2, "WHL_CANCEL"⟩,
  ⟨0x4002, 1, 1, 2, 1, 16, 0, 1, 0, 2, "WHL_STATE"⟩,
  ⟨0x4002, 2, 1, 3, 1, 16, 0, 2, 0, 2, "WHL_RESULT"⟩,
  ⟨0x4003, 1, 1, 4, 1, 16, 2, 4, 0, 2, "WHL_EPOCH"⟩,
  ⟨0x4003, 2, 1, 12, 1, 16, 2, 48, 0, 2, "WHL_DIGEST"⟩,
  ⟨0x4003, 3, 1, 12, 1, 16, 2, 16, 0, 2, "WHL_ID"⟩,
  ⟨0x4004, 1, 8, 3, 3, 2, 2, 2, 0, 3, "RELOAD_POOL_ARRAYS"⟩,
  ⟨0x4005, 1, 1, 2, 2, 6, 2, 1, 0, 2, "SWAP_KV_POLICY"⟩,
  ⟨0x4005, 2, 1, 4, 2, 2, 0, 4, 0, 2, "SWAP_HOLD_ALARM_MS"⟩,
  ⟨0x4006, 1, 1, 15, 5, 8, 0, 8, 0, 2, "OPEN_WRITE"⟩,
  ⟨0x4007, 1, 1, 4, 1, 2, 0, 4, 0, 0, "WHL_AGE_MAX"⟩,
  ⟨0x4007, 2, 1, 5, 1, 2, 0, 8, 0, 0, "WHL_PROGRAM_MAX"⟩,
  ⟨0x4010, 1, 1, 15, 5, 8, 2, 72, 0, 0, "SEQ_EDIT"⟩,
  ⟨0x4010, 2, 1, 3, 2, 8, 0, 2, 0, 0, "SEQ_SELECT"⟩,
  ⟨0x4010, 3, 1, 12, 1, 8, 0, 64, 0, 0, "SEQ_VIEW"⟩,
  ⟨0x4011, 1, 1, 2, 2, 6, 2, 1, 0, 3, "KV_HEADROOM_LOG2"⟩,
  ⟨0x4011, 2, 1, 3, 2, 6, 2, 2, 0, 2, "ATTN_SPLIT_BLOCKS"⟩,
  ⟨0x4012, 1, 1, 5, 1, 10, 0, 8, 0, 2, "KV_RESCALE_CNT"⟩,
  ⟨0x4012, 2, 1, 5, 1, 10, 0, 8, 0, 2, "KV_CLAMP_CNT"⟩,
  ⟨0x4012, 3, 1, 5, 1, 10, 0, 8, 0, 2, "KV_NONFINITE_CNT"⟩,
  ⟨0x4012, 4, 1, 4, 1, 10, 2, 4, 0, 2, "SEQ_LIVE"⟩,
  ⟨0x4020, 1, 1, 15, 5, 8, 2, 72, 0, 2, "EMB_TABLE_EDIT"⟩,
  ⟨0x4020, 2, 1, 3, 2, 8, 0, 2, 0, 2, "EMB_TABLE_SELECT"⟩]

def objRows6 : List ObjRow := [
  ⟨0x4020, 3, 1, 12, 1, 8, 0, 64, 0, 2, "EMB_TABLE_VIEW"⟩,
  ⟨0x4021, 1, 1, 15, 5, 8, 2, 24, 0, 2, "EMB_INVALIDATE"⟩,
  ⟨0x4021, 2, 1, 15, 5, 8, 2, 16, 0, 2, "EMB_PIN"⟩,
  ⟨0x4022, 1, 1, 2, 2, 2, 2, 1, 0, 2, "EMB_DIR_UNITS"⟩,
  ⟨0x4022, 2, 1, 2, 1, 10, 2, 1, 0, 2, "EMB_DIR_BASE"⟩,
  ⟨0x4022, 3, 1, 5, 2, 14, 2, 8, 0, 3, "EMB_HOT_BASE"⟩,
  ⟨0x4022, 4, 1, 3, 2, 14, 2, 2, 0, 3, "EMB_HOT_SLOT_BYTES"⟩,
  ⟨0x4023, 1, 1, 2, 2, 6, 2, 1, 0, 2, "EMB_PROMOTE_HITS"⟩,
  ⟨0x4023, 2, 1, 4, 2, 6, 2, 4, 0, 2, "EMB_PROMOTE_MAX"⟩,
  ⟨0x4023, 3, 1, 3, 2, 6, 2, 2, 0, 2, "EMB_DECAY_STEPS"⟩,
  ⟨0x4024, 1, 1, 5, 1, 10, 0, 8, 0, 2, "EMB_HITS"⟩,
  ⟨0x4024, 2, 1, 5, 1, 10, 0, 8, 0, 2, "EMB_MISSES"⟩,
  ⟨0x4024, 3, 1, 5, 1, 10, 0, 8, 0, 2, "EMB_PROMOTIONS"⟩,
  ⟨0x4024, 4, 1, 5, 1, 10, 0, 8, 0, 2, "EMB_DEMOTIONS"⟩,
  ⟨0x4024, 5, 1, 3, 1, 10, 2, 2, 0, 2, "EMB_TABLES_LIVE"⟩,
  ⟨0x4030, 1, 1, 2, 2, 2, 2, 1, 0, 0, "SRV_ROLE"⟩,
  ⟨0x4030, 2, 1, 3, 2, 2, 2, 2, 0, 0, "SRV_LEAD_CHIP"⟩,
  ⟨0x4030, 3, 1, 14, 2, 2, 2, 2048, 2, 4, "SRV_GROUP_TABLE"⟩,
  ⟨0x4030, 4, 1, 4, 2, 2, 2, 4, 0, 0, "SRV_VOCAB_SIZE"⟩,
  ⟨0x4030, 5, 1, 4, 2, 2, 2, 4, 0, 0, "SRV_VOCAB_FIRST"⟩,
  ⟨0x4030, 6, 1, 4, 2, 2, 2, 4, 0, 0, "SRV_VOCAB_COUNT"⟩,
  ⟨0x4031, 1, 1, 3, 2, 6, 2, 2, 0, 0, "SRV_STEP_TOKENS"⟩,
  ⟨0x4031, 2, 1, 3, 2, 6, 2, 2, 0, 0, "SRV_PREFILL_CHUNK"⟩,
  ⟨0x4031, 3, 1, 3, 2, 6, 2, 2, 0, 0, "SRV_PREFILL_RESERVE"⟩]

def objRows7 : List ObjRow := [
  ⟨0x4031, 4, 1, 3, 2, 6, 2, 2, 0, 0, "SRV_ADMIT_MAX"⟩,
  ⟨0x4031, 5, 1, 2, 2, 2, 2, 1, 0, 0, "SRV_RATIO_GAIN_LOG2"⟩,
  ⟨0x4031, 6, 1, 2, 2, 2, 2, 1, 0, 0, "SRV_POOL_MIN"⟩,
  ⟨0x4031, 7, 1, 1, 2, 2, 2, 1, 0, 1, "SRV_JOURNAL_EN"⟩,
  ⟨0x4031, 8, 1, 2, 2, 2, 5, 1, 0, 0, "SRV_JOURNAL_GIB"⟩,
  ⟨0x4032, 1, 1, 15, 5, 8, 0, 64, 0, 0, "REQ_CHAN_OPEN"⟩,
  ⟨0x4032, 2, 1, 15, 5, 8, 0, 4, 0, 0, "REQ_CHAN_CLOSE"⟩,
  ⟨0x4033, 1, 1, 5, 1, 16, 0, 8, 0, 0, "SRV_STEP"⟩,
  ⟨0x4033, 2, 1, 4, 1, 10, 2, 4, 0, 0, "SRV_LIVE"⟩,
  ⟨0x4033, 3, 1, 5, 1, 10, 0, 8, 0, 0, "SRV_TOKENS_TOTAL"⟩,
  ⟨0x4033, 4, 1, 5, 1, 10, 0, 8, 0, 0, "SRV_DRAFTED_TOTAL"⟩,
  ⟨0x4033, 5, 1, 5, 1, 10, 0, 8, 0, 0, "SRV_ACCEPTED_TOTAL"⟩,
  ⟨0x4033, 6, 1, 10, 1, 2, 2, 4, 0, 0, "SRV_PREFILL_FRACTION"⟩,
  ⟨0x5000, 1, 1, 15, 5, 2, 0, 1, 0, 8, "PWR_STATE_REQ"⟩,
  ⟨0x5000, 2, 1, 2, 1, 16, 0, 1, 0, 0, "PWR_STATE"⟩,
  ⟨0x5000, 3, 1, 1, 2, 2, 0, 1, 0, 0, "PWR_AUTO_S1"⟩,
  ⟨0x5000, 4, 1, 4, 2, 2, 0, 4, 0, 0, "PWR_IDLE_US"⟩,
  ⟨0x5001, 1, 1, 3, 2, 2, 0, 2, 0, 0, "PWR_CAP_W"⟩,
  ⟨0x5001, 2, 1, 2, 2, 2, 0, 1, 0, 0, "PWR_BRAKE_LEVEL"⟩,
  ⟨0x5001, 3, 1, 1, 2, 2, 5, 1, 0, 0, "PWR_SPREAD_EN"⟩,
  ⟨0x5002, 1, 1, 2, 2, 2, 0, 1, 0, 0, "THM_RESUME_C"⟩,
  ⟨0x5002, 2, 1, 4, 1, 2, 0, 4, 0, 0, "THM_ORDERED_STOPS"⟩,
  ⟨0x5002, 3, 1, 4, 1, 2, 0, 4, 0, 0, "THM_FAST_STOPS"⟩,
  ⟨0x5003, 0, 1, 14, 1, 2, 0, 576, 2, 0, "THM_READINGS"⟩]

def objRows8 : List ObjRow := [
  ⟨0x5004, 1, 1, 15, 5, 2, 0, 4, 0, 8, "MON_CAL_START"⟩,
  ⟨0x5005, 1, 4, 12, 2, 2, 4, 44, 0, 0, "MON_SEQ_CFG"⟩,
  ⟨0x5005, 5, 1, 15, 5, 2, 4, 4, 0, 8, "MON_CLEAR"⟩,
  ⟨0x5006, 0, 1, 14, 1, 2, 0, 2048, 16, 0, "MON_ACC"⟩,
  ⟨0x6000, 1, 1, 5, 1, 10, 0, 8, 0, 0, "ERR_COUNT"⟩,
  ⟨0x6000, 2, 1, 5, 2, 10, 0, 8, 0, 0, "ERR_SELECT"⟩,
  ⟨0x6000, 3, 1, 12, 1, 10, 0, 64, 0, 0, "ERR_VIEW"⟩,
  ⟨0x6001, 0, 1, 14, 1, 2, 5, 16384, 64, 0, "ERR_PREV"⟩,
  ⟨0x6002, 1, 1, 2, 1, 16, 0, 1, 0, 0, "HEALTH_SERVICE"⟩,
  ⟨0x6002, 2, 8, 2, 1, 16, 0, 1, 0, 0, "HEALTH_VAT"⟩,
  ⟨0x6003, 0, 1, 14, 1, 2, 0, 17408, 1, 0, "HEALTH_ARRAYS"⟩,
  ⟨0x6004, 0, 1, 14, 1, 2, 0, 512, 1, 0, "HEALTH_ENGINES"⟩,
  ⟨0x6005, 1, 1, 4, 2, 2, 0, 4, 0, 0, "TOL_REPEAT_PASSES"⟩,
  ⟨0x6005, 2, 1, 1, 2, 2, 0, 1, 0, 1, "BRINE_EN"⟩,
  ⟨0x6005, 3, 1, 4, 2, 2, 0, 4, 0, 0, "BRINE_PERIOD_MS"⟩,
  ⟨0x6005, 4, 1, 3, 2, 2, 0, 2, 0, 0, "BRINE_READMIT"⟩,
  ⟨0x6005, 5, 1, 2, 2, 2, 0, 1, 0, 0, "FENCE_LIMIT"⟩,
  ⟨0x6006, 1, 1, 15, 5, 2, 0, 8, 0, 0, "HEALTH_FENCE"⟩,
  ⟨0x6006, 2, 1, 15, 5, 2, 0, 8, 0, 0, "HEALTH_READMIT"⟩,
  ⟨0x6006, 3, 1, 15, 5, 2, 0, 8, 0, 1, "HEALTH_CLEAR"⟩,
  ⟨0x6007, 1, 1, 1, 2, 2, 0, 1, 0, 0, "REC_STANDBY"⟩,
  ⟨0x6007, 2, 1, 15, 5, 2, 0, 16, 0, 0, "REC_ADOPT"⟩,
  ⟨0x6007, 3, 1, 15, 5, 2, 2, 8, 0, 0, "REC_REPLACE"⟩,
  ⟨0x6007, 4, 1, 15, 5, 8, 0, 12, 0, 0, "REC_REBIND"⟩]

def objRows9 : List ObjRow := [
  ⟨0x6007, 5, 1, 3, 2, 2, 0, 2, 0, 0, "REC_REBIND_S"⟩,
  ⟨0x7000, 1, 1, 12, 1, 16, 5, 97, 0, 0, "SEC_PROV_PUBKEY"⟩,
  ⟨0x7000, 2, 1, 12, 1, 16, 5, 2048, 0, 4, "SEC_PROV_CERT"⟩,
  ⟨0x7001, 0, 1, 14, 2, 2, 0, 3584, 56, 0, "SEC_ENROLL"⟩,
  ⟨0x7002, 1, 1, 15, 5, 2, 0, 8, 0, 0, "SEC_PART_CREATE"⟩,
  ⟨0x7002, 2, 1, 15, 5, 2, 2, 16, 0, 0, "SEC_PART_ASSIGN"⟩,
  ⟨0x7002, 3, 1, 15, 5, 2, 0, 2, 0, 0, "SEC_PART_RELEASE"⟩,
  ⟨0x7003, 1, 1, 15, 5, 3, 0, 1, 0, 0, "LC_TRANSITION"⟩,
  ⟨0x7004, 1, 1, 12, 1, 3, 0, 48, 0, 0, "SEC_DEBUG_CHALLENGE"⟩,
  ⟨0x7004, 2, 1, 15, 5, 3, 0, 208, 0, 8, "SEC_DEBUG_UNLOCK"⟩,
  ⟨0x7004, 3, 1, 15, 5, 3, 0, 1, 0, 8, "SEC_DEBUG_CLOSE"⟩,
  ⟨0x7005, 1, 1, 12, 4, 12, 0, 16777216, 0, 4, "SEC_PKG_STAGE"⟩,
  ⟨0x7005, 2, 1, 15, 5, 12, 2, 1, 0, 2, "SEC_PKG_LOAD"⟩,
  ⟨0x7006, 1, 1, 1, 2, 2, 0, 1, 0, 1, "SEC_PEER_POLICY"⟩,
  ⟨0xC000, 1, 1, 3, 1, 2, 0, 2, 0, 0, "TEL_INPUT_W"⟩,
  ⟨0xC000, 2, 1, 7, 1, 2, 0, 2, 0, 0, "TEL_JUNCTION_MAX"⟩,
  ⟨0xC000, 3, 1, 3, 1, 2, 0, 2, 0, 0, "TEL_GRANTS"⟩,
  ⟨0xC100, 1, 1, 5, 1, 10, 0, 8, 0, 2, "TEL_P_TOKENS"⟩,
  ⟨0xC100, 2, 1, 5, 1, 10, 0, 8, 0, 2, "TEL_P_PASSES"⟩,
  ⟨0xC100, 3, 1, 5, 1, 10, 0, 8, 0, 2, "TEL_P_ENGINE_NS"⟩,
  ⟨0xC100, 4, 1, 5, 1, 10, 0, 8, 0, 2, "TEL_P_MEM_BYTES"⟩,
  ⟨0xC100, 5, 1, 5, 1, 10, 0, 8, 0, 2, "TEL_P_TIME"⟩,
  ⟨0xF000, 1, 1, 4, 2, 1, 0, 4, 0, 0, "REG_WIN_ADDR"⟩,
  ⟨0xF000, 2, 1, 4, 2, 1, 0, 4, 0, 0, "REG_WIN_DATA"⟩]

def objRows10 : List ObjRow := [
  ⟨0xF000, 3, 1, 12, 1, 1, 0, 1024, 0, 4, "REG_WIN_BULK"⟩]

/-- The objects outside the partition windows, by index and subindex. -/
def objRows : List ObjRow := objRows0 ++ objRows1 ++ objRows2 ++ objRows3 ++ objRows4 ++ objRows5 ++ objRows6 ++ objRows7 ++ objRows8 ++ objRows9 ++ objRows10

/-- The objects of a partition window, by offset (R339). -/
def windowRows : List ObjRow := [
  ⟨0x0000, 1, 1, 2, 1, 10, 0, 1, 0, 0, "PART_STATE"⟩,
  ⟨0x0000, 2, 1, 4, 1, 10, 2, 4, 0, 0, "PART_RIGHTS"⟩,
  ⟨0x0001, 1, 8, 3, 1, 10, 2, 2, 0, 0, "PART_ARRAYS"⟩,
  ⟨0x0002, 1, 8, 5, 1, 10, 2, 8, 0, 0, "PART_ENGINES"⟩,
  ⟨0x0003, 1, 1, 4, 1, 10, 0, 4, 0, 0, "PART_SYNC_OBJECTS"⟩,
  ⟨0x0003, 2, 1, 4, 1, 10, 0, 4, 0, 0, "PART_CHANNELS"⟩,
  ⟨0x0004, 1, 8, 3, 1, 10, 2, 2, 0, 0, "PART_TABLE_SLOTS"⟩]

/-! Keys of the objects: index × 256 + subindex (the first one of a row). -/

abbrev Key.capVariant : Nat := 0x110001
abbrev Key.capDieStepping : Nat := 0x110002
abbrev Key.capVatPresent : Nat := 0x110101
abbrev Key.capArraysPhysical : Nat := 0x110201
abbrev Key.capArraysSpare : Nat := 0x110301
abbrev Key.capEngineMap : Nat := 0x110401
abbrev Key.capTierAGib : Nat := 0x110501
abbrev Key.capTierBGib : Nat := 0x110601
abbrev Key.capPortMap : Nat := 0x110701
abbrev Key.capPressUnits : Nat := 0x110702
abbrev Key.capSyncObjects : Nat := 0x110801
abbrev Key.capChannelSlots : Nat := 0x110802
abbrev Key.capRoceQps : Nat := 0x110803
abbrev Key.capSequences : Nat := 0x110804
abbrev Key.capHotRowEntries : Nat := 0x110805
abbrev Key.capMailboxes : Nat := 0x110806
abbrev Key.topoPod : Nat := 0x120001
abbrev Key.topoBoard : Nat := 0x120002
abbrev Key.topoSlot : Nat := 0x120003
abbrev Key.topoChip : Nat := 0x120004
abbrev Key.topoStraps : Nat := 0x120101
abbrev Key.topoBoardClass : Nat := 0x120102
abbrev Key.topoDistance : Nat := 0x120500
abbrev Key.arrCalStart : Nat := 0x201001
abbrev Key.arrDriftLimit : Nat := 0x201101
abbrev Key.arrDriftDeltaT : Nat := 0x201102
abbrev Key.arrIdleHoldNs : Nat := 0x201103
abbrev Key.arrCalTime : Nat := 0x201201
abbrev Key.perTableStage : Nat := 0x202001
abbrev Key.perTableLoad : Nat := 0x202002
abbrev Key.perSatTotal : Nat := 0x202101
abbrev Key.perConflictTotal : Nat := 0x202201
abbrev Key.whlStoreSlots : Nat := 0x400001
abbrev Key.whlReplicaRate : Nat := 0x400002
abbrev Key.whlReplicaHolder0 : Nat := 0x400003
abbrev Key.whlReplicaHolder1 : Nat := 0x400004
abbrev Key.whlReplicaRequired : Nat := 0x400005
abbrev Key.whlPartition : Nat := 0x400006
abbrev Key.whlStage : Nat := 0x400101
abbrev Key.whlVerify : Nat := 0x400102
abbrev Key.whlPlace : Nat := 0x400103
abbrev Key.whlArm : Nat := 0x400104
abbrev Key.whlCancel : Nat := 0x400105
abbrev Key.whlState : Nat := 0x400201
abbrev Key.whlResult : Nat := 0x400202
abbrev Key.whlEpoch : Nat := 0x400301
abbrev Key.whlDigest : Nat := 0x400302
abbrev Key.whlId : Nat := 0x400303
abbrev Key.reloadPoolArrays : Nat := 0x400401
abbrev Key.swapKvPolicy : Nat := 0x400501
abbrev Key.swapHoldAlarmMs : Nat := 0x400502
abbrev Key.openWrite : Nat := 0x400601
abbrev Key.whlAgeMax : Nat := 0x400701
abbrev Key.whlProgramMax : Nat := 0x400702
abbrev Key.veDualLog2 : Nat := 0x204001
abbrev Key.veDualTolBits : Nat := 0x204002
abbrev Key.veCrossPoolSteal : Nat := 0x204003
abbrev Key.veXvatMinDepth : Nat := 0x204004
abbrev Key.veIdleHoldNs : Nat := 0x204005
abbrev Key.veInbufSet : Nat := 0x204101
abbrev Key.veTasksTotal : Nat := 0x204201
abbrev Key.veDualMismatchTotal : Nat := 0x204301
abbrev Key.seqEdit : Nat := 0x401001
abbrev Key.seqSelect : Nat := 0x401002
abbrev Key.seqView : Nat := 0x401003
abbrev Key.kvHeadroomLog2 : Nat := 0x401101
abbrev Key.attnSplitBlocks : Nat := 0x401102
abbrev Key.kvRescaleCnt : Nat := 0x401201
abbrev Key.kvClampCnt : Nat := 0x401202
abbrev Key.kvNonfiniteCnt : Nat := 0x401203
abbrev Key.seqLive : Nat := 0x401204
abbrev Key.embTableEdit : Nat := 0x402001
abbrev Key.embTableSelect : Nat := 0x402002
abbrev Key.embTableView : Nat := 0x402003
abbrev Key.embInvalidate : Nat := 0x402101
abbrev Key.embPin : Nat := 0x402102
abbrev Key.embDirUnits : Nat := 0x402201
abbrev Key.embDirBase : Nat := 0x402202
abbrev Key.embHotBase : Nat := 0x402203
abbrev Key.embHotSlotBytes : Nat := 0x402204
abbrev Key.embPromoteHits : Nat := 0x402301
abbrev Key.embPromoteMax : Nat := 0x402302
abbrev Key.embDecaySteps : Nat := 0x402303
abbrev Key.embHits : Nat := 0x402401
abbrev Key.embMisses : Nat := 0x402402
abbrev Key.embPromotions : Nat := 0x402403
abbrev Key.embDemotions : Nat := 0x402404
abbrev Key.embTablesLive : Nat := 0x402405
abbrev Key.srvRole : Nat := 0x403001
abbrev Key.srvLeadChip : Nat := 0x403002
abbrev Key.srvGroupTable : Nat := 0x403003
abbrev Key.srvVocabSize : Nat := 0x403004
abbrev Key.srvVocabFirst : Nat := 0x403005
abbrev Key.srvVocabCount : Nat := 0x403006
abbrev Key.srvStepTokens : Nat := 0x403101
abbrev Key.srvPrefillChunk : Nat := 0x403102
abbrev Key.srvPrefillReserve : Nat := 0x403103
abbrev Key.srvAdmitMax : Nat := 0x403104
abbrev Key.srvRatioGainLog2 : Nat := 0x403105
abbrev Key.srvPoolMin : Nat := 0x403106
abbrev Key.srvJournalEn : Nat := 0x403107
abbrev Key.srvJournalGib : Nat := 0x403108
abbrev Key.reqChanOpen : Nat := 0x403201
abbrev Key.reqChanClose : Nat := 0x403202
abbrev Key.srvStep : Nat := 0x403301
abbrev Key.srvLive : Nat := 0x403302
abbrev Key.srvTokensTotal : Nat := 0x403303
abbrev Key.srvDraftedTotal : Nat := 0x403304
abbrev Key.srvAcceptedTotal : Nat := 0x403305
abbrev Key.srvPrefillFraction : Nat := 0x403306
abbrev Key.memRegionSet : Nat := 0x380001
abbrev Key.memRegionSelect : Nat := 0x380002
abbrev Key.memRegionView : Nat := 0x380003
abbrev Key.memASpaceGib : Nat := 0x380101
abbrev Key.memBSpaceGib : Nat := 0x380102
abbrev Key.memScrubHours : Nat := 0x380201
abbrev Key.memCeTotal : Nat := 0x380301
abbrev Key.memUeTotal : Nat := 0x380401
abbrev Key.xtvVerRange : Nat := 0x300001
abbrev Key.xtvMiswirePolicy : Nat := 0x300002
abbrev Key.xtvVlan : Nat := 0x300003
abbrev Key.xtvKeepaliveUs : Nat := 0x300004
abbrev Key.xtvPeerTimeoutUs : Nat := 0x300005
abbrev Key.xtvE2eTimeoutUs : Nat := 0x300006
abbrev Key.xtvE2eRetryMax : Nat := 0x300007
abbrev Key.xtvReplayMax : Nat := 0x300008
abbrev Key.xtvE2eWindowKib : Nat := 0x300009
abbrev Key.xtvWeights : Nat := 0x30000A
abbrev Key.xtvHelloTimeoutMs : Nat := 0x30000B
abbrev Key.portCfg : Nat := 0x300101
abbrev Key.xtvRoute : Nat := 0x300200
abbrev Key.xtvMcast : Nat := 0x300301
abbrev Key.collCreate : Nat := 0x300401
abbrev Key.collDestroy : Nat := 0x300402
abbrev Key.rocePriority : Nat := 0x300501
abbrev Key.roceMtu : Nat := 0x300502
abbrev Key.roceAddr : Nat := 0x300601
abbrev Key.syncAlloc : Nat := 0x310001
abbrev Key.syncFree : Nat := 0x310002
abbrev Key.syncConfig : Nat := 0x310003
abbrev Key.syncSelect : Nat := 0x310004
abbrev Key.syncView : Nat := 0x310005
abbrev Key.syncFreeNum : Nat := 0x310006
abbrev Key.syncGroupCreate : Nat := 0x310101
abbrev Key.syncGroupDestroy : Nat := 0x310102
abbrev Key.streamOpen : Nat := 0x310201
abbrev Key.streamClose : Nat := 0x310202
abbrev Key.qpCreate : Nat := 0x310301
abbrev Key.qpDestroy : Nat := 0x310302
abbrev Key.sessionResult : Nat := 0x310303
abbrev Key.taskChanOpen : Nat := 0x310401
abbrev Key.taskChanClose : Nat := 0x310402
abbrev Key.chanFreeSlots : Nat := 0x310501
abbrev Key.syncWaitersFree : Nat := 0x310502
abbrev Key.mbxSelect : Nat := 0x181001
abbrev Key.mbxMsg : Nat := 0x181002
abbrev Key.mbxDoorbell : Nat := 0x181003
abbrev Key.idVendor : Nat := 0x100001
abbrev Key.idProduct : Nat := 0x100002
abbrev Key.idSerial : Nat := 0x100003
abbrev Key.idLot : Nat := 0x100004
abbrev Key.idWafer : Nat := 0x100005
abbrev Key.idDieX : Nat := 0x100006
abbrev Key.idDieY : Nat := 0x100007
abbrev Key.idPubkey : Nat := 0x100008
abbrev Key.idCertChain : Nat := 0x100009
abbrev Key.idMgmtMac : Nat := 0x10000A
abbrev Key.fwVersion : Nat := 0x180001
abbrev Key.fwRollback : Nat := 0x180002
abbrev Key.lifecycle : Nat := 0x180003
abbrev Key.debugLevel : Nat := 0x180004
abbrev Key.fwStage : Nat := 0x180101
abbrev Key.fwActivate : Nat := 0x180102
abbrev Key.cfgDefaults : Nat := 0x180201
abbrev Key.fapUdpPort : Nat := 0x182001
abbrev Key.fapMgmtAddr : Nat := 0x182002
abbrev Key.fapInbandEn : Nat := 0x182003
abbrev Key.fapIdleS : Nat := 0x182004
abbrev Key.fapSessions : Nat := 0x182005
abbrev Key.fapAuthFail : Nat := 0x182006
abbrev Key.fapReplayDrop : Nat := 0x182007
abbrev Key.telInputW : Nat := 0xC00001
abbrev Key.telJunctionMax : Nat := 0xC00002
abbrev Key.telGrants : Nat := 0xC00003
abbrev Key.telPTokens : Nat := 0xC10001
abbrev Key.telPPasses : Nat := 0xC10002
abbrev Key.telPEngineNs : Nat := 0xC10003
abbrev Key.telPMemBytes : Nat := 0xC10004
abbrev Key.telPTime : Nat := 0xC10005
abbrev Key.regWinAddr : Nat := 0xF00001
abbrev Key.regWinData : Nat := 0xF00002
abbrev Key.regWinBulk : Nat := 0xF00003
abbrev Key.errCount : Nat := 0x600001
abbrev Key.errSelect : Nat := 0x600002
abbrev Key.errView : Nat := 0x600003
abbrev Key.errPrev : Nat := 0x600100
abbrev Key.healthService : Nat := 0x600201
abbrev Key.healthVat : Nat := 0x600202
abbrev Key.healthArrays : Nat := 0x600300
abbrev Key.healthEngines : Nat := 0x600400
abbrev Key.tolRepeatPasses : Nat := 0x600501
abbrev Key.brineEn : Nat := 0x600502
abbrev Key.brinePeriodMs : Nat := 0x600503
abbrev Key.brineReadmit : Nat := 0x600504
abbrev Key.fenceLimit : Nat := 0x600505
abbrev Key.healthFence : Nat := 0x600601
abbrev Key.healthReadmit : Nat := 0x600602
abbrev Key.healthClear : Nat := 0x600603
abbrev Key.recStandby : Nat := 0x600701
abbrev Key.recAdopt : Nat := 0x600702
abbrev Key.recReplace : Nat := 0x600703
abbrev Key.recRebind : Nat := 0x600704
abbrev Key.recRebindS : Nat := 0x600705
abbrev Key.pwrStateReq : Nat := 0x500001
abbrev Key.pwrState : Nat := 0x500002
abbrev Key.pwrAutoS1 : Nat := 0x500003
abbrev Key.pwrIdleUs : Nat := 0x500004
abbrev Key.pwrCapW : Nat := 0x500101
abbrev Key.pwrBrakeLevel : Nat := 0x500102
abbrev Key.pwrSpreadEn : Nat := 0x500103
abbrev Key.thmResumeC : Nat := 0x500201
abbrev Key.thmOrderedStops : Nat := 0x500202
abbrev Key.thmFastStops : Nat := 0x500203
abbrev Key.thmReadings : Nat := 0x500300
abbrev Key.monCalStart : Nat := 0x500401
abbrev Key.monSeqCfg : Nat := 0x500501
abbrev Key.monClear : Nat := 0x500505
abbrev Key.monAcc : Nat := 0x500600
abbrev Key.secProvPubkey : Nat := 0x700001
abbrev Key.secProvCert : Nat := 0x700002
abbrev Key.secEnroll : Nat := 0x700100
abbrev Key.secPartCreate : Nat := 0x700201
abbrev Key.secPartAssign : Nat := 0x700202
abbrev Key.secPartRelease : Nat := 0x700203
abbrev Key.lcTransition : Nat := 0x700301
abbrev Key.secDebugChallenge : Nat := 0x700401
abbrev Key.secDebugUnlock : Nat := 0x700402
abbrev Key.secDebugClose : Nat := 0x700403
abbrev Key.secPkgStage : Nat := 0x700501
abbrev Key.secPkgLoad : Nat := 0x700502
abbrev Key.secPeerPolicy : Nat := 0x700601

/-- Defaults of the writable integer objects: key, number of subindices, value. -/
def cfgDefaults : List (Nat × Nat × Nat) := [
  (0x120001, 1, 0),
  (0x120002, 1, 0),
  (0x120004, 1, 0),
  (0x201101, 1, 200),
  (0x201102, 1, 20),
  (0x201103, 1, 1000),
  (0x400001, 1, 8),
  (0x400002, 1, 50),
  (0x400003, 1, 0),
  (0x400004, 1, 0),
  (0x400005, 1, 1),
  (0x400006, 1, 0),
  (0x400401, 8, 0),
  (0x400501, 1, 0),
  (0x400502, 1, 50),
  (0x204001, 1, 6),
  (0x204002, 1, 0),
  (0x204003, 1, 1),
  (0x204004, 1, 2),
  (0x204005, 1, 2000),
  (0x401002, 1, 0),
  (0x401101, 1, 1),
  (0x401102, 1, 256),
  (0x402002, 1, 0),
  (0x402201, 1, 0),
  (0x402203, 1, 0),
  (0x402204, 1, 128),
  (0x402301, 1, 4),
  (0x402302, 1, 4096),
  (0x402303, 1, 64),
  (0x403001, 1, 0),
  (0x403002, 1, 0),
  (0x403004, 1, 0),
  (0x403005, 1, 0),
  (0x403006, 1, 0),
  (0x403101, 1, 8192),
  (0x403102, 1, 512),
  (0x403103, 1, 1024),
  (0x403104, 1, 256),
  (0x403105, 1, 2),
  (0x403106, 1, 2),
  (0x403107, 1, 1),
  (0x403108, 1, 16),
  (0x380002, 1, 0),
  (0x380201, 1, 24),
  (0x300002, 1, 0),
  (0x300003, 1, 0),
  (0x300004, 1, 8),
  (0x300005, 1, 100),
  (0x300006, 1, 50),
  (0x300007, 1, 8),
  (0x300008, 1, 4),
  (0x300009, 1, 256),
  (0x30000A, 1, 262913),
  (0x30000B, 1, 10),
  (0x300301, 16, 0),
  (0x300501, 1, 3),
  (0x300502, 1, 4096),
  (0x310004, 1, 0),
  (0x181001, 1, 32),
  (0x182001, 1, 7870),
  (0x182003, 1, 1),
  (0x182004, 1, 60),
  (0xF00001, 1, 0),
  (0x600002, 1, 0),
  (0x600501, 1, 1048576),
  (0x600502, 1, 1),
  (0x600503, 1, 1000),
  (0x600504, 1, 64),
  (0x600505, 1, 3),
  (0x600701, 1, 0),
  (0x600705, 1, 30),
  (0x500003, 1, 1),
  (0x500004, 1, 200),
  (0x500101, 1, 1800),
  (0x500102, 1, 12),
  (0x500103, 1, 1),
  (0x500201, 1, 85),
  (0x700601, 1, 1)]

/-- Plain ranges of the writable integer objects: key, number of subindices, lowest and highest value. -/
def cfgRanges : List (Nat × Nat × Nat × Nat) := [
  (0x120001, 1, 0, 65535),
  (0x120002, 1, 0, 65535),
  (0x120003, 1, 0, 15),
  (0x120004, 1, 1, 65519),
  (0x201101, 1, 1, 1000000),
  (0x201102, 1, 5, 60),
  (0x201103, 1, 100, 1000000),
  (0x400001, 1, 0, 16),
  (0x400002, 1, 1, 100),
  (0x400005, 1, 0, 1),
  (0x400401, 8, 0, 1024),
  (0x400501, 1, 0, 1),
  (0x400502, 1, 1, 60000),
  (0x204001, 1, 0, 6),
  (0x204002, 1, 0, 8),
  (0x204003, 1, 0, 1),
  (0x204004, 1, 1, 64),
  (0x204005, 1, 100, 1000000),
  (0x401002, 1, 0, 65535),
  (0x401101, 1, 0, 4),
  (0x401102, 1, 64, 4096),
  (0x402002, 1, 0, 4095),
  (0x402201, 1, 0, 64),
  (0x402204, 1, 64, 1024),
  (0x402301, 1, 1, 255),
  (0x402302, 1, 0, 65536),
  (0x402303, 1, 1, 65535),
  (0x403004, 1, 1, 4194304),
  (0x403101, 1, 1, 16384),
  (0x403102, 1, 1, 4096),
  (0x403104, 1, 1, 65535),
  (0x403105, 1, 0, 6),
  (0x403106, 1, 0, 64),
  (0x403107, 1, 0, 1),
  (0x403108, 1, 0, 64),
  (0x380201, 1, 1, 720),
  (0x300002, 1, 0, 1),
  (0x300003, 1, 0, 4094),
  (0x300004, 1, 3, 10),
  (0x300005, 1, 40, 10000),
  (0x300006, 1, 5, 10000),
  (0x300007, 1, 1, 32),
  (0x300008, 1, 1, 16),
  (0x300009, 1, 16, 4096),
  (0x30000B, 1, 1, 1000),
  (0x300501, 1, 0, 6),
  (0x310004, 1, 0, 65535),
  (0x181001, 1, 0, 63),
  (0x182001, 1, 1024, 65535),
  (0x182003, 1, 0, 1),
  (0x182004, 1, 10, 3600),
  (0x600501, 1, 1024, 1073741824),
  (0x600502, 1, 0, 1),
  (0x600503, 1, 10, 3600000),
  (0x600504, 1, 1, 65535),
  (0x600505, 1, 1, 255),
  (0x600701, 1, 0, 1),
  (0x600705, 1, 1, 3600),
  (0x500003, 1, 0, 1),
  (0x500004, 1, 20, 1000000),
  (0x500101, 1, 300, 1800),
  (0x500102, 1, 1, 15),
  (0x500103, 1, 0, 1),
  (0x500201, 1, 60, 95),
  (0x700601, 1, 0, 1)]

end Sys2Proof.Machine
end

