-- ==== Sys2Proof/Machine/Dict.lean ====
section
/-! DEFINITION. Values of the dictionary, sessions, and the one wrapper that every command object goes through
(R334, R335, R342, R343, R353, R400). -/

namespace Sys2Proof.Machine

/-! ## Values in force -/

/-- Board class from the straps (R39): 16, 8, 0 for a bench, none when they are invalid. -/
def boardClass (straps : Nat) : Option Nat :=
  let c := bits straps 5 4
  let n := bits straps 3 0
  if c = 0 then some 16
  else if c = 1 then (if n ≤ 7 then some 8 else none)
  else if c = 2 then (if n = 0 then some 0 else none)
  else none

def strappedSlot (s : State) : Nat := bits s.pin.straps 3 0

/-- The Default column (R334); WHL_STORE_SLOTS and SRV_JOURNAL_GIB are 0 on a KDM-16L (R145, R246). -/
def cfgDefault (s : State) (k : Nat) : Nat :=
  if (k = Key.whlStoreSlots || k = Key.srvJournalGib) && !hasCave s then 0
  else if k = Key.topoSlot then strappedSlot s
  else match cfgDefaults.find? (fun d => d.1 ≤ k && k < d.1 + d.2.1) with
    | some d => d.2.2
    | none => 0

/-- The key under which a partition's value of a scoped object is kept. -/
def scopedKey (part k : Nat) : Nat := part * 2 ^ 24 + k

/-- An integer object's value in force. -/
def cfgNat (s : State) (k : Nat) : Nat :=
  match tget [] s.dic.vals k with
  | [] => cfgDefault s k
  | o => leNat o

/-- A scoped integer object's value in force for a partition. -/
def cfgP (s : State) (part k : Nat) : Nat :=
  match tget [] s.dic.vals (scopedKey part k) with
  | [] => cfgDefault s k
  | o => leNat o

def cfgBool (s : State) (k : Nat) : Bool := cfgNat s k != 0

/-- Puts a value in force. -/
def cfgPut (s : State) (k : Nat) (v : Octets) : State :=
  { s with dic := { s.dic with vals := tput [] s.dic.vals k v } }

/-- The configuration value of the larger of the value in force and a pending BOOT value (R253). -/
def cfgMaxPend (s : State) (k : Nat) : Nat :=
  (s.dic.bootPend.filter (fun p => p.key = k)).foldl (fun m p => max m (leNat p.value)) (cfgNat s k)

/-! ## Object rows -/

/-- The row of an object outside the windows, by key; subindex 00 of an index with subindices is synthesised (R332). -/
def objRow (k : Nat) : Option ObjRow :=
  let i := k / 256
  let b := k % 256
  match objRows.find? (fun r => r.index = i && r.sub ≤ b && b < r.sub + r.subs) with
  | some r => some r
  | none =>
    if b = 0 && objRows.any (fun r => r.index = i) then some ⟨i, 0, 1, 2, 1, 16, 5, 1, 0, 0, ""⟩ else none

/-- The session class's bit in RIGHTS (R336, R438). -/
def classBit (cls : Nat) : Nat := if cls = 0 then 32 else 2 ^ (cls - 1)

/-- Rights check (R15): ANY admits every session. -/
def admitted (rights cls : Nat) : Bool := rights &&& 16 != 0 || rights &&& classBit cls != 0

/-- The partition a session's request refers to: its own, or the one in WHL_PARTITION (R145, R213, R340). -/
def sessPart (s : State) (n : Nat) : Nat :=
  let x := s.sessAt n
  if x.cls = 4 then x.part else cfgNat s Key.whlPartition

/-! ## Sessions -/

def sessOpen (s : State) (n : Nat) : Bool := s.dic.sessions.any (fun q => q.1 = n)

/-- A session that carries FAP messages: open, and FINISH has completed (R346). -/
def sessReady (s : State) (n : Nat) : Bool := sessOpen s n && (s.sessAt n).ready

/-- Ends a session: its segments, staging buffers, _SELECT values and results go with it (R349). -/
def endSession (s : State) (n : Nat) : State :=
  { s with dic := { s.dic with sessions := s.dic.sessions.filter (fun q => q.1 != n) } }

def endSessionsWhere (s : State) (p : Session → Bool) : State :=
  { s with dic := { s.dic with sessions := s.dic.sessions.filter (fun q => !(p q.2)) } }

def endAllSessions (s : State) : State := { s with dic := { s.dic with sessions := [] } }

/-! ## Command words (R342) -/

/-- A command word in the common layout. -/
def cmdWord (state status detail result : Nat) : DWord :=
  BitVec.ofNat 64 (state + status * 2 ^ 8 + detail % 2 ^ 16 * 2 ^ 16 + result % 2 ^ 32 * 2 ^ 32)

def setWord (s : State) (sess k : Nat) (w : DWord) : State :=
  if sessOpen s sess then s.modSess sess (fun x => { x with words := tput 0 x.words k w }) else s

def getWord (s : State) (sess k : Nat) : DWord := tget 0 (s.sessAt sess).words k

/-- What a command answers: the FAP status, its command word, whether its work goes on, and the state. -/
structure CmdAns where
  status : Nat
  word : DWord
  running : Bool
  st : State

/-- A refusal: no work was done. -/
def refuse (s : State) (status : Nat) : CmdAns := ⟨status, cmdWord 3 status 0 0, false, s⟩

/-- Done at once with success. -/
def doneAt (s : State) (result : Nat) : CmdAns := ⟨St.ok, cmdWord 2 0 0 result, false, s⟩

/-- Started: running, or pending its boundary. -/
def started (s : State) : CmdAns := ⟨St.ok, cmdWord 1 0 0 0, true, s⟩

/-- Failed after doing work (STATE 2 with a nonzero STATUS). -/
def failedAt (s : State) (status : Nat) : CmdAns := ⟨St.ok, cmdWord 2 status 0 0, false, s⟩

/-- A refusal unless the condition holds. -/
def require (c : Bool) (status : Nat) (s : State) (k : CmdAns) : CmdAns := if c then k else refuse s status

/-- The first nonzero status of a list of checks, in order. -/
def firstBad : List (Bool × Nat) → Nat
  | [] => 0
  | (bad, st) :: t => if bad then st else firstBad t

/-- Scope of a command: the partition for commands with PARTITION among their rights, otherwise the module (R343). -/
def cmdScope (s : State) (r : ObjRow) (sess : Nat) : Nat := if r.rights &&& 8 != 0 then sessPart s sess else 0

def cmdRunning (s : State) (k scope : Nat) : Bool := s.dic.running.any (fun q => q.1 = k && q.2.1 = scope)

def cmdBegin (s : State) (k scope sess : Nat) : State :=
  { s with dic := { s.dic with running := s.dic.running ++ [(k, scope, sess)] } }

/-- A running command ends with this command word; a session that is gone does not see it (R343). -/
def cmdEnd (s : State) (k scope : Nat) (w : DWord) : State :=
  let mine := s.dic.running.filter (fun q => q.1 = k && q.2.1 = scope)
  let s := { s with dic := { s.dic with running := s.dic.running.filter (fun q => !(q.1 = k && q.2.1 = scope)) } }
  mine.foldl (fun s q => setWord s q.2.2 k w) s

/-- A wake event begins the exit to S0; during an entry or a thermal hold it is kept (R400, R402, R420). -/
def wake (w : Wake) (s : State) : State :=
  let p := s.pwr
  if p.state = .s0 && p.entering = none then s
  else if p.state = .s4 then s
  else if p.entering != none || p.hold then { s with pwr := { p with kept := p.kept ++ [w] } }
  else { s with pwr := { p with kept := p.kept ++ [w], exiting := true } }

/-- The one path of a write to a command object (R353, R342, R343): rights, size, range, busy, the power state's rule
(R400), then the command's own checks and work. `range` answers 0 or a status; `body` gets the partition. -/
def cmdWrite (k : Nat) (range : State → Octets → Nat) (body : Nat → Nat → Octets → State → CmdAns)
    (sess : Nat) (arg : Octets) (s : State) : Nat × State :=
  match objRow k with
  | none => (St.objectUnknown, s)
  | some r =>
    if !(admitted r.rights (s.sessAt sess).cls) then (St.accessDenied, s)
    else
      let scope := cmdScope s r sess
      let busy := cmdRunning s k scope
      let no (st : Nat) : Nat × State := (st, if busy then s else setWord s sess k (cmdWord 3 st 0 0))
      if r.size < arg.length then no St.lengthExceedsBuffer
      else if arg.length != r.size then no St.lengthMismatch
      else if range s arg != 0 then no (range s arg)
      else if busy then (St.commandBusy, s)
      else if !(bit r.flags 3) && (s.pwr.state = .s2 || s.pwr.state = .s3) then no St.wrongState
      else
        let s := if !(bit r.flags 3) && s.pwr.state = .s1 then wake .fapCommand s else s
        let a := body sess (sessPart s sess) arg s
        let t := if a.running then cmdBegin a.st k scope sess else a.st
        (a.status, setWord t sess k a.word)

/-- The answer of a command row: a WRITE response, with TAG 0 as a row carries none. -/
def cmdAnswer (k sess : Nat) (r : Nat × State) : State :=
  r.2.emit (.fap sess ⟨2, 0, r.1, k / 256, k % 256, 0, []⟩)

/-- A command row: a ready session writes the command object. Without such a session nothing arrives. -/
def cmdRow (k : Nat) (w : Nat → Octets → State → Nat × State) (sess : Nat) (arg : Octets) (s : State) : State :=
  if sessReady s sess then cmdAnswer k sess (w sess arg s) else s

/-- No range of its own. -/
def anyRange (_ : State) (_ : Octets) : Nat := 0

/-- The argument 1 of the commands whose table says "Write: 1" (R333). -/
def oneRange (_ : State) (a : Octets) : Nat := if leNat a = 1 then 0 else St.outOfRange

/-- A command with Applies STEP waits for its boundary (R343, R16). -/
def stepPend (k sess part : Nat) (arg : Octets) (s : State) : CmdAns :=
  started { s with dic := { s.dic with stepCmds := s.dic.stepCmds ++ [⟨sess, part, k, arg⟩] } }

/-- A command with Applies STEP ends at its boundary: applied with success, or refused there. -/
def stepDone (c : StepCmd) (status : Nat) (s : State) : State :=
  let scope := match objRow c.obj with
    | some r => if r.rights &&& 8 != 0 then c.part else 0
    | none => 0
  cmdEnd s c.obj scope (if status = 0 then cmdWord 2 0 0 0 else cmdWord 3 status 0 0)

end Sys2Proof.Machine
end

