-- ==== Sys2Proof/Machine/LayerMap.lean ====
section
/-! DEFINITION. The layer map in force: which slots a wheel names, the chains and pairs through them, and the reload
pool (R83, R97, R115, R131, R133). -/

namespace Sys2Proof.Machine

/-- RELOAD_POOL_ARRAYS of a partition in a vat (R131). -/
def poolSize (s : State) (p v : Nat) : Nat := cfgP s p (Key.reloadPoolArrays + v)

/-- The slot of a pool position: counted down from 2,047, the assignment rotated one bay a step (R131, R133). -/
def poolSlot (s : State) (p v pos : Nat) : Nat :=
  let n := poolSize s p v
  if n = 0 then 2047 - pos else 2047 - (pos + 16 * (s.vatAt v).rotation) % n

/-- The pool position that a slot holds now, if the slot lies in the pool. -/
def poolPos (s : State) (p v l : Nat) : Option Nat :=
  let n := poolSize s p v
  (List.range n).find? (fun pos => poolSlot s p v pos = l)

/-- Whether a slot lies in the reload pool of its partition (R131). -/
def inPool (s : State) (p v l : Nat) : Bool := l < 2048 && 2047 < l + poolSize s p v

/-- A member entry of a chain at a slot now (R115). -/
def memberSlot (s : State) (p : Nat) (m : Nat × Bool × Nat) : Nat := if m.2.1 then poolSlot s p m.1 m.2.2 else m.2.2

def memberPhys (s : State) (p : Nat) (m : Nat × Bool × Nat) : Nat := physOf s m.1 (memberSlot s p m)

/-- The chains of a layer are consecutive (R114). -/
def layerChains (y : Layer) (c : Nat) : Bool := y.chainFirst ≤ c && c < y.chainFirst + y.chainCount

/-- The member entry that a slot is, in a wheel: resident, or a pool position of an overflow layer now written (R132). -/
def memberAt (s : State) (p v l : Nat) (w : Wheel) : Option (Nat × Bool × Nat) :=
  if inPool s p v l then
    match poolPos s p v l with
    | none => none
    | some pos =>
      if w.chains.any (fun c => c.members.contains (v, true, pos) &&
          w.layers.any (fun y => layerChains y c.chain && (s.whlAt p).poolLayers.contains y.layer))
      then some (v, true, pos) else none
  else if w.arrays.any (fun a => a.vat = v && !a.pool && a.slot = l) then some (v, false, l) else none

/-- The slot is named by a layer map in force of its partition (R83). -/
def slotNamed (s : State) (v l : Nat) : Bool :=
  let p := slotPart s v l
  p != 0 && match (s.whlAt p).inForce with
    | some w => (memberAt s p v l w).isSome && (s.whlAt p).state != 9
    | none => false

/-- The chain in force through a slot, with the slot's position. Overflow chains count only while written (R132). -/
def chainThrough (s : State) (v l : Nat) : Option (ChainE × Nat) :=
  let p := slotPart s v l
  match (s.whlAt p).inForce with
  | none => none
  | some w =>
    match memberAt s p v l w with
    | none => none
    | some m =>
      match w.chains.find? (fun c => c.members.contains m &&
          (!m.2.1 || w.layers.any (fun y => layerChains y c.chain && (s.whlAt p).poolLayers.contains y.layer))) with
      | none => none
      | some c => some (c, c.members.idxOf m)

/-- The physical arrays of the chain through a slot, head first; the array alone when no chain is in force. -/
def chainArrays (s : State) (v l : Nat) : List Nat :=
  match chainThrough s v l with
  | some (c, _) => c.members.map (memberPhys s (slotPart s v l))
  | none => [physOf s v l]

/-- The slot partner in pair mode: 2k and 2k + 1 (R94). -/
def pairSlot (l : Nat) : Nat := if l % 2 = 0 then l + 1 else l - 1

/-- The record of a wheel for a member entry (R116). -/
def imgFor (w : Wheel) (m : Nat × Bool × Nat) (chain : Nat) : Option ArrImg :=
  (w.arrays ++ w.overflow).find? (fun a => a.vat = m.1 && a.pool = m.2.1 && a.slot = m.2.2 && a.chain = chain)

/-- A vat's spares: local array b × 17 + 16 of bay b, or what a planned or fault remap left there (R21, R22). -/
def isSpare (s : State) (n : Nat) : Bool := arrPresent s n && (slotOf s n).isNone

end Sys2Proof.Machine
end

