-- ==== Sys2Proof/Machine/Periphery.lean ====
section
/-! DEFINITION. The arithmetic beside an array: input records and quantisation (R82–R84), counts, checks and recombination
(R47–R57, R64, R65), scaling, bias, activation, pooling and output conversion (R87–R103). -/

namespace Sys2Proof.Machine

/-! ## Settings (R79, R106) -/

def wFmt (a : ArrSt) : Nat := bits a.ctrl.toNat 1 0

/-- Slices per output (R49). -/
def slicesOf (fmt : Nat) : Nat := if fmt = 0 then 2 else if fmt = 1 then 4 else 8

/-- Outputs per array (R49). -/
def outputsOf (fmt : Nat) : Nat := if fmt = 0 then 512 else if fmt = 1 then 256 else 128

/-- Planes (R50): 8 for INT8 input, 4 for INT4. -/
def planesOf (a : ArrSt) : Nat := if bit a.ctrl.toNat 2 then 4 else 8

def qmaxOf (a : ArrSt) : Int := if bit a.ctrl.toNat 2 then 7 else 127

def rowsUsed (a : ArrSt) : Nat := bits a.ctrl.toNat 14 4

def gateEn (a : ArrSt) : Bool := bit a.ctrl.toNat 15

def iqMode (a : ArrSt) : Nat := bits a.perCfg.toNat 1 0

def actShape (a : ArrSt) : Nat := bits a.perCfg.toNat 5 3

def actTable (a : ArrSt) : Nat := bits a.perCfg.toNat 9 6

def outFmt (a : ArrSt) : Nat := bits a.perCfg.toNat 11 10

def outDyn (a : ArrSt) : Bool := bit a.perCfg.toNat 12

def poolMode (a : ArrSt) : Nat := bits a.perCfg.toNat 14 13

def poolLog2 (a : ArrSt) : Nat := bits a.perCfg.toNat 17 15

def pairRole (a : ArrSt) : Nat := bits a.perCfg.toNat 19 18

def biasEn (a : ArrSt) : Bool := bit a.perCfg.toNat 20

def outUsed (a : ArrSt) : Nat := bits a.perOut.toNat 9 0

def hasNext (a : ArrSt) : Bool := bit a.chain.toNat 14

def hasPrev (a : ArrSt) : Bool := bit a.chain.toNat 15

def nextSlot (a : ArrSt) : Nat := bits a.chain.toNat 10 0

def nextVat (a : ArrSt) : Nat := bits a.chain.toNat 13 11

def lenM1 (a : ArrSt) : Nat := bits a.chain.toNat 31 24

/-! ## Input records (R82–R84) -/

/-- Elements delivered in the octets after the header (R83). -/
def delivered (fmt n : Nat) : Nat := if fmt = 0 then n / 2 else if fmt = 3 then 2 * n else n

/-- Element i of a record as an F32 pattern and, for the integer formats, as an integer (R82). -/
def element (fmt : Nat) (b : Octets) (i : Nat) : Word × Int :=
  if fmt = 0 then (bf16ToF32 (BitVec.ofNat 16 (fld b (16 + 2 * i) 2)), 0)
  else if fmt = 1 then (fp8ToF32 (b.getD (16 + i) 0), 0)
  else
    let v := if fmt = 2 then sext 8 (fld b (16 + i) 1)
      else sext 4 (fld b (16 + i / 2) 1 / (if i % 2 = 0 then 1 else 16))
    (f32OfInt v, v)

/-- The checks of R83 on a record at an array, in order: 0, or the status of the first that fails. -/
def recordCheck (a : ArrSt) (named : Bool) (b : Octets) : Nat :=
  let fmt := fld b 4 1
  let cnt := fld b 6 2
  firstBad [
    (!named, St.configConflict),
    (b.length < 16 || 3 < fmt, St.formatMismatch),
    (1024 < cnt || delivered fmt (b.length - 16) < cnt, St.lengthExceedsBuffer),
    (cnt != rowsUsed a, St.lengthMismatch),
    (iqMode a = 2 && (fmt < 2 || (fmt = 2 && bit a.ctrl.toNat 2)), St.formatMismatch),
    (iqMode a = 2 && !(f32PosNormal (BitVec.ofNat 32 (fld b 8 4))), St.formatMismatch)]

/-- The quantised vector, s_x, and whether the record is NONFINITE (R84). `inScale` is the chain tail's (R98). -/
def quantise (a : ArrSt) (inScale : Word) (b : Octets) : List Int × Word × Bool :=
  let fmt := fld b 4 1
  let n := fld b 6 2
  let sc : Word := BitVec.ofNat 32 (fld b 8 4)
  let es := (List.range n).map (element fmt b)
  let xs := es.map (fun e => f32Mul e.1 sc)
  let nf := bit (fld b 5 1) 0 || es.any (fun e => !(f32Finite e.1)) || (es.zip xs).any (fun p => ovf [p.1.1, sc] p.2)
  if iqMode a = 2 then (es.map (·.2), sc, nf)
  else
    let qm := qmaxOf a
    let amax := (xs.filter f32Finite).foldl (fun m x => if f32Lt m (f32Abs x) then f32Abs x else m) 0
    let sx := if iqMode a = 0 then
        (let q := f32Div amax (f32OfInt qm); if f32Ord q = 0 then (0x3F800000 : Word) else q)
      else inScale
    let r := f32Div 0x3F800000 sx
    let qs := xs.map (fun x =>
      if f32IsNan x then 0
      else if f32IsInf x then (if f32Neg? x then -qm else qm)
      else f32ClampInt (-qm) qm (f32Mul x r))
    (qs, sx, nf)

/-- Time of the quantiser before acceptance, ns (R85). -/
def quantTime (a : ArrSt) : Nat := if iqMode a = 0 then 6 else if iqMode a = 1 then 3 else 1

/-! ## Passes (R47–R57, R64) -/

/-- Whether row i drives a 1 on plane p (R50): rows at or above ROWS_USED drive 0. -/
def drives (planes rows : Nat) (q : List Int) (p i : Nat) : Bool :=
  i < rows && bit (toField planes (q.getD i 0)) p

/-- Planes with at least one input bit set, ascending (R55). -/
def livePlanes (a : ArrSt) (q : List Int) : List Nat :=
  (List.range (planesOf a)).filter (fun p => (List.range (min (rowsUsed a) q.length)).any (drives (planesOf a) (rowsUsed a) q p))

/-- Rows of a segment that a pass drives: 0 the whole plane, 1 its lower half, 2 its upper half (R52). -/
def segRows (half g : Nat) : List Nat :=
  if half = 1 then (List.range 64).map (128 * g + ·)
  else if half = 2 then (List.range 64).map (128 * g + 64 + ·)
  else (List.range 128).map (128 * g + ·)

/-- The true counts of a segment, by column (R47). -/
def trueCounts (a : ArrSt) (q : List Int) (p half g : Nat) : List Nat :=
  let ms := ((segRows half g).filter (drives (planesOf a) (rowsUsed a) q p)).map (tget 0 a.rows)
  (List.range 1136).map (fun j => (ms.filter (fun m => m.testBit j)).length)

/-- A converter's report (R51): as the command says, otherwise the count up to 96 and overrange above. A reported count
above 96 does not exist and is taken as overrange. -/
def reported (rs : List ConvReport) (half g j c : Nat) : Option Nat :=
  match rs.find? (fun r => r.half = half && r.segment = g && r.column = j) with
  | some r => r.report.bind (fun n => if n ≤ 96 then some n else none)
  | none => if c ≤ 96 then some c else none

/-- The reports of all segments for one pass or half-pass. -/
def passReports (a : ArrSt) (q : List Int) (p half : Nat) (rs : List ConvReport) : List (List (Option Nat)) :=
  (List.range 8).map (fun g =>
    (trueCounts a q p half g).zipIdx.map (fun c => reported rs half g c.2 c.1))

/-- The first converter that reports overrange: segment and column. -/
def firstOver (r : List (List (Option Nat))) : Option (Nat × Nat) :=
  (r.zipIdx.filterMap (fun g => (g.1.findIdx? (·.isNone)).map (fun j => (g.2, j)))).head?

def countsOf (r : List (List (Option Nat))) : List (List Nat) := r.map (fun g => g.map (·.getD 0))

/-- The mismatch m = D − K of a check group in a segment (R64). -/
def mismatch (c : List Nat) (q : Nat) : Int :=
  let d := ((c.drop (64 * q)).take 64).sum
  let k := (List.range 7).foldl (fun t i => t + 2 ^ i * c.getD (1024 + 7 * q + i) 0) 0
  (d : Int) - k

/-- The nonzero mismatches, ascending by segment and then group: segment, group, m (R79). -/
def mismatches (c : List (List Nat)) : List (Nat × Nat × Int) :=
  c.zipIdx.flatMap (fun g => (List.range 16).filterMap (fun q =>
    let m := mismatch g.1 q
    if m = 0 then none else some (g.2, q, m)))

/-- The tolerated mismatches (R65). -/
def tolerated (m : Int) : Bool := [0, 1, 2, 4, 8, 16, 32, 64].contains m.natAbs

/-- Folding one plane's counts into the accumulators (R56). -/
def fold (a : ArrSt) (p : Nat) (c : List (List Nat)) (acc : List Int) : List Int :=
  let n := slicesOf (wFmt a)
  let wp : Int := if p + 1 = planesOf a then -(2 ^ p) else 2 ^ p
  acc.zipIdx.map (fun x =>
    (List.range n).foldl (fun t k =>
      let ws : Int := if k + 1 = n then -(2 ^ k) else 2 ^ k
      t + wp * ws * ((c.map (fun g => g.getD (x.2 * n + k) 0)).sum : Nat)) x.1)

def addCounts (x y : List (List Nat)) : List (List Nat) :=
  (x.zip y).map (fun g => (g.1.zip g.2).map (fun c => c.1 + c.2))

/-! ## Scaling to output (R87–R103) -/

/-- A table of R91, ready for use. -/
structure ActTab where
  xmin : Word
  xmax : Word
  ls : Word
  rs : Word
  entry : Nat → Word

/-- The custom table in 1,056 octets (R92). -/
def customTab (t : Octets) : ActTab :=
  let w (o : Nat) : Word := BitVec.ofNat 32 (fld t o 4)
  { xmin := w 4, xmax := w 8, ls := w 12, rs := w 16, entry := fun k => w (32 + 4 * k) }

def builtinTab (shape : Nat) : ActTab :=
  let d := f32OfNat (shapeDomain shape)
  { xmin := f32Neg d, xmax := d, ls := 0, rs := if shape = 4 then 0 else 0x3F800000, entry := builtinEntry shape }

/-- inv of R91. -/
def tabInv (xmin xmax : Word) : Word := f32Div (f32OfNat 255) (f32Sub xmax xmin)

/-- The tabled shape (R91), with whether an operation overflowed. -/
def evalTab (t : ActTab) (y : Word) : Word × Bool :=
  if f32IsNan y then (f32Nan, false)
  else if f32Lt y t.xmin then
    (if f32Ord t.ls = 0 then (t.entry 0, false)
     else
      let d := f32Sub y t.xmin
      let p := f32Mul t.ls d
      let r := f32Add (t.entry 0) p
      (r, ovf [y, t.xmin] d || ovf [t.ls, d] p || ovf [t.entry 0, p] r))
  else if f32Le t.xmax y then
    (if f32Ord t.rs = 0 then (t.entry 255, false)
     else
      let d := f32Sub y t.xmax
      let p := f32Mul t.rs d
      let r := f32Add (t.entry 255) p
      (r, ovf [y, t.xmax] d || ovf [t.rs, d] p || ovf [t.entry 255, p] r))
  else
    let d := f32Sub y t.xmin
    let u := f32Mul d (tabInv t.xmin t.xmax)
    let i := min (f32Floor u).toNat 254
    let f := f32Sub u (f32OfNat i)
    let e := f32Sub (t.entry (i + 1)) (t.entry i)
    let p := f32Mul f e
    let r := f32Add (t.entry i) p
    (r, ovf [t.entry (i + 1), t.entry i] e || ovf [f, e] p || ovf [t.entry i, p] r)

/-- The rules of R92 for a custom table. -/
def tableOk (t : Octets) : Bool :=
  let w (o : Nat) : Word := BitVec.ofNat 32 (fld t o 4)
  let inv := tabInv (w 4) (w 8)
  t.length = 1056 && fld t 0 1 = 1 && zeroAt t 1 3 && zeroAt t 20 12 &&
  [4, 8, 12, 16].all (fun o => f32Finite (w o)) && f32Lt (w 4) (w 8) &&
  (List.range 256).all (fun k => f32Finite (w (32 + 4 * k))) && f32Finite inv && f32Ord inv != 0

/-- Activation (R89). -/
def activate (v : VatSt) (shape table : Nat) (y : Word) : Word × Bool :=
  if shape = 1 then (if f32IsNan y then f32Nan else if f32Lt 0 y then y else 0, false)
  else if shape = 2 || shape = 3 || shape = 4 then evalTab (builtinTab shape) y
  else if shape = 5 then evalTab (customTab (tget [] v.tables table)) y
  else (y, false)

/-- Stages 4–6 on the sums of a tail (R81, R87, R89): the values, and whether an operation overflowed. -/
def shape (a : ArrSt) (v : VatSt) (sx : Word) (sums : List Int) : List Word × Bool :=
  let r := sums.zipIdx.map (fun c =>
    let f := f32OfInt c.1
    let p := f32Mul f sx
    let sw := bf16ToF32 (a.sw.getD c.2 0)
    let y := f32Mul p sw
    let o := ovf [f, sx] p || ovf [p, sw] y
    let b := a.bias.getD c.2 0
    let y2 := if biasEn a then f32Add y b else y
    let o := o || (biasEn a && ovf [y, b] y2)
    let z := activate v (actShape a) (actTable a) y2
    (z.1, o || z.2))
  (r.map (·.1), r.any (·.2))

/-- Pieces of `w` adjacent values. -/
def chunks {α : Type} (w : Nat) (l : List α) : List (List α) :=
  if w = 0 then [] else (List.range (l.length / w)).map (fun k => (l.drop (w * k)).take w)

/-- Pooling (R96). -/
def pool (mode log2w : Nat) (zs : List Word) : List Word × Bool :=
  if mode = 0 then (zs, false)
  else
    let gs := chunks (2 ^ log2w) zs
    if mode = 3 then (gs.map (fun g => g.tail.foldl f32Max (g.headD 0)), false)
    else
      let sc := f32Round false 1 (-(log2w : Int))
      (gs.map (fun g => if mode = 2 then f32Mul (treeSum g) sc else treeSum g), gs.any treeOvf)

/-- The scale s_o of a record (R102). -/
def outScaleOf (fmt : Nat) (dyn : Bool) (stored : Word) (zs : List Word) : Word :=
  if fmt = 0 then 0x3F800000
  else if !dyn then stored
  else
    let amax := (zs.filter f32Finite).foldl (fun m x => if f32Lt m (f32Abs x) then f32Abs x else m) 0
    let q := f32Div amax (f32OfNat (if fmt = 1 then 448 else 127))
    if f32Ord q = 0 then 0x3F800000 else q

/-- Conversion of one value (R102): its octets, NONFINITE, SAT. -/
def convert (fmt : Nat) (so z : Word) : Octets × Bool × Bool :=
  if fmt = 0 then
    let h := f32ToBf16 z
    (natLe 2 h.toNat, f32IsInf (bf16ToF32 h), false)
  else
    let v := f32Mul z (f32Div 0x3F800000 so)
    if fmt = 1 then
      let c := f32ToFp8 v
      ([c.1], false, c.2)
    else if f32IsNan v then ([0], false, false)
    else
      let big : Bool := match f32ToInt v with
        | none => true
        | some n => n < -127 || 127 < n
      ([BitVec.ofInt 8 (f32ClampInt (-127) 127 v)], false, big)

/-- Padding to a multiple of 64 bytes (R103). -/
def pad64 (b : Octets) : Octets := padTo b ((b.length + 63) / 64 * 64)

/-- The 16-byte header of an output record (R103). -/
def recHeader (tag fmt flags count : Nat) (scale : Word) (source reason epoch : Nat) : Octets :=
  natLe 4 tag ++ natLe 1 fmt ++ natLe 1 flags ++ natLe 2 count ++ natLe 4 scale.toNat ++ natLe 2 source
    ++ natLe 1 reason ++ natLe 1 epoch

def flagBits (nf sat split tol conflict paired pooled : Bool) : Nat :=
  b2n nf + 2 * b2n sat + 4 * b2n split + 8 * b2n tol + 16 * b2n conflict + 32 * b2n paired + 64 * b2n pooled

/-- Stages 8 and 9 and the record of a product whose values are formed (R96, R102, R103): octets, NONFINITE, SAT. -/
def outputRecord (a : ArrSt) (tag source epoch : Nat) (zs : List Word) (nf sat split tol paired : Bool) : Octets × Bool × Bool :=
  let p := pool (poolMode a) (poolLog2 a) zs
  let so := outScaleOf (outFmt a) (outDyn a) a.outScale p.1
  let cs := p.1.map (convert (outFmt a) so)
  let nf := nf || p.2 || cs.any (fun c => c.2.1)
  let sat := sat || cs.any (fun c => c.2.2)
  (pad64 (recHeader tag (outFmt a) (flagBits nf sat split tol false paired (poolMode a != 0)) p.1.length so source 0 (epoch % 256)
    ++ cs.flatMap (·.1)), nf, sat)

/-- A conflict record (R95, R100): every payload element 0, its scale that of an all-zero payload. -/
def conflictRecord (a : ArrSt) (tag source epoch reason : Nat) (split tol paired : Bool) : Octets :=
  let n := if poolMode a = 0 then outUsed a else outUsed a / 2 ^ poolLog2 a
  let so := outScaleOf (outFmt a) (outDyn a) a.outScale []
  pad64 (recHeader tag (outFmt a) (flagBits false false split tol true paired (poolMode a != 0)) n so source reason (epoch % 256)
    ++ List.replicate (n * (if outFmt a = 0 then 2 else 1)) 0)

end Sys2Proof.Machine
end

