-- ==== Sys2Proof/Machine/ArrayOps.lean ====
section
/-! DEFINITION. What happens to products at an array: acceptance, grants, forwarding along a chain, discarding for replay
(R60–R62, R99–R101, R376). -/

namespace Sys2Proof.Machine

/-- Grants per vat in force (R407). -/
def gv (s : State) : Nat := s.pwr.gV

def vatSlot (s : State) (n : Nat) : Nat × Nat := (n / 2176, (slotOf s n).getD 0)

/-- A chain of more than one member, or a pair partner: its refused records must keep it in step (R95, R101). -/
def inChain (a : ArrSt) : Bool := lenM1 a != 0 || pairRole a != 0

/-- IN_SCALE of the tail of the array's chain (R98). -/
def tailScale (s : State) (n : Nat) : Word :=
  let x := vatSlot s n
  match (chainArrays s x.1 x.2).getLast? with
  | some t => (s.arrAt t).inScale
  | none => (s.arrAt n).inScale

/-- The weight epoch in force of a partition (R134). -/
def epochOf (s : State) (p : Nat) : Nat := (s.whlAt p).epoch

/-- A product as it is accepted (R58, R84). -/
def newProduct (a : ArrSt) (tag : Nat) (q : List Int) (sx : Word) (nf : Bool) (at_ epoch : Nat) : Product :=
  { tag := tag, sx := sx, q := q, nonfinite := nf, acceptedAt := at_, todo := livePlanes a q,
    acc := List.replicate (outUsed a) 0, final := (livePlanes a q).isEmpty, epoch := epoch }

/-- The place of a refused or returned record in a chain or pair (R101): a void product. -/
def voidProduct (a : ArrSt) (tag at_ epoch : Nat) : Product :=
  { tag := tag, sx := 0, q := [], nonfinite := false, acceptedAt := at_, todo := [],
    acc := List.replicate (outUsed a) 0, final := true, void := true, epoch := epoch }

/-- An array asks for a grant at the end of its vat's queue (R62), or at its head after a revocation (R408). -/
def askGrant (s : State) (n : Nat) (atHead : Bool) : State :=
  let v := n / 2176
  let t := s.vatAt v
  if (s.arrAt n).granted || t.asking.contains n then s
  else s.setVat v { t with asking := if atHead then n :: t.asking else t.asking ++ [n] }

def returnGrant (s : State) (n : Nat) : State :=
  let v := n / 2176
  let s := s.modVat v (fun t => { t with grants := t.grants.filter (· != n), asking := t.asking.filter (· != n) })
  s.modArr n (fun a => { a with granted := false })

/-- A grant to an array that asks (R62). -/
def giveGrant (s : State) (n : Nat) : State :=
  let v := n / 2176
  let s := s.modVat v (fun t => { t with grants := n :: t.grants, asking := t.asking.filter (· != n) })
  s.modArr n (fun a => { a with granted := true })

/-- An array with work to launch wakes if it must, and asks for a grant (R61, R62). -/
def callUp (s : State) (n : Nat) : State :=
  let a := s.arrAt n
  askGrant (if a.awake || a.waking.isSome then s else s.setArr n { a with waking := some s.time }) n false

/-- Nothing is left to launch: no input waits, and every product held is final (R62, R63). -/
def allLaunched (a : ArrSt) : Bool := a.waiting.isEmpty && a.products.all (·.final) && a.prog.isNone

/-- The grant returns when the queue is empty after the last launch, which is the last once its counts ask for no split (R62). -/
def returnIfDone (s : State) (n : Nat) : State := if allLaunched (s.arrAt n) then returnGrant s n else s

/-! ## Chains -/

/-- The time E of R104: when a member's own accumulators are final. -/
def ownReady (p : Product) : Nat := if p.lastLaunch = 0 then p.acceptedAt + 8 else p.lastLaunch + 6

/-- A hop of R104 at least: 1 ns within a vat (2 for INT2), otherwise 4 (8) plus one router. -/
def hopTime (a : ArrSt) (from_ to_ : Nat) : Nat :=
  let i2 := if wFmt a = 0 then 2 else 1
  if from_ / 2176 = to_ / 2176 then i2 else 4 * i2 + 1

/-- A member's own part of the chain sum (R99). -/
def ownPartial (p : Product) (at_ : Nat) : Partial :=
  { tag := p.tag, sx := p.sx, sums := p.acc, sat := false, split := p.split, tol := p.tol, nonfinite := p.nonfinite,
    tagConflict := false, sxConflict := false, void := p.void, at_ := at_ }

def satAdd (x y : Int) : Int := clampI (-(2 ^ 31)) (2 ^ 31 - 1) (x + y)

/-- Member addition (R99): clamped sums with SAT, the member's own tag and s_x, and the conflicts met so far (R100). -/
def addPartial (p : Product) (r : Partial) (at_ : Nat) : Partial :=
  let prs := p.acc.zip r.sums
  let void := p.void || r.void
  { tag := p.tag, sx := p.sx, sums := prs.map (fun c => satAdd c.1 c.2),
    sat := r.sat || prs.any (fun c => satAdd c.1 c.2 != c.1 + c.2),
    split := p.split || r.split, tol := p.tol || r.tol, nonfinite := p.nonfinite || r.nonfinite,
    tagConflict := r.tagConflict || (!void && r.tag != p.tag),
    sxConflict := r.sxConflict || (!void && r.sx != p.sx), void := void, at_ := at_ }

/-- The first product of a list whose chain addition is still to do, with its index. -/
def firstUnchained (ps : List Product) : Option (Nat × Product) :=
  (ps.findIdx? (fun p => p.chained.isNone)).bind (fun i => (ps[i]?).map (fun p => (i, p)))

/-- Sends a member's sums on to the next member's inbox (R99). -/
def forwardTo (s : State) (n : Nat) (r : Partial) : State :=
  let a := s.arrAt n
  if hasNext a then
    s.modArr (physOf s (nextVat a) (nextSlot a)) (fun b => { b with inbox := b.inbox ++ [r] })
  else s

/-- A head or an unchained array needs no sums from before: its oldest final products are chained and forwarded in order. -/
def headForward (s : State) (n : Nat) : State :=
  let a := s.arrAt n
  if hasPrev a then s
  else match firstUnchained a.products with
    | some (i, p) =>
      if p.final then
        let r := ownPartial p (ownReady p)
        forwardTo (s.setArr n { a with products := lset a.products i { p with chained := some r, forwarded := true } }) n r
      else s
    | none => s

/-- At most two products are held (R60). -/
def headForwards (s : State) (n : Nat) : State := headForward (headForward s n) n

/-! ## Acceptance (R60–R62) -/

/-- Whether an array may accept a product now (R60, R62, R77): awake, granted, a free input buffer, no output held,
and neither being measured nor tested nor programmed nor fenced. -/
def canAccept (a : ArrSt) : Bool :=
  a.awake && a.granted && !a.fenced && !a.calActive && !a.underTest && a.prog.isNone && a.products.length < 2 && a.stuck.isNone

/-- A vat under FULL calibration is out of service: its records wait (R74). -/
def vatMeasured (s : State) (n : Nat) : Bool :=
  let t := s.vatAt (n / 2176)
  t.calState = 1 && t.calMode = 0

/-- Accepts the oldest waiting record where the array may; a record marked refused takes its void place. -/
def acceptOne (s : State) (n : Nat) : State :=
  let a := s.arrAt n
  match a.waiting with
  | [] => s
  | w :: ws =>
    if !(canAccept a) || vatMeasured s n then s
    else
      let p := arrPart s n
      let tag := fld w.record 0 4
      let ready := (a.products.map (·.acceptedAt)).foldl max s.time
      if w.record.length < 16 then
        s.setArr n { a with waiting := ws, products := a.products ++ [voidProduct a tag ready (epochOf s p)] }
      else
        let r := quantise a (tailScale s n) w.record
        let pr := newProduct a tag r.1 r.2.1 r.2.2 (ready + quantTime a) (epochOf s p)
        s.setArr n { a with
          waiting := ws, products := a.products ++ [pr],
          skipCnt := Word.bump a.skipCnt (planesOf a - pr.todo.length) }

/-- Accepts up to two waiting records (R60); products without a pass to run go on at once. -/
def acceptWaiting (s : State) (n : Nat) : State := headForwards (acceptOne (acceptOne s n) n) n

/-- A record waits for its array: the array wakes, and asks for a grant (R61, R62). -/
def enqueueRecord (s : State) (n : Nat) (w : WaitRec) : State :=
  let a := s.arrAt n
  acceptWaiting (callUp (s.setArr n { a with waiting := a.waiting ++ [{ w with checked := true }] }) n) n

/-- A refused or returned record: its status goes to the sender, and in a chain or pair a void product keeps its place. -/
def refuseRecord (s : State) (n : Nat) (w : WaitRec) (status : Nat) (held : Bool) : State :=
  let s := s.emit (.status w.sender status)
  let a := s.arrAt n
  if !(inChain a) then s
  else if held then
    headForwards (s.setArr n { a with products := a.products ++ [voidProduct a (fld w.record 0 4) s.time (epochOf s (arrPart s n))] }) n
  else enqueueRecord s n { w with record := octs w.record 0 4 }

/-- A record reaches the array of a slot, which checks it once (R83). -/
def deliver (s : State) (vat slot : Nat) (w : WaitRec) : State :=
  let n := physOf s vat slot
  let st := recordCheck (s.arrAt n) (slotNamed s vat slot) w.record
  let st := if st = 0 && w.poisoned then St.memPoisoned else st
  if !w.checked && st != 0 then refuseRecord s n w st false else enqueueRecord s n w

/-! ## Replay (R66, R101, R376) -/

/-- A product as it is accepted again: from its quantised vector and s_x. -/
def replayOf (a : ArrSt) (now : Nat) (p : Product) : Product :=
  if p.void then { voidProduct a p.tag now p.epoch with epoch := p.epoch }
  else newProduct a p.tag p.q p.sx p.nonfinite now p.epoch

/-- The products of an array start again, its inbox is emptied. -/
def restartProducts (s : State) (n : Nat) : State :=
  let a := s.arrAt n
  let s := s.setArr n { a with products := a.products.map (replayOf a s.time), inbox := [] }
  headForwards (if allLaunched (s.arrAt n) || a.fenced then s else callUp s n) n

/-- A chain replays on every member (R101). -/
def restartChain (s : State) (v l : Nat) : State := (chainArrays s v l).foldl restartProducts s

/-- The products of a chain are voided on every member (R101, no target). -/
def voidChain (s : State) (v l : Nat) : State :=
  (chainArrays s v l).foldl (fun s n => s.modArr n (fun a => { a with products := [], inbox := [] })) s

/-- The release of the oldest product of a chain at its tail frees the input buffer of every member (R60, R376). -/
def popChain (s : State) (v l : Nat) : State :=
  (chainArrays s v l).foldl (fun s n =>
    let s := s.modArr n (fun a => { a with products := a.products.tail, inbox := if hasPrev a then a.inbox else [] })
    let s := returnIfDone (acceptWaiting s n) n
    let a := s.arrAt n
    if a.products.isEmpty && a.waiting.isEmpty then s.modArr n (fun a => { a with idleSince := s.time }) else s) s

end Sys2Proof.Machine
end

