-- ==== Sys2Proof/Machine/FabOps.lean ====
section
/-! DEFINITION. The fabric's shared operations: channel handles (R318–R320), paths (R279–R284), sending a frame with its
credit, link sequence and end-to-end record (R274–R278), and the checks of a received frame (R273, R277, R282). -/

namespace Sys2Proof.Machine

/-! ## Channel handles (R318–R320) -/

def chanType : Chan → Nat
  | .req _ => 1
  | .qp _ => 2
  | .stream _ => 3
  | .group _ => 4
  | .coll _ => 5
  | .task _ => 6
  | .staging _ => 7

def handleOf (typ gen slot : Nat) : Nat := typ * 2 ^ 28 + gen % 4096 * 2 ^ 16 + slot % 65536

def hSlot (h : Nat) : Nat := bits h 15 0

/-- The channel a handle names, if it names one of its type and generation. -/
def chanOf (s : State) (h : Nat) : Option (Nat × Chan) :=
  let c := s.slotAt (hSlot h)
  match c.chan with
  | some x => if chanType x = bits h 31 28 && c.gen = bits h 27 16 then some (c.part, x) else none
  | none => none

def setChan (s : State) (h : Nat) (x : Chan) : State :=
  s.setSlot (hSlot h) { s.slotAt (hSlot h) with chan := some x }

def handleAt (s : State) (slot : Nat) : Nat :=
  let c := s.slotAt slot
  match c.chan with
  | some x => handleOf (chanType x) c.gen slot
  | none => 0

/-- Lowest slot that was never used. -/
def firstGap : Tab ChanSlot → Nat → Nat
  | [], n => n
  | (k, _) :: t, n => if k = n then firstGap t (n + 1) else n

/-- The free slot that has been free longest (R319); none when every slot is in use. -/
def pickSlot (s : State) : Option Nat :=
  let n := firstGap s.syn.slots 0
  if n < 65536 then some n
  else
    let fr := s.syn.slots.filter (fun q => q.2.chan.isNone)
    (fr.foldl (fun m q => match m with
      | none => some q
      | some b => if q.2.freedAt < b.2.freedAt then some q else some b) none).map (·.1)

def chanCount (s : State) (typ : Nat) : Nat :=
  (s.syn.slots.filter (fun q => match q.2.chan with
    | some x => chanType x = typ
    | none => false)).length

def freeSlots (s : State) : Nat := 65536 - (s.syn.slots.filter (fun q => q.2.chan.isSome)).length

/-- Puts a channel into a slot and answers its handle. -/
def openChan (s : State) (slot part : Nat) (x : Chan) : Nat × State :=
  let c := s.slotAt slot
  (handleOf (chanType x) c.gen slot, s.setSlot slot { c with part := part, chan := some x })

/-- Frees a channel's slot: its generation advances modulo 4,096 (R319). -/
def closeChan (s : State) (slot : Nat) : State :=
  let c := s.slotAt slot
  let t := { s with syn := { s.syn with freed := s.syn.freed + 1 } }
  t.setSlot slot { gen := (c.gen + 1) % 4096, part := 0, chan := none, freedAt := s.syn.freed + 1 }

/-- The slots in use, ascending, with their contents. -/
def chans (s : State) : List (Nat × ChanSlot) := s.syn.slots.filter (fun q => q.2.chan.isSome)

/-- Changes a stream, where the handle names one. -/
def modStream (s : State) (h : Nat) (f : StreamSt → StreamSt) : State :=
  match chanOf s h with
  | some (_, .stream x) => setChan s h (.stream (f x))
  | _ => s

/-! ## Chips, roles and paths -/

def ownChip (s : State) : Nat := cfgNat s Key.topoChip

def addrChip (a : Nat) : Nat := bits a 63 48

def addrOff (a : Nat) : Nat := bits a 47 0

def mkAddr (chip off : Nat) : Nat := chip * 2 ^ 48 + off

/-- Local global addresses (R284). -/
def isLocal (s : State) (a : Nat) : Bool := addrChip a = 0 || addrChip a = ownChip s

def isGroup (chip : Nat) : Bool := 0xFFF0 ≤ chip

/-- Whether a port has a board role (R41). -/
def boardPort (s : State) (p : Nat) : Bool :=
  match boardClass s.pin.straps with
  | some 16 => p ≤ 14
  | some 8 => p ≤ 13
  | _ => false

/-- Mode of a port in force: 0 DIRECT, 1 SWITCHED, 2 ROCE (R265). -/
def portMode (s : State) (p : Nat) : Nat :=
  match (s.portAt p).mode with
  | some m => m
  | none => if 20 ≤ p then 2 else if boardPort s p then 0 else 1

def routeWord (s : State) (chip path : Nat) : Nat := (tget 0 s.fab.routes (chip * 8 + path)).toNat

def routePort (w : Nat) : Nat := bits w 4 0

def routeSub (w : Nat) : Nat := bits w 6 5

def chipLost (s : State) (chip : Nat) : Bool := s.fab.lost.contains chip

/-- A path that may be chosen (R280): VALID, its port UP, its next hop not lost, and not barred by R296. -/
def pathUsable (s : State) (chip path : Nat) : Bool :=
  let w := routeWord s chip path
  bit w 7 && (s.subAt (routePort w) (routeSub w)).state = .up && !(chipLost s (bits w 31 16)) &&
    !(portMode s (routePort w) = 1 && s.fab.barred.contains chip)

def usablePaths (s : State) (chip : Nat) : List Nat :=
  if chipLost s chip then [] else (List.range 8).filter (pathUsable s chip)

def reachable (s : State) (chip : Nat) : Bool := !(usablePaths s chip).isEmpty

/-! ## Sending -/

/-- Octets of a frame on the wire (R270). -/
def frameBytes (len : Nat) : Nat := 64 + (len + 63) / 64 * 64

/-- Credit a frame takes (R275). -/
def creditUnits (cls len : Nat) : Nat := if cls = 0 then 1 else frameBytes len / 64

/-- PCP of a class (R267). -/
def clsPcp (cls : Nat) : Nat := if cls = 0 then 7 else if cls = 1 then 5 else if cls = 2 then 4 else 1

def portReplay (s : State) (p : Nat) : Nat :=
  ((s.portAt p).subs.map (fun q => (q.2.replay.map (fun f => frameBytes f.payload.length)).sum)).sum

/-- Unacknowledged payload to a chip in a class (R276). -/
def inWindow (s : State) (chip cls : Nat) : Nat :=
  ((s.fab.sent.filter (fun f => f.dst = chip && f.cls = cls && f.port.isSome)).map (fun f => f.payload.length)).sum

/-- A path has credit, replay room and window for a frame (R274–R276, R293). -/
def pathReady (s : State) (f : SentFrame) (path : Nat) : Bool :=
  let w := routeWord s f.dst path
  let p := routePort w
  let x := s.subAt p (routeSub w)
  if portMode s p = 0 then
    creditUnits f.cls f.payload.length ≤ x.credits.getD f.cls 0 &&
      portReplay s p + frameBytes f.payload.length ≤ 2 ^ 20 && x.replay.length < 2 ^ 20
  else
    !(x.paused.contains (clsPcp f.cls)) && tget 0 s.fab.peerVer f.dst != 0 &&
      (f.retries != 0 || inWindow s f.dst f.cls + f.payload.length ≤ 1024 * cfgNat s Key.xtvE2eWindowKib)

/-- The path chosen: usable paths in rotation by index (R280); a retransmission takes another path where it can (R278). -/
def choosePath (s : State) (f : SentFrame) : Option Nat :=
  let r := tget 0 s.fab.rotate f.dst
  let ps := ((List.range 8).map (fun i => (r + i) % 8)).filter (fun p => pathUsable s f.dst p && pathReady s f p)
  if f.retries = 0 then ps.head?
  else match ps.find? (fun p => p != f.path) with
    | some p => some p
    | none => ps.head?

/-- Whether the source keeps a frame until it is acknowledged end to end (R277, R289). -/
def e2eTracked (f : SentFrame) : Bool := f.typ = 1 || f.typ = 2 || f.typ = 3 || f.typ = 4

def sameFrame (f g : SentFrame) : Bool :=
  f.typ = g.typ && f.op = g.op && f.dst = g.dst && f.stream = g.stream && f.eseq = g.eseq && f.offset = g.offset

/-- A frame starts on a port: values that apply at FRAME are in force from it on (R16). -/
def frameStart (s : State) (p : Nat) : State :=
  let due := s.dic.pend.filter (fun v => v.point = .frame)
  let s := if due.isEmpty then s
    else due.foldl (fun s v => cfgPut s v.key v.value) { s with dic := { s.dic with pend := s.dic.pend.filter (fun v => v.point != .frame) } }
  match (s.portAt p).preemptPend with
  | some b => s.modPort p (fun q => { q with
      preemptEn := b, preemptPend := none, subs := if b then q.subs else q.subs.map (fun x => (x.1, { x.2 with preempt := false })) })
  | none => s

/-- Puts a frame on a sub-port: link sequence, replay buffer and credit on DIRECT ports; LACK rides on it (R274, R275). -/
def putOnPort (s : State) (p k : Nat) (f : SentFrame) : SentFrame × State :=
  let s := frameStart s p
  let x := s.subAt p k
  if portMode s p = 0 then
    let g := { f with lseq := x.txNext, sentAt := s.time, port := some (p * 4 + k) }
    let u := creditUnits f.cls f.payload.length
    (g, s.setSub p k { x with
      txNext := (x.txNext + 1) % 2 ^ 32, replay := x.replay ++ [g],
      credits := lset x.credits f.cls (x.credits.getD f.cls 0 - u),
      unacked := 0, lastTx := s.time, lastProgress := if x.replay.isEmpty then s.time else x.lastProgress })
  else
    ({ f with lseq := 0, sentAt := s.time, port := some (p * 4 + k) }, s.setSub p k { x with lastTx := s.time })

/-- Sends a frame on a chosen path, and records it. -/
def sendOnPath (s : State) (f : SentFrame) (path : Nat) : State :=
  let w := routeWord s f.dst path
  let r := putOnPort s (routePort w) (routeSub w) { f with path := path }
  let g := r.1
  let t := r.2
  let fab := { t.fab with
    rotate := tput 0 t.fab.rotate f.dst ((path + 1) % 8)
    sent := if !(e2eTracked f) then t.fab.sent
      else if t.fab.sent.any (sameFrame f) then t.fab.sent.map (fun h => if sameFrame f h then g else h)
      else t.fab.sent ++ [g] }
  ({ t with fab := fab }).emit (.frame f.typ f.op f.dst f.stream f.eseq f.offset f.aux (f.retries != 0) path f.payload)

/-- The SWITCHED sub-port of a usable path to a chip whose end-to-end HELLO has not been exchanged (R296). -/
def helloDue (s : State) (chip : Nat) : Option (Nat × Nat) :=
  if tget 0 s.fab.peerVer chip != 0 then none
  else (((usablePaths s chip).map (routeWord s chip)).find? (fun w => portMode s (routePort w) = 1)).map
    (fun w => (routePort w, routeSub w))

/-- An end-to-end HELLO to a chip (R296). -/
def sendHelloTo (s : State) (chip state : Nat) : State :=
  match (((usablePaths s chip).map (routeWord s chip)).find? (fun w => portMode s (routePort w) = 1)) with
  | some w => (frameStart s (routePort w)).emit (.frame 7 1 chip 0 0 0 state false 0 [])
  | none => s

/-- Sends a frame, or lets it wait for credit, window, replay room or the HELLO before a first use. The caller has checked
that a path is usable. -/
def sendFrame (s : State) (f : SentFrame) : State :=
  match choosePath s f with
  | some p => sendOnPath s f p
  | none =>
    let s := if (helloDue s f.dst).isSome && !(s.fab.waitq.any (fun g => g.dst = f.dst)) then sendHelloTo s f.dst 0 else s
    let fab := { s.fab with
      waitq := s.fab.waitq ++ [f]
      sent := if e2eTracked f && !(s.fab.sent.any (sameFrame f)) then s.fab.sent ++ [f] else s.fab.sent }
    { s with fab := fab }

/-- Frames that waited are sent once they may be, oldest first. -/
def flushWaiting (s : State) : State :=
  s.fab.waitq.foldl (fun s f => sendFrame s f) { s with fab := { s.fab with waitq := [] } }

/-- A multicast group's ports (R283). -/
def mcastPorts (s : State) (chip : Nat) : List Nat := bitsOf (cfgNat s (Key.xtvMcast + (chip - 0xFFF0))) 20

/-- A group frame: one copy to each port in the group's mask; each member acknowledges, so one record is kept for each
partner the ports lead to (R283). -/
def sendGroup (s : State) (f : SentFrame) : State :=
  let ps := (mcastPorts s f.dst).filter (fun p => (s.subAt p 0).state = .up)
  ps.foldl (fun s p =>
    let m := (s.subAt p 0).peerChip
    let r := putOnPort s p 0 { f with dst := m, mcast := true }
    let fab := { r.2.fab with sent := r.2.fab.sent ++ [r.1] }
    ({ r.2 with fab := fab }).emit (.frame f.typ f.op f.dst f.stream f.eseq f.offset f.aux false p f.payload)) s

/-- The partition's stream to a chip in a class that carries an agent's accesses there: the lowest slot. -/
def streamTo (s : State) (part chip cls : Nat) : Option Nat :=
  ((chans s).find? (fun q => q.2.part = part && match q.2.chan with
    | some (.stream x) => x.sender && x.chip = chip && x.cls = cls && x.ended.isNone && !x.closing
    | _ => false)).map (fun q => handleAt s q.1)

/-- Sends on an open stream: numbered by ESEQ from 0, STREAM_EXHAUSTED after the last number (R277), ROUTE_UNREACHABLE
without a usable path (R280). -/
def sendStream (s : State) (h typ op offset aux : Nat) (payload : Octets) (by_ : Option Agent) (obj : Option Nat) : Nat × State :=
  match chanOf s h with
  | some (_, .stream x) =>
    if x.ended.isSome then (x.ended.getD 0, s)
    else if !(reachable s x.chip) then (St.routeUnreachable, s)
    else if 2 ^ 32 ≤ x.next then (St.streamExhausted, s)
    else
      let f : SentFrame := { typ := typ, op := op, dst := x.chip, stream := x.peer, eseq := x.next, offset := offset,
                             aux := aux, payload := payload, cls := if typ = 1 then x.cls else 0, own := h, by_ := by_, obj := obj }
      (St.ok, sendFrame (setChan s h (.stream { x with next := x.next + 1 })) f)
  | _ => (St.staleHandle, s)

/-- An end-to-end acknowledgement or refusal to a chip (R272). -/
def sendEack (s : State) (chip op stream eseq offset aux : Nat) : State :=
  if reachable s chip then
    sendFrame s { typ := 5, op := op, dst := chip, stream := stream, eseq := eseq, offset := offset, aux := aux,
                  payload := [], cls := 0 }
  else s

/-! ## Receiving -/

/-- LSEQ comparison modulo 2^32: a is earlier than b (R274). -/
def seqBefore (a b : Nat) : Bool := a != b && (b + 2 ^ 32 - a) % 2 ^ 32 < 2 ^ 31

/-- A link acknowledgement releases the replay buffer up to LACK (R274). -/
def linkAcked (s : State) (p k lack : Nat) : State :=
  let x := s.subAt p k
  let keepF := x.replay.filter (fun f => seqBefore lack f.lseq)
  if keepF.length = x.replay.length then s
  else flushWaiting (s.setSub p k { x with replay := keepF, replayTries := 0, lastProgress := s.time })

/-- Credit returned for a class (R275). -/
def creditBack (s : State) (p k cls units : Nat) : State :=
  if units = 0 || 3 < cls then s
  else
    let x := s.subAt p k
    flushWaiting (s.setSub p k { x with credits := lset x.credits cls (x.credits.getD cls 0 + units) })

/-- Sends a LINK frame: it takes no LSEQ, and its LACK acknowledges what was accepted. -/
def sendLink (s : State) (p k op value : Nat) : State :=
  ((frameStart s p).modSub p k (fun x => { x with lastTx := s.time, unacked := 0 })).emit (.link p k op value)

/-- The last LSEQ accepted. -/
def lastAccepted (x : SubSt) : Nat := (x.rxNext + 2 ^ 32 - 1) % 2 ^ 32

/-- Marks a sub-port and a chip as heard (R297). -/
def heardFrom (s : State) (p k chip : Nat) : State :=
  let s := s.modSub p k (fun x => { x with lastRx := s.time })
  { s with fab := { s.fab with heard := tput none s.fab.heard chip (some s.time) } }

/-- A sub-port that carries frames. -/
def subCarries (x : SubSt) : Bool := x.state = .up || x.state = .doze

/-- The link layer on an arriving frame (R274, R275): none where it goes no further. -/
def linkReceive (f : Frame) (s : State) : State × Bool :=
  let x := s.subAt f.port f.sub
  if !(subCarries x) then (s, false)
  else
    let s := heardFrom s f.port f.sub f.srcChip
    if portMode s f.port != 0 then (s, true)
    else
      let s := creditBack (linkAcked s f.port f.sub f.lack) f.port f.sub (bits f.credit 15 13) (bits f.credit 12 0)
      let x := s.subAt f.port f.sub
      if f.lseq = x.rxNext then
        let n := x.unacked + 1
        let s := s.setSub f.port f.sub { x with rxNext := (x.rxNext + 1) % 2 ^ 32, unacked := n, naked := false }
        (if 32 ≤ n then sendLink s f.port f.sub 1 x.rxNext else s, true)
      else if seqBefore f.lseq x.rxNext then (sendLink s f.port f.sub 1 (lastAccepted x), false)
      else if x.naked then (s, false)
      else
        (sendLink (s.setSub f.port f.sub { x with naked := true }) f.port f.sub 2 (lastAccepted x), false)

/-- Version in effect for a frame: of the DIRECT sub-port it came on, or with its source chip on SWITCHED paths (R273, R296). -/
def verOk (s : State) (f : Frame) : Bool :=
  f.ver = if portMode s f.port = 0 then (s.subAt f.port f.sub).ver else tget 0 s.fab.peerVer f.srcChip

/-- A frame's record (R369). -/
def frameErr (mech status : Nat) (f : Frame) (typ : Nat) : ErrRec :=
  { mech := mech, status := status, unitKind := Kind.subPort, unit := f.port * 4 + f.sub, operation := typ * 256 + f.op,
    tag := f.eseq, detailA := f.srcChip, detailB := f.stream * 2 ^ 32 + f.eseq }

def dropFrame (s : State) (p : Nat) : State := s.modPort p (fun q => { q with drops := Word.bump q.drops 1 })

/-- A group this chip belongs to: one whose port mask is not empty (DEDUCED: R283 gives no other membership). -/
def inGroup (s : State) (chip : Nat) : Bool := isGroup chip && chip ≤ 0xFFFF && !(mcastPorts s chip).isEmpty

/-- Forwards a transit frame (R282), or drops it. -/
def forwardFrame (f : Frame) (typ : Nat) (s : State) : State :=
  let ps := (usablePaths s f.dstChip).filter (fun p => !(bit (routeWord s f.dstChip p) 15))
  if portMode s f.port != 0 || f.hops = 0 || isGroup f.dstChip then dropFrame s f.port
  else match ps.head? with
    | none => dropFrame s f.port
    | some p =>
      let w := routeWord s f.dstChip p
      let g : SentFrame := { typ := typ, op := f.op, dst := f.dstChip, stream := f.stream, eseq := f.eseq, offset := f.offset,
                             aux := f.aux, payload := f.payload,
                             cls := if typ = 3 || typ = 4 then 1 else if typ = 1 && 64 < f.payload.length then 2 else 0, path := f.path,
                             transit := true }
      let r := putOnPort s (routePort w) (routeSub w) g
      r.2.emit (.frame typ f.op f.dstChip f.stream f.eseq f.offset f.aux (bit f.flags 0) f.path f.payload)

/-- Checks 3 and 5 of R273 after the link layer: the state, and whether the frame is for this chip. -/
def frameArrives (f : Frame) (typ : Nat) (s : State) : State × Bool :=
  let r := linkReceive f s
  if !r.2 then r
  else
    let s := r.1
    if !(verOk s f) || bits f.flags 7 3 != 0 then (s.writeErr (frameErr Mech.xtvFormat 0 f typ), false)
    else if f.dstChip != ownChip s && !(inGroup s f.dstChip) then (forwardFrame f typ s, false)
    else if isGroup f.dstChip && !((typ = 2 && f.op = 4) || typ = 4) then (dropFrame s f.port, false)
    else (s, true)

/-- The receive end a frame's STREAM names: a stream from its source chip (R273 check 7). -/
def rxStreamOf (s : State) (f : Frame) : Option (Nat × StreamSt) :=
  match chanOf s f.stream with
  | some (p, .stream x) => if !x.sender && x.chip = f.srcChip then some (p, x) else none
  | _ => none

/-- An ACK's AUX: bit i for ESEQ + 1 + i (R272). -/
def ackBits (x : StreamSt) : Nat :=
  maskOf ((List.range 32).filter (fun i => x.got.contains (x.expect + 1 + i)))

def sendAck (s : State) (h : Nat) (x : StreamSt) : State :=
  sendEack (setChan s h (.stream { x with unacked := 0 })) x.chip 1 x.peer x.expect 0 (ackBits x)

/-- The next expected ESEQ once those received in order have passed. -/
def advance : Nat → Nat → List Nat → Nat
  | 0, n, _ => n
  | k + 1, n, got => if got.contains n then advance k (n + 1) got else n

/-- Marks an ESEQ received (R277). -/
def gotEseq (x : StreamSt) (e : Nat) : StreamSt :=
  let got := e :: x.got
  let n := advance got.length x.expect got
  { x with expect := n, got := got.filter (fun i => n ≤ i) }

/-- A stream frame under R273 checks 7 and 8 and R277: duplicates are acknowledged again, frames past the bitmap are
dropped, every other one is applied once and acknowledged, or refused with the status that applying it gives. -/
def streamReceive (f : Frame) (apply : Nat → State → Nat × State) (s : State) : State :=
  match rxStreamOf s f with
  | none => sendEack s f.srcChip 2 f.stream f.eseq 0 St.staleHandle
  | some (part, x) =>
    if f.eseq < x.expect || x.got.contains f.eseq then sendAck s f.stream x
    else if x.expect + 4096 ≤ f.eseq then s
    else
      let s := setChan s f.stream (.stream (gotEseq x f.eseq))
      let r := apply part s
      match chanOf r.2 f.stream with
      | some (_, .stream y) =>
        if r.1 != 0 then sendEack r.2 f.srcChip 2 y.peer f.eseq 0 r.1
        else if 16 ≤ y.unacked + 1 then sendAck r.2 f.stream y
        else setChan r.2 f.stream (.stream { y with unacked := y.unacked + 1 })
      | _ => r.2

/-- A failed operation reports its status to the agent that issued it, and to the fence that covers it (R273, R306). -/
def failFrame (s : State) (f : SentFrame) (status : Nat) : State :=
  match f.by_ with
  | some a =>
    let syn := { s.syn with lateStatus := s.syn.lateStatus ++ [(a, status)] }
    ({ s with syn := syn }).emit (.status a status)
  | none =>
    match f.obj with
    | some n => s.writeErr { (reportErr status Kind.module 0 (s.objAt n).owner) with tag := n }
    | none => s

end Sys2Proof.Machine
end

