-- ==== Sys2Proof/Machine/SyncOps.lean ====
section
/-! DEFINITION. Sync objects: the operations of R310, threshold firings (R311), waiters (R312), remote operations (R313)
and fences (R306). -/

namespace Sys2Proof.Machine

/-! ## Objects and their addresses (R309) -/

def syncBase : Nat := 0x040000000000

/-- The object whose counter an offset of the exported space addresses (R309). -/
def objIndex (off : Nat) : Option Nat :=
  if syncBase ≤ off && off ≤ 0x040000FFFFFF && (off - syncBase) % 256 = 0 then some ((off - syncBase) / 256) else none

def objAddr (n : Nat) : Nat := syncBase + 256 * n

/-- The object an offset names for a partition: allocated, and owned by it (R309). -/
def objFor (s : State) (part off : Nat) : Option Nat :=
  match objIndex off with
  | some n => if (s.objAt n).alloc && (s.objAt n).owner = part then some n else none
  | none => none

/-- A local global address that names an object of a partition. -/
def localObj (s : State) (part a : Nat) : Option Nat := if isLocal s a then objFor s part (addrOff a) else none

/-! ## Answers -/

/-- The 64-octet payload of a SYNC response (R313), big-endian. -/
def syncResponsePayload (token result status : Nat) : Octets :=
  padTo (natBe 8 0 ++ natBe 8 0 ++ natBe 4 0 ++ natBe 4 token ++ natBe 4 0 ++ natBe 4 0 ++ natBe 8 result ++ natBe 2 status) 64

/-- The payload of a SYNC request (R313). -/
def syncRequestPayload (a b resp token timeout : Nat) : Octets :=
  padTo (natBe 8 a ++ natBe 8 b ++ natBe 4 resp ++ natBe 4 token ++ natBe 4 timeout) 64

def wireResp (f : Frame) : Nat := beNat (octs f.payload 16 4)

def wireToken (f : Frame) : Nat := beNat (octs f.payload 20 4)

/-- The own send stream whose frames carry a handle of the peer. -/
def streamToPeer (s : State) (chip peer : Nat) : Option Nat :=
  ((chans s).find? (fun q => match q.2.chan with
    | some (.stream x) => x.sender && x.chip = chip && x.peer = peer && x.ended.isNone
    | _ => false)).map (fun q => handleAt s q.1)

/-- Returns an operation's result to its requester. A response whose stream is stale is discarded (R313). -/
def answerSync (s : State) (by_ : SyncBy) (op result status : Nat) : State :=
  match by_ with
  | .agent _ _ => s.emit (.syncResult by_ result status)
  | .wire f =>
    match streamToPeer s f.srcChip (wireResp f) with
    | some h => (sendStream s h 2 op 0 (2 ^ 31) (syncResponsePayload (wireToken f) result status) none none).2
    | none => s
  | .roce _ => s.emit (.syncResult by_ result status)
  | .fired => s

/-! ## Firing and waking (R311) -/

/-- Firings due: thresholds reached while ARMED. An object whose STRIDE was never set fires nothing. -/
def firings (o : SyncObj) : Nat :=
  if o.armed && o.thr.toNat ≤ o.c.toNat && o.stride != 0 then (o.c.toNat - o.thr.toNat) / o.stride.toNat + 1 else 0

/-- The object after its firings: GEN advances, THRESHOLD by STRIDE each time; a firing whose addition would wrap
disarms and keeps its threshold. -/
def afterFirings (o : SyncObj) : SyncObj :=
  let k := firings o
  if k = 0 then o
  else
    let top := o.thr.toNat + k * o.stride.toNat
    let over_ : Bool := 2 ^ 64 ≤ top
    { o with
      gen := DWord.bump o.gen k,
      thr := BitVec.ofNat 64 (if over_ then o.thr.toNat + (k - 1) * o.stride.toNat else top),
      armed := o.armed && !over_ }

/-- The RELEASEs of the firings of one operation: to TARGET, or to every other member of a group without MCAST. -/
def flightsOf (n : Nat) (o : SyncObj) : List Flight :=
  let k := firings o
  if k = 0 then []
  else
    let g := o.gen.toNat
    let f (a : Nat) : Flight := ⟨n, a, (g + 1) % 2 ^ 64, (g + k) % 2 ^ 64⟩
    match o.rootLocal, o.unicast with
    | some m, c :: cs => (c :: cs).map (fun chip => f (mkAddr chip (objAddr m)))
    | _, _ => [f o.target.toNat]

/-- Waiters whose value the counter now satisfies complete (R311, R312). -/
def wakeWaiters (s : State) (n : Nat) : State :=
  let c := (s.objAt n).c.toNat
  let due := s.syn.waiters.filter (fun w => w.obj = n && w.value ≤ c)
  let t := { s with syn := { s.syn with waiters := s.syn.waiters.filter (fun w => !(w.obj = n && w.value ≤ c)) } }
  due.foldl (fun s w => answerSync s w.by_ 3 c 0) t

/-- What an object does after an operation that changed C (R311); with MCAST, or toward its own release object, the
firing raises the root's own object in the same operation (R314). -/
def afterChange : Nat → State → Nat → State
  | 0, s, n => wakeWaiters s n
  | fuel + 1, s, n =>
    let o := s.objAt n
    let k := firings o
    let t := s.setObj n (afterFirings o)
    let t := { t with syn := { t.syn with flights := t.syn.flights ++ flightsOf n o } }
    let t := match o.rootLocal with
      | some m =>
        if k = 0 then t
        else
          let r := t.objAt m
          let v := (o.gen.toNat + k) % 2 ^ 64
          if v ≤ r.c.toNat then t
          else afterChange fuel (t.setObj m { r with c := BitVec.ofNat 64 v }) m
      | none => t
    wakeWaiters t n

/-- Root objects are at most 1,024 (R321): the depth of one operation's own raises. -/
def objChanged (s : State) (n : Nat) : State := afterChange 1024 s n

/-! ## Operations (R310) -/

inductive SyncOp where
  | add (a : Nat)
  | cmpSwap (c v : Nat)
  | release (v : Nat)
  | read
  deriving DecidableEq, Repr

/-- OP of a SYNC frame (R272). -/
def syncOpCode : SyncOp → Nat
  | .add _ => 1
  | .cmpSwap _ _ => 2
  | .release _ => 4
  | .read => 5

/-- The new counter. -/
def syncNew (op : SyncOp) (c : DWord) : DWord :=
  match op with
  | .add a => c + BitVec.ofNat 64 a
  | .cmpSwap x v => if c = BitVec.ofNat 64 x then BitVec.ofNat 64 v else c
  | .release v => if c.toNat < v % 2 ^ 64 then BitVec.ofNat 64 v else c
  | .read => c

/-- Whether R311 applies after it: C changed, and no CMP_SWAP lowered it. -/
def syncFires (op : SyncOp) (c : DWord) : Bool :=
  let n := syncNew op c
  match op with
  | .cmpSwap _ _ => c.toNat < n.toNat
  | _ => n != c

/-- An operation on object n: status, result and state. A BROKEN object refuses it (R316). -/
def syncDo (s : State) (n : Nat) (op : SyncOp) : Nat × Nat × State :=
  let o := s.objAt n
  if o.broken then (St.peerLost, 0, s)
  else
    let t := s.setObj n { o with c := syncNew op o.c }
    (St.ok, if op matches .release _ then 0 else o.c.toNat, if syncFires op o.c then objChanged t n else t)

/-- ADD 1 to a local object of a partition, as a DONE_OBJ signal or an arrival performs it (R310). -/
def signalLocal (s : State) (n : Nat) : State := (syncDo s n (.add 1)).2.2

/-! ## Remote operations (R313) -/

/-- The partition's receive end from a chip, on which a response comes back (R313); 0 when it has none. -/
def respStream (s : State) (part chip : Nat) : Nat :=
  (((chans s).find? (fun q => q.2.part = part && match q.2.chan with
    | some (.stream x) => !x.sender && x.chip = chip && x.ended.isNone
    | _ => false)).map (fun q => handleAt s q.1)).getD 0

/-- Sends a SYNC request for a partition to another chip: on its express stream there, otherwise on the flow of firings
and firmware, which carries STREAM 0. -/
def sendSync (s : State) (part chip op off a b token timeout : Nat) (by_ : Option Agent) (obj : Option Nat) : Nat × State :=
  let pay := syncRequestPayload a b (if op = 1 || op = 4 then 0 else respStream s part chip) token timeout
  if isGroup chip then
    if op = 4 then
      let f : SentFrame := { typ := 2, op := op, dst := chip, stream := 0, eseq := s.fab.flowNext, offset := off, aux := 0,
                             payload := pay, cls := 0, by_ := by_, obj := obj }
      (St.ok, sendGroup { s with fab := { s.fab with flowNext := (s.fab.flowNext + 1) % 2 ^ 32 } } f)
    else (St.routeUnreachable, s)
  else match streamTo s part chip 0 with
    | some h => sendStream s h 2 op off 0 pay by_ obj
    | none =>
      if reachable s chip then
        let f : SentFrame := { typ := 2, op := op, dst := chip, stream := 0, eseq := s.fab.flowNext, offset := off, aux := 0,
                               payload := pay, cls := 0, by_ := by_, obj := obj }
        (St.ok, sendFrame { s with fab := { s.fab with flowNext := (s.fab.flowNext + 1) % 2 ^ 32 } } f)
      else (St.routeUnreachable, s)

/-- The stream on which a remote chip answers this partition: the receive end from it. -/
def newToken (s : State) (r : SyncReq) : Nat × State :=
  let t := s.syn.nextToken
  (t, { s with syn := { s.syn with nextToken := (t + 1) % 2 ^ 32, requests := s.syn.requests ++ [{ r with token := t }] } })

/-- A remote operation of an agent: tokens for the operations that return a response. -/
def remoteSync (s : State) (by_ : SyncBy) (ag : Option Agent) (part addr op a b timeout : Nat) (task : Bool) : Nat × State :=
  if op = 1 || op = 4 then sendSync s part (addrChip addr) op (addrOff addr) a b 0 0 ag none
  else
    let r := newToken s { token := 0, by_ := by_, op := op, addr := addr, value := a, task := task }
    let q := sendSync r.2 part (addrChip addr) op (addrOff addr) a b r.1 timeout ag none
    if q.1 = St.ok then q else (q.1, s)

/-- ADD 1 to a global address for a partition: status and state. -/
def signal (s : State) (part addr : Nat) (ag : Option Agent) : Nat × State :=
  if isLocal s addr then
    match objFor s part (addrOff addr) with
    | some n => let r := syncDo s n (.add 1); (r.1, r.2.2)
    | none => (St.accessUnmapped, s)
  else remoteSync s .fired ag part addr 1 1 0 0 false

/-- The counter of a WAIT_OBJ as the vat knows it: the local object, or what a remote WAIT returned (R312). -/
def waitSatisfied (s : State) (part addr v : Nat) : Bool :=
  if isLocal s addr then
    match objFor s part (addrOff addr) with
    | some n => v ≤ (s.objAt n).c.toNat
    | none => false
  else v ≤ tget 0 s.syn.remoteSeen addr

/-! ## Waits (R312) -/

def waiterPool : Nat := 131072

/-- A WAIT on a local object. -/
def syncWait (s : State) (by_ : SyncBy) (n v timeoutUs : Nat) : State :=
  let o := s.objAt n
  if o.broken then answerSync s by_ 3 0 St.peerLost
  else if v ≤ o.c.toNat then answerSync s by_ 3 o.c.toNat 0
  else if waiterPool ≤ s.syn.waiters.length then answerSync s by_ 3 0 St.noSpace
  else
    let w : Waiter := ⟨s.syn.nextWaiter, n, v, by_, s.time, timeoutUs⟩
    { s with syn := { s.syn with waiters := s.syn.waiters ++ [w], nextWaiter := s.syn.nextWaiter + 1 } }

/-- Waiters of an object fail with a status. -/
def failWaiters (s : State) (n status : Nat) : State :=
  let mine := s.syn.waiters.filter (fun w => w.obj = n)
  let t := { s with syn := { s.syn with waiters := s.syn.waiters.filter (fun w => w.obj != n) } }
  mine.foldl (fun s w => answerSync s w.by_ 3 0 status) t

/-- Marks an object BROKEN and fails its waiters (R316). -/
def breakObj (s : State) (n : Nat) : State :=
  failWaiters (s.setObj n { s.objAt n with broken := true }) n St.peerLost

/-! ## Fences (R306) -/

/-- What a FABRIC fence of an agent waits for: its frames not yet acknowledged. -/
def agentFrames (s : State) (a : Agent) : List (Nat × Nat) :=
  (s.fab.sent.filter (fun f => f.by_ = some a)).map (fun f => (f.stream, f.eseq))

/-- RDMA requests of the queue pairs that carry the agent's writes: its own, for a queue pair agent. -/
def agentRdma (s : State) (a : Agent) : List (Nat × Nat) :=
  match a with
  | .qp h => match chanOf s h with
    | some (_, .qp q) => q.outstanding.map (fun p => (h, p))
    | _ => []
  | _ => []

end Sys2Proof.Machine
end

