-- ==== Sys2Proof/Machine/TaskOps.lean ====
section
/-! DEFINITION. Tasks and engines: descriptors, checks and placement (R152–R155), what is runnable (R156), eligibility and
search order of a steal (R159–R164), completion and failure (R157, R158), dual execution (R165–R168). -/

namespace Sys2Proof.Machine

/-! ## Descriptors (R152) -/

def Task.fwait (t : Task) : Bool := bit t.flags 0

def Task.fdone (t : Task) : Bool := bit t.flags 1

def Task.finbuf (t : Task) : Bool := bit t.flags 2

def Task.fpin (t : Task) : Bool := bit t.flags 3

def Task.flocal (t : Task) : Bool := bit t.flags 4

def descTarget (d : Octets) : Nat := fld d 6 2

/-- The vat a TARGET names. -/
def targetVat (t : Nat) : Nat := if bit t 15 then bits t 2 0 else bits t 8 0 / 64

def taskOf (d : Octets) (part : Nat) : Task :=
  { key := 0, part := part, opcode := fld d 0 2, flags := fld d 2 1, pool := fld d 3 1, scratchKib := fld d 4 2,
    waitObj := fld d 8 8, waitValue := fld d 16 8, doneObj := fld d 24 8, argPtr := fld d 32 8, argLen := fld d 40 4,
    taskId := fld d 44 4, step := fld d 48 4, inbuf := fld d 52 2, consume := fld d 54 2, vat := targetVat (fld d 6 2) }

/-- The package that provides an opcode to a partition (R153, R443). -/
def pkgFor (s : State) (part op : Nat) : Option Pkg :=
  s.eng.pkgs.find? (fun p => p.part = part && p.first ≤ op && op ≤ p.last)

def builtinOps : List Nat := [0x0001, 0x0002, 0x0003, 0x0010, 0x0020, 0x0021, 0x0030, 0x0040, 0x0041]

def firmwareOp (op : Nat) : Bool := 0x0100 ≤ op && op ≤ 0x01FF

def opDefined (s : State) (part op : Nat) : Bool :=
  builtinOps.contains op || firmwareOp op || (0x4000 ≤ op && op ≤ 0x7FFF && (pkgFor s part op).isSome)

/-- Whether a source may post an opcode (R153). -/
def opPermitted (p : Poster) (op : Nat) : Bool :=
  match p with
  | .vatCore _ _ => op != 0x0030
  | .mgmt _ => op != 0x0020 && op != 0x0021
  | .partition _ => op != 0x0020 && op != 0x0021 && op != 0x0030 && !(firmwareOp op)

def posterPart : Poster → Nat
  | .vatCore _ p => p
  | .mgmt p => p
  | .partition p => p

/-- Dual column of R153 (R165). -/
def dualEligible (s : State) (t : Task) : Bool :=
  if 0x4000 ≤ t.opcode then (match pkgFor s t.part t.opcode with
    | some p => !p.inPlace
    | none => false)
  else builtinOps.contains t.opcode && t.opcode != 0x0003

/-! ## Engines -/

def vatEngines (v : Nat) : List Nat := (List.range 64).map (64 * v + ·)

def engsOf (s : State) (v part : Nat) : List Nat := (vatEngines v).filter (fun n => (s.engAt n).part = part)

def vatFenced (s : State) (v : Nat) : Bool := (s.vatAt v).fenced.isSome

/-- The engines R155 chooses among for a vat target: of the task's pool, otherwise all the partition's. -/
def poolEngines (s : State) (v part pool : Nat) : List Nat :=
  let all := (engsOf s v part).filter (fun n => !(s.engAt n).fenced)
  let p := all.filter (fun n => (s.engAt n).pool = pool)
  if pool = 0 || p.isEmpty then all else p

/-- The first of a list with the least measure. -/
def argmin (f : Nat → Nat) : List Nat → Option Nat
  | [] => none
  | x :: t => match argmin f t with
    | some y => if f y < f x then some y else some x
    | none => some x

def queueLen (s : State) (n : Nat) : Nat := (s.engAt n).queue.length

/-- The engine a descriptor joins (R155, R374). -/
def placeFor (s : State) (part target pool : Nat) : Option Nat :=
  let n := bits target 8 0
  if !(bit target 15) && !(s.engAt n).fenced then some n
  else argmin (queueLen s) (poolEngines s (targetVat target) part pool)

def inbufOf (s : State) (part b : Nat) : Option InBuf :=
  (s.eng.bufs.find? (fun q => q.1 = b && q.2.part = part)).map (·.2)

/-- WAIT_OBJ or DONE_OBJ is a sync object of the partition: a local one by its window, a remote one by its address. -/
def objAddrOk (s : State) (part a : Nat) : Bool :=
  if isLocal s a then (objFor s part (addrOff a)).isSome
  else !(isGroup (addrChip a)) && (objIndex (addrOff a)).isSome

/-- The checks of R154, in order: 0, or the status of the first that fails. -/
def descCheck (s : State) (src : Poster) (d : Octets) : Nat :=
  let part := posterPart src
  let t := taskOf d part
  let tg := descTarget d
  firstBad [
    (vatPresent s (targetVat tg) && vatFenced s (targetVat tg), St.unitFenced),
    (!(zeroAt d 56 8) || bits t.flags 7 5 != 0 || (if bit tg 15 then bits tg 14 3 != 0 else bits tg 14 9 != 0)
      || (!t.fwait && (t.waitObj != 0)) || (!t.fdone && t.doneObj != 0) || (!t.finbuf && (t.inbuf != 0)),
      St.descriptorFormat),
    (!(opDefined s part t.opcode), St.unknownOpcode),
    (!(opPermitted src t.opcode), St.accessDenied),
    (2 < t.pool, St.outOfRange),
    (!(vatPresent s (targetVat tg)), St.unitAbsent),
    (if bit tg 15 then (engsOf s (targetVat tg) part).isEmpty else (s.engAt (bits tg 8 0)).part != part, St.accessDenied),
    (512 < t.scratchKib || 65536 < t.argLen || spaceSize s part 0 < t.argPtr + t.argLen || (t.finbuf && 4095 < t.inbuf),
      St.lengthExceedsBuffer),
    (t.finbuf && t.consume = 0, St.outOfRange),
    (t.finbuf && (match inbufOf s part t.inbuf with
      | some b => b.slots < t.consume
      | none => false), St.lengthExceedsBuffer),
    ((t.fwait && !(objAddrOk s part t.waitObj)) || (t.fdone && !(objAddrOk s part t.doneObj))
      || (t.finbuf && (inbufOf s part t.inbuf).isNone), St.accessDenied),
    (match placeFor s part tg t.pool with
      | some n => 64 ≤ queueLen s n && 4096 ≤ (s.vatAt (n / 64)).overflow.length
      | none => false, St.queueFull),
    ((placeFor s part tg t.pool).isNone, St.unitFenced)]

/-- Queues a descriptor that passed its checks; a remote WAIT_OBJ is watched by a remote WAIT (R155, R312). -/
def queueTask (s : State) (n : Nat) (t : Task) : State :=
  let t := { t with key := s.eng.nextKey }
  let s := { s with eng := { s.eng with nextKey := s.eng.nextKey + 1 } }
  let e := s.engAt n
  let s := if e.queue.length < 64 then s.setEng n { e with queue := e.queue ++ [t] }
    else s.modVat (n / 64) (fun v => { v with overflow := v.overflow ++ [(n, t)] })
  if t.fwait && !(isLocal s t.waitObj) then
    (remoteSync s (.agent (.vatCore (n / 64)) t.part) (some (.vatCore (n / 64))) t.part t.waitObj 3 t.waitValue 0 4000000 true).2
  else s

/-- A vat receives a descriptor: status and state (R154, R155); a refusal counts in REFUSED (R175). -/
def postTask (s : State) (src : Poster) (d : Octets) : Nat × State :=
  let st := descCheck s src d
  let part := posterPart src
  if st != 0 then
    (st, s.modVat (targetVat (descTarget d)) (fun v => { v with refused := Word.bump v.refused 1 }))
  else match placeFor s part (descTarget d) (taskOf d part).pool with
    | some n => (St.ok, queueTask s n (taskOf d part))
    | none => (St.unitFenced, s)

/-! ## Runnable and eligible (R156, R159, R163) -/

def runnable (s : State) (t : Task) : Bool := !t.fwait || waitSatisfied s t.part t.waitObj t.waitValue

/-- Removes the task with a key from a list. -/
def dropKey (k : Nat) (l : List Task) : List Task := l.filter (fun t => t.key != k)

/-- A task of a queue is told from its dual copy by its role. -/
def sameTask (t u : Task) : Bool := t.key = u.key && t.role = u.role

/-- R156: the oldest runnable descriptor of the own queue, otherwise the oldest marked for the engine in the overflow list. -/
def nextTask (s : State) (n : Nat) : Option (Bool × Task) :=
  match (s.engAt n).queue.find? (fun t => runnable s t && !(t.notOn.contains n)) with
  | some t => some (false, t)
  | none =>
    ((s.vatAt (n / 64)).overflow.find? (fun q => q.1 = n && runnable s q.2 && !(q.2.notOn.contains n))).map (fun q => (true, q.2))

/-- The time since which an engine's queue is empty, after a descriptor left it (R147). -/
def queueLeft (now : Nat) (e : EngSt) : EngSt := { e with idleSince := if e.queue.isEmpty then now else e.idleSince }

def takeTask (s : State) (n : Nat) (ovf : Bool) (t : Task) : State :=
  if ovf then s.modVat (n / 64) (fun v => { v with overflow := v.overflow.filter (fun q => !(q.1 = n && sameTask q.2 t)) })
  else s.modEng n (fun e => queueLeft s.time { e with queue := e.queue.filter (fun u => !(sameTask u t)) })

/-- Whether a thief may take a descriptor in a stage: 1 the own vat, 2 another vat; `anyPool` is stage 3 (R159, R163). -/
def eligible (s : State) (thief : Nat) (far anyPool : Bool) (t : Task) : Bool :=
  t.part = (s.engAt thief).part && runnable s t && !(t.notOn.contains thief) &&
  (t.freed || (!t.fpin && !(far && t.flocal))) && (anyPool || t.freed || t.pool = 0 || t.pool = (s.engAt thief).pool)

/-- Grid distance of two vats on the 2 × 4 grid (R159, R26). -/
def vatDist (v w : Nat) : Nat :=
  let d (a b : Nat) : Nat := if a ≤ b then b - a else a - b
  d (v / 4) (w / 4) + d (v % 4) (w % 4)

def runLen (s : State) (n : Nat) : Nat := ((s.engAt n).queue.filter (runnable s)).length

/-- Engines by runnable queue, longest first, ties to the lower number. -/
def byRunLen (s : State) (l : List Nat) : List Nat :=
  l.mergeSort (fun a b => runLen s b < runLen s a || (runLen s a = runLen s b && a ≤ b))

def hasEligible (s : State) (thief : Nat) (far anyPool : Bool) (v : Victim) : Bool :=
  match v with
  | .queue n => (s.engAt n).queue.any (eligible s thief far anyPool)
  | .overflow w => (s.vatAt w).overflow.any (fun q => eligible s thief far anyPool q.2)

/-- Victims of a stage in order: the own vat's engines and its overflow list, then the other vats by distance. -/
def victimOrder (s : State) (thief : Nat) : List (Bool × Victim) :=
  let v := thief / 64
  let part := (s.engAt thief).part
  let near := (byRunLen s ((engsOf s v part).filter (· != thief))).map (fun n => (false, Victim.queue n))
  let vats := ((vatsOf s).filter (· != v)).mergeSort (fun a b =>
    vatDist v a < vatDist v b || (vatDist v a = vatDist v b && a ≤ b))
  let far := vats.flatMap (fun w =>
    (byRunLen s ((engsOf s w part).filter (fun n => cfgNat s Key.veXvatMinDepth ≤ runLen s n || (s.engAt n).fenced))).map
      (fun n => (true, Victim.queue n)) ++ (if vatFenced s w then [(true, Victim.overflow w)] else []))
  near ++ [(false, Victim.overflow v)] ++ far

/-- The first victim with an eligible descriptor that this search has not tried (R159). -/
def chooseVictim (s : State) (thief : Nat) : Option Victim :=
  let vs := (victimOrder s thief).filter (fun q => !((s.engAt thief).tried.contains q.2))
  match vs.find? (fun q => hasEligible s thief q.1 false q.2) with
  | some q => some q.2
  | none =>
    if cfgBool s Key.veCrossPoolSteal then (vs.find? (fun q => hasEligible s thief q.1 true q.2)).map Prod.snd else none

/-- The descriptor a claim wins: the oldest eligible one of the victim, in the stage that admits it. -/
def claimed (s : State) (thief : Nat) (v : Victim) : Option Task :=
  let far : Bool := match v with
    | .queue n => n / 64 != thief / 64
    | .overflow w => w != thief / 64
  let l := match v with
    | .queue n => (s.engAt n).queue
    | .overflow w => (s.vatAt w).overflow.map Prod.snd
  match l.find? (eligible s thief far false) with
  | some t => some t
  | none => if cfgBool s Key.veCrossPoolSteal then l.find? (eligible s thief far true) else none

/-! ## Completion and failure (R157, R158) -/

def taskErr (n status : Nat) (t : Task) : ErrRec :=
  { (reportErr status Kind.engine n t.part) with operation := t.opcode, tag := t.taskId }

/-- The engine is done with its task: nothing runs on it. -/
def engineFree (s : State) (n : Nat) : State := s.modEng n (fun e => { e with run := none })

/-- A failed task: an error record, and a fault record to the vat control core. -/
def failTask (s : State) (n status : Nat) (t : Task) : State :=
  (s.writeErr (taskErr n status t)).emit (.faultRecord (n / 64) t.taskId t.step)

/-- Counts a completed task (R174, R176). -/
def countTask (s : State) (n : Nat) : State :=
  (s.modEng n (fun e => { e with tasks := DWord.bump e.tasks 1 })).modVat (n / 64)
    (fun v => { v with tasksTotal := DWord.bump v.tasksTotal 1 })

/-- Success of a task (R157): the buffer's read index advances, DONE_OBJ receives +1. A CONSUME beyond the records
outstanding fails it (R158). -/
def completeTask (s : State) (n : Nat) (t : Task) : State :=
  let under : Bool := t.finbuf && (match inbufOf s t.part t.inbuf with
    | some b => b.w < b.r + t.consume
    | none => true)
  if under then failTask s n St.inbufUnderflow t
  else
    let s := match (if t.finbuf then inbufOf s t.part t.inbuf else none) with
      | some b => { s with eng := { s.eng with bufs := s.eng.bufs.map (fun q =>
          if q.1 = t.inbuf then (q.1, { b with r := b.r + t.consume }) else q) } }
      | none => s
    let s := if t.fdone then (signal s t.part t.doneObj (some (.engine n))).2 else s
    countTask s n

/-! ## Dual execution (R165–R168) -/

/-- Where a copy goes: the awake, unfenced engines of the partition in a vat but those named, fewest descriptors first,
then a matching pool, then the lower number (R166). -/
def copyEngineIn (s : State) (v : Nat) (t : Task) (no : List Nat) : Option Nat :=
  let c := (engsOf s v t.part).filter (fun n => (s.engAt n).awake && !(s.engAt n).fenced && !(no.contains n))
  argmin (fun n => queueLen s n * 1024 + (if t.pool = 0 || (s.engAt n).pool = t.pool then 0 else 512) + n % 512) c

/-- The vats in the order of R159 from an engine's own. -/
def vatOrder (s : State) (v : Nat) : List Nat :=
  v :: ((vatsOf s).filter (· != v)).mergeSort (fun a b => vatDist v a < vatDist v b || (vatDist v a = vatDist v b && a ≤ b))

def copyEngine (s : State) (v : Nat) (t : Task) (no : List Nat) : Option Nat :=
  (vatOrder s v).findSome? (fun w => copyEngineIn s w t no)

/-- Places a copy at the head of a queue. -/
def placeCopy (s : State) (n : Nat) (t : Task) : State := s.modEng n (fun e => { e with queue := t :: e.queue })

def dualOf (s : State) (k : Nat) : Option DualSt := s.eng.duals.find? (fun d => d.task.key = k)

def setDual (s : State) (d : DualSt) : State :=
  { s with eng := { s.eng with duals := s.eng.duals.map (fun x => if x.task.key = d.task.key then d else x) } }

/-- Ends a dual execution: its copies leave the queues, and engines that run one stop. -/
def endDual (s : State) (k : Nat) : State :=
  let clear (e : EngSt) : EngSt :=
    { e with
      queue := e.queue.filter (fun t => !(t.key = k && t.role != 0)),
      run := match e.run with
        | some r => if r.task.key = k && r.task.role != 0 then none else some r
        | none => none }
  let eng := { s.eng with
    duals := s.eng.duals.filter (fun d => d.task.key != k)
    eng := s.eng.eng.foldl (fun t q => tput {} t q.1 (clear q.2)) s.eng.eng }
  { s with eng := eng }

/-- Places the secondary of a task again or for the first time, not on the primary (R166). -/
def placeSecondary (s : State) (d : DualSt) : State :=
  match copyEngine s (d.primary / 64) d.task [d.primary] with
  | some n => placeCopy s n { d.task with role := 2, notOn := [d.primary] }
  | none => s

def placeThird (s : State) (d : DualSt) : State :=
  let no := d.primary :: d.secondary.toList
  match copyEngine s (d.primary / 64) d.task no with
  | some n => placeCopy s n { d.task with role := 3, notOn := no }
  | none => s

/-! ## Waiting tasks that fail (R308, R316) -/

def waitsOnObj (s : State) (n : Nat) (t : Task) : Bool :=
  t.fwait && isLocal s t.waitObj && addrOff t.waitObj = objAddr n

/-- Queued tasks that satisfy a test fail with a status. -/
def failTasksWhere (s : State) (mine : Task → Bool) (status : Nat) : State :=
  let fails := (s.eng.eng.flatMap (fun q => (q.2.queue.filter mine).map (fun t => (q.1, t)))) ++
    (s.vat.flatMap (fun q => q.2.overflow.filter (fun x => mine x.2)))
  let es : Tab EngSt := s.eng.eng.foldl (fun t q =>
    tput {} t q.1 { q.2 with queue := q.2.queue.filter (fun t => !(mine t)) }) s.eng.eng
  let vs : Tab VatSt := s.vat.foldl (fun t q =>
    tput {} t q.1 { q.2 with overflow := q.2.overflow.filter (fun x => !(mine x.2)) }) s.vat
  let s := { s with eng := { s.eng with eng := es }, vat := vs }
  fails.foldl (fun s q => failTask s q.1 status q.2) s

/-- Tasks waiting on an object fail with a status. -/
def failWaitingTasks (s : State) (n status : Nat) : State :=
  let c := (s.objAt n).c.toNat
  failTasksWhere s (fun t => waitsOnObj s n t && c < t.waitValue) status

/-- A remote operation of this module fails with a status: its requester is told, or the tasks that its WAIT serves fail
(R273, R299, R312). -/
def failRequest (s : State) (r : SyncReq) (status : Nat) : State :=
  let s := { s with syn := { s.syn with requests := s.syn.requests.filter (fun q => q.token != r.token) } }
  match r.by_ with
  | .agent _ p =>
    if r.task then failTasksWhere s (fun t => t.part = p && t.fwait && t.waitObj = r.addr && !(runnable s t)) status
    else answerSync s r.by_ r.op 0 status
  | _ => answerSync s r.by_ r.op 0 status

/-- The request that a frame of this module carried, if it awaits a response. -/
def requestOf (s : State) (f : SentFrame) : Option SyncReq :=
  if f.typ = 2 && (f.op = 2 || f.op = 3 || f.op = 5) && f.aux = 0 then
    s.syn.requests.find? (fun r => r.token = beNat (octs f.payload 20 4) && addrChip r.addr = f.dst)
  else none

/-- An object becomes BROKEN: its waiters and the tasks waiting on it fail with PEER_LOST (R316). -/
def breakObject (s : State) (n : Nat) : State := failWaitingTasks (breakObj s n) n St.peerLost

end Sys2Proof.Machine
end

