-- ==== Sys2Proof/Machine/FaultOps.lean ====
section
/-! DEFINITION. Fencing and recovery: fence records and retirement (R368, R372, R387), SERVICE_LOST (R380, R395), array
recovery (R373–R376), engine and vat fences (R163, R379, R380). -/

namespace Sys2Proof.Machine

/-! ## Records of a fence -/

/-- Whether a unit is fenced, retired or being re-admitted (R386, R397). -/
def outOfService (s : State) (kind unit : Nat) : Bool := 2 ≤ (healthAt s kind unit).code

/-- Notes a fence in the unit's kept state and writes its record; at FENCE_LIMIT the unit is retired (R368, R387). -/
def noteFence (s : State) (kind unit : Nat) (r : ErrRec) : State :=
  let h := { healthAt s kind unit with times := s.powered :: (healthAt s kind unit).times, passed := 0, code := 2 }
  let t := setHealth s kind unit h
  let ret : Bool := cfgNat s Key.fenceLimit ≤ fencesOf t kind unit
  let t := if ret then setHealth t kind unit { h with code := 4 } else t
  t.writeErr { r with unitKind := kind, unit := unit, action := r.action ||| Act.fenced ||| (if ret then Act.retired else 0) }

/-- The record of a detection on a unit that is already fenced (R372). -/
def noteAgain (s : State) (kind unit : Nat) (r : ErrRec) : State :=
  s.writeErr { r with unitKind := kind, unit := unit, action := 0 }

/-! ## The step and SERVICE_LOST -/

/-- The step in progress is abandoned before its commit fence (R380, R388): no record, no end; requests are planned again. -/
def abandonStep (s : State) (hold : Bool) : State :=
  if s.srv.inStep && !s.srv.fencePassed then
    let srv := { s.srv with
      inStep := false, plan := none, table := [], drafts := []
      reqs := s.srv.reqs.map (fun q =>
        { q with planned := none, replayHeld := q.replayHeld || hold }) }
    { s with srv := srv, kv := { s.kv with appends := [], named := [] } }
  else s

/-- Frames of a channel are no longer kept for retransmission. -/
def dropFrames (s : State) (h : Nat) : State :=
  { s with fab := { s.fab with sent := s.fab.sent.filter (fun f => f.own != h), waitq := s.fab.waitq.filter (fun f => f.own != h) } }

/-- A stream, queue pair or collective ends with a status; its handle stays valid until it is destroyed (R322). Frames of
an ended stream are no longer retransmitted, and what waits on them fails. -/
def endChan (s : State) (slot status : Nat) : State :=
  let h := handleAt s slot
  match (s.slotAt slot).chan with
  | some (.stream x) =>
    let mine := s.fab.sent.filter (fun f => f.own = h)
    let t := setChan s h (.stream { x with ended := some (x.ended.getD status) })
    mine.foldl (fun s f => match requestOf s f with
      | some r => failRequest s r status
      | none => failFrame s f status) (dropFrames t h)
  | some (.coll x) => dropFrames (setChan s h (.coll { x with broken := true, ended := some (x.ended.getD status), home := [] })) h
  | _ => s

/-- A sync group loses a member (R316): its objects here are BROKEN. -/
def breakGroup (s : State) (slot : Nat) : State :=
  let h := handleAt s slot
  match (s.slotAt slot).chan with
  | some (.group g) =>
    let t := setChan s h (.group { g with broken := true })
    let t := breakObject t g.release
    if g.rank = g.root then breakObject t g.arrive else t
  | _ => s

/-- A partition can no longer be served on this module (R380): its streams, collectives and groups end with PEER_LOST,
SRV_ROLE becomes 0, and no record is written on its request channels. -/
def serviceLost (s : State) (p : Nat) : State :=
  if p = 0 || (s.whlAt p).lost then s
  else
    let mine := ((chans s).filter (fun q => q.2.part = p)).map (·.1)
    let s := mine.foldl (fun s k => breakGroup (endChan s k St.peerLost) k) (s.modWhl p (fun w => { w with lost := true }))
    cfgPut s Key.srvRole []

/-- The compute service's minimum set (R394): a vat in service with two engines in service, a slice present and trained,
a fabric port present with an accepted SerDes calibration. A state
entered by request tells nothing of health (R482), so S3, where tier A is off, leaves the slices out. -/
def computeAvail (s : State) : Bool :=
  ((vatsOf s).any (fun v => !(vatFenced s v) && 2 ≤ ((vatEngines v).filter (fun n => !(s.engAt n).fenced)).length)) &&
  (s.pwr.state = .s3 || (List.range 6).any (fun k => (s.sliceAt k).trained)) &&
  ((List.range 24).any (fun p => (s.portAt p).subs.any (fun q => q.2.calOk)))

def partLost (s : State) (p : Nat) : Bool := (s.whlAt p).lost || !(computeAvail s)

/-! ## Targets of a remap (R375) -/

def bayOf (n : Nat) : Nat := n % 2176 / 17

/-- The partition whose pending wheel has a shadow image on an array (R138). -/
def shadowOf (s : State) (m : Nat) : Option Nat :=
  (s.whl.parts.find? (fun q => q.2.targets.any (fun t => t.2.2.1 = m))).map (·.1)

/-- A spare that may take an image: it holds no slot, is in service, and no remap uses it. One that holds a shadow image
may be taken by a fault remap (R143). -/
def freeSpare (s : State) (m : Nat) : Bool :=
  isSpare s m && !(s.arrAt m).fenced && !(outOfService s Kind.array m) &&
    ((s.arrAt m).prog.isNone || (shadowOf s m).isSome) && !((s.vatAt (m / 2176)).remaps.any (fun r => r.target = m))

/-- Spares of a vat, ascending: the arrays that hold no slot. -/
def spares (s : State) (v : Nat) : List Nat :=
  ((List.range 128).map (fun b => v * 2176 + b * 17 + 16) ++
    (s.vatAt v).slotMap.map (fun q => v * 2176 + q.1 / 16 * 17 + q.1 % 16)).filter (freeSpare s)

/-- Whether a wheel names a slot as resident. -/
def wheelNames (w : Option Wheel) (v l : Nat) : Bool :=
  match w with
  | some w => w.arrays.any (fun a => a.vat = v && !a.pool && a.slot = l)
  | none => false

/-- A logical slot of the partition that no wheel names and no reload pool holds, with a healthy array (R375, R138). -/
def freeSlot (s : State) (p v l : Nat) : Bool :=
  slotPart s v l = p && !(wheelNames (s.whlAt p).inForce v l) && !(wheelNames (s.whlAt p).pending v l) &&
  !(inPool s p v l) && !(s.vatAt v).noTarget.contains l && !(s.arrAt (physOf s v l)).fenced &&
  !(outOfService s Kind.array (physOf s v l)) && (s.arrAt (physOf s v l)).prog.isNone &&
  !((s.whlAt p).targets.any (fun t => t.2.2.1 = physOf s v l)) &&
  !((s.vatAt v).remaps.any (fun r => r.target = physOf s v l))

/-- The slots of a partition's range in a vat. -/
def partSlots (s : State) (p v : Nat) : List Nat :=
  let r := tget (0, 0) (s.partAt p).arrays v
  (List.range r.2).map (r.1 + ·)

def bayDist (a b : Nat) : Nat := if a ≤ b then b - a else a - b

/-- The first healthy target in the order of R375: the bay's spare, the nearest bay's, a free slot's array. -/
def remapTarget (s : State) (p v l : Nat) : Option (Nat × Option Nat) :=
  let b := l / 16
  match argmin (fun m => bayDist (bayOf m) b * 256 + bayOf m) (spares s v) with
  | some m => some (m, none)
  | none => ((partSlots s p v).find? (freeSlot s p v)).map (fun f => (physOf s v f, some f))

/-! ## Programming -/

def caveHas (s : State) (c : CaveSlot) : Bool := s.whl.cave.any (fun q => q.2 = c)

/-- An erased array (R46, R139): every cell holds 0. -/
def erased (a : ArrSt) : ArrSt := { a with rows := [], sw := [], bias := [], retained := none, holds := none }

/-- Starts programming an image into an array: it asks for a grant as any array does (R121, R123); a retained image is
erased before any other use (R453). -/
def startProgram (s : State) (n part : Nat) (img : ArrImg) : State :=
  askGrant (s.modArr n (fun a =>
    { (if a.retained.isSome then erased a else a) with prog := some (0, 0, img, part), ready := false })) n false

/-- The image a slot has in force: its own record, or the overflow layer's that is written there now (R132, R375). -/
def slotImage (s : State) (p v l : Nat) : Option ArrImg :=
  match (s.whlAt p).inForce with
  | none => none
  | some w =>
    match memberAt s p v l w, chainThrough s v l with
    | some m, some (c, _) => imgFor w m c.chain
    | some m, none => (w.arrays.find? (fun a => a.vat = m.1 && a.pool = m.2.1 && a.slot = m.2.2))
    | none, _ => none

/-- Begins programming a remap's target from the ACTIVE cave slot; without one, the image waits for its fetch from a
replica holder (R375, R130). -/
def programTarget (s : State) (p v l target : Nat) : State :=
  match slotImage s p v l with
  | some img => if caveHas s (.active p) then startProgram s target p img else s
  | none => s

/-- The registers, scales and cells that an image gives an array (R116, R122). -/
def loadImage (a : ArrSt) (img : ArrImg) (chainReg : Word) : ArrSt :=
  { a with
    ctrl := BitVec.ofNat 32 (bits img.ctrl.toNat 14 0 + 2 ^ 15 * b2n (gateEn a)),
    perCfg := img.perCfg, perOut := img.perOut, inScale := img.inScale, outScale := img.outScale, chain := chainReg,
    sw := img.sw, bias := img.b, rows := img.rows }

/-- Maps a slot to a target: the products the old array kept are accepted again ahead of held inputs, and the chain
replays on every member (R376, R101). -/
def finishRemap (s : State) (v l target : Nat) : State :=
  let old := physOf s v l
  let ps := (s.arrAt old).products
  let held := ((s.vatAt v).remaps.filter (fun r => r.slot = l)).flatMap (·.held)
  let s := s.modArr old (fun a => { a with products := [], inbox := [], waiting := [] })
  let s := s.modVat v (fun t => { t with
    slotMap := tput (v * 2176 + (l / 16) * 17 + l % 16) t.slotMap l target
    remaps := t.remaps.filter (fun r => r.slot != l), noTarget := t.noTarget.filter (· != l) })
  let s := s.modArr target (fun a => { a with products := ps.map (replayOf a s.time), inbox := [] })
  let s := restartChain s v l
  let s := if ps.isEmpty then s else callUp s target
  held.foldl (fun s w => deliver s v l w) s

/-- Returns held and waiting inputs to their senders with a status (R374). -/
def returnInputs (s : State) (ws : List WaitRec) (status : Nat) : State :=
  ws.foldl (fun s w => s.emit (.status w.sender status)) s

/-- The products of a chain and of its pair partner through a slot are voided (R375). -/
def voidThrough (s : State) (v l : Nat) : State :=
  let s := voidChain s v l
  if pairRole (s.arrAt (physOf s v l)) = 0 then s else voidChain s v (pairSlot l)

/-- A shadow image whose array a fault remap took, or that was fenced, is placed again in a free slot under R138;
otherwise WHL_PLACE ends with NO_SPACE and the state returns to 2 (R143). -/
def placeAgain (s : State) (q m : Nat) : State :=
  let w := s.whlAt q
  match w.targets.find? (fun t => t.2.2.1 = m) with
  | none => s
  | some (v, l, _, _) =>
    let img := w.pending.bind (fun x => x.arrays.find? (fun a => a.vat = v && !a.pool && a.slot = l))
    match (partSlots s q v).find? (freeSlot s q v), img with
    | some f, some g =>
      let n := physOf s v f
      startProgram (s.setWhl q { w with
        targets := w.targets.map (fun t => if t.2.2.1 = m then (v, l, n, false) else t)
        toReady := w.toReady.filter (· != m) ++ [n], state := 3 }) n q g
    | _, _ => s.setWhl q { w with state := 2, result := St.noSpace, targets := [], toReady := [] }

/-- Chooses a target for a slot whose array is fenced and starts the remap, or ends in SERVICE_LOST: the state and the
action bits of the record (R375). -/
def beginRemap (s : State) (p v l n : Nat) (held : List WaitRec) : Nat × State :=
  match remapTarget s p v l with
  | some (m, fromSlot) =>
    let s := s.modVat v (fun t => { t with
      remaps := t.remaps ++ [⟨l, n, m, held⟩]
      noTarget := match fromSlot with
        | some f => f :: t.noTarget
        | none => t.noTarget })
    let s := match shadowOf s m with
      | some q => (placeAgain s q m).modArr m (fun a => { a with prog := none })
      | none => s
    let act := Act.remapped + (if (s.arrAt n).products.isEmpty then 0 else Act.replayed)
    let pool : Bool := inPool s p v l && (slotImage s p v l).isNone
    (act, if pool then finishRemap s v l m else programTarget s p v l m)
  | none =>
    let s := returnInputs (voidThrough s v l) held St.spareExhausted
    let s := s.modVat v (fun t => { t with noTarget := l :: t.noTarget })
    (Act.serviceLost, serviceLost s p)

/-- A slot whose products or images matter: named by the wheel in force, or in a reload pool (R382). -/
def slotInUse (s : State) (p v l : Nat) : Bool :=
  p != 0 && (wheelNames (s.whlAt p).inForce v l || (inPool s p v l && (s.whlAt p).inForce.isSome))

/-- An array is fenced (R373): passes in flight are discarded, its grant is returned, its slot is remapped. A target that
fails is replaced by a further one (R382). Inside a fenced vat nothing is remapped (R380). -/
def fenceArray (s : State) (n : Nat) (r : ErrRec) : State :=
  let a := s.arrAt n
  if a.fenced then noteAgain s Kind.array n r
  else
    let v := n / 2176
    let slot := slotOf s n
    let p := arrPart s n
    let held := a.waiting
    let hit := (s.vatAt v).remaps.find? (fun q => q.target = n)
    let s := (returnGrant s n).modArr n (fun a => { a with
      fenced := true, waiting := [], underTest := false, calActive := false, prog := none, waking := none
      products := a.products.map (fun q => { q with inFlight := [], voids := [] }) })
    match slot, hit with
    | _, some q =>
      let s := s.modVat v (fun t => { t with remaps := t.remaps.filter (fun x => x.target != n) })
      let b := beginRemap s (slotPart s v q.slot) v q.slot q.from_ q.held
      noteFence b.2 Kind.array n { r with action := b.1, part := slotPart s v q.slot }
    | some l, none =>
      if slotInUse s p v l && !(vatFenced s v) then
        let b := beginRemap s p v l n held
        noteFence b.2 Kind.array n { r with action := b.1, part := p }
      else noteFence (returnInputs s held St.unitFenced) Kind.array n { r with part := p }
    | none, none => noteFence s Kind.array n r

/-- DETAIL_B of an array's record (R369): slot, vat, PASS_CNT_LO. -/
def arrDetailB (s : State) (n : Nat) : Nat :=
  (slotOf s n).getD 0 + n / 2176 * 2 ^ 11 + (s.arrAt n).passCnt.toNat % 2 ^ 32 * 2 ^ 32

/-- OPERATION of an array's record (R368). -/
def arrOperation (kind plane group segment : Nat) : Nat := 0xA000 + kind * 1024 + plane * 128 + group * 8 + segment

/-! ## Engines -/

/-- The running task goes back to the head of the queue, eligible to every engine of the partition (R163, R378); a copy of
a dual execution is placed again, and a replayed primary ends its dual execution. -/
def requeueRunning (s : State) (n : Nat) : State :=
  match (s.engAt n).run with
  | none => s
  | some r =>
    let s := s.modEng n (fun e => { e with run := none })
    if r.task.role = 2 then (match dualOf s r.task.key with
      | some d => placeSecondary s d
      | none => s)
    else if r.task.role = 3 then (match dualOf s r.task.key with
      | some d => placeThird s d
      | none => s)
    else placeCopy (endDual s r.task.key) n { r.task with role := 0, notOn := [], freed := true }

/-- Queued copies of dual executions on a fenced engine are placed again; every other descriptor is freed (R163, R382). -/
def freeQueue (s : State) (n : Nat) : State :=
  let q := (s.engAt n).queue
  let copies := q.filter (fun t => t.role != 0)
  let s := s.modEng n (fun e => { e with queue := (q.filter (fun t => t.role = 0)).map (fun t => { t with freed := true }), claim := none, tried := [] })
  let s := s.modVat (n / 64) (fun v => { v with overflow := v.overflow.map (fun x => if x.1 = n then (n, { x.2 with freed := true }) else x) })
  copies.foldl (fun s t => match dualOf s t.key with
    | some d => if t.role = 2 then placeSecondary s d else placeThird s d
    | none => s) s

/-- A dual execution whose primary had finished on a fenced engine keeps its signature: only running work is replayed. -/
def stopEngine (s : State) (n : Nat) : State :=
  freeQueue (requeueRunning (s.modEng n (fun e => { e with fenced := true, underTest := false })) n) n

/-- An engine is fenced (R373, R163). -/
def fenceEngine (s : State) (n : Nat) (r : ErrRec) : State :=
  if (s.engAt n).fenced then noteAgain s Kind.engine n r
  else
    let busy : Bool := (s.engAt n).run.isSome
    noteFence (stopEngine s n) Kind.engine n { r with
      part := (s.engAt n).part, action := r.action ||| (if busy then Act.replayed else 0) }

/-! ## Vats -/

/-- Live requests homed on a vat. -/
def homeLoad (s : State) (v : Nat) : Nat :=
  (s.srv.reqs.filter (fun q => (q.state = .prefill || q.state = .decode) && match chanOf s q.chan with
    | some (_, .req c) => c.vat = v
    | _ => false)).length

/-- Channels homed on a fenced vat move to the present, unfenced vat with the fewest live requests (R380). -/
def rehome (s : State) (v : Nat) : State :=
  match argmin (homeLoad s) ((vatsOf s).filter (fun w => w != v && !(vatFenced s w))) with
  | none => s
  | some w =>
    (chans s).foldl (fun s q => match q.2.chan with
      | some (.req c) => if c.vat = v then setChan s (handleAt s q.1) (.req { c with vat := w }) else s
      | _ => s) s

/-- Partitions with resident or overflow layers in a vat. -/
def partsIn (s : State) (v : Nat) : List Nat :=
  (s.whl.parts.filter (fun q => match q.2.inForce with
    | some w => (w.arrays ++ w.overflow).any (fun a => a.vat = v)
    | none => false)).map (·.1)

/-- The arrays of a vat stop (R373, R380): products are discarded along their chains, inputs return UNIT_FENCED. -/
def stopArray (s : State) (n : Nat) : State :=
  let a := s.arrAt n
  let s := if a.products.isEmpty then s else match slotOf s n with
    | some l => voidThrough s (n / 2176) l
    | none => s
  let s := returnInputs s a.waiting St.unitFenced
  s.modArr n (fun a => { a with
    products := [], inbox := [], waiting := [], prog := none, underTest := false, calActive := false, granted := false, waking := none })

/-- A vat is fenced (R379, R380). -/
def fenceVat (s : State) (v : Nat) (r : ErrRec) : State :=
  if vatFenced s v then noteAgain s Kind.vat v r
  else
    let held := (s.vatAt v).remaps.flatMap (·.held)
    let s := s.modVat v (fun t => { t with fenced := some s.time, remaps := [], grants := [], asking := [] })
    let arrs := (s.arr.filter (fun q => q.1 / 2176 = v)).map (·.1)
    let s := arrs.foldl stopArray (returnInputs s held St.unitFenced)
    let s := (vatEngines v).foldl stopEngine s
    let s := abandonStep (rehome s v) false
    let lost := (partsIn s v).filter (fun p => !(s.whlAt p).lost)
    let s := lost.foldl serviceLost s
    noteFence s Kind.vat v { r with action := if lost.isEmpty then 0 else Act.serviceLost }

end Sys2Proof.Machine
end

