-- ==== Sys2Proof/Machine/Array.lean ====
section
/-! DEFINITION. The array commands: input records, wake and grants, passes and splits, checks, chain addition, pair join and
release (chapters 2 and 3). -/

namespace Sys2Proof.Machine

/-! ## ARRAY_INPUT_RECORD (R83, R101, R374) -/

/-- A record arrives at an array of this module (R83, R101, R374). -/
def arrayRecord (sender : Agent) (vat slot : Nat) (record : Octets) (poisoned : Bool) (s : State) : State :=
  let w : WaitRec := ⟨sender, record, s.time, poisoned, false⟩
  let n := physOf s vat slot
  let t := s.vatAt vat
  if s.pwr.state != .s0 then s
  else if !(vatPresent s vat) || 2048 ≤ slot then s.emit (.status sender St.unitAbsent)
  else if vatFenced s vat then refuseRecord s n w St.unitFenced true
  else if t.noTarget.contains slot then refuseRecord s n w St.spareExhausted true
  else if t.remaps.any (fun r => r.slot = slot) then
    s.setVat vat { t with remaps := t.remaps.map (fun r => if r.slot = slot then { r with held := r.held ++ [w] } else r) }
  else deliver s vat slot w

def execArrayInputRecord (sender : Agent) (vat slot : Nat) (record : Octets) (poisoned : Bool) (s : State) :
    Host.Outcome State Fault Refusal :=
  .next (arrayRecord sender vat slot record poisoned s)

/-! ## Wake and grants (R61, R62) -/

def execArrayWake (n : Nat) (s : State) : Host.Outcome State Fault Refusal :=
  let a := s.arrAt n
  match a.waking with
  | some t =>
    if running s && !a.fenced && !(vatFenced s (n / 2176)) then
      let s := s.until (t + 40)
      .next (acceptWaiting (s.setArr n { a with awake := true, waking := none, idleSince := s.time }) n)
    else .next s
  | none => .next s

def execPassGrant (vat : Nat) (s : State) : Host.Outcome State Fault Refusal :=
  let t := s.vatAt vat
  match t.asking with
  | n :: _ =>
    if running s && !(vatFenced s vat) && t.grants.length < gv s then .next (acceptWaiting (giveGrant s n) n) else .next s
  | [] => .next s

/-! ## Passes (R53, R59, R60) -/

/-- An array that may launch a pass or a split now. -/
def canLaunch (s : State) (n : Nat) : Bool :=
  let a := s.arrAt n
  running s && a.awake && a.granted && !a.fenced && !a.calActive && !a.underTest && a.prog.isNone &&
    !(vatFenced s (n / 2176)) && !(s.vatAt (n / 2176)).railOut && s.pwr.stop = 0

/-- A split that may be launched (R53): the product's index and the void plane's entry. -/
def splitReady (a : ArrSt) : Option (Nat × Nat × Nat) :=
  a.products.zipIdx.findSome? (fun p => p.1.voids.head?.map (fun v => (p.2, v)))

/-- The next regular plane: the oldest product that has one, not behind a product that ends in a fence (R60, R364). -/
def planeReady (a : ArrSt) : Option (Nat × Nat) :=
  match a.products.findIdx? (fun p => !p.todo.isEmpty) with
  | none => none
  | some i =>
    match a.products[i]? with
    | none => none
    | some p =>
      if (splitReady a).isNone && !((a.products.take i).any (fun q => q.tolFence.isSome)) then
        p.todo.head?.map (fun b => (i, b))
      else none

/-- One pass launched, at the earliest 1 ns after the last one, 2 ns after the product was accepted, and a split 4 ns after its
void pass (R53, R59; R79: PASS_CNT counts each split once). -/
def launched (s : State) (n i : Nat) (isSplit : Bool) (plane : Nat) (f : Product → Product) : State :=
  let a := s.arrAt n
  match a.products[i]? with
  | none => s
  | some p =>
    let void := ((p.voids.find? (fun v => isSplit && v.1 = plane)).map (·.2 + 4)).getD 0
    let s := s.until (max (max (p.acceptedAt + 2) void) ((a.lastLaunch.map (· + 1)).getD 0))
    let q := { f p with inFlight := p.inFlight ++ [⟨plane, isSplit, s.time⟩], lastLaunch := s.time }
    let t := s.setArr n { a with
      taps := a.tapsPend.foldl (fun m q => tput (32, 8) m q.1 (q.2.getD (32, 8))) a.taps, tapsPend := []
      products := lset a.products i q, lastLaunch := some s.time, passCnt := DWord.bump a.passCnt 1,
      splitCnt := if isSplit then Word.bump a.splitCnt 1 else a.splitCnt }
    t.tel (arrPart s n) 0 1 0 0

def execArrayPassLaunch (n : Nat) (s : State) : Host.Outcome State Fault Refusal :=
  match planeReady (s.arrAt n) with
  | some (i, b) => if canLaunch s n then .next (launched s n i false b (fun p => { p with todo := p.todo.tail })) else .next s
  | none => .next s

def execSplit (n : Nat) (s : State) : Host.Outcome State Fault Refusal :=
  match splitReady (s.arrAt n) with
  | some (i, v) =>
    if canLaunch s n then
      .next (launched s n i true v.1 (fun p => { p with voids := p.voids.filter (· != v), split := true }))
    else .next s
  | none => .next s

/-! ## Counts, checks and folding (R51–R56, R64–R66, R363, R364) -/

/-- The word of offset 0x1C (R79). -/
def lastCheckWord (seg grp plane kind : Nat) (raised : Bool) (m : Int) : Word :=
  BitVec.ofNat 32 (seg + grp * 8 + plane * 128 + kind * 1024 + b2n raised * 4096 + toField 15 m * 2 ^ 16)

/-- One evaluation's outcome: the array's registers, the first raised mismatch, the first repeated one. -/
structure CheckOut where
  arr : ArrSt
  raised : Option (Nat × Nat × Int)
  repeated : Option (Nat × Nat × Int)
  tol : Bool

/-- Takes the tolerated mismatches of one pass or half-pass in order (R65, R79, R364). -/
def takeTolerated (passes plane kind : Nat) (c : CheckOut) (m : Nat × Nat × Int) : CheckOut :=
  let a := c.arr
  let key := m.1 * 16 + m.2.1
  let cnt := a.passCnt.toNat
  let old := a.tolLast.find? (fun q => q.1 = key)
  let rep : Bool := match old with
    | some q => q.2.1 = plane && q.2.2.1 = m.2.2 && cnt ≤ q.2.2.2 + passes
    | none => false
  let a := { a with
    tolCnt := Word.bump a.tolCnt 1
    driftTol := a.driftTol + 1
    lastCheck := if c.raised.isSome then a.lastCheck else lastCheckWord m.1 m.2.1 plane kind false m.2.2
    tolLast := tput (plane, 0, 0) a.tolLast key (plane, m.2.2, cnt) }
  { c with arr := a, tol := true, repeated := if rep && c.repeated.isNone then some m else c.repeated }

/-- Evaluates the 128 checks of one pass or half-pass (R64). -/
def evaluate (passes plane kind : Nat) (a : ArrSt) (counts : List (List Nat)) : CheckOut :=
  let ms := mismatches counts
  let bad := (ms.filter (fun m => !(tolerated m.2.2))).head?
  let fresh : Bool := 10 ^ 12 ≤ a.driftChecks
  let a := { a with
    driftChecks := if fresh then 128 else a.driftChecks + 128
    driftTol := if fresh then 0 else a.driftTol }
  let a := match bad with
    | some m => { a with lastCheck := lastCheckWord m.1 m.2.1 plane kind true m.2.2 }
    | none => a
  (ms.filter (fun m => tolerated m.2.2)).foldl (takeTolerated passes plane kind) ⟨a, bad, none, false⟩

/-- Check group of a column (R48): data columns by 64, check columns by 7. -/
def columnGroup (j : Nat) : Nat := if j < 1024 then j / 64 else (j - 1024) / 7

/-- The record of a raised check (R66, R369). -/
def checkErr (s : State) (n mech : Nat) (tag kind plane seg grp : Nat) (m : Int) : ErrRec :=
  { mech := mech, unitKind := Kind.array, unit := n, part := arrPart s n, operation := arrOperation kind plane grp seg,
    tag := tag, detailA := toField 32 m, detailB := arrDetailB s n }

/-- A pass is folded: its product, the oldest of the array with that pass in flight. -/
def folded (s : State) (n i : Nat) (a : ArrSt) (p : Product) (b : Pass) (c : CheckOut) (counts : List (List Nat)) (kind : Nat) : State :=
  let q := { p with
    inFlight := p.inFlight.tail
    acc := fold a b.plane counts p.acc
    tol := p.tol || c.tol
    final := p.todo.isEmpty && p.inFlight.tail.isEmpty && p.voids.isEmpty
    tolFence := match p.tolFence, c.repeated with
      | none, some m => some (m.2.2, arrOperation kind b.plane m.2.1 m.1)
      | x, _ => x }
  returnIfDone (headForwards (s.setArr n { c.arr with products := lset a.products i q }) n) n

/-- The product whose pass is the oldest in flight. -/
def oldestInFlight (a : ArrSt) : Option (Nat × Product × Pass) :=
  (a.products.zipIdx.filterMap (fun p => p.1.inFlight.head?.map (fun b => (p.2, p.1, b)))).foldl
    (fun m x => match m with
      | none => some x
      | some y => if x.2.2.launch < y.2.2.launch then some x else some y) none

def execPassCountsReady (n : Nat) (reports : List ConvReport) (residueFail : Option (Nat × Nat)) (s : State) :
    Host.Outcome State Fault Refusal :=
  let a := s.arrAt n
  match oldestInFlight a with
  | none => .next s
  | some (i, p, b) =>
    if a.fenced || !(running s) then .next s
    else
      let s := s.until (b.launch + 4)
      let passes := cfgNat s Key.tolRepeatPasses
      match residueFail with
      | some (e, f) =>
        let r := { checkErr s n Mech.residue p.tag 0 b.plane 0 0 0 with detailA := e * 256 + f, detailB := 0 }
        .next (fenceArray s n r)
      | none =>
        if !b.split then
          let rs := passReports a p.q b.plane 0 reports
          match firstOver rs with
          | some _ =>
            let q := { p with inFlight := p.inFlight.tail, voids := p.voids ++ [(b.plane, b.launch)] }
            .next (s.setArr n { a with products := lset a.products i q })
          | none =>
            let c := evaluate passes b.plane 0 a (countsOf rs)
            match c.raised with
            | some m => .next (fenceArray (s.setArr n c.arr) n (checkErr s n Mech.checkColumn p.tag 0 b.plane m.1 m.2.1 m.2.2))
            | none => .next (folded s n i a p b c (countsOf rs) 0)
        else
          let lo := passReports a p.q b.plane 1 reports
          let hi := passReports a p.q b.plane 2 reports
          match firstOver lo, firstOver hi with
          | some x, _ => .next (fenceArray s n (checkErr s n Mech.splitOverrange p.tag 1 b.plane x.1 (columnGroup x.2) 0))
          | none, some x => .next (fenceArray s n (checkErr s n Mech.splitOverrange p.tag 2 b.plane x.1 (columnGroup x.2) 0))
          | none, none =>
            let c := evaluate passes b.plane 1 a (countsOf lo)
            let d := evaluate passes b.plane 2 c.arr (countsOf hi)
            match c.raised, d.raised with
            | some m, _ => .next (fenceArray (s.setArr n d.arr) n (checkErr s n Mech.checkColumn p.tag 1 b.plane m.1 m.2.1 m.2.2))
            | none, some m => .next (fenceArray (s.setArr n d.arr) n (checkErr s n Mech.checkColumn p.tag 2 b.plane m.1 m.2.1 m.2.2))
            | none, none =>
              let kind := if c.repeated.isSome then 1 else 2
              let d := { d with repeated := c.repeated.orElse (fun _ => d.repeated), tol := c.tol || d.tol }
              .next (folded s n i a p b d (addCounts (countsOf lo) (countsOf hi)) kind)

/-! ## Chain addition (R99–R101, R104) -/

/-- The physical array of the chain member before an array. -/
def prevMember (s : State) (n : Nat) : Nat :=
  let x := vatSlot s n
  let c := chainArrays s x.1 x.2
  c.getD (c.idxOf n - 1) n

def execChainPartialSum (n : Nat) (s : State) : Host.Outcome State Fault Refusal :=
  let a := s.arrAt n
  match a.inbox, firstUnchained a.products with
  | r :: rest, some (i, p) =>
    let at_ := max (ownReady p) (r.at_ + hopTime a (prevMember s n) n)
    if hasPrev a && p.final && (!a.fenced || p.void) then
      let s := s.until at_
      let q := addPartial p r at_
      .next (forwardTo (s.setArr n { a with
        inbox := rest, products := lset a.products i { p with chained := some q, forwarded := true } }) n q)
    else .next s
  | _, _ => .next s

/-! ## Pairs (R94, R95) -/

/-- Chain conflict reason of a tail's sums (R100): tag before s_x; none for a void product. -/
def chainReason (r : Partial) : Nat := if r.void then 0 else if r.tagConflict then 2 else if r.sxConflict then 1 else 0

/-- Nothing is released: both products were discarded. -/
def pairNothing : Nat := 255

/-- Conflict reason of a pair, or 0 (R95). -/
def pairReason (g u : Partial) : Nat :=
  if g.void && u.void then pairNothing
  else if chainReason g != 0 then chainReason g
  else if chainReason u != 0 then chainReason u
  else if g.void || u.void || g.tag != u.tag then 3 else 0

def execPairJoin (n : Nat) (s : State) : Host.Outcome State Fault Refusal :=
  let a := s.arrAt n
  let x := vatSlot s n
  let m := physOf s x.1 (pairSlot x.2)
  let b := s.arrAt m
  match a.products.findIdx? (fun p => p.joined.isNone) with
  | none => .next s
  | some i =>
    match a.products[i]?, b.products[i]? with
    | some g, some u =>
      match g.chained, u.chained with
      | some cg, some cu =>
        if pairRole a != 1 || hasNext a then .next s
        else
          let r := pairReason cg cu
          let v := s.vatAt x.1
          let zg := shape a v g.sx cg.sums
          let zu := shape b v u.sx cu.sums
          let zs := (zg.1.zip zu.1).map (fun z => (f32Mul z.1 z.2, ovf [z.1, z.2] (f32Mul z.1 z.2)))
          let nf := cg.nonfinite || cu.nonfinite || zg.2 || zu.2 || zs.any (·.2)
          let j := (r, if r = 0 then zs.map (·.1) else [], nf, cg.sat || cu.sat, cg.split || cu.split, cg.tol || cu.tol)
          let q := { g with joined := some j, chained := some { cg with at_ := max cg.at_ cu.at_ } }
          .next (s.setArr n { a with products := lset a.products i q })
      | _, _ => .next s
    | _, _ => .next s

/-! ## Release (R59, R60, R100, R103, R104) -/

/-- The extra times of R104. -/
def releaseDelay (a : ArrSt) : Nat := 13 + 2 * (b2n (pairRole a != 0) + b2n (poolMode a != 0) + b2n (outDyn a))

/-- SOURCE of a record (R103). -/
def sourceOf (s : State) (n : Nat) : Nat := (vatSlot s n).2 + (n / 2176) * 2 ^ 11

/-- The record of a product at its tail: none when its product was discarded; its octets, NONFINITE, SAT, CONFLICT. -/
def recordOf (s : State) (n : Nat) (p : Product) (r : Partial) : Option (Octets × Bool × Bool × Bool) :=
  let a := s.arrAt n
  let src := sourceOf s n
  match p.joined with
  | some (reason, zs, nf, sat, split, tol) =>
    if reason = pairNothing then none
    else if reason != 0 then some (conflictRecord a p.tag src p.epoch reason split tol true, false, false, true)
    else
      let o := outputRecord a p.tag src p.epoch zs nf sat split tol true
      some (o.1, o.2.1, o.2.2, false)
  | none =>
    if r.void then none
    else if chainReason r != 0 then some (conflictRecord a p.tag src p.epoch (chainReason r) r.split r.tol false, false, false, true)
    else
      let z := shape a (s.vatAt (n / 2176)) p.sx r.sums
      let o := outputRecord a p.tag src p.epoch z.1 (r.nonfinite || z.2) r.sat r.split r.tol false
      some (o.1, o.2.1, o.2.2, false)

/-- Counts a released record (R106, R107). -/
def countRecord (s : State) (n : Nat) (nf sat conflict : Bool) : State :=
  let s := s.modArr n (fun a => { a with
    satCnt := Word.bump a.satCnt (b2n sat), nonfinCnt := Word.bump a.nonfinCnt (b2n nf),
    conflictCnt := Word.bump a.conflictCnt (b2n conflict) })
  s.modVat (n / 2176) (fun v => { v with
    satTotal := DWord.bump v.satTotal (b2n sat), conflictTotal := DWord.bump v.conflictTotal (b2n conflict) })

/-- Destination of an array's records: its chain's (R115). -/
def destOf (s : State) (n : Nat) : Nat × Nat × Nat :=
  let x := vatSlot s n
  match chainThrough s x.1 x.2 with
  | some (c, _) => (c.destKind, c.destChip, c.destIndex)
  | none => (0, 0, 0)

/-- The arrays of a chain whose oldest product ends in a fence (R364), with the mismatch and its OPERATION. -/
def tolFences (s : State) (arrs : List Nat) : List (Nat × Nat × Int × Nat) :=
  arrs.filterMap (fun m => (s.arrAt m).products.head?.bind (fun p => p.tolFence.map (fun f => (m, p.tag, f.1, f.2))))

/-- After a release: the product leaves every member, and arrays whose mismatch repeated are fenced. -/
def afterRelease (s : State) (n : Nat) : State :=
  let x := vatSlot s n
  let a := s.arrAt n
  let arrs := chainArrays s x.1 x.2 ++ (if pairRole a = 0 then [] else chainArrays s x.1 (pairSlot x.2))
  let fs := tolFences s arrs
  let s := popChain s x.1 x.2
  let s := if pairRole a = 0 then s else popChain s x.1 (pairSlot x.2)
  fs.foldl (fun s f =>
    fenceArray s f.1 { checkErr s f.1 Mech.tolRepeat f.2.1 0 0 0 0 f.2.2.1 with operation := f.2.2.2 }) s

def execOutputRelease (n : Nat) (s : State) : Host.Outcome State Fault Refusal :=
  let a := s.arrAt n
  match a.products.head? with
  | none => .next s
  | some p =>
    match p.chained with
    | none => .next s
    | some r =>
      let ok : Bool := !(hasNext a) && pairRole a != 2 && (pairRole a = 0 || p.joined.isSome) && a.stuck.isNone &&
        (!a.fenced || r.void) && running s
      let s := s.until (if ok then r.at_ + releaseDelay a else 0)
      if !ok then .next s
      else match recordOf s n p r with
        | none => .next (afterRelease s n)
        | some (data, nf, sat, conflict) =>
          let d := destOf s n
          .next (afterRelease ((countRecord s n nf sat conflict).emit (.record d.1 d.2.1 d.2.2 data)) n)

/-! ## ARRAY_IDLE_GATE (R61) -/

def execArrayIdleGate (n : Nat) (s : State) : Host.Outcome State Fault Refusal :=
  let a := s.arrAt n
  if a.awake && gateEn a && a.products.isEmpty && a.waiting.isEmpty && a.prog.isNone && !a.underTest && !a.calActive &&
      a.stuck.isNone then
    .next ((s.until (a.idleSince + cfgNat s Key.arrIdleHoldNs)).setArr n { a with awake := false })
  else .next s

end Sys2Proof.Machine
end

