-- ==== Sys2Proof/Machine/F32Dot.lean ====
section
/-! DEFINITION. The engine's matrix unit and fused multiply-add (R149, R150), and the rounding upwards of R184. -/

namespace Sys2Proof.Machine

/-- The exact product of two decoded values. -/
def fvMul (a b : FV) : FV :=
  match a, b with
  | .nan, _ => .nan
  | _, .nan => .nan
  | .inf s, .inf t => .inf (s != t)
  | .inf s, .fin t m _ => if m = 0 then .nan else .inf (s != t)
  | .fin t m _, .inf s => if m = 0 then .nan else .inf (s != t)
  | .fin s m e, .fin t n f => .fin (s != t) (m * n) (e + f)

/-- The exact sum of two decoded values; an exact zero takes the sign both share, else plus. -/
def fvAdd (a b : FV) : FV :=
  match a, b with
  | .nan, _ => .nan
  | _, .nan => .nan
  | .inf s, .inf t => if s = t then .inf s else .nan
  | .inf s, _ => .inf s
  | _, .inf s => .inf s
  | .fin s m e, .fin t n f =>
    if m = 0 && n = 0 then .fin (s && t) 0 0
    else
      let q := min e f
      let v := sgnMul s m e q + sgnMul t n f q
      .fin (v < 0) v.natAbs q

def fvRound : FV → Word
  | .nan => f32Nan
  | .inf s => f32Inf s
  | .fin s m e => f32Round s m e

/-- a × b + c, rounded once (R149). -/
def f32Fma (a b c : Word) : Word := fvRound (fvAdd (fvMul (f32Dec a) (f32Dec b)) (f32Dec c))

/-- The exact sum of products of a group. -/
def groupSum (l : List (Word × Word)) : FV := l.foldl (fun t p => fvAdd t (fvMul (f32Dec p.1) (f32Dec p.2))) (.fin false 0 0)

/-- The grouped dot product of R150, `fuel` groups at most. -/
def dotGroups (g : Nat) : Nat → Word → List (Word × Word) → Word
  | 0, acc, _ => acc
  | _, acc, [] => acc
  | k + 1, acc, l => dotGroups g k (f32Add acc (fvRound (groupSum (l.take g)))) (l.drop g)

/-- The floating dot product of R150: groups of 32 (FP8 E4M3) or 16 (BF16), two roundings each. -/
def dotF32 (g : Nat) (a b : List Word) : Word := dotGroups g (a.length / g + 1) 0 (a.zip b)

/-- The INT8 dot product of R150: clamped to 32 bits, and whether it was. -/
def dotI8 (a b : List Int) : Int × Bool :=
  let v := ((a.zip b).map (fun p => p.1 * p.2)).foldl (· + ·) 0
  let c := clampI (-(2 ^ 31)) (2 ^ 31 - 1) v
  (c, c != v)

/-- The larger of two BF16 neighbours: the smallest BF16 not below a nonnegative value (bf16_up, R184). -/
def bf16Up (w : Word) : BitVec 16 :=
  let h := BitVec.ofNat 16 (w.toNat / 2 ^ 16)
  if f32Exp w = 0 then 0
  else if w.toNat % 2 ^ 16 = 0 then h else h + 1

/-- A lane-strided sum (R151, R173): lane l takes elements l, l + 64, … in ascending order, then the balanced tree. -/
def laneSum (l : List Word) : Word :=
  treeSum ((List.range (min 64 l.length)).map (fun i =>
    ((List.range ((l.length - i + 63) / 64)).map (fun k => l.getD (i + 64 * k) 0)).foldl f32Add 0))

end Sys2Proof.Machine
end

