-- ==== Sys2Proof/Machine/KernelOps.lean ====
section
/-! DEFINITION. How a kernel runs on an engine: its reads and writes, hardware upsets (R148, R363), signatures and dual
execution (R166), completion and failure (R157, R158). -/

namespace Sys2Proof.Machine

/-- One value a kernel writes to the partition's tier A: offset, octets, and its kind for signatures: 0 hashed whole, 1 FP32,
2 BF16 (R166). -/
structure Wr where
  off : Nat
  kind : Nat
  data : Octets

/-- What a kernel does: the values it writes in order, the status it ends with after them (0: success), the input records it
sends to arrays when the task completes (vat, slot, record), the append it completes (R182), and the state with its counters
advanced. -/
structure KRes where
  status : Nat := 0
  writes : List Wr := []
  records : List (Nat × Nat × Octets) := []
  appended : Option Append := none
  st : State

/-- A kernel's refusal (R158). -/
def kfail (s : State) (status : Nat) : KRes := { status := status, st := s }

/-- Writes in order, to the first that fails. -/
def kwrite (s : State) (part : Nat) : List Wr → Nat × State
  | [] => (0, s)
  | w :: t =>
    let r := memWrite s part 0 w.off w.data
    if r.1 = 0 then kwrite r.2 part t else (r.1, s)

/-- A value as it is hashed: low mantissa bits of floating values cleared (R166). -/
def hashedVal (tol : Nat) (w : Wr) : Nat :=
  let v := leNat w.data
  if w.kind = 1 || w.kind = 2 then v / 2 ^ tol * 2 ^ tol else v

/-- The signature of a run (R166); records sent to arrays count with their destinations (R211). -/
def signature (s : State) (ws : List Wr) (rs : List (Nat × Nat × Octets)) : Nat :=
  ((ws.map (fun w => Config.dualHash w.off (hashedVal (cfgNat s Key.veDualTolBits) w))).sum +
    (rs.map (fun r => Config.dualHash (2 ^ 48 + r.1 * 2048 + r.2.1) (leNat r.2.2))).sum) % 2 ^ 64

/-- A silent upset flips a bit of the first value written; it is seen only by dual execution. -/
def flipWrites (u : Option EngineUpset) (ws : List Wr) : List Wr :=
  match u, ws with
  | some (.silent b), w :: t => { w with data := natLe w.data.length ((leNat w.data).xor (2 ^ (b % (8 * w.data.length)))) } :: t
  | _, _ => ws

/-- Busy time of a completed run, by the pool its engine is in (R228, R340). -/
def addBusy (s : State) (part pool ns : Nat) : State :=
  let l := tget ({} : PoolLaw) s.srv.law part
  let l := if pool = 1 then { l with busyP := l.busyP + ns } else if pool = 2 then { l with busyD := l.busyD + ns } else l
  let s := { s with srv := { s.srv with law := tput ({} : PoolLaw) s.srv.law part l } }
  s.tel part 0 0 ns 0

/-- The status with which a destination answers a record (R83, R374); 0 when it takes or holds it. -/
def recordStatus (s : State) (vat slot : Nat) (record : Octets) : Nat :=
  if !(vatPresent s vat) || 2048 ≤ slot then St.unitAbsent
  else if vatFenced s vat then St.unitFenced
  else if (s.vatAt vat).noTarget.contains slot then St.spareExhausted
  else if (s.vatAt vat).remaps.any (fun r => r.slot = slot) then 0
  else recordCheck (s.arrAt (physOf s vat slot)) (slotNamed s vat slot) record

/-- Records of a task go to their arrays in order; a refusal does not stop the sending (R211): the first refusal's status. -/
def sendRecords (s : State) (n : Nat) (rs : List (Nat × Nat × Octets)) : Nat × State :=
  rs.foldl (fun x r =>
    let st := recordStatus x.2 r.1 r.2.1 r.2.2
    (if x.1 = 0 then st else x.1, arrayRecord (.engine n) r.1 r.2.1 r.2.2 false x.2)) (0, s)

/-- The end of a task that ran without failing: its records are sent, then it completes (R157, R211). -/
def finishTask (s : State) (n : Nat) (t : Task) (rs : List (Nat × Nat × Octets)) : State :=
  let r := sendRecords s n rs
  if r.1 = 0 then completeTask r.2 n t else failTask r.2 n r.1 t

/-- The task ends in failure: a dual execution ends with it. -/
def taskFails (s : State) (n status : Nat) (t : Task) : State :=
  failTask (engineFree (if t.role = 0 then s else endDual s t.key) n) n status t

/-- A run that reached its end: the task completes, or a dual execution gets its signature (R157, R166). -/
def taskRan (s : State) (n : Nat) (t : Task) (r : KRes) (ws : List Wr) : State :=
  if t.role = 0 then
    let s := match r.appended with
      | some a => { s with kv := { s.kv with appends := s.kv.appends ++ [a] } }
      | none => s
    finishTask (engineFree s n) n t r.records
  else match dualOf s t.key with
    | none => engineFree s n
    | some d =>
      let g := signature s ws r.records
      let d := if t.role = 1 then { d with sig1 := some g, records := r.records }
        else if t.role = 2 then { d with sig2 := some g, secondary := some n }
        else { d with sig3 := some g, third := some n }
      engineFree (setDual s d) n

/-- The end of a kernel's run on an engine, with its upset if one occurred. -/
def endRun (s : State) (n busyNs : Nat) (u : Option EngineUpset) (x : Running) (k : State → Running → KRes) : State :=
  let t := x.task
  let err (mech a : Nat) : ErrRec := { mech := mech, operation := t.opcode, tag := t.taskId, detailA := a }
  match u with
  | some (.residue e f) => fenceEngine s n (err Mech.residue (e * 256 + f))
  | some (.scratchUe o) => fenceEngine s n (err Mech.scratchEcc o)
  | _ =>
    let s := match u with
      | some .scratchCe => s.modEng n (fun e => { e with scratchCe := Word.bump e.scratchCe 1 })
      | _ => s
    let s := addBusy s t.part (s.engAt n).pool busyNs
    let s := s.modEng n (fun e => { e with scratch := some t.key })
    let r := k s x
    let ws := flipWrites u r.writes
    let base := if t.role = 0 || t.role = 1 then r.st else s
    let w := if t.role = 2 then (0, base) else kwrite base t.part ws
    if w.1 != 0 then taskFails w.2 n w.1 t
    else if r.status != 0 then taskFails w.2 n r.status t
    else taskRan w.2 n t r ws

/-- A kernel command: the engine runs a task of that kernel to its end. Without one, nothing happens. -/
def runKernel (is : Nat → Bool) (k : State → Running → KRes) (n busyNs : Nat) (u : Option EngineUpset) (s : State) : State :=
  match (s.engAt n).run with
  | some x => if is x.task.opcode && running s && !(s.engAt n).fenced then endRun s n busyNs u x k else s
  | none => s

/-- The argument block of a task; one of another length than its kernel's is LENGTH_MISMATCH (R152). -/
def argBlock (s : State) (t : Task) (size : Nat) : Except Nat Octets :=
  if t.argLen != size then .error St.lengthMismatch else memRead s t.part 0 t.argPtr size

/-- Rows of a matrix: `n` rows of `len` octets, `stride` octets apart. -/
def readRows (s : State) (part off stride len n : Nat) : Except Nat (List Octets) :=
  (List.range n).mapM (fun i => memRead s part 0 (off + i * stride) len)

/-- A kernel's work from an outcome that may be a refusal. -/
def kres (s : State) (r : Except Nat KRes) : KRes :=
  match r with
  | .ok k => k
  | .error e => kfail s e

/-- An offset range past the partition's tier A space. -/
def pastSpace (s : State) (part off n : Nat) : Bool := spaceSize s part 0 < off + n

/-- The octets of a tensor and each of its elements widened to FP32: 0 BF16, 1 FP32. -/
def elemBytes (fmt : Nat) : Nat := if fmt = 0 then 2 else 4

def elemAt (fmt : Nat) (b : Octets) (i : Nat) : Word :=
  if fmt = 0 then bf16ToF32 (BitVec.ofNat 16 (fld b (2 * i) 2)) else BitVec.ofNat 32 (fld b (4 * i) 4)

/-- A value written as BF16 (0) or FP32 (1). -/
def wrElem (fmt off : Nat) (w : Word) : Wr :=
  if fmt = 0 then ⟨off, 2, natLe 2 (f32ToBf16 w).toNat⟩ else ⟨off, 1, natLe 4 w.toNat⟩

end Sys2Proof.Machine
end

