-- ==== Sys2Proof/Machine/SeqOps.lean ====
section
/-! DEFINITION. Regions and blocks of the KV cache (R177, R178), the snapshot (R181), and completed appends (R182). -/

namespace Sys2Proof.Machine

/-- NB, blocks per stripe (R177). -/
def SeqD.nb (d : SeqD) : Nat := (d.maxLen + 63) / 64

/-- Octets of one position's codes, keys or values. -/
def SeqD.rowBytes (d : SeqD) : Nat := if d.fmt = 1 then d.headDim / 2 else d.headDim

/-- BB, bytes per block. -/
def SeqD.bb (d : SeqD) : Nat := 128 * d.rowBytes

/-- SB, scale bytes per stripe. -/
def SeqD.sb (d : SeqD) : Nat := (4 * d.nb + 63) / 64 * 64

def SeqD.stripe (d : SeqD) : Nat := d.nb * d.bb + d.sb

def SeqD.region (d : SeqD) : Nat := d.layers * d.heads * d.stripe

/-- Where stripe (ℓ, h) begins. -/
def SeqD.stripeAt (d : SeqD) (l h : Nat) : Nat := d.base + (l * d.heads + h) * d.stripe

/-- The codes of a position: `which` is 0 for keys, 1 for values (R178). -/
def SeqD.codeAt (d : SeqD) (l h which t : Nat) : Nat :=
  d.stripeAt l h + t / 64 * d.bb + which * (d.bb / 2) + t % 64 * d.rowBytes

/-- The scale of a block. -/
def SeqD.scaleAt (d : SeqD) (l h which b : Nat) : Nat := d.stripeAt l h + d.nb * d.bb + 4 * b + 2 * which

/-- The codes of one row of octets. -/
def SeqD.codes (d : SeqD) (b : Octets) : List Int :=
  (List.range d.headDim).map (fun i =>
    if d.fmt = 1 then sext 4 (bits (b.getD (i / 2) 0).toNat (3 + 4 * (i % 2)) (4 * (i % 2))) else (b.getD i 0).toInt)

/-- Codes of a row as octets. -/
def SeqD.pack (d : SeqD) (cs : List Int) : Octets :=
  if d.fmt = 1 then
    (List.range (d.headDim / 2)).map (fun i => BitVec.ofNat 8 (toField 4 (cs.getD (2 * i) 0) + 16 * toField 4 (cs.getD (2 * i + 1) 0)))
  else cs.map (fun c => BitVec.ofNat 8 (toField 8 c))

/-- A snapshot's descriptor of a sequence for a partition (R181). -/
def snapSeq (snap : Tab (Option SeqD)) (part seq : Nat) : Option SeqD :=
  match tget none snap seq with
  | some d => if d.part = part then some d else none
  | none => none

/-- A descriptor in force. -/
def seqAt (s : State) (seq : Nat) : Option SeqD := tget none s.kv.seqs seq

/-- A completed append of this step wrote a position of a stripe (R182, R193). -/
def appendedAt (s : State) (seq l h t : Nat) : Bool :=
  s.kv.appends.any (fun a => a.seq = seq && a.layer = l && a.head ≤ h && h < a.head + a.heads && a.pos ≤ t && t < a.pos + a.count)

/-- How far the completed appends of a stripe reach from a position, `fuel` appends at most. -/
def runEnd (l : List Append) (layer h : Nat) : Nat → Nat → Nat
  | 0, x => x
  | k + 1, x =>
    match l.find? (fun a => a.layer = layer && a.head ≤ h && h < a.head + a.heads && a.pos ≤ x && x < a.pos + a.count) with
    | some a => runEnd l layer h k (a.pos + a.count)
    | none => x

/-- H: the end of the longest run of completed appends from L0, for every layer and head (R182). -/
def committedEnd (s : State) (seq : Nat) (d : SeqD) (l0 : Nat) : Nat :=
  let mine := s.kv.appends.filter (fun a => a.seq = seq)
  if mine.isEmpty then l0
  else
    let ends := (List.range d.layers).flatMap (fun l => (List.range d.heads).map (fun h => runEnd mine l h mine.length l0))
    min (ends.foldl min d.maxLen) d.maxLen

end Sys2Proof.Machine
end

