-- ==== Sys2Proof/Machine/Attn.lean ====
section
/-! DEFINITION. The attention kernels: KV_APPEND (R184–R187), ATTN_DECODE and ATTN_PREFILL (R191–R196). -/

namespace Sys2Proof.Machine

/-! ## KV_APPEND (R184–R187) -/

structure AppendArg where
  seq : Nat
  layer : Nat
  head : Nat
  heads : Nat
  pos : Nat
  count : Nat
  k : Nat
  v : Nat
  fmt : Nat
  rsv : Bool

def appendArg (b : Octets) : AppendArg :=
  { seq := fld b 0 2, layer := fld b 2 2, head := fld b 4 2, heads := fld b 6 2, pos := fld b 8 4, count := fld b 12 4,
    k := fld b 16 8, v := fld b 24 8, fmt := fld b 32 1, rsv := zeroAt b 33 15 }

/-- The refusals of R186, in order. -/
def appendStatus (s : State) (t : Task) (d : SeqD) (a : AppendArg) : Nat :=
  let bytes := a.count * a.heads * d.headDim * elemBytes a.fmt
  firstBad [
    (d.layers ≤ a.layer || d.heads < a.head + a.heads || a.heads = 0 || a.count = 0 || 4096 < a.count || 1 < a.fmt || !a.rsv ||
      a.pos < d.len, St.outOfRange),
    (d.maxLen < a.pos + a.count || pastSpace s t.part a.k bytes || pastSpace s t.part a.v bytes || t.scratchKib < 16,
      St.lengthExceedsBuffer)]

def kvQmax (d : SeqD) : Nat := if d.fmt = 1 then 7 else 127

/-- A normal value times 2^k, rounded to binary32. -/
def f32Scale (w : Word) (k : Int) : Word :=
  match f32Dec w with
  | .fin s m e => f32Round s m (e + k)
  | _ => w

/-- The scale of the first nonzero append: 2^headroom times bf16_up (R184); past the largest finite BF16 it is +infinity. -/
def firstScale (amax : Word) (qmax headroom : Nat) : BitVec 16 :=
  f32ToBf16 (f32Mul (f32OfNat (2 ^ headroom)) (bf16ToF32 (bf16Up (f32Div amax (f32OfNat qmax)))))

/-- The growth k of R184: the least that fits amax, at most what keeps the scale finite. -/
def growth (amax sw : Word) (qmax : Nat) : Nat :=
  let q := f32Mul (f32OfNat qmax) sw
  let most := 254 - f32Exp sw
  if f32Lt q amax then
    min (((List.range 255).find? (fun (k : Nat) => 1 ≤ k && f32Le amax (f32Scale q (k : Int)))).getD 255) most
  else 0

/-- c / 2^k, half to even. -/
def shrinkCode (k : Nat) (c : Int) : Int :=
  let n : Int := rneTo c.natAbs 0 k
  if c < 0 then -n else n

/-- One element's code, and whether it was clamped. -/
def kvCode (qmax : Nat) (zero : Bool) (r x : Word) : Int × Bool :=
  let q : Int := qmax
  if zero || f32IsNan x then (0, false)
  else if f32IsInf x then (if f32Neg? x then -q else q, false)
  else
    let v := f32Mul x r
    (f32ClampInt (-q) q v, match f32ToInt v with
      | some i => q < i.natAbs
      | none => true)

/-- One block's part of an append: its writes, its growth, and its clamped and non-finite elements. -/
structure BlockRes where
  writes : List Wr
  grew : Bool
  clamped : Nat
  nonfinite : Nat

/-- What an append brings into one block for one scale (R184, R185): rows are (position, elements). -/
def appendBlock (s : State) (d : SeqD) (a : AppendArg) (h which b : Nat) (rows : List (Nat × List Word)) : Except Nat BlockRes := do
  let sAt := d.scaleAt a.layer h which b
  let so ← memRead s d.part 0 sAt 2
  let qmax := kvQmax d
  let sw := bf16ToF32 (BitVec.ofNat 16 (leNat so))
  let xs := rows.flatMap (·.2)
  let amax := (xs.filter f32Finite).foldl (fun m x => if f32Lt m (f32Abs x) then f32Abs x else m) 0
  let isZero : Bool := f32Ord sw = 0
  let k := if isZero then 0 else growth amax sw qmax
  let sNew := if isZero then (if f32Ord amax = 0 then 0 else firstScale amax qmax (cfgP s d.part Key.kvHeadroomLog2))
    else f32ToBf16 (f32Scale sw k)
  let nw := bf16ToF32 sNew
  let zero : Bool := f32Ord nw = 0
  let r := f32Div 0x3F800000 nw
  let old ← if k = 0 then pure [] else (List.range 64).mapM (fun i => do
    let at_ := d.codeAt a.layer h which (64 * b + i)
    let o ← memRead s d.part 0 at_ d.rowBytes
    pure (⟨at_, 0, d.pack ((d.codes o).map (shrinkCode k))⟩ : Wr))
  let cs := rows.map (fun x => (x.1, x.2.map (kvCode qmax zero r)))
  let new := cs.map (fun x => (⟨d.codeAt a.layer h which x.1, 0, d.pack (x.2.map (·.1))⟩ : Wr))
  pure { writes := old ++ new ++ [⟨sAt, 0, natLe 2 sNew.toNat⟩], grew := k != 0,
         clamped := ((cs.flatMap (·.2)).filter (·.2)).length, nonfinite := (xs.filter (fun x => !(f32Finite x))).length }

/-- The elements of a source for a head, by position: [COUNT][HEAD_COUNT][HEAD_DIM]. -/
def appendRows (d : SeqD) (a : AppendArg) (src : Octets) (h : Nat) : List (Nat × List Word) :=
  (List.range a.count).map (fun c =>
    (a.pos + c, (List.range d.headDim).map (fun i => elemAt a.fmt src ((c * a.heads + h) * d.headDim + i))))

/-- Adds to a partition's counter. -/
def addTo (t : Tab Nat) (p n : Nat) : Tab Nat := tput 0 t p (tget 0 t p + n)

def kvAppend (s : State) (r : Running) : KRes :=
  kres s (do
    let t := r.task
    let b ← argBlock s t 48
    let a := appendArg b
    let d ← match snapSeq r.seqs t.part a.seq with
      | some d => pure d
      | none => throw St.accessDenied
    let st := appendStatus s t d a
    if st != 0 then throw st
    let bytes := a.count * a.heads * d.headDim * elemBytes a.fmt
    let ks ← memRead s t.part 0 a.k bytes
    let vs ← memRead s t.part 0 a.v bytes
    let first := a.pos / 64
    let blocks := (List.range ((a.pos + a.count - 1) / 64 - first + 1)).map (first + ·)
    let work := (List.range a.heads).flatMap (fun h => [(0, ks), (1, vs)].flatMap (fun w => blocks.map (fun b => (h, w, b))))
    let rs ← work.mapM (fun x =>
      appendBlock s d a (a.head + x.1) x.2.1.1 x.2.2 ((appendRows d a x.2.1.2 x.1).filter (fun r => r.1 / 64 = x.2.2)))
    let kv := { s.kv with
      rescale := addTo s.kv.rescale t.part (rs.filter (·.grew)).length
      clamp := addTo s.kv.clamp t.part ((rs.map (·.clamped)).sum)
      nonfinite := addTo s.kv.nonfinite t.part ((rs.map (·.nonfinite)).sum) }
    pure { writes := rs.flatMap (·.writes), appended := some ⟨a.seq, a.layer, a.head, a.heads, a.pos, a.count⟩,
           st := { s with kv := kv } })

/-- Stripes that a running append writes: sequence, layer, first head, heads. -/
def stripesOf (s : State) (t : Task) : Option (Nat × Nat × Nat × Nat) :=
  match argBlock s t 48 with
  | .ok b => let a := appendArg b; some (a.seq, a.layer, a.head, a.heads)
  | .error _ => none

def stripesMeet (x y : Nat × Nat × Nat × Nat) : Bool :=
  x.1 = y.1 && x.2.1 = y.2.1 && x.2.2.1 < y.2.2.1 + y.2.2.2 && y.2.2.1 < x.2.2.1 + x.2.2.2

/-- An append to one of the same stripes started earlier and still runs (R187). -/
def appendBefore (s : State) (n : Nat) : Bool :=
  match (s.engAt n).run with
  | none => false
  | some x => s.eng.eng.any (fun q => match q.2.run with
    | some y => y.task.opcode = 0x0003 && y.order < x.order && y.task.part = x.task.part &&
        (match stripesOf s x.task, stripesOf s y.task with
          | some a, some b => stripesMeet a b
          | _, _ => false)
    | none => false)

def execKvAppend (engine busyNs : Nat) (upset : Option EngineUpset) (s : State) : Host.Outcome State Fault Refusal :=
  if appendBefore s engine then .next s else .next (runKernel (· = 0x0003) kvAppend engine busyNs upset s)

/-! ## Attention (R191–R196) -/

structure AttnArg where
  seq : Nat
  layer : Nat
  head : Nat
  qheads : Nat
  phase : Nat
  qpos : Nat
  qlen : Nat
  q : Nat
  out : Nat
  sm : Word
  window : Nat
  first : Nat
  count : Nat
  split : Nat
  outFmt : Nat
  flags : Nat
  part : Nat
  rsv : Bool

def attnArg (b : Octets) : AttnArg :=
  { seq := fld b 0 2, layer := fld b 2 2, head := fld b 4 2, qheads := fld b 6 1, phase := fld b 7 1, qpos := fld b 8 4,
    qlen := fld b 12 4, q := fld b 16 8, out := fld b 24 8, sm := BitVec.ofNat 32 (fld b 32 4), window := fld b 36 4,
    first := fld b 40 2, count := fld b 42 2, split := fld b 44 1, outFmt := fld b 45 1, flags := fld b 46 1,
    part := fld b 48 8, rsv := zeroAt b 47 1 && zeroAt b 56 8 }

def AttnArg.windowed (a : AttnArg) : Bool := bit a.flags 0

/-- V, visible blocks (R190). -/
def AttnArg.vis (a : AttnArg) : Nat := (a.qpos + a.qlen + 63) / 64

/-- P, octets of a partial record (R191). -/
def partialBytes (d : SeqD) : Nat := (8 + 4 * d.headDim + 63) / 64 * 64

/-- Blocks a task walks. -/
def AttnArg.blocks (a : AttnArg) : List Nat :=
  if a.phase = 0 then List.range a.vis else if a.phase = 1 then (List.range a.count).map (a.first + ·) else []

/-- The first position a query sees (R192). -/
def AttnArg.low (a : AttnArg) (q : Nat) : Nat := if a.windowed then q + 1 - a.window else 0

/-- A position the query at q sees. -/
def AttnArg.sees (a : AttnArg) (q t : Nat) : Bool := t ≤ q && a.low q ≤ t

/-- Fields out of range (R193). -/
def attnRange (a : AttnArg) (qmax : Nat) (d : SeqD) : Bool :=
  d.layers ≤ a.layer || d.heads ≤ a.head || a.qheads = 0 || 32 < a.qheads || a.qlen = 0 || qmax < a.qlen || 2 < a.phase ||
  1 < a.outFmt || 1 < a.flags || !a.rsv ||
  (if a.windowed then a.window = 0 || 262144 < a.window else a.window != 0) ||
  (if a.phase = 1 then a.count = 0 || 4096 < a.count || 63 < a.split || a.vis < a.first + a.count
   else a.first != 0 || a.count != 0 ||
    (if a.phase = 2 then a.split < 2 || 64 < a.split else a.split != 0 || a.part != 0))

/-- The refusals of R193, in order. -/
def attnStatus (s : State) (t : Task) (d : SeqD) (a : AttnArg) (qmax : Nat) : Nat :=
  let rows := a.qlen * a.qheads
  let past := pastSpace s t.part a.q (2 * rows * d.headDim) ||
    (a.phase != 1 && pastSpace s t.part a.out (rows * d.headDim * elemBytes (if a.outFmt = 0 then 0 else 1))) ||
    (a.phase = 1 && pastSpace s t.part a.part ((a.split + 1) * rows * partialBytes d)) ||
    (a.phase = 2 && pastSpace s t.part a.part (a.split * rows * partialBytes d))
  let unwritten (x : Nat) : Bool := d.len ≤ x && !(appendedAt s a.seq a.layer a.head x)
  let top := a.qpos + a.qlen
  let bad := a.blocks.any (fun b => (List.range 64).any (fun i =>
    let x := 64 * b + i
    x < top && a.low a.qpos ≤ x && unwritten x))
  firstBad [(attnRange a qmax d, St.outOfRange),
    (d.maxLen < a.qpos + a.qlen || past || t.scratchKib < (if d.headDim = 256 then 192 else 96), St.lengthExceedsBuffer),
    (!(f32PosNormal a.sm), St.formatMismatch), (bad, St.kvNotAppended)]

/-- A walked block: its positions with key and value codes, and its two scales. -/
structure KvBlock where
  rows : List (Nat × List Word × List Word)
  sk : Word
  sv : Word

def readBlock (s : State) (d : SeqD) (a : AttnArg) (b : Nat) : Except Nat KvBlock := do
  let ts := ((List.range 64).map (64 * b + ·)).filter (fun t => t < a.qpos + a.qlen && a.low a.qpos ≤ t)
  if ts.isEmpty then pure ⟨[], 0, 0⟩ else
  let sk ← memRead s d.part 0 (d.scaleAt a.layer a.head 0 b) 2
  let sv ← memRead s d.part 0 (d.scaleAt a.layer a.head 1 b) 2
  let rows ← ts.mapM (fun t => do
    let kc ← memRead s d.part 0 (d.codeAt a.layer a.head 0 t) d.rowBytes
    let vc ← memRead s d.part 0 (d.codeAt a.layer a.head 1 t) d.rowBytes
    pure (t, (d.codes kc).map f32OfInt, (d.codes vc).map f32OfInt))
  pure ⟨rows, bf16ToF32 (BitVec.ofNat 16 (leNat sk)), bf16ToF32 (BitVec.ofNat 16 (leNat sv))⟩

/-- The running state of one query row and head: m (none before the first block), l and o, and a NaN score met. -/
structure Soft where
  m : Option Word
  l : Word
  o : List Word
  nan : Bool

/-- One block folded into a row (R194, R195). -/
def softBlock (a : AttnArg) (qpos : Nat) (q : List Word) (x : Soft) (b : KvBlock) : Soft :=
  let vis := b.rows.filter (fun r => a.sees qpos r.1)
  if vis.isEmpty then x
  else
    let ss := vis.map (fun r => f32Mul (f32Mul (dotF32 16 q r.2.1) b.sk) a.sm)
    let mb := (ss.drop 1).foldl f32Max (ss.headD 0)
    let x := match x.m with
      | none => { x with m := some mb }
      | some m =>
        if f32Lt m mb then
          let e := f32ExpFn (f32Sub m mb)
          { x with m := some mb, l := f32Mul x.l e, o := x.o.map (fun y => f32Mul y e) }
        else x
    let m := x.m.getD 0
    let ps := ss.map (fun v => f32ExpFn (f32Sub v m))
    let l := f32Add x.l (treeSum ps)
    let pv (d : Nat) : Word := (ps.zip vis).foldl (fun acc r => f32Fma r.1 (r.2.2.2.getD d 0) acc) 0
    { m := x.m, l := l, o := x.o.zipIdx.map (fun y => f32Add y.1 (f32Mul (pv y.2) b.sv)), nan := x.nan || ss.any f32IsNan }

/-- The outputs of a row: o × recip(l), all NaN when a score was (R195). -/
def softOut (x : Soft) : List Word :=
  if x.nan then x.o.map (fun _ => f32Nan) else x.o.map (fun y => f32Mul y (f32Recip x.l))

/-- A row of a PHASE 0 or 1 task. -/
def softRow (d : SeqD) (a : AttnArg) (bs : List KvBlock) (qpos : Nat) (q : List Word) : Soft :=
  bs.foldl (softBlock a qpos q) ⟨none, 0, List.replicate d.headDim 0, false⟩

/-- A partial record (R191). A row that saw no position leaves the merge as it is: m is −infinity, l and o are 0. -/
def partialWr (d : SeqD) (at_ : Nat) (x : Soft) : List Wr :=
  let m := if x.nan then f32Nan else x.m.getD 0xFF800000
  let l := if x.nan then f32Nan else x.l
  let w (o : Nat) (v : Word) : Wr := ⟨at_ + o, 1, natLe 4 v.toNat⟩
  [w 0 m, w 4 l] ++ ((List.range d.headDim).map (fun i => w (8 + 4 * i) (if x.nan then f32Nan else x.o.getD i 0)))

/-- A partial record as read. -/
def partialOf (d : SeqD) (b : Octets) : Soft :=
  let w (i : Nat) : Word := BitVec.ofNat 32 (fld b i 4)
  { m := some (w 0), l := w 4, o := (List.range d.headDim).map (fun i => w (8 + 4 * i)), nan := f32IsNan (w 0) || f32IsNan (w 4) }

/-- Folding one partial into the merge (R196). -/
def mergePartial (x y : Soft) : Soft :=
  let m := x.m.getD 0
  let mi := y.m.getD 0
  let top := f32Max m mi
  let a := f32ExpFn (f32Sub m top)
  let rise : Bool := f32Lt m top
  let l := if rise then f32Mul x.l a else x.l
  let o := if rise then x.o.map (fun v => f32Mul v a) else x.o
  let b := if f32Lt mi top then f32ExpFn (f32Sub mi top) else 0x3F800000
  { m := some top, l := f32Add l (f32Mul y.l b), o := (o.zip y.o).map (fun c => f32Add c.1 (f32Mul c.2 b)), nan := x.nan || y.nan }

def partialOff (a : AttnArg) (d : SeqD) (i j g : Nat) : Nat := a.part + ((i * a.qlen + j) * a.qheads + g) * partialBytes d

/-- The output values of a query row and head. -/
def attnOutWr (a : AttnArg) (d : SeqD) (j g : Nat) (ys : List Word) : List Wr :=
  ys.zipIdx.map (fun y => wrElem a.outFmt (a.out + ((j * a.qheads + g) * d.headDim + y.2) * elemBytes a.outFmt) y.1)

/-- The writes of one query row and head. -/
def attnRow (s : State) (t : Task) (d : SeqD) (a : AttnArg) (bs : List KvBlock) (j g : Nat) : Except Nat (List Wr) := do
  if a.phase = 2 then
    let ps ← (List.range a.split).mapM (fun i => do
      let b ← memRead s t.part 0 (partialOff a d i j g) (8 + 4 * d.headDim)
      pure (partialOf d b))
    match ps with
    | p :: rest => pure (attnOutWr a d j g (softOut (rest.foldl mergePartial p)))
    | [] => pure []
  else
    let qb ← memRead s t.part 0 (a.q + 2 * (j * a.qheads + g) * d.headDim) (2 * d.headDim)
    let x := softRow d a bs (a.qpos + j) ((List.range d.headDim).map (elemAt 0 qb))
    pure (if a.phase = 1 then partialWr d (partialOff a d a.split j g) x else attnOutWr a d j g (softOut x))

def attention (qmax : Nat) (s : State) (r : Running) : KRes :=
  kres s (do
    let t := r.task
    let b ← argBlock s t 64
    let a := attnArg b
    let d ← match snapSeq r.seqs t.part a.seq with
      | some d => pure d
      | none => throw St.accessDenied
    let st := attnStatus s t d a qmax
    if st != 0 then throw st
    let bs ← a.blocks.mapM (readBlock s d a)
    let ws ← ((List.range a.qlen).flatMap (fun j => (List.range a.qheads).map (fun g => (j, g)))).mapM (fun x =>
      attnRow s t d a bs x.1 x.2)
    pure { writes := ws.flatten, st := s })

def execAttnDecode (engine busyNs : Nat) (upset : Option EngineUpset) (s : State) : Host.Outcome State Fault Refusal :=
  .next (runKernel (· = 0x0001) (attention 16) engine busyNs upset s)

def execAttnPrefill (engine busyNs : Nat) (upset : Option EngineUpset) (s : State) : Host.Outcome State Fault Refusal :=
  .next (runKernel (· = 0x0002) (attention 4096) engine busyNs upset s)

end Sys2Proof.Machine
end

