-- ==== Sys2Proof/Machine/RegOps.lean ====
section
/-! DEFINITION. The register space: where blocks lie (R357), which agent reaches them (R358), and the accesses that raise a
bus error (R359). -/

namespace Sys2Proof.Machine

inductive Blk where
  | mon | thm | pwr | errlog | sec | ccVat | veVat | memA | memB | port | press | mbx | ve | cc | arr | sync
  deriving DecidableEq, Repr

/-- A register: block, block index, offset. -/
structure RegRef where
  blk : Blk
  idx : Nat
  off : Nat
  deriving DecidableEq, Repr

/-- Bases, strides and numbers of blocks (R357). -/
def blocks : List (Blk × Nat × Nat × Nat) := [
  (.mon, 0x1000, 0x1000, 1), (.thm, 0x2000, 0x1000, 1), (.pwr, 0x3000, 0x1000, 1), (.errlog, 0x4000, 0x4000, 1),
  (.sec, 0x8000, 0x8000, 1), (.ccVat, 0x20000, 0x100, 8), (.veVat, 0x21000, 0x100, 8), (.memA, 0x30000, 0x100, 6),
  (.memB, 0x30800, 0x100, 2), (.port, 0x40000, 0x100, 24), (.press, 0x42000, 0x100, 4), (.mbx, 0x50000, 0x200, 64),
  (.ve, 0x100000, 0x40, 512), (.cc, 0x200000, 0x20, 17408), (.arr, 0x400000, 0x80, 17408), (.sync, 0x800000, 0x40, 65536)]

/-- The block an address lies in. -/
def locate (addr : Nat) : Option RegRef :=
  (blocks.find? (fun b => b.2.1 ≤ addr && addr < b.2.1 + b.2.2.1 * b.2.2.2)).map
    (fun b => ⟨b.1, (addr - b.2.1) / b.2.2.1, (addr - b.2.1) % b.2.2.1⟩)

/-- Whether a word-aligned offset is listed in the block's tables (R79, R80, R106, R174, R175, R262, R301, R302, R329, R330,
R396, R428–R430, R467). -/
def listed (r : RegRef) : Bool :=
  let o := r.off / 4 * 4
  match r.blk with
  | .mon => o < 0x30 || (0x40 ≤ o && o < 0x80) || (0x100 ≤ o && o < 0x300) || (0x400 ≤ o && o < 0xC00)
  | .thm => o ≤ 4 || (0x400 ≤ o && o < 0x400 + 4 * 288)
  | .pwr => o ≤ 0x18
  | .errlog => o ≤ 0x0C || (0x40 ≤ o && o ≤ 0x7C)
  | .sec => o ≤ 0x0C
  | .ccVat => o ≤ 0x10
  | .veVat => o ≤ 8
  | .memA => o ≤ 0x14
  | .memB => o ≤ 0x14
  | .port => o ≤ 0x2C
  | .press => o ≤ 0x10
  | .mbx => o ≤ 0x10C
  | .ve => o ≤ 0x20
  | .cc => o ≤ 8
  | .arr => o ≤ 0x5C
  | .sync => o ≤ 0x28

/-- End codes of a mailbox (R329). -/
def vatIsEnd (s : State) (m v : Nat) : Bool := (s.mbxAt m).sender = 2 + v || (s.mbxAt m).receiver = 2 + v

/-- The vat of a block, for the blocks a vat control core reaches. -/
def blkVat (r : RegRef) : Option Nat :=
  match r.blk with
  | .arr => some (r.idx / 2176)
  | .cc => some (r.idx / 2176)
  | .ve => some (r.idx / 64)
  | .ccVat => some r.idx
  | .veVat => some r.idx
  | _ => none

/-- Whether an agent reaches a block (R358, R341). -/
def reaches (s : State) (a : RegAgent) (r : RegRef) : Bool :=
  match a with
  | .sec => true
  | .mgmt => r.blk != .sec
  | .window => r.blk != .sec
  | .vat v => r.blk = .sync || blkVat r = some v || (r.blk = .mbx && vatIsEnd s r.idx v)

/-- Whether the unit of a block is present. -/
def blkPresent (s : State) (r : RegRef) : Bool :=
  match r.blk with
  | .memB => hasCave s
  | _ => match blkVat r with
    | some v => vatPresent s v
    | none => true

/-- The bus error of an access, or 0 (R359); the checks in the order of its table. -/
def busStatus (s : State) (a : RegAgent) (addr width : Nat) : Nat :=
  match locate addr with
  | none => St.accessUnmapped
  | some r => firstBad [
      (!(listed r), St.accessUnmapped),
      (width != 32 || addr % 4 != 0, St.formatMismatch),
      (!(reaches s a r), St.accessDenied),
      (!(blkPresent s r), St.unitAbsent)]

/-- A bus error: a core takes a synchronous access fault with the address and the cause. -/
def busError (s : State) (a : RegAgent) (addr status : Nat) : State := s.emit (.busError a addr status)

/-- A register write of a row with its own effect: performed, or a bus error. -/
def regRow (a : RegAgent) (addr : Nat) (f : State → State) (s : State) : State :=
  let st := busStatus s a addr 32
  if st = 0 then f s else busError s a addr st

end Sys2Proof.Machine
end

