-- ==== Sys2Proof/Machine/Calib.lean ====
section
/-! DEFINITION. Calibration of column converters and reference lines (R73–R78, R80). -/

namespace Sys2Proof.Machine

/-- The sensor of an array's zone, and its reading. -/
def arrTemp (s : State) (n : Nat) : Int := (sensorAt s (unitSensor Kind.array n)).temp

/-- Temperature at an array's last accepted calibration (R73). -/
def calTempOf (s : State) (n : Nat) : Int :=
  match (s.arrAt n).calTemp with
  | some t => t
  | none => tget 0 (s.vatAt (n / 2176)).calTemps (unitSensor Kind.array n)

/-- The listed arrays of a vat (every other one is at its reset values). -/
def listedIn (s : State) (v : Nat) : List Nat := (s.arr.filter (fun q => q.1 / 2176 = v)).map (·.1)

/-- A FULL calibration is refused while an array holds a grant or a queued product (R74). -/
def vatInService (s : State) (v : Nat) : Bool :=
  !(s.vatAt v).grants.isEmpty || (listedIn s v).any (fun n => !(s.arrAt n).products.isEmpty || !(s.arrAt n).waiting.isEmpty)

/-- The physical arrays of a vat (R22). -/
def arraysOfVat (v : Nat) : List Nat := (List.range 2176).map (fun i => v * 2176 + i)

/-- Starts a calibration run of a vat: 0 FULL, 1 IDLE. -/
def startCal (s : State) (v mode : Nat) (cmd : Bool) : State :=
  let s := s.modVat v (fun t => { t with
    calMode := mode, calState := 1, refReject := false, refBad := [], calFenced := 0, calCmd := cmd })
  if mode = 0 then s
  else (arraysOfVat v).foldl (fun s n => s.modArr n (fun a => { a with calDue := true })) s

/-- The vats of an ARR_CAL_START run. -/
def calVats (s : State) : List Nat := (vatsOf s).filter (fun v => (s.vatAt v).calCmd)

/-- The command word of a run (R78): vats completed as a mask, arrays fenced, any REF_REJECT. -/
def calWord (s : State) (state : Nat) : DWord :=
  let vs := calVats s
  let fin := vs.filter (fun v => (s.vatAt v).calState = 2 && !(vatFenced s v))
  BitVec.ofNat 64 (state + 4 * b2n (vs.any (fun v => (s.vatAt v).refReject)) + maskOf fin * 2 ^ 8
    + ((vs.map (fun v => (s.vatAt v).calFenced)).sum % 2 ^ 16) * 2 ^ 16)

/-- The mask and mode of ARR_CAL_START (R78): 0, or the status of a bad argument. -/
def calArgStatus (s : State) (arg : Octets) : Nat :=
  let a := leNat arg
  firstBad [(bits a 31 9 != 0 || bits a 7 0 = 0, St.outOfRange),
    ((bitsOf (bits a 7 0) 8).any (fun v => !(vatPresent s v)), St.unitAbsent)]

def arrCalBody (_sess _part : Nat) (arg : Octets) (s : State) : CmdAns :=
  let a := leNat arg
  let vs := bitsOf (bits a 7 0) 8
  if vs.any (fun v => vatFenced s v) then refuse s St.unitFenced
  else if vs.any (fun v => (s.vatAt v).calState = 1) then refuse s St.wrongState
  else if !(bit a 8) && vs.any (vatInService s) then refuse s St.vatInService
  else
    let s := (vatsOf s).foldl (fun s v => s.modVat v (fun t => { t with calCmd := false })) s
    started (vs.foldl (fun s v => startCal s v (b2n (bit a 8)) true) s)

def arrCalWrite : Nat → Octets → State → Nat × State := cmdWrite Key.arrCalStart calArgStatus arrCalBody

def execArrCalStart (sess : Nat) (arg : Octets) (s : State) : Host.Outcome State Fault Refusal :=
  .next (cmdRow Key.arrCalStart arrCalWrite sess arg s)

/-- START and MODE of CC_VAT_v (R80). -/
def ccVatControl (v value : Nat) (s : State) : State :=
  let mode := b2n (bit value 1)
  let s := s.modVat v (fun t => { t with calMode := mode })
  if !(bit value 0) || (s.vatAt v).calState = 1 then s
  else if vatFenced s v || (mode = 0 && vatInService s v) then s.modVat v (fun t => { t with calState := 3 })
  else startCal s v mode false

def execCcVatStart (agent : RegAgent) (vat value : Nat) (s : State) : Host.Outcome State Fault Refusal :=
  .next (regRow agent (0x20000 + vat * 0x100) (ccVatControl vat value) s)

/-! ## Converters (R75) -/

/-- Two runs agree within ±1 on both taps. -/
def tapsAgree (a b : TapPair) : Bool :=
  let near (x y : Nat) : Bool := x ≤ y + 1 && y ≤ x + 1
  near a.delay b.delay && near a.thresh b.thresh

def tapWord (t : TapPair) : Nat × Nat := (t.delay % 64, t.thresh % 16)

def convKey (segment column : Nat) : Nat := segment * 2048 + column

/-- Octets of the runs made, delay then threshold (R369). -/
def tapOctets (l : List TapPair) : Nat := leNat (l.flatMap (fun t => [BitVec.ofNat 8 t.delay, BitVec.ofNat 8 t.thresh]))

/-- An accepted result: its taps take effect at the array's next pass, its suspect and failed marks are cleared (R75, R77,
R80). -/
def acceptTaps (s : State) (n key : Nat) (t : TapPair) : State :=
  s.modArr n (fun a => { a with
    tapsPend := tput none a.tapsPend key (some (tapWord t)), suspect := a.suspect.filter (· != key)
    failed := a.failed.filter (· != key) })

/-- A converter of the array is being measured: its vat runs FULL, or an IDLE slice or readmission holds the array. -/
def measuring (s : State) (n : Nat) : Bool :=
  let t := s.vatAt (n / 2176)
  (t.calState = 1 && t.calMode = 0) || (s.arrAt n).calActive

def execConverterCalResult (n segment column : Nat) (runs : List TapPair) (s : State) : Host.Outcome State Fault Refusal :=
  let key := convKey segment column
  if !(arrPresent s n) || 8 ≤ segment || 1136 ≤ column || !(measuring s n) then .next s
  else match runs with
    | [a, b] =>
      if tapsAgree a b then .next (acceptTaps s n key b)
      else .next (s.modArr n (fun x => { x with suspect := key :: x.suspect.filter (· != key) }))
    | [a, b, c, d] =>
      if tapsAgree a b then .next (acceptTaps s n key b)
      else if tapsAgree c d then .next (acceptTaps s n key d)
      else
        let s := s.modArr n (fun x => { x with
          suspect := key :: x.suspect.filter (· != key), failed := key :: x.failed.filter (· != key) })
        let s := s.modVat (n / 2176) (fun v => { v with calFenced := (v.calFenced + 1) % 2 ^ 16 })
        let r : ErrRec := { mech := Mech.calibration, detailA := segment + column * 2 ^ 16, detailB := tapOctets runs }
        .next (fenceArray s n r)
    | _ => .next s

/-! ## Reference lines (R76) -/

def refAccepted (old new : TapPair) : Bool :=
  let near (x y : Nat) : Bool := x ≤ y + 4 && y ≤ x + 4
  8 ≤ new.delay && new.delay ≤ 55 && 2 ≤ new.thresh && new.thresh ≤ 13 && near old.delay new.delay && near old.thresh new.thresh

/-- The command reads done once no vat of its run is still running. -/
def reportCal (s : State) : State :=
  let going : Bool := (calVats s).any (fun v => (s.vatAt v).calState = 1)
  let w := calWord s (if going then 1 else 2)
  if going then
    (s.dic.running.filter (fun q => q.1 = Key.arrCalStart)).foldl (fun s q => setWord s q.2.2 Key.arrCalStart w) s
  else cmdEnd s Key.arrCalStart 0 w

/-- Both lines rejected: the run stops, none of its taps is taken, and the vat is fenced. -/
def refsLost (s : State) (v : Nat) (r : ErrRec) : State :=
  let s := (listedIn s v).foldl (fun s n => s.modArr n (fun a => { a with tapsPend := [] })) s
  let s := fenceVat (s.modVat v (fun t => { t with calState := 2 })) v { r with action := 0 }
  if (s.vatAt v).calCmd then reportCal s else s

def execRefLineCalResult (vat line : Nat) (taps : TapPair) (s : State) : Host.Outcome State Fault Refusal :=
  let t := s.vatAt vat
  if !(vatPresent s vat) || t.calState != 1 || 2 ≤ line then .next s
  else
    let old := if line = 0 then t.ref0 else t.ref1
    if refAccepted old taps then
      .next (s.setVat vat (if line = 0 then { t with ref0 := taps } else { t with ref1 := taps }))
    else
      let bad := if t.refBad.contains line then t.refBad else line :: t.refBad
      let r : ErrRec := { mech := Mech.calibration, unitKind := Kind.vat, unit := vat, detailA := line + 2 ^ 31,
                          detailB := tapOctets [taps] }
      let s := (s.setVat vat { t with refReject := true, refBad := bad }).writeErr r
      .next (if bad.length = 2 then refsLost s vat r else s)

/-! ## The end of a run (R74, R78) -/

/-- Temperatures of the vat's 32 array sensors now. -/
def vatTemps (s : State) (v : Nat) : Tab Int :=
  (List.range 32).foldl (fun t i => tput 0 t (32 * v + i) (sensorAt s (32 * v + i)).temp) []

def execCalRunDone (vat stepFs : Nat) (s : State) : Host.Outcome State Fault Refusal :=
  let t := s.vatAt vat
  let due : Bool := t.calMode = 1 && (listedIn s vat).any (fun n => (s.arrAt n).calDue && !(s.arrAt n).fenced)
  if !(vatPresent s vat) || t.calState != 1 || due then .next s
  else
    let t := { t with calState := 2, stepFs := stepFs % 2 ^ 16 }
    let t := if t.calMode = 0 then { t with calTime := s.time, calTemps := vatTemps s vat } else t
    let s := s.setVat vat t
    let s := if t.calMode != 0 then s else (listedIn s vat).foldl (fun s n =>
      acceptWaiting (s.modArr n (fun a => { a with calTemp := none, calDue := false })) n) s
    .next (if t.calCmd then reportCal s else s)

/-! ## Drift and IDLE slices (R73, R74) -/

/-- The array's drift calls for an IDLE calibration. -/
def drifted (s : State) (n : Nat) : Bool :=
  let a := s.arrAt n
  cfgNat s Key.arrDriftLimit < a.driftTol || 16 * (cfgNat s Key.arrDriftDeltaT : Int) < (arrTemp s n - calTempOf s n).natAbs

def execDriftCalibration (n : Nat) (s : State) : Host.Outcome State Fault Refusal :=
  if arrPresent s n && !(s.arrAt n).calDue && drifted s n then
    .next (s.modArr n (fun a => { a with calDue := true, driftTol := 0, driftChecks := 0 }))
  else .next s

/-- No work: its slice starts once that has lasted 20 µs (R74, R384). -/
def arrIdle20 (s : State) (n : Nat) : Bool :=
  let a := s.arrAt n
  a.products.isEmpty && a.waiting.isEmpty && a.prog.isNone

/-- Arrays of a vat that brine and IDLE calibration occupy: at most 1/16 (R74, R384). -/
def testedIn (s : State) (v : Nat) : Nat :=
  ((listedIn s v).filter (fun n => (s.arrAt n).calActive || (s.arrAt n).underTest)).length

/-- The first command takes an idle array whose IDLE calibration is due; the next one releases it, with its measurements
taken or, when it was cut short, discarded. -/
def execIdleCalibrationSlice (n : Nat) (cut : Bool) (s : State) : Host.Outcome State Fault Refusal :=
  let a := s.arrAt n
  let v := n / 2176
  if !(arrPresent s n) || !(running s) then .next s
  else if a.calActive then
    let a := { a with calActive := false }
    let a := if cut then { a with tapsPend := [] } else { a with calDue := false, calTemp := some (arrTemp s n) }
    .next (acceptWaiting (s.setArr n a) n)
  else if a.calDue && !a.underTest && arrIdle20 s n && testedIn s v < 136 then
    .next ((s.until (a.idleSince + 20000)).setArr n { a with calActive := true })
  else .next s

end Sys2Proof.Machine
end

