-- ==== Sys2Proof/Machine/EmbOps.lean ====
section
/-! DEFINITION. Embedding tables and the hot-row directory (R198–R206). -/

namespace Sys2Proof.Machine

/-! ## Tables (R198, R199) -/

/-- Octets of an element by ELEM_FMT. -/
def embElem (fmt : Nat) : Nat := if fmt = 0 then 1 else if fmt = 1 then 2 else 4

def embTableAt (s : State) (k : Nat) : Option EmbD := tget none s.emb.tables k

/-- VALID tables of a partition. -/
def liveTables (s : State) (p : Nat) : Nat := (s.emb.tables.filter (fun q => q.2.any (fun d => d.part = p))).length

/-- The partition's run of the directory: first unit and units. -/
def runOf (s : State) (p : Nat) : Nat × Nat := tget (0, 0) s.emb.runs p

/-- Sets of a partition's run. -/
def runSets (s : State) (p : Nat) : Nat := 1024 * (runOf s p).2

def firstSet (s : State) (p : Nat) : Nat := 1024 * (runOf s p).1

/-- The set in which a row may sit (R202). -/
def setOf (s : State) (p table row : Nat) : Nat := firstSet s p + Config.dirHash table row % max 1 (runSets s p)

/-- Offset of the slot of (set, way) in the partition's tier A space (R202). -/
def hotSlot (s : State) (p set way : Nat) : Nat :=
  cfgP s p Key.embHotBase + ((set - firstSet s p) * 16 + way) * cfgP s p Key.embHotSlotBytes

/-- A table descriptor as 64 octets (R198), as EMB_TABLE_VIEW shows it. -/
def embOctets (k : Nat) (d : EmbD) : Octets :=
  natLe 2 k ++ natLe 2 d.part ++ natLe 1 d.home ++ natLe 1 d.fmt ++ natLe 1 (b2n d.promote + 2) ++ [0] ++ natLe 2 d.dim ++
  natLe 2 d.stride ++ natLe 4 d.scale.toNat ++ natLe 8 d.rows ++ natLe 8 d.base ++ natLe 8 d.bytes ++ List.replicate 24 0

/-! ## The directory (R202–R206) -/

def dirKey (set way : Nat) : Nat := set * 16 + way

def dirAt (s : State) (k : Nat) : Option DirEnt := tget none s.emb.dir k

def setDir (s : State) (k : Nat) (e : Option DirEnt) : State := { s with emb := { s.emb with dir := tput none s.emb.dir k e } }

/-- The entry of a row, pending or valid, in a directory: its key and itself. -/
def findRow (dir : Tab (Option DirEnt)) (p table row : Nat) : Option (Nat × DirEnt) :=
  dir.findSome? (fun q => match q.2 with
    | some e => if e.part = p && e.table = table && e.row = row then some (q.1, e) else none
    | none => none)

/-- Removes every entry that a test names. -/
def dropEntries (s : State) (f : DirEnt → Bool) : State :=
  { s with emb := { s.emb with dir := s.emb.dir.filter (fun q => !(q.2.any f)) } }

/-- The victim way of a set: the lowest invalid way, otherwise the lowest age among ways neither pinned nor pending (R204). -/
def victimWay (s : State) (set : Nat) : Option Nat :=
  match (List.range 16).find? (fun w => (dirAt s (dirKey set w)).isNone) with
  | some w => some w
  | none =>
    let open_ := (List.range 16).filterMap (fun w => match dirAt s (dirKey set w) with
      | some e => if e.valid && !e.pinned then some (w, e.age) else none
      | none => none)
    (open_.foldl (fun m x => match m with
      | none => some x
      | some y => if x.2 < y.2 then some x else some y) none).map Prod.fst

/-- A pending entry for a row takes a victim's way; an evicted entry is a demotion (R204, R205). -/
def takeWay (s : State) (p table row : Nat) (pinned : Bool) : State :=
  let set := setOf s p table row
  match victimWay s set with
  | none => s
  | some w =>
    let k := dirKey set w
    let s := if (dirAt s k).isSome then
        { s with emb := { s.emb with demotions := tput 0 s.emb.demotions p (tget 0 s.emb.demotions p + 1) } } else s
    setDir s k (some { part := p, table := table, row := row, valid := false, age := 0, pinned := pinned, copy := 0,
                       since := s.eng.nextKey })

/-- Pinned ways of a set (R206). -/
def pinnedIn (s : State) (set : Nat) : Nat :=
  ((List.range 16).filter (fun w => match dirAt s (dirKey set w) with
    | some e => e.pinned
    | none => false)).length

/-- Completed copies become valid with age 15 (R205). -/
def finishCopies (s : State) : State :=
  let ready := s.emb.dir.filterMap (fun q => match q.2 with
    | some e => if !e.valid && e.copy = 2 then some (q.1, e) else none
    | none => none)
  ready.foldl (fun s q =>
    let s := setDir s q.1 (some { q.2 with valid := true, age := 15 })
    { s with emb := { s.emb with promotions := tput 0 s.emb.promotions q.2.part (tget 0 s.emb.promotions q.2.part + 1) } }) s

/-! ## The miss sketch (R204) -/

def sketchKey (s : State) (p r table row : Nat) : Nat :=
  (p * 4 + r) * 65536 + Config.sketchHash r table row % max 1 (runSets s p)

/-- A miss on a row neither present nor pending is counted; at EMB_PROMOTE_HITS it becomes a candidate. -/
def sketchMiss (s : State) (p table row : Nat) : State :=
  if (findRow s.emb.dir p table row).isSome then s
  else
    let ks := (List.range 4).map (fun r => sketchKey s p r table row)
    let t := ks.foldl (fun t k => tput 0 t k (min 255 (tget 0 t k + 1))) s.emb.sketch
    let least := (ks.map (tget 0 t)).foldl min 255
    if cfgP s p Key.embPromoteHits ≤ least then
      { s with emb := { s.emb with
        sketch := ks.foldl (fun t k => tput 0 t k 0) t
        cands := s.emb.cands ++ [(p, table, row)] } }
    else { s with emb := { s.emb with sketch := t } }

/-- A lookup of a gather against the live counters: hits set the age of the entry to 15 (R203, R204). -/
def countLookup (s : State) (p table row : Nat) (hit : Option Nat) : State :=
  match hit with
  | some k =>
    let s := { s with emb := { s.emb with hits := tput 0 s.emb.hits p (tget 0 s.emb.hits p + 1) } }
    match dirAt s k with
    | some e => if e.part = p && e.table = table && e.row = row && e.valid then setDir s k (some { e with age := 15 }) else s
    | none => s
  | none =>
    sketchMiss { s with emb := { s.emb with misses := tput 0 s.emb.misses p (tget 0 s.emb.misses p + 1) } } p table row

/-! ## Units (R202, R213) -/

/-- The first unit of a contiguous run of free units, other partitions' runs aside. -/
def freeUnits (s : State) (p n : Nat) : Option Nat :=
  let taken (u : Nat) : Bool := s.emb.runs.any (fun q => q.1 != p && q.2.1 ≤ u && u < q.2.1 + q.2.2)
  (List.range 65).find? (fun f => f + n ≤ 64 && !((List.range n).any (fun i => taken (f + i))))

/-- A partition's run changes: its entries, sketch and candidates go. -/
def setUnits (s : State) (p n : Nat) : State :=
  match freeUnits s p n with
  | none => s
  | some f =>
    let s := dropEntries s (fun e => e.part = p)
    { s with emb := { s.emb with
      runs := tput (0, 0) s.emb.runs p (if n = 0 then (0, 0) else (f, n))
      sketch := s.emb.sketch.filter (fun q => q.1 / 262144 != p)
      cands := s.emb.cands.filter (fun c => c.1 != p) } }

end Sys2Proof.Machine
end

