-- ==== Sys2Proof/Machine/Settings.lean ====
section
/-! DEFINITION. Settings of arrays: the values a register refuses (R79, R106), the limits of chains, pairs and pooling (R94, R96,
R97, R106), and the check of the step boundary (R105). -/

namespace Sys2Proof.Machine

/-! ## Values a field refuses: 0, or the status its rule gives (R359 for those that name none) -/

def ctrlStatus (w : Nat) : Nat :=
  if bits w 1 0 = 3 then St.outOfRange else if 1024 < bits w 14 4 then St.lengthExceedsBuffer else 0

def perCfgStatus (w : Nat) : Nat :=
  if bits w 1 0 = 3 || 6 ≤ bits w 5 3 || bits w 11 10 = 3 || 5 ≤ bits w 17 15 || bits w 19 18 = 3 then St.outOfRange else 0

def perOutStatus (w : Nat) : Nat :=
  if bits w 9 0 = 0 then St.outOfRange else if 512 < bits w 9 0 then St.lengthExceedsBuffer else 0

def scaleStatus (w : Nat) : Nat := if f32PosNormal (BitVec.ofNat 32 w) then 0 else St.outOfRange

def chainStatus (s : State) (w : Nat) : Nat := if vatPresent s (bits w 13 11) then 0 else St.unitAbsent

/-- Writable bits of each register (reserved bits read 0). -/
def ctrlMask (w : Nat) : Nat := bits w 2 0 + bits w 15 4 * 16

def perCfgMask (w : Nat) : Nat := bits w 1 0 + bits w 20 3 * 8

def perOutMask (w : Nat) : Nat := bits w 9 0

/-- The refusal of an array register's value by its offset. -/
def arrRegStatus (s : State) (off w : Nat) : Nat :=
  if off = 0x00 then ctrlStatus w
  else if off = 0x40 then perCfgStatus w
  else if off = 0x44 then perOutStatus w
  else if off = 0x48 || off = 0x4C then scaleStatus w
  else if off = 0x50 then chainStatus s w
  else 0

/-! ## Limits of one array's settings -/

/-- Pooling (R96) and OUT_USED (R105). -/
def poolOk (a : ArrSt) : Bool :=
  outUsed a ≤ outputsOf (wFmt a) &&
  (if poolMode a = 0 then poolLog2 a = 0 else 1 ≤ poolLog2 a && poolLog2 a ≤ 4 && outUsed a % 2 ^ poolLog2 a = 0)

def positionOf (a : ArrSt) : Nat := bits a.chain.toNat 23 16

/-! ## Chains (R97, R106) -/

/-- The runs of equal adjacent elements. -/
def dedupAdj : List Nat → List Nat
  | [] => []
  | [x] => [x]
  | x :: y :: t => if x = y then dedupAdj (y :: t) else x :: dedupAdj (y :: t)

def countOf (x : Nat) (l : List Nat) : Nat := (l.filter (· = x)).length

/-- Limits of R97 on members given as vat and settings, head first. -/
def chainLimits (ms : List (Nat × ArrSt)) : Bool :=
  let vs := ms.map (·.1)
  let runs := dedupAdj vs
  1 ≤ ms.length && ms.length ≤ 256 && vs.all (fun v => countOf v vs ≤ 32) && runs.all (fun v => countOf v runs = 1) &&
  (match ms with
    | [] => true
    | (_, h) :: _ => ms.all (fun m => wFmt m.2 = wFmt h && bit m.2.ctrl.toNat 2 = bit h.ctrl.toNat 2 && iqMode m.2 = iqMode h
        && outUsed m.2 = outUsed h && lenM1 m.2 = lenM1 h) && (ms.length = 1 || iqMode h != 0)) &&
  ms.all (fun m => poolOk m.2)

/-- Agreement of ARR_n_CHAIN across a chain (R106). -/
def chainAgrees (ms : List ArrSt) : Bool :=
  ms.zipIdx.all (fun m =>
    positionOf m.1 = m.2 && lenM1 m.1 + 1 = ms.length && hasPrev m.1 = (m.2 != 0) && hasNext m.1 = (m.2 + 1 != ms.length))

/-- A pair (R94): gate and up tails with equal OUT_USED. -/
def pairOk (g u : ArrSt) : Bool := pairRole g = 1 && pairRole u = 2 && outUsed g = outUsed u && !(hasNext g) && !(hasNext u)

end Sys2Proof.Machine
end

