-- ==== Sys2Proof/Machine/WheelOps.lean ====
section
/-! DEFINITION. Wheels: the envelope and the body (R110–R116), the checks of R117, quantisation and layout of open weights
(R119, R120), placement (R138), cave slots (R127) and the flip (R141). -/

namespace Sys2Proof.Machine

/-! ## The envelope (R110, R111) -/

def envRecipients (e : Octets) : Nat := fld e 6 2

def envCipherLen (e : Octets) : Nat := fld e 8 8

def envLength (e : Octets) : Nat := 256 + 96 * envRecipients e + envCipherLen e

def envOwner (e : Octets) : Octets := octs e 160 48

/-- KEY_IDs of the recipient entries. -/
def envKeys (e : Octets) : List Octets := (List.range (envRecipients e)).map (fun i => octs e (256 + 96 * i) 48)

/-- MAGIC, VERSION, RECIPIENTS and reserved octets of an envelope. -/
def envFormatOk (e : Octets) : Bool :=
  octs e 0 4 = [0x4B, 0x57, 0x45, 0x4E] && fld e 4 2 = 1 && 1 ≤ envRecipients e && envRecipients e ≤ 32 && zeroAt e 113 15 &&
  zeroAt e 156 4 && zeroAt e 208 48 && (List.range (envRecipients e)).all (fun i => zeroAt e (256 + 96 * i + 88) 8)

/-- The owner key is enrolled for the partition (R111, R439): a row of class OWNER. -/
def ownerEnrolled (s : State) (p : Nat) (key : Octets) : Bool :=
  s.sec.enroll.any (fun r => r.2 = some (3, p, key))

/-! ## The body (R112–R116) -/

/-- A section table entry. -/
structure Section where
  typ : Nat
  count : Nat
  off : Nat
  len : Nat
  rsv : Bool

def bodySections (b : Octets) : List Section :=
  (List.range (fld b 24 4)).map (fun i =>
    let o := 64 + 24 * i
    ⟨fld b o 2, fld b (o + 4) 4, fld b (o + 8) 8, fld b (o + 16) 8, zeroAt b (o + 2) 2⟩)

def sectionOf (l : List Section) (t : Nat) : Option Section := l.find? (fun x => x.typ = t)

def sectionData (b : Octets) (x : Option Section) : Octets :=
  match x with
  | some x => octs b x.off x.len
  | none => []

def layerAt (b : Octets) (i : Nat) : Layer :=
  let o := 32 * i
  { layer := fld b o 4, kind := fld b (o + 4) 1, draft := bit (fld b (o + 5) 1) 0, chainFirst := fld b (o + 8) 4,
    chainCount := fld b (o + 12) 4, openK := fld b (o + 16) 4, openN := fld b (o + 20) 4, openFmt := fld b (o + 24) 1 }

/-- Reserved octets and ranges of a layer entry (R114). -/
def layerOk (b : Octets) (i : Nat) : Bool :=
  let o := 32 * i
  let y := layerAt b i
  1 ≤ y.kind && y.kind ≤ 3 && fld b (o + 5) 1 ≤ 1 && zeroAt b (o + 6) 2 && 1 ≤ y.chainCount && y.chainCount ≤ 65536 &&
  zeroAt b (o + 25) 7 &&
  (if y.kind = 3 then 1 ≤ y.openK && y.openK ≤ 262144 && 1 ≤ y.openN && y.openN ≤ 65536 && y.openFmt ≤ 2
   else y.openK = 0 && y.openN = 0 && y.openFmt = 0)

/-- The chain entries of the CHAINS section, with whether their reserved octets are zero. -/
def chainsFrom (b : Octets) : Nat → Nat → List (ChainE × Bool)
  | 0, _ => []
  | k + 1, o =>
    let n := fld b (o + 4) 1 + 1
    let ms := (List.range n).map (fun i =>
      let p := o + 16 + 4 * i
      (fld b p 1, bit (fld b (p + 1) 1) 0, fld b (p + 2) 2))
    let c : ChainE := { chain := fld b o 4, pair := fld b (o + 5) 1, destKind := fld b (o + 6) 1, destChip := fld b (o + 8) 2,
                        destIndex := fld b (o + 12) 4, members := ms }
    let ok := zeroAt b (o + 7) 1 && zeroAt b (o + 10) 2 && c.pair ≤ 2 && c.destKind ≤ 1 &&
      (List.range n).all (fun i => fld b (o + 16 + 4 * i + 1) 1 ≤ 1)
    (c, ok) :: chainsFrom b k (o + 16 + 4 * n)

/-- Octets the chain entries take. -/
def chainBytes (cs : List ChainE) : Nat := (cs.map (fun c => 16 + 4 * c.members.length)).sum

def recordBytes : Nat := 148544

/-- The array record at an offset (R116). -/
def arrImgAt (b : Octets) (o : Nat) : ArrImg :=
  let w (i : Nat) : Word := BitVec.ofNat 32 (fld b (o + i) 4)
  { vat := fld b o 1, pool := bit (fld b (o + 1) 1) 0, slot := fld b (o + 2) 2, chain := fld b (o + 4) 4,
    position := fld b (o + 8) 1, ctrl := w 16, perCfg := w 20, perOut := w 24, inScale := w 28, outScale := w 32, chainReg := 0,
    sw := (List.range 512).map (fun i => BitVec.ofNat 16 (fld b (o + 64 + 2 * i) 2)),
    b := (List.range 512).map (fun i => BitVec.ofNat 32 (fld b (o + 1088 + 4 * i) 4)),
    rows := (List.range 1024).foldl (fun t r => tput 0 t r (leNat (octs b (o + 3136 + 142 * r) 142))) [] }

def arrImgFormat (b : Octets) (o : Nat) : Bool :=
  fld b (o + 1) 1 ≤ 1 && zeroAt b (o + 9) 7 && zeroAt b (o + 36) 28

/-- ARR_n_CHAIN of a member, formed from its chain entry (R116); `slot` maps a member entry to its slot now. -/
def chainRegOf (slot : Nat × Bool × Nat → Nat) (c : ChainE) (i : Nat) : Word :=
  let n := c.members.length
  let nx := c.members.getD (i + 1) (0, false, 0)
  let next := if i + 1 < n then slot nx + nx.1 * 2 ^ 11 + 2 ^ 14 else 0
  BitVec.ofNat 32 (next + (if i = 0 then 0 else 2 ^ 15) + i * 2 ^ 16 + (n - 1) * 2 ^ 24)

/-- The settings an image gives an array, as the checks read them. -/
def imgView (c : Option ChainE) (i : ArrImg) : ArrSt :=
  { ({} : ArrSt) with
    ctrl := i.ctrl, perCfg := i.perCfg, perOut := i.perOut, inScale := i.inScale, outScale := i.outScale
    chain := match c with
      | some c => chainRegOf (fun m => m.2.2) c i.position
      | none => 0 }

/-- The wheel that a body spells. -/
def parseBody (b digest owner : Octets) : Wheel :=
  let ss := bodySections b
  let ls := sectionData b (sectionOf ss 1)
  let cs := sectionData b (sectionOf ss 2)
  let as := sectionData b (sectionOf ss 3)
  let ts := sectionData b (sectionOf ss 4)
  let os := sectionData b (sectionOf ss 5)
  { cls := fld b 6 1, wheelId := octs b 8 16, vatMask := fld b 40 1,
    layers := (List.range (ls.length / 32)).map (layerAt ls),
    chains := (chainsFrom cs ((sectionOf ss 2).map (·.count) |>.getD 0) 0).map (·.1),
    arrays := (List.range (as.length / recordBytes)).map (fun i => arrImgAt as (i * recordBytes)),
    tables := (List.range (ts.length / 1064)).map (fun i =>
      (fld ts (1064 * i) 1, fld ts (1064 * i + 1) 1, octs ts (1064 * i + 8) 1056)),
    overflow := (List.range (os.length / recordBytes)).map (fun i => arrImgAt os (i * recordBytes)),
    digest := digest, ownerKey := owner }

def strictlyRising : List Nat → Bool
  | [] => true
  | [_] => true
  | x :: y :: t => x < y && strictlyRising (y :: t)

/-- Lengths of the header and of the sections (R112, R113, R117). -/
def bodyLengthsOk (b : Octets) : Bool :=
  let ss := bodySections b
  let bl := fld b 32 8
  bl = b.length && bl % 64 = 0 && bl ≤ 64 * 2 ^ 30 && 3 ≤ fld b 24 4 && fld b 24 4 ≤ 5 && 1 ≤ fld b 28 4 && fld b 28 4 ≤ 65536 &&
  ss.all (fun x => x.off + x.len ≤ bl &&
    (if x.typ = 1 then x.count * 32 = x.len && x.count = fld b 28 4
     else if x.typ = 2 then chainBytes ((chainsFrom (octs b x.off x.len) x.count 0).map (·.1)) = x.len
     else if x.typ = 4 then x.count * 1064 = x.len
     else x.count * recordBytes = x.len))

/-- MAGIC, VERSION, CLASS and reserved octets of the header of a body that arrives sealed (R109, R112). -/
def bodyHeadOk (b : Octets) : Bool :=
  octs b 0 4 = [0x4B, 0x57, 0x48, 0x4C] && fld b 4 2 = 1 && fld b 6 1 = 1 && zeroAt b 7 1 && zeroAt b 41 23

/-- Types, presence and places of the sections (R112, R113). -/
def sectionsOk (b : Octets) : Bool :=
  let ss := bodySections b
  ss.all (fun x => x.rsv && 1 ≤ x.typ && x.typ ≤ 5 && x.off % 64 = 0 && 64 + 24 * fld b 24 4 ≤ x.off) &&
  [1, 2, 3].all (fun t => (ss.filter (fun x => x.typ = t)).length = 1) &&
  [4, 5].all (fun t => (ss.filter (fun x => x.typ = t)).length ≤ 1) &&
  ss.zipIdx.all (fun x => ss.zipIdx.all (fun y => x.2 = y.2 || x.1.off + x.1.len ≤ y.1.off || y.1.off + y.1.len ≤ x.1.off))

/-- Reserved octets of the entries. -/
def entriesFormatOk (b : Octets) : Bool :=
  let ss := bodySections b
  let ls := sectionData b (sectionOf ss 1)
  let cs := sectionData b (sectionOf ss 2)
  let as := sectionData b (sectionOf ss 3)
  let ts := sectionData b (sectionOf ss 4)
  let os := sectionData b (sectionOf ss 5)
  (List.range (ls.length / 32)).all (layerOk ls) &&
  (chainsFrom cs ((sectionOf ss 2).map (·.count) |>.getD 0) 0).all (·.2) &&
  (List.range (as.length / recordBytes)).all (fun i => arrImgFormat as (i * recordBytes) && !(arrImgAt as (i * recordBytes)).pool) &&
  (List.range (os.length / recordBytes)).all (fun i => arrImgFormat os (i * recordBytes) && (arrImgAt os (i * recordBytes)).pool) &&
  (List.range (ts.length / 1064)).all (fun i => zeroAt ts (1064 * i + 2) 6)

/-! ## The checks of a wheel (R117) -/

/-- Vats a wheel names; buffers lie in vat b / 512 (R170). -/
def wheelVats (w : Wheel) : List Nat :=
  bitsOf w.vatMask 8 ++ (w.arrays ++ w.overflow).map (·.vat) ++ w.chains.flatMap (fun c => c.members.map (·.1)) ++
  w.tables.map (·.1) ++ (w.chains.filter (fun c => c.destKind = 1 && c.destChip = 0)).map (fun c => c.destIndex / 512)

/-- The layer a chain belongs to. -/
def layerOfChain (w : Wheel) (c : Nat) : Option Layer := w.layers.find? (fun y => layerChains y c)

/-- No two records name one position: resident records in the wheel, pool records within one layer, since the pool is written
layer by layer (R117, R132). -/
def recordsDistinct (w : Wheel) : Bool :=
  let key (a : ArrImg) : Nat × Nat × Nat := (a.vat, a.slot, if a.pool then ((layerOfChain w a.chain).map (·.layer + 1)).getD 0 else 0)
  let l := w.arrays.map key
  let m := w.overflow.map key
  l.eraseDups.length = l.length && m.eraseDups.length = m.length

/-- A record agrees with its chain entry: the entry has it as the member at its POSITION. -/
def recordAgrees (w : Wheel) (a : ArrImg) : Bool :=
  match w.chains.find? (fun c => c.chain = a.chain) with
  | some c => c.members[a.position]? = some (a.vat, a.pool, a.slot)
  | none => false

/-- Every member of every chain has its record. -/
def membersRecorded (w : Wheel) : Bool :=
  w.chains.all (fun c => c.members.zipIdx.all (fun m =>
    (w.arrays ++ w.overflow).any (fun a => a.chain = c.chain && a.position = m.2 && (a.vat, a.pool, a.slot) = m.1)))

def chainRecords (w : Wheel) (c : ChainE) : List (Nat × ArrSt) :=
  c.members.zipIdx.filterMap (fun m =>
    ((w.arrays ++ w.overflow).find? (fun a => a.chain = c.chain && a.position = m.2)).map (fun a => (a.vat, imgView (some c) a)))

def tailOf (w : Wheel) (c : ChainE) : ArrSt := ((chainRecords w c).getLast?.map (·.2)).getD {}

/-- Pairs of R94 as the chain entries name them. -/
def pairsOk (w : Wheel) : Bool :=
  w.chains.all (fun c =>
    let rs := chainRecords w c
    rs.dropLast.all (fun r => pairRole r.2 = 0) &&
    (if c.pair = 0 then pairRole (tailOf w c) = 0
     else
      let mate := w.chains.find? (fun d => d.chain = (if c.pair = 1 then c.chain + 1 else c.chain - 1) && c.chain != d.chain)
      match mate, c.members.getLast? with
      | some d, some m =>
        (match d.members.getLast? with
          | some k =>
            let g := if c.pair = 1 then m else k
            let u := if c.pair = 1 then k else m
            d.pair + c.pair = 3 && g.1 = u.1 && g.2.1 = u.2.1 && g.2.2 % 2 = 0 && u.2.2 = g.2.2 + 1 &&
              pairOk (tailOf w (if c.pair = 1 then c else d)) (tailOf w (if c.pair = 1 then d else c))
          | none => false)
      | _, _ => false))

/-- A configuration image that a register would refuse (R117, R359). -/
def imgRefused (s : State) (a : ArrImg) : Bool :=
  ctrlStatus a.ctrl.toNat != 0 || perCfgStatus a.perCfg.toNat != 0 || perOutStatus a.perOut.toNat != 0 ||
  scaleStatus a.inScale.toNat != 0 || scaleStatus a.outScale.toNat != 0 || (a.pool = false && 2048 ≤ a.slot) || !(vatPresent s a.vat)

/-- R88 for scales and biases, and cells outside the outputs and rows in use. -/
def imgContentsOk (a : ArrImg) : Bool :=
  let v := imgView none a
  let lim := outUsed v * slicesOf (wFmt v)
  a.sw.all (fun h => f32Normal (bf16ToF32 h) || h.toNat % 2 ^ 15 = 0) &&
  a.b.all f32Finite &&
  a.rows.all (fun r => r.1 < rowsUsed v && r.2 / 2 ^ lim % 2 ^ (1024 - min lim 1024) = 0)

/-- The check columns of a row: digit k of each group's count of ones (R117). -/
def checkColumns (row : Nat) : Nat :=
  (List.range 16).foldl (fun t q => t + popcount (row / 2 ^ (64 * q)) 64 * 2 ^ (1024 + 7 * q)) 0

def rowChecked (row : Nat) : Bool := row / 2 ^ 1024 = checkColumns (row % 2 ^ 1024) / 2 ^ 1024

/-- Custom table slots granted to a partition (R450). -/
def tableGranted (s : State) (p v slot : Nat) : Bool := bit (tget 0 (s.partAt p).tables v) slot

/-- Logical slots assigned to a partition in a vat. -/
def slotsIn (s : State) (p v : Nat) : Nat := (tget (0, 0) (s.partAt p).arrays v).2

/-- The checks of R117 on a parsed body, in order: 0, or the status of the first that fails. -/
def wheelStatus (s : State) (p : Nat) (w : Wheel) : Nat :=
  let all := w.arrays ++ w.overflow
  firstBad [
    (!(strictlyRising (w.layers.map (·.layer))) || !(strictlyRising (w.chains.map (·.chain))), St.wheelFormat),
    ((wheelVats w).any (fun v => !(vatPresent s v)) || (!w.overflow.isEmpty && !(hasCave s)), St.unitAbsent),
    (!(recordsDistinct w) || !(all.all (recordAgrees w)) || !(membersRecorded w) || all.any (imgRefused s) ||
      !(w.chains.all (fun c => chainLimits (chainRecords w c))) || !(pairsOk w), St.configConflict),
    (!(all.all imgContentsOk), St.wheelFormat),
    (!(w.tables.all (fun t => t.2.1 < 16 && tableOk t.2.2)), St.invalidTable),
    (!(all.all (fun a => a.rows.all (fun r => rowChecked r.2))), St.wheelCheckMismatch),
    (!(w.tables.all (fun t => tableGranted s p t.1 t.2.1)), St.accessDenied),
    (!(w.arrays.all (fun a => slotPart s a.vat a.slot = p)), St.accessDenied),
    ((vatsOf s).any (fun v => slotsIn s p v < (w.arrays.filter (fun a => a.vat = v)).length), St.noSpace)]

/-- The body octets of a verified envelope: the plaintext without its signature. -/
def bodyOf (plain : Octets) : Octets := plain.take (plain.length - 96)

/-- Everything R117 checks, in its order; the wheel where all passes. -/
def verifyEnvelope (s : State) (p staged : Nat) (e : Octets) (c : EnvelopeCrypto) : Except Nat Wheel :=
  let st := firstBad [
    (staged != envLength e || 64 * 2 ^ 30 < staged, St.lengthExceedsBuffer),
    (!(envFormatOk e), St.wheelFormat),
    (!((envKeys e).contains s.fuse.pkKeyId), St.wheelNotRecipient),
    (c.plain.isNone, St.wheelAuth),
    (!(ownerEnrolled s p (envOwner e)) || !c.sigOk, St.wheelSignature)]
  if st != 0 then .error st
  else
    let b := bodyOf (c.plain.getD [])
    if !(bodyHeadOk b) then .error St.wheelFormat
    else if !(bodyLengthsOk b) || envCipherLen e != b.length + 96 then .error St.lengthExceedsBuffer
    else if !(sectionsOk b) || !(entriesFormatOk b) then .error St.wheelFormat
    else
      let w := parseBody b c.digest (envOwner e)
      let st := wheelStatus s p w
      if st = 0 then .ok w else .error st

/-! ## Cave slots (R127) -/

def storeSlots (s : State) : Nat := cfgNat s Key.whlStoreSlots

def caveAt (s : State) (k : Nat) : CaveSlot := tget .free s.whl.cave k

def setCave (s : State) (k : Nat) (c : CaveSlot) : State :=
  { s with whl := { s.whl with cave := tput .free s.whl.cave k c } }

def freeCave (s : State) : Option Nat := (List.range (storeSlots s)).find? (fun k => caveAt s k = .free)

/-- Frees every cave slot in a role. -/
def dropCave (s : State) (c : CaveSlot) : State :=
  { s with whl := { s.whl with cave := s.whl.cave.filter (fun q => q.2 != c) } }

/-! ## Replica pushes (R128) -/

def holders (s : State) : List Nat := [cfgNat s Key.whlReplicaHolder0, cfgNat s Key.whlReplicaHolder1]

/-- Pushes an envelope to both holders that are named. -/
def pushReplica (s : State) (p epoch : Nat) (e : Octets) : State :=
  let s := s.modWhl p (fun w => { w with acks := [none, none] })
  (holders s).foldl (fun s h => if h = 0 then s else s.emit (.replica h p epoch e)) s

/-- Both holders have acknowledged. -/
def pushAcked (w : WhlSt) : Bool := w.acks.length = 2 && w.acks.all (fun a => a = some 0)

/-! ## Quantisation of open weights (R119, R120) -/

/-- qmax by OPEN_W_FMT. -/
def openQmax (fmt : Nat) : Nat := if fmt = 2 then 127 else if fmt = 1 then 7 else 1

/-- One column: its scale and its integers; none where an element is not finite. -/
def quantColumn (fmt : Nat) (col : List Word) : Option (BitVec 16 × List Int) :=
  if col.any (fun x => !(f32Finite x)) then none
  else
    let amax := col.foldl (fun m x => if f32Lt m (f32Abs x) then f32Abs x else m) 0
    let h := f32ToBf16 (f32Div amax (f32OfNat (openQmax fmt)))
    let sw := bf16ToF32 h
    let inv := if f32Ord sw = 0 then 0 else f32Div 0x3F800000 sw
    let q : Int := openQmax fmt
    some (h, col.map (fun x => f32ClampInt (-q) q (f32Mul x inv)))

/-- Width of a weight in bits. -/
def fmtBits (fmt : Nat) : Nat := slicesOf fmt

/-- A row's data bits from its outputs' integers, then its check columns. -/
def rowBits (fmt : Nat) (ws : List Int) : Nat :=
  let d := ws.zipIdx.foldl (fun t x => t + toField (fmtBits fmt) x.1 * 2 ^ (fmtBits fmt * x.2)) 0
  d + checkColumns d

/-- The image of one array of an open layer: input slice `i`, outputs `o` to `o + n` (R120). -/
def openImage (fmt k i o n members : Nat) (qs : List (BitVec 16 × List Int)) (bias : List Word) (a : ArrImg) : ArrImg :=
  let cols := (qs.drop o).take n
  let rows := if i + 1 = members then k - 1024 * (members - 1) else 1024
  { a with
    ctrl := BitVec.ofNat 32 (fmt + bits a.ctrl.toNat 2 2 * 4 + rows * 16)
    perOut := BitVec.ofNat 32 n
    sw := (List.range 512).map (fun j => ((cols[j]?).map (·.1)).getD 0)
    b := (List.range 512).map (fun j => if j < n then bias.getD (o + j) 0 else 0)
    rows := (List.range rows).foldl (fun t r => tput 0 t r (rowBits fmt (cols.map (fun c => c.2.getD (1024 * i + r) 0)))) [] }

/-! ## Placement (R138) -/

/-- A target of a placement: vat, named slot, physical array, planned remap or not. -/
abbrev Target := Nat × Nat × Nat × Bool

/-- A free slot for placing: the pool counts when the wheel in force has no overflow layers (R138). -/
def placeSlot (s : State) (p v l : Nat) (used : List Nat) : Bool :=
  let n := physOf s v l
  let noOverflow : Bool := match (s.whlAt p).inForce with
    | some w => w.overflow.isEmpty
    | none => true
  (freeSlot s p v l ||
    (noOverflow && inPool s p v l && slotPart s v l = p && !(wheelNames (s.whlAt p).inForce v l) &&
      !(wheelNames (s.whlAt p).pending v l) && !(s.arrAt n).fenced && (s.arrAt n).prog.isNone)) && !(used.contains n)

/-- A target that keeps the named slot: the slot's own array when the wheel in force does not use it, otherwise the bay's
spare by a planned remap. -/
def stayTarget (s : State) (p : Nat) (used : List Nat) (img : ArrImg) : Option Target :=
  let n := physOf s img.vat img.slot
  if wheelNames (s.whlAt p).inForce img.vat img.slot then
    ((spares s img.vat).find? (fun m => bayOf m = img.slot / 16 && !(used.contains m) && (shadowOf s m).isNone)).map
      (fun m => (img.vat, img.slot, m, true))
  else if slotPart s img.vat img.slot = p && !(s.vatAt img.vat).noTarget.contains img.slot && !(s.arrAt n).fenced &&
      !(used.contains n) then some (img.vat, img.slot, n, false)
  else none

/-- A free slot of the image's vat. -/
def moveTarget (s : State) (p : Nat) (used : List Nat) (img : ArrImg) : Option Target :=
  ((partSlots s p img.vat).find? (fun l => placeSlot s p img.vat l used)).map
    (fun l => (img.vat, img.slot, physOf s img.vat l, false))

/-- A pair: both keep their slots, or both move to an even slot and the next odd one. -/
def pairTargets (s : State) (p : Nat) (used : List Nat) (g u : ArrImg) : Option (List Target) :=
  match stayTarget s p used g with
  | some x =>
    match stayTarget s p (x.2.2.1 :: used) u with
    | some y => some [x, y]
    | none => move
  | none => move
where
  move : Option (List Target) :=
    ((partSlots s p g.vat).find? (fun l => l % 2 = 0 && placeSlot s p g.vat l used && placeSlot s p g.vat (l + 1) used)).map
      (fun l => [(g.vat, g.slot, physOf s g.vat l, false), (u.vat, u.slot, physOf s u.vat (l + 1), false)])

/-- One image, with its pair partner where the placement has it, onto the targets so far. -/
def placeImage (s : State) (p : Nat) (imgs : List ArrImg) (acc : Option (List Target)) (img : ArrImg) : Option (List Target) :=
  match acc with
  | none => none
  | some ts =>
    if ts.any (fun t => t.1 = img.vat && t.2.1 = img.slot) then some ts
    else
      let used := ts.map (fun t => t.2.2.1)
      let mate := if pairRole (imgView none img) = 0 then none
        else imgs.find? (fun i => i.vat = img.vat && i.slot = pairSlot img.slot)
      match mate with
      | some m =>
        let gu := if img.slot % 2 = 0 then (img, m) else (m, img)
        (pairTargets s p used gu.1 gu.2).map (ts ++ ·)
      | none =>
        match stayTarget s p used img with
        | some x => some (ts ++ [x])
        | none => (moveTarget s p used img).map (fun x => ts ++ [x])

/-- An array of the partition that retains the image under the wheel's digest (R453). -/
def retainedAt (s : State) (p : Nat) (digest : Octets) (img : ArrImg) : Option Target :=
  ((partSlots s p img.vat).find? (fun l =>
    let a := s.arrAt (physOf s img.vat l)
    a.retained.map (·.1) = some digest && a.holds.map (·.2) = some img)).map (fun l => (img.vat, img.slot, physOf s img.vat l, false))

/-- Shadow placement of every image, or none when one cannot be placed (R138); retained arrays are taken first (R453). -/
def placeAll (s : State) (p : Nat) (digest : Octets) (imgs : List ArrImg) : Option (List Target) :=
  imgs.foldl (placeImage s p imgs) (some (imgs.filterMap (retainedAt s p digest)))

/-- Images of a pending wheel that differ from the wheel in force: those that must be programmed. -/
def changedImages (w : WhlSt) : List ArrImg :=
  match w.pending with
  | none => []
  | some n => n.arrays.filter (fun a => match w.inForce with
    | some o => !(o.arrays.contains a)
    | none => true)

/-! ## The flip (R141) -/

/-- A member entry after a shadow placement: the slot whose array took the image. -/
def movedMember (s : State) (ts : List Target) (m : Nat × Bool × Nat) : Nat × Bool × Nat :=
  match ts.find? (fun t => t.1 = m.1 && t.2.1 = m.2.2 && !m.2.1 && !t.2.2.2) with
  | some t => (m.1, false, (slotOf s t.2.2.1).getD m.2.2)
  | none => m

/-- The wheel with the slots that its placement gave it. -/
def movedWheel (s : State) (ts : List Target) (w : Wheel) : Wheel :=
  { w with
    chains := w.chains.map (fun c => { c with members := c.members.map (movedMember s ts) })
    arrays := w.arrays.map (fun a => { a with slot := (movedMember s ts (a.vat, a.pool, a.slot)).2.2 }) }

/-- ARR_n_CHAIN values of a wheel put in force. -/
def setChains (s : State) (p : Nat) (w : Wheel) : State :=
  w.chains.foldl (fun s c => c.members.zipIdx.foldl (fun s m =>
    s.modArr (memberPhys s p m.1) (fun a => { a with chain := chainRegOf (memberSlot s p) c m.2 })) s) s

/-- Tables of a wheel put in force. -/
def setTables (s : State) (w : Wheel) : State :=
  w.tables.foldl (fun s t => s.modVat t.1 (fun v => { v with tables := tput [] v.tables t.2.1 t.2.2 })) s

/-- REPREFILL (R136): every live request of the partition is prefilled again over its context and emitted tokens. -/
def reprefill (s : State) (p : Nat) : State :=
  let live (q : Req) : Bool := q.part = p && (q.state = .prefill || q.state = .decode)
  let srv := { s.srv with
    reqs := s.srv.reqs.map (fun q => if live q then { q with state := .prefill, named := 0 } else q)
    truncate := s.srv.truncate ++ (s.srv.reqs.filter live).map (·.seq) }
  { s with srv := srv }

/-- The partition's slots all have arrays again: SERVICE_LOST ends with a new wheel in force (R395). -/
def servedAgain (s : State) (w : Wheel) : Bool :=
  !(w.arrays.any (fun a => (s.vatAt a.vat).noTarget.contains a.slot || vatFenced s a.vat))

/-- Puts a wheel in force at an epoch: layer maps, chains, tables, cave slot (R141, R390). -/
def putInForce (s : State) (p : Nat) (w : Wheel) (epoch : Nat) (envelope : Option Octets) : State :=
  let s := setTables s w
  let s := w.arrays.foldl (fun s a => s.modArr (physOf s a.vat a.slot) (fun x => { x with retained := none })) s
  let s := dropCave s (.active p)
  let s := { s with whl := { s.whl with cave := s.whl.cave.map (fun q => if q.2 = .pending p then (q.1, .active p) else q) } }
  let lost := (s.whlAt p).lost && !(servedAgain s w)
  let s := s.modWhl p (fun x => { x with
    inForce := some w, pending := none, epoch := epoch, envelope := envelope, pendEnvelope := none, targets := [],
    toReady := [], poolLayers := [], poolDone := [], lost := lost })
  let s := setChains s p w
  (s.vat.flatMap (fun v => v.2.remaps.map (fun r => (v.1, r)))).foldl (fun s x =>
    if slotPart s x.1 x.2.slot = p then programTarget s p x.1 x.2.slot x.2.target else s) s

/-- The flip (R141): planned remaps, the new maps, the epoch, holds released; a module in INCOMPLETE or rewriting makes
none of the planned remaps. -/
def flip (s : State) (p : Nat) : State :=
  let w := s.whlAt p
  match w.pending, w.arming with
  | some n, some a =>
    let s := (w.targets.filter (fun t => t.2.2.2)).foldl (fun s t => finishRemap s t.1 t.2.1 t.2.2.1) s
    let n := movedWheel s w.targets n
    let s := putInForce s p n a.epoch w.pendEnvelope
    let s := s.modWhl p (fun x => { x with
      state := 0, arming := none, held := false, paused := false, arrived := false, holdSince := none, alarmed := false,
      verifying := false, rollback := false, abortSeen := false, acks := [], openBusy := [] })
    let s := if cfgP s p Key.swapKvPolicy = 1 then reprefill s p else s
    match w.pendEnvelope with
    | some _ => (holders s).foldl (fun s h => if h = 0 then s else s.emit (.replica h p a.epoch [])) s
    | none => s
  | _, _ => s

end Sys2Proof.Machine
end

