-- ==== Sys2Proof/Machine/ServeOps.lean ====
section
/-! DEFINITION. The tracker's shared operations (chapter 8): request channels and their rings (R217–R221), the journal
(R243, R244), the records of a channel and their order (R238–R242), and the end of a request (R224). -/

namespace Sys2Proof.Machine

/-! ## Channels -/

/-- A request channel by its handle, with its partition. -/
def reqChanAt (s : State) (h : Nat) : Option (Nat × ReqChan) :=
  match chanOf s h with
  | some (p, .req c) => some (p, c)
  | _ => none

/-- The counter of a local sync object of a partition, by global address. -/
def counterOf (s : State) (part addr : Nat) : Nat :=
  match localObj s part addr with
  | some n => (s.objAt n).c.toNat
  | none => 0

def creditOf (s : State) (h : Nat) : Nat :=
  match reqChanAt s h with
  | some (p, c) => counterOf s p c.credit
  | none => 0

/-- Home vat of a channel, and of every request on it (R218). -/
def homeOf (s : State) (h : Nat) : Nat :=
  match reqChanAt s h with
  | some (_, c) => c.vat
  | none => 8

/-- A vat control core that runs: S0, its vat present and not fenced, the core not halted. -/
def vatServing (s : State) (v : Nat) : Bool :=
  running s && vatPresent s v && !(vatFenced s v) && !(s.flt.halted.contains (2 + v))

/-! ## Requests -/

/-- Live: admitted and not ended (R223). -/
def Req.live (q : Req) : Bool := q.state = .prefill || q.state = .decode

/-- Queued or live. -/
def Req.active (q : Req) : Bool := q.state != .ended

def Req.is (q r : Req) : Bool := q.chan = r.chan && q.entry = r.entry

def setReq (s : State) (q : Req) : State :=
  { s with srv := { s.srv with reqs := s.srv.reqs.map (fun r =>
    if r.is q then { q with journalAt := max q.journalAt r.journalAt } else r) } }

def addReq (s : State) (q : Req) : State := { s with srv := { s.srv with reqs := s.srv.reqs ++ [q] } }

def liveCount (s : State) : Nat := (s.srv.reqs.filter Req.live).length

/-- Requests that ended stay known until CREDIT has passed their terminal record (R224). -/
def forgetEnded (s : State) (h : Nat) : State :=
  let passed (q : Req) : Bool := q.chan = h && q.state = .ended && q.termRec.any (fun k => k < creditOf s h)
  { s with srv := { s.srv with reqs := s.srv.reqs.filter (fun q => !(passed q)) } }

/-- The context that is prefilled: with the tokens already emitted, when it is prefilled again (R136, R245, R391). -/
def Req.tokens (q : Req) : List Nat := q.ctx ++ q.emitted

/-! ## Submission entries (R218, R219) -/

/-- The first entry not freed, past the retired ones. -/
def freeRun (l : List Nat) : Nat → Nat → Nat
  | 0, k => k
  | n + 1, k => if l.contains k then freeRun l n (k + 1) else k

/-- Retires an entry; a run of freed slots is added to CONSUMED (R218). -/
def retire (s : State) (h k : Nat) : State :=
  match reqChanAt s h with
  | none => s
  | some (p, c) =>
    let l := k :: c.retired
    let f := freeRun l l.length c.freed
    let s := setChan s h (.req { c with retired := l.filter (fun i => f ≤ i), freed := f })
    if f = c.freed then s
    else match localObj s p c.consumed with
      | some n => (syncDo s n (.add (f - c.freed))).2.2
      | none => s

/-- U32 tokens of octets. -/
def tokensOf (b : Octets) : List Nat := (List.range (b.length / 4)).map (fun i => fld b (4 * i) 4)

def tokenOctets (l : List Nat) : Octets := l.flatMap (natLe 4)

/-- A stop-sequence block's entry i: 36 bytes (R219). -/
def stopSeqAt (b : Octets) (i : Nat) : List Nat := (tokensOf (octs b (36 * i + 4) 32)).take (fld b (36 * i) 1)

/-! ## The journal (R243, R244) -/

def holderAt (s : State) (i : Nat) : Nat := (holders s).getD i 0

/-- The holders journaled to: named, not lost. -/
def journalTo (s : State) : List Nat :=
  if cfgBool s Key.srvJournalEn then
    [0, 1].filter (fun i => holderAt s i != 0 && !(s.srv.jLost.getD i true))
  else []

/-- A record's SEQNO is acknowledged by every holder in use; 0 names none. -/
def journaled (s : State) (seqno : Nat) : Bool := seqno = 0 || (journalTo s).all (fun i => seqno ≤ s.srv.jAck.getD i 0)

/-- The ring that every holder in use keeps. -/
def ringBytes (s : State) : Nat :=
  (journalTo s).foldl (fun m i => min m (Config.journalRing (holderAt s i))) (2 ^ 64)

/-- A journal record: header and body, padded to a multiple of 64. -/
def journalRecord (kind seqno step : Nat) (body : Octets) : Octets :=
  let b := natLe 1 kind ++ List.replicate 3 0 ++ natLe 4 body.length ++ natLe 8 seqno ++ natLe 8 step ++ List.replicate 8 0 ++ body
  padTo b ((b.length + 63) / 64 * 64)

def journalPut (s : State) (kind : Nat) (body : Octets) : Nat × State :=
  let hs := journalTo s
  if hs.isEmpty then (0, s)
  else
    let n := s.srv.jNext
    let r := journalRecord kind n s.srv.step body
    let t := { s with srv := { s.srv with jNext := n + 1, jBytes := s.srv.jBytes + r.length } }
    (n, hs.foldl (fun t i => t.emit (.journal (holderAt s i) kind n s.srv.step r)) t)

def admitBody (q : Req) : Octets :=
  natLe 4 q.chan ++ List.replicate 4 0 ++ octs q.raw 0 128 ++ octs q.stopsRaw 0 144 ++ tokenOctets q.ctx

def checkpointBody (q : Req) : Octets := admitBody q ++ natLe 4 q.emitted.length ++ tokenOctets q.emitted

def checkpoint (s : State) (q : Req) : State :=
  let s := setReq s { q with journalAt := s.srv.jBytes }
  (journalPut s 4 (checkpointBody q)).2

/-- Live requests whose ADMIT or CHECKPOINT the ring would wrap over get a CHECKPOINT first (R244). -/
def checkpointFirst (s : State) (len : Nat) : State :=
  (s.srv.reqs.filter Req.live).foldl (fun s q =>
    if ringBytes s < s.srv.jBytes + len - q.journalAt then checkpoint s q else s) s

def journalWrite (s : State) (kind : Nat) (body : Octets) : Nat × State :=
  journalPut (checkpointFirst s ((body.length + 95) / 64 * 64)) kind body

/-- The ring holds the checkpoints of the live requests and one more. -/
def ringHolds (s : State) (q : Req) : Bool :=
  let size (q : Req) : Nat := ((checkpointBody q).length + 95) / 64 * 64
  (journalTo s).isEmpty || ((s.srv.reqs.filter Req.live).map size).sum + size q ≤ ringBytes s

/-! ## Records of a channel (R238–R242) -/

def recsOf (s : State) (h : Nat) : List OutRec := tget [] s.srv.recs (hSlot h)

/-- A step in progress still has requests of this home vat before its commit fence. -/
def unfenced (s : State) (v : Nat) : Bool :=
  s.srv.inStep && s.srv.reqs.any (fun q => q.planned.isSome && homeOf s q.chan = v)

/-- The step whose records a record made now goes with. -/
def batchNow (s : State) (h : Nat) : Nat := if unfenced s (homeOf s h) then s.srv.step else s.srv.step + 1

/-- A record joins the channel's queue in the order of R242. -/
def putRec (l : List OutRec) (r : OutRec) : List OutRec :=
  let before (x : OutRec) : Bool := x.batch < r.batch || (x.batch = r.batch && x.cls ≤ r.cls)
  l.takeWhile before ++ r :: l.dropWhile before

def addRec (s : State) (h : Nat) (r : OutRec) : State :=
  { s with srv := { s.srv with recs := tput [] s.srv.recs (hSlot h) (putRec (recsOf s h) r) } }

def rec128 (b : Octets) : Octets := padTo b 128

/-- A stream record (R238). -/
def streamRecord (q : Req) (flags accepted epoch index step : Nat) (ts : List Nat) : Octets :=
  rec128 (natLe 1 1 ++ natLe 1 flags ++ natLe 1 ts.length ++ natLe 1 accepted ++ natLe 4 epoch ++ natLe 8 q.reqId ++ natLe 4 index ++
    natLe 4 0 ++ natLe 8 step ++ tokenOctets ts)

/-- A completion record (R239). -/
def completionRecord (q : Req) (flags endTime : Nat) : Octets :=
  rec128 (natLe 1 2 ++ natLe 1 flags ++ natLe 2 q.status ++ natLe 1 q.reason ++ natLe 1 q.stopIndex ++ natLe 2 0 ++ natLe 8 q.reqId ++
    natLe 4 q.emitted.length ++ natLe 4 q.prefilled ++ natLe 8 q.firstStep ++ natLe 8 q.lastStep ++ natLe 4 q.firstEpoch ++
    natLe 4 q.lastEpoch ++ natLe 4 q.drafted ++ natLe 4 q.accepted ++ natLe 4 q.named ++ natLe 4 0 ++ natLe 8 q.admitTime ++
    natLe 8 endTime)

/-- A cancel acknowledgement (R240). -/
def cancelRecord (status reqId terminal : Nat) : Octets :=
  rec128 (natLe 1 3 ++ natLe 1 0 ++ natLe 2 status ++ natLe 4 0 ++ natLe 8 reqId ++ natLe 2 terminal)

/-- An entry refusal record (R241). -/
def refusalRecord (status op reqId entry : Nat) : Octets :=
  rec128 (natLe 1 6 ++ natLe 1 0 ++ natLe 2 status ++ natLe 1 op ++ natLe 3 0 ++ natLe 8 reqId ++ natLe 8 entry)

/-! ## The end of a request (R224) -/

/-- The tracker lets go of a sequence at the next boundary. -/
def unholdLater (s : State) (seq : Nat) : State := { s with srv := { s.srv with unhold := s.srv.unhold ++ [seq] } }

/-- A request ends with a status: an END journal record, and its terminal record among those of a step (`cls` 1: with the
records of its entry; 2: outside a step). `held` says whether it holds its sequence. -/
def endReq (s : State) (q : Req) (status reason stopIndex batch cls : Nat) (held : Bool) : State :=
  let q := { q with state := .ended, status := status, reason := reason, stopIndex := stopIndex, planned := none, cancel := false }
  let s := setReq s q
  let j := journalWrite s 3 (natLe 8 q.reqId ++ natLe 2 status ++ natLe 1 reason ++ List.replicate 5 0)
  let s := if held then unholdLater j.2 q.seq else j.2
  let s := if q.entry < ((reqChanAt s q.chan).map (fun c => c.2.read)).getD 0 then retire s q.chan q.entry else s
  addRec s q.chan ⟨completionRecord q 0 s.time, j.1, some q.reqId, batch, cls⟩

/-- A request that ends outside a step. -/
def endNow (s : State) (q : Req) (status : Nat) : State := endReq s q status 0 0 (batchNow s q.chan) 2 true

/-- A request that ends with no record: its channel is gone (R222). What its entry of the step appended is not kept. -/
def endSilent (s : State) (q : Req) : State :=
  let j := journalWrite s 3 (natLe 8 q.reqId ++ natLe 2 St.cancelled ++ natLe 1 0 ++ List.replicate 5 0)
  let s := unholdLater j.2 q.seq
  let kv := match q.planned with
    | some e => { s.kv with named := tput none s.kv.named q.seq (some e.qpos) }
    | none => s.kv
  { s with kv := kv, srv := { s.srv with reqs := s.srv.reqs.filter (fun r => !(r.is q)) } }

/-- Every request of a channel ends CANCELLED, without records; the channel accepts nothing further (R222). -/
def killChannel (s : State) (h : Nat) : State :=
  let s := (s.srv.reqs.filter (fun q => q.chan = h && q.active)).foldl endSilent s
  let s := { s with srv := { s.srv with recs := tput [] s.srv.recs (hSlot h) [] } }
  match reqChanAt s h with
  | some (_, c) => setChan s h (.req { c with dead := true })
  | none => s

/-! ## RDMA of a queue pair (R221, R291) -/

def qpAt (s : State) (h : Nat) : Option (Nat × QpSt) :=
  match chanOf s h with
  | some (p, .qp q) => some (p, q)
  | _ => none

/-- A request sent on a queue pair takes its next PSN and stays outstanding until it is acknowledged. -/
def rdmaSend (s : State) (h : Nat) (o : Out) : State :=
  match qpAt s h with
  | some (_, q) =>
    (setChan s h (.qp { q with outstanding := q.outstanding ++ [q.sqPsn], sqPsn := (q.sqPsn + 1) % 2 ^ 24 })).emit o
  | none => s

/-- A record may be written: its step's fence has passed, its journal record is acknowledged, and there is credit (R221,
R225, R243). -/
def writable (s : State) (h : Nat) (c : ReqChan) (credit : Nat) (r : OutRec) : Bool :=
  c.written < credit + c.cqSlots && journaled s r.journal && (!(unfenced s (homeOf s h)) || r.batch < s.srv.step)

/-- Writes the channel's records in order, as many as may be written. -/
def writeRecs (h : Nat) : List OutRec → State → State
  | [], s => { s with srv := { s.srv with recs := tput [] s.srv.recs (hSlot h) [] } }
  | r :: t, s =>
    match reqChanAt s h with
    | none => s
    | some (_, c) =>
      if writable s h c (creditOf s h) r then
        let k := c.written
        let s := rdmaSend s c.qp (.rdmaWrite c.qp (c.cqAddr + k % c.cqSlots * 128) r.octets)
        let s := setChan s h (.req { c with written := k + 1 })
        let s := { s with srv := { s.srv with reqs := s.srv.reqs.map (fun q =>
          if q.chan = h && q.state = .ended && q.termRec.isNone && r.terminal = some q.reqId then { q with termRec := some k } else q) } }
        writeRecs h t s
      else { s with srv := { s.srv with recs := tput [] s.srv.recs (hSlot h) (r :: t) } }

/-- Records, then one immediate that counts every record written since open (R221). -/
def flushChannel (s : State) (h : Nat) : State :=
  match reqChanAt s h with
  | none => s
  | some (p, c) =>
    if c.dead || partLost s p || (qpAt s c.qp).all (fun q => q.2.error) then s
    else
      let t := writeRecs h (recsOf s h) s
      match reqChanAt t h with
      | some (_, d) =>
        forgetEnded (if d.written = c.written then t else rdmaSend t c.qp (.rdmaImm c.qp (d.written % 2 ^ 32))) h
      | none => t

end Sys2Proof.Machine
end

