-- ==== Sys2Proof/Machine/Mem.lean ====
section
/-! DEFINITION. The memory tiers (chapter 9): regions (R249, R252, R253), zeroing (R256), ECC and patrol scrub (R257, R258),
and the loss of replicas and journals at a peer (R261). -/

namespace Sys2Proof.Machine

/-! ## Regions (R248, R252) -/

structure RegionArg where
  part : Nat
  index : Nat
  tier : Nat
  mask : Nat
  g : Nat
  n : Nat
  rsv : Bool

def regionArg (b : Octets) : RegionArg :=
  { part := fld b 0 2, index := fld b 2 1, tier := fld b 3 1, mask := fld b 4 1, g := fld b 6 2, n := fld b 8 2,
    rsv := zeroAt b 5 1 && zeroAt b 10 6 }

def RegionArg.region (a : RegionArg) : Region := ⟨a.part, a.tier, a.index, a.mask, a.g, a.n⟩

/-- GiB of a slice of a tier (R247). -/
def tierGib (tier : Nat) : Nat := if tier = 0 then 64 else 768

/-- The wheel slot area and the journal area as areas: tier, slice of the tier, first GiB, GiB (R248). -/
def slotAreas (slots : Nat) : List (Nat × Nat × Nat × Nat) :=
  (List.range (min slots 16)).map (fun k => if k < 12 then (1, 0, 64 * k, 64) else (1, 1, 64 * (k - 12), 64))

def journalAreas (j : Nat) : List (Nat × Nat × Nat × Nat) := [(1, 1, 764 - j, j)]

/-- Reserved areas (R248, R253). -/
def reservedAreas (s : State) : List (Nat × Nat × Nat × Nat) :=
  (List.range 6).map (fun k => (0, k, 62, 2)) ++ slotAreas (cfgMaxPend s Key.whlStoreSlots) ++
    journalAreas (cfgMaxPend s Key.srvJournalGib) ++ [(1, 1, 764, 4)]

def rangesMeet (a n b m : Nat) : Bool := a < b + m && b < a + n && n != 0 && m != 0

def areaMeets (r : Region) (x : Nat × Nat × Nat × Nat) : Bool :=
  r.tier = x.1 && bit r.mask x.2.1 && rangesMeet r.g r.n x.2.2.1 x.2.2.2

def regionsMeetIn (r q : Region) : Bool := r.tier = q.tier && r.mask &&& q.mask != 0 && rangesMeet r.g r.n q.g q.n

/-- Memory not yet zeroed is given to nobody (R256). -/
def zeroing (s : State) : List Region := s.mem.zero.flatMap (·.regions)

/-- The regions as an accepted command leaves them. -/
def setRegion (l : List Region) (a : RegionArg) : List Region :=
  if a.n = 0 then l.filter (fun r => !(r.part = a.part && r.tier = a.tier && r.index = a.index)) else l ++ [a.region]

/-- One above the highest INDEX defined of a tier. -/
def nextIndex (l : List Region) (part tier : Nat) : Nat :=
  (l.filter (fun r => r.part = part && r.tier = tier)).foldl (fun m r => max m (r.index + 1)) 0

/-- The offsets that a partition's highest region supplies. -/
def suppliedBy (l : List Region) (a : RegionArg) : Nat × Nat :=
  let mine := l.filter (fun r => r.part = a.part && r.tier = a.tier)
  let last := ((mine.filter (fun r => r.index = a.index)).map regionBytes).sum
  ((mine.map regionBytes).sum - last, last)

/-- Ranges of a partition's space in use: tier, first offset, length (R252). -/
def spaceUses (s : State) (p : Nat) : List (Nat × Nat × Nat) :=
  s.kv.seqs.filterMap (fun q => q.2.bind (fun d => if d.part = p then some (0, d.base, d.regionBytes) else none)) ++
  s.emb.tables.filterMap (fun q => q.2.bind (fun d => if d.part = p then some (1 - d.home, d.base, d.bytes) else none)) ++
  s.eng.bufs.filterMap (fun q => if q.2.part = p then some (0, q.2.base, q.2.slotBytes * q.2.slots) else none) ++
  (chans s).filterMap (fun q => match q.2.chan with
    | some (.req c) => if q.2.part = p then some (0, c.subBase, 128 * c.subSlots) else none
    | _ => none) ++
  (if (runOf s p).2 = 0 then [] else
    [(0, cfgP s p Key.embHotBase, 16384 * (runOf s p).2 * cfgP s p Key.embHotSlotBytes)]) ++
  (match (s.whlAt p).staged with
    | some (n, _, _) => if hasCave s then [] else [(0, spaceSize s p 0 - n, n)]
    | none => [])

/-- The checks of R252, against given regions. -/
def regionStatus (s : State) (l : List Region) (b : Octets) : Nat :=
  let a := regionArg b
  let sup := suppliedBy l a
  firstBad [
    (a.part = 0 || 255 < a.part || !a.rsv || 1 < a.tier || 15 < a.index || (if a.tier = 0 then 64 ≤ a.mask else 4 ≤ a.mask) ||
      (a.n != 0 && a.mask = 0), St.outOfRange),
    ((s.partAt a.part).state != 1, St.wrongState),
    ((bitsOf a.mask 8).any (fun i => !(slicePresent s (if a.tier = 0 then i else 6 + i))), St.unitAbsent),
    (a.n != 0 && (tierGib a.tier < a.g + a.n || l.any (regionsMeetIn a.region) || (zeroing s).any (regionsMeetIn a.region) ||
      (reservedAreas s).any (areaMeets a.region)), St.configConflict),
    (if a.n != 0 then a.index != nextIndex l a.part a.tier else a.index + 1 != nextIndex l a.part a.tier, St.wrongState),
    (a.n = 0 && (spaceUses s a.part).any (fun u => u.1 = a.tier && rangesMeet u.2.1 u.2.2 sup.1 sup.2), St.wrongState)]

/-- Regions as they will stand once every accepted command has applied. -/
def plannedRegions (s : State) : List Region :=
  (s.dic.stepCmds.filter (fun c => c.obj = Key.memRegionSet)).foldl (fun l c => setRegion l (regionArg c.arg)) s.mem.regions

def memRegionBody (sess p : Nat) (arg : Octets) (s : State) : CmdAns :=
  let st := regionStatus s (plannedRegions s) arg
  if st != 0 then refuse s st else stepPend Key.memRegionSet sess p arg s

def memRegionWrite : Nat → Octets → State → Nat × State := cmdWrite Key.memRegionSet anyRange memRegionBody

def execMemRegionSet (sess : Nat) (arg : Octets) (s : State) : Host.Outcome State Fault Refusal :=
  .next (cmdRow Key.memRegionSet memRegionWrite sess arg s)

/-- Begins zeroing regions (R256). -/
def startZero (s : State) (p : Nat) (rs : List Region) (clearKey : Bool) : State :=
  { s with mem := { s.mem with zero := s.mem.zero ++ [⟨s.mem.nextJob, p, rs, clearKey⟩], nextJob := s.mem.nextJob + 1 } }

/-- A definition or release takes effect at its boundary; released memory is zeroed first (R252, R256). -/
def memRegionApply (arg : Octets) (s : State) : Nat × State :=
  let st := regionStatus s s.mem.regions arg
  if st != 0 then (st, s)
  else
    let a := regionArg arg
    let gone := s.mem.regions.filter (fun r => a.n = 0 && r.part = a.part && r.tier = a.tier && r.index = a.index)
    let s := { s with mem := { s.mem with regions := setRegion s.mem.regions a } }
    (0, if gone.isEmpty then s else startZero s a.part gone false)

/-! ## Zeroing done (R256, R452) -/

/-- The partition's key slot is cleared and the number may be created again; with it ends the release (R452). -/
def partGone (s : State) (p : Nat) : State :=
  let s := { s with mem := { s.mem with keys := s.mem.keys.filter (fun (q : Nat × Option (Nat × Nat)) => q.2.map Prod.fst != some p) } }
  let s := s.setPart p {}
  if s.sec.parts.any (fun q => q.2.state = 2) then s else cmdEnd s Key.secPartRelease 0 (cmdWord 2 0 0 0)

def execMemoryZeroDone (job : Nat) (s : State) : Host.Outcome State Fault Refusal :=
  match s.mem.zero.find? (fun j => j.job = job) with
  | none => .next s
  | some j =>
    let s := zeroKeys s (fun k => j.regions.any (fun r => inRegion r k))
    let s := { s with mem := { s.mem with zero := s.mem.zero.filter (fun x => x.job != job) } }
    .next (if j.clearKey then partGone s j.part else s)

/-! ## Patrol scrub and ECC (R257, R258) -/

/-- Lines of a slice (R247). -/
def sliceLines (k : Nat) : Nat := if k < 6 then 2 ^ 30 else 12 * 2 ^ 30

def eccErr (k line die : Nat) (located : Bool) (status : Nat) : ErrRec :=
  { mech := Mech.memoryEcc, status := status, unitKind := Kind.slice, unit := k,
    detailA := if located then die % 256 else 2 ^ 31, detailB := line }

/-- A die with its device: a stack slice is one device, a cave slice twelve packages (R247, R257). -/
def dieKey (k line die : Nat) : Nat := (if k < 6 then 0 else Config.cavePackage k line % 12) * 256 + die % 256

/-- A corrected error: counted; a die corrected in 16 lines of the pass is marked; a second marked die of a device takes the
slice out of chip-kill protection (R257, R381). -/
def corrected (s : State) (k line die : Nat) : State :=
  let x := s.sliceAt k
  let d := dieKey k line die
  let n := tget 0 x.corrected d + 1
  let x := { x with ceCnt := Word.bump x.ceCnt 1, ceTotal := DWord.bump x.ceTotal 1, corrected := tput 0 x.corrected d n }
  if n = 16 && !(x.marked.contains d) then
    let s := s.setSlice k { x with marked := x.marked ++ [d] }
    let s := s.writeErr (eccErr k line die true 0)
    if !(noChipkill x.marked) && noChipkill (x.marked ++ [d]) then s.writeErr (eccErr k line die true St.sliceDegraded) else s
  else s.setSlice k x

def uncorrectable (s : State) (k line : Nat) (die : Option Nat) : State :=
  let x := s.sliceAt k
  let s := s.setSlice k { x with ueCnt := Word.bump x.ueCnt 1, ueTotal := DWord.bump x.ueTotal 1, lastUe := line }
  let key := k * 2 ^ 40 + line
  let s := { s with mem := { s.mem with poison := if s.mem.poison.contains key then s.mem.poison else s.mem.poison ++ [key] } }
  s.writeErr (eccErr k line (die.getD 0) die.isSome 0)

/-- The scrub reads the slice's next line; after the last a new pass begins. -/
def execPatrolScrub (slice line : Nat) (err : Option EccError) (s : State) : Host.Outcome State Fault Refusal :=
  let x := s.sliceAt slice
  if !(slicePresent s slice) || !x.scrubEn || x.pstate = 3 || (s.pwr.state != .s0 && s.pwr.state != .s1) || line != x.scrubAt then
    .next s
  else
    let s := match err with
      | some (.corrected d) => corrected s slice line d
      | some (.uncorrectable d) => uncorrectable s slice line d
      | none => s
    let x := s.sliceAt slice
    .next (s.setSlice slice (if line + 1 = sliceLines slice then { x with scrubAt := 0, corrected := [] } else { x with scrubAt := line + 1 }))

/-! ## REPLICA_LOST (R261) -/

/-- This module's sealed envelopes go again to a chip that is its holder by these indices (R128, R261). -/
def pushAgain (s : State) (chip : Nat) (idx : List Nat) : State :=
  s.whl.parts.foldl (fun s q => match q.2.envelope with
    | some e =>
      (s.modWhl q.1 (fun w => { w with acks := idx.foldl (fun l i => lset (if l.length = 2 then l else [none, none]) i none) w.acks })).emit
        (.replica chip q.1 q.2.epoch e)
    | none => s) s

/-- The holder that lost its slots gets this module's envelopes again, and a lead writes CHECKPOINTs before its next STEP
record. -/
def execReplicaLostNotice (chip : Nat) (s : State) : Host.Outcome State Fault Refusal :=
  let idx := (List.range 2).filter (fun i => chip != 0 && holderAt s i = chip)
  if idx.isEmpty then .next s
  else
    let s := pushAgain s chip idx
    .next { s with srv := { s.srv with checkpointDue := true, jLost := idx.foldl (fun l i => lset l i false) s.srv.jLost } }

end Sys2Proof.Machine
end

