-- ==== Sys2Proof/Machine/Monitor.lean ====
section
/-! DEFINITION. The monitor converter (R422–R426, R430, R431): its registers, sequences, accumulators and calibration. -/

namespace Sys2Proof.Machine

def State.monSeq (s : State) (k : Nat) : MonSeq := tget {} s.pwr.seqs k

def State.setMonSeq (s : State) (k : Nat) (q : MonSeq) : State := { s with pwr := { s.pwr with seqs := tput {} s.pwr.seqs k q } }

def State.monConv (s : State) (k : Nat) : MonConv := tget {} s.pwr.convs k

def State.setMonConv (s : State) (k : Nat) (c : MonConv) : State := { s with pwr := { s.pwr with convs := tput {} s.pwr.convs k c } }

def State.monAcc (s : State) (k : Nat) : MonAcc := tget {} s.pwr.accs k

def State.setMonAcc (s : State) (k : Nat) (a : MonAcc) : State := { s with pwr := { s.pwr with accs := tput {} s.pwr.accs k a } }

/-! ## Configuration (R422, R423, R430) -/

/-- Inputs that no signal has (R422). -/
def reservedInput (i : Nat) : Bool := i = 30 || i = 31 || 55 ≤ i

/-- The register words of a sequence by offset from its block: 0 control, 4 DELAY, 8 PERIOD, 0x100 + 4e INPUT of entry e. -/
def seqWord (q : MonSeq) (off : Nat) : Nat :=
  if off = 0 then b2n q.en + q.trig * 2 + q.lenM1 * 8 + q.vrSel * 256
  else if off = 4 then q.delay
  else if off = 8 then q.period
  else tget 0 q.inputs ((off - 0x100) / 4)

/-- A word the fields of that register refuse. -/
def seqRefused (off v : Nat) : Bool :=
  if off = 0 then bits v 2 1 = 3 || 12 ≤ bits v 11 8
  else if off = 8 then bits v 19 0 = 0 || 1000000 < bits v 19 0
  else if 0x100 ≤ off then reservedInput (bits v 5 0)
  else false

/-- The word in force. -/
def seqApply (q : MonSeq) (off v : Nat) : MonSeq :=
  if off = 0 then { q with en := bit v 0, trig := bits v 2 1, lenM1 := bits v 7 3, vrSel := bits v 11 8 }
  else if off = 4 then { q with delay := bits v 15 0 }
  else if off = 8 then { q with period := bits v 19 0 }
  else { q with inputs := tput 0 q.inputs ((off - 0x100) / 4) (bits v 5 0) }

/-- A sequence whose converter is fenced or being calibrated does not run. -/
def convReady (s : State) (k : Nat) : Bool := !(s.monConv k).fenced && !(s.monConv k).calibrating

/-- What was pending for a sequence takes effect. -/
def slotApply (s : State) (k : Nat) : State :=
  let q := s.monSeq k
  let q1 := q.pend.foldl (fun q p => seqApply q p.key (leNat p.value)) q
  let c := s.monConv k
  let s := s.setMonConv k { c with
    gain := c.gainPend.getD c.gain, offset := c.offsetPend.getD c.offset, gainPend := none, offsetPend := none }
  s.setMonSeq k { q1 with pend := [] }

/-- A MON_CLEAR command is done once the last sequence of its mask has cleared (R342, R424). -/
def clearSeen (s : State) (k : Nat) : State :=
  if !(bit s.pwr.clearWait k) then s
  else
    let m := s.pwr.clearWait - 2 ^ k
    let s := { s with pwr := { s.pwr with clearWait := m } }
    if m = 0 then cmdEnd s Key.monClear 0 (cmdWord 2 0 0 0) else s

/-- An entry of a sequence begins: pending values and a clear take effect (R423, R424). -/
def entryBegins (s : State) (k : Nat) : State :=
  let s := slotApply s k
  let q := s.monSeq k
  let s := if q.clearDue then clearSeen ((List.range 32).foldl (fun s e => s.setMonAcc (32 * k + e) {}) s) k else s
  s.setMonSeq k { q with clearDue := false, entryAt := s.time }

/-- A run starts at entry 0. -/
def startRun (s : State) (k : Nat) : State := entryBegins (s.setMonSeq k { s.monSeq k with running := true, entry := 0 }) k

/-- A CONTINUOUS sequence that is enabled and does not run starts (R423). -/
def startContinuous (s : State) (k : Nat) : State :=
  let q := s.monSeq k
  if q.en && q.trig = 2 && !q.running && convReady s k then startRun s k else s

/-- A value of a sequence waits for the sequence's next entry; while no run is in progress it is in force at once (entry 87). -/
def seqWrite (s : State) (k off v : Nat) : State :=
  let q := s.monSeq k
  if q.running then
    s.setMonSeq k { q with pend := q.pend.filter (fun p => p.key != off) ++ [⟨off, .slot, natLe 4 v, 0⟩] }
  else startContinuous (s.setMonSeq k (seqApply q off v)) k

/-- CLR: the accumulators are cleared at the sequence's next entry (R424). -/
def seqClear (s : State) (k : Nat) : State := s.setMonSeq k { s.monSeq k with clearDue := true }

/-! ## Self-calibration (R426) -/

/-- Converters are calibrated one at a time, in ascending order. -/
def nextCal (s : State) : State :=
  match s.pwr.calTodo with
  | c :: _ => s.setMonConv c { s.monConv c with calibrating := true }
  | [] =>
    let fenced := maskOf ((List.range 4).filter (fun k => (s.monConv k).fenced))
    cmdEnd { s with pwr := { s.pwr with calState := 2 } } Key.monCalStart 0 (cmdWord 2 0 fenced 0)

/-- CAL_START on a mask of converters. -/
def startMonCal (s : State) (mask : Nat) : State :=
  nextCal { s with pwr := { s.pwr with calState := 1, calTodo := bitsOf mask 4 } }

/-- Offset 0x000: CAL_MASK, and CAL_START, which a running calibration ignores. -/
def monCalReg (s : State) (v : Nat) : State :=
  let s := { s with pwr := { s.pwr with calMask := bits v 4 1 } }
  if bit v 0 && s.pwr.calState != 1 then startMonCal s (bits v 4 1) else s

/-- A write to a MON_ register (R430, R359): a refused value leaves the register, reserved and read-only bits ignore it. -/
def monRegWrite (s : State) (off v : Nat) : State :=
  if off = 0 then monCalReg s v
  else if 0x10 ≤ off && off < 0x30 then
    let k := (off - 0x10) / 8
    let c := s.monConv k
    let free : Bool := !(s.monSeq k).running
    if off % 8 = 0 then
      s.setMonConv k (if free then { c with gain := bits v 15 0 } else { c with gainPend := some (bits v 15 0) })
    else
      s.setMonConv k (if free then { c with offset := sext 13 v } else { c with offsetPend := some (sext 13 v) })
  else if 0x40 ≤ off && off < 0x80 && off % 16 != 12 then
    let k := (off - 0x40) / 16
    if seqRefused (off % 16) v then s
    else
      let s := seqWrite s k (off % 16) v
      if off % 16 = 0 && bit v 12 then seqClear s k else s
  else if 0x100 ≤ off && off < 0x300 then
    let k := (off - 0x100) / 0x80
    let o := 0x100 + (off - 0x100) % 0x80
    if seqRefused o v then s else seqWrite s k o v
  else s

/-- The 44 octets of MON_SEQ_CFG in force (R431). -/
def monSeqOctets (q : MonSeq) : Octets :=
  natLe 1 (b2n q.en) ++ natLe 1 q.trig ++ natLe 1 (q.lenM1 + 1) ++ natLe 1 q.vrSel ++ natLe 2 q.delay ++ [0, 0] ++ natLe 4 q.period ++
  (List.range 32).map (fun e => BitVec.ofNat 8 (tget 0 q.inputs e))

/-- MON_SEQ_CFG as written: OUT_OF_RANGE, or the register words it stands for. -/
def seqCfgStatus (b : Octets) : Nat :=
  if 1 < fld b 0 1 || 2 < fld b 1 1 || fld b 2 1 = 0 || 32 < fld b 2 1 || 11 < fld b 3 1 || !(zeroAt b 6 2) || fld b 8 4 = 0 ||
      1000000 < fld b 8 4 || (List.range 32).any (fun e => reservedInput (fld b (12 + e) 1)) then St.outOfRange else 0

def seqCfgPut (s : State) (k : Nat) (b : Octets) : State :=
  let s := (List.range 32).foldl (fun s e => seqWrite s k (0x100 + 4 * e) (fld b (12 + e) 1)) s
  let s := seqWrite (seqWrite s k 4 (fld b 4 2)) k 8 (fld b 8 4)
  seqWrite s k 0 (fld b 0 1 + fld b 1 1 * 2 + (fld b 2 1 - 1) * 8 + fld b 3 1 * 256)

/-! ## Triggers (R423) -/

def monRuns (s : State) : Bool := s.pwr.state != .s4

/-- A trigger starts a run, or is missed and counted. -/
def trigger (s : State) (k : Nat) : State :=
  let q := s.monSeq k
  if q.running then s.setMonSeq k { q with trigMiss := q.trigMiss + 1 } else startRun s k

def execMonTimerTrigger (seq : Nat) (s : State) : Host.Outcome State Fault Refusal :=
  let q := s.monSeq seq
  if seq < 4 && monRuns s && q.en && q.trig = 0 && convReady s seq then
    let s := s.until (q.trigAt + q.period * 1000)
    .next (trigger (s.setMonSeq seq { q with trigAt := s.time }) seq)
  else .next s

def execMonVrSync (controller : Nat) (s : State) : Host.Outcome State Fault Refusal :=
  let now := s.time
  .next ((List.range 4).foldl (fun s k =>
    let q := s.monSeq k
    if monRuns s && q.en && q.trig = 1 && q.vrSel = controller && controller < 12 && convReady s k then
      trigger (s.until (now + q.delay * 10)) k
    else s) s)

/-! ## Conversions (R424, R426) -/

/-- n / 2¹⁴ rounded to the nearest integer, halves to even. -/
def roundHalfEven14 (n : Int) : Int :=
  let q := n / 2 ^ 14
  let r := n % 2 ^ 14
  if r < 2 ^ 13 then q else if 2 ^ 13 < r then q + 1 else if q % 2 = 0 then q else q + 1

/-- clamp(round_half_even((raw − OFFSET) × GAIN / 2¹⁴), 0, 4,095). -/
def correctedCode (c : MonConv) (raw : Nat) : Nat :=
  (clampI 0 4095 (roundHalfEven14 (((raw : Int) - c.offset) * (c.gain : Int)))).toNat

/-- A code joins its accumulator; a full COUNT stops SUM. -/
def accumulate (a : MonAcc) (code : Nat) : MonAcc :=
  let full : Bool := a.count = 16777215
  { sum := if full then a.sum else a.sum + code, count := if full then a.count else a.count + 1
    min := min a.min code, max := max a.max code }

/-- Inputs 20 and 21 read code 0 on a KDM-16L (R422). -/
def codeOf (s : State) (k input raw : Nat) : Nat :=
  if (input = 20 || input = 21) && !(hasCave s) then 0 else correctedCode (s.monConv k) raw

/-- After an entry the run goes on, ends, or starts again. -/
def entryEnds (s : State) (k : Nat) : State :=
  let q := s.monSeq k
  if q.lenM1 ≤ q.entry || !q.en then
    let t := slotApply (s.setMonSeq k { q with running := false, entry := 0 }) k
    startContinuous t k
  else entryBegins (s.setMonSeq k { q with entry := q.entry + 1 }) k

def execMonConversionDone (seq raw : Nat) (s : State) : Host.Outcome State Fault Refusal :=
  let q := s.monSeq seq
  if seq < 4 && q.running && monRuns s && convReady s seq && raw < 4096 then
    let s := s.until (q.entryAt + 1000)
    let input := tget 0 q.inputs q.entry
    let code := codeOf s seq input raw
    let n := 32 * seq + q.entry
    let s := s.setMonAcc n (accumulate (s.monAcc n) code)
    .next (entryEnds { s with pwr := { s.pwr with lastCode := tput 0 s.pwr.lastCode input code } } seq)
  else .next s

/-! ## The commands -/

/-- Bits above the mask are 0. -/
def maskRange (_ : State) (a : Octets) : Nat := if leNat a < 16 then 0 else St.outOfRange

def monCalBody (_sess _p : Nat) (arg : Octets) (s : State) : CmdAns :=
  if s.pwr.calState = 1 then refuse s St.commandBusy
  else if leNat arg = 0 then doneAt { s with pwr := { s.pwr with calState := 2 } } 0
  else started (startMonCal s (leNat arg))

def monCalWrite : Nat → Octets → State → Nat × State := cmdWrite Key.monCalStart maskRange monCalBody

/-- A register bit: the whole word is written, with the bit set. -/
def execMonCalStart (by_ : MonCalBy) (s : State) : Host.Outcome State Fault Refusal :=
  match by_ with
  | .session sess arg => .next (cmdRow Key.monCalStart monCalWrite sess arg s)
  | .register agent _ value => .next (regRow agent 0x1000 (fun s => monRegWrite s 0 value) s)

/-- A converter's calibration is over, with the result `y`: the next one begins. -/
def calConverted (s : State) (c : Nat) (rest : List Nat) (y : MonConv) : State :=
  let s := s.setMonConv c { y with calibrating := false }
  startContinuous (nextCal { s with pwr := { s.pwr with calTodo := rest } }) c

/-- An accepted result takes 2 ms and puts the measured offset and gain in force (R426). -/
def calAccept (s : State) (c : Nat) (rest : List Nat) (x : MonConv) (t : TapPair) : State :=
  calConverted (s.until (s.time + 2000000)) c rest
    { x with offset := sext 13 t.delay, gain := t.thresh % 65536, suspect := false, fenced := false }

/-- Runs A and B, or A to D, of a converter: accepted under R75 with OFFSET and GAIN as taps, or fenced. -/
def execMonCalDone (converter : Nat) (runs : List TapPair) (s : State) : Host.Outcome State Fault Refusal :=
  match s.pwr.calTodo with
  | c :: rest =>
    if c != converter || s.pwr.calState != 1 then .next s
    else
      let x := s.monConv c
      match runs with
      | [a, b] => if tapsAgree a b then .next (calAccept s c rest x b) else .next (s.setMonConv c { x with suspect := true })
      | [a, b, c1, d] =>
        if tapsAgree a b then .next (calAccept s c rest x b)
        else if tapsAgree c1 d then .next (calAccept s c rest x d)
        else
          let r : ErrRec := { mech := Mech.calibration, action := Act.fenced, detailA := c, detailB := tapOctets runs }
          .next ((calConverted s c rest { x with fenced := true, suspect := true }).writeErr r)
      | _ => .next s
  | [] => .next s

/-- The clear waits for the next entry of each sequence of the mask. -/
def monClearBody (_sess _p : Nat) (arg : Octets) (s : State) : CmdAns :=
  if leNat arg = 0 then doneAt s 0
  else
    let s := (bitsOf (leNat arg) 4).foldl seqClear s
    started { s with pwr := { s.pwr with clearWait := leNat arg } }

def monClearWrite : Nat → Octets → State → Nat × State := cmdWrite Key.monClear maskRange monClearBody

def execMonClear (by_ : MonCalBy) (s : State) : Host.Outcome State Fault Refusal :=
  match by_ with
  | .session sess arg => .next (cmdRow Key.monClear monClearWrite sess arg s)
  | .register agent index value =>
    if 3 < index then .next s else .next (regRow agent (0x1040 + 16 * index) (fun s => monRegWrite s (0x40 + 16 * index) value) s)

end Sys2Proof.Machine
end

