-- ==== Sys2Proof/Machine/Wheel.lean ====
section
/-! DEFINITION. The wheel commands: staging, verification, placement, arming, open weights, replicas, programming, the swap
and its rewriting, overflow layers, and the retention age (chapter 4). -/

namespace Sys2Proof.Machine

/-! ## WHL_STAGE (R137) -/

/-- A refusal that WHL_RESULT reports. -/
def whlRefuse (s : State) (p st : Nat) : CmdAns := refuse (s.modWhl p (fun w => { w with result := st })) st

/-- Runs the rest of a wheel command in its states; a partition must be named (R137, R145). -/
def inStates (p : Nat) (states : List Nat) (s : State) (k : CmdAns) : CmdAns :=
  if p = 0 then refuse s St.outOfRange
  else if states.contains (s.whlAt p).state then k
  else whlRefuse s p St.wrongState

def whlStageBody (_sess p : Nat) (arg : Octets) (s : State) : CmdAns :=
  inStates p [0] s <|
    match (if hasCave s then (freeCave s).map some else some none), pickSlot s with
    | some k, some slot =>
      if 16 ≤ chanCount s 7 then whlRefuse s p St.noSpace
      else
        let s := match k with
          | some k => setCave s k (.pending p)
          | none => s
        let r := openChan s slot p (.staging p)
        doneAt (r.2.modWhl p (fun w => { w with state := 1, staged := some (leNat arg, slot, []) })) r.1
    | _, _ => whlRefuse s p St.noSpace

def whlStageWrite : Nat → Octets → State → Nat × State := cmdWrite Key.whlStage anyRange whlStageBody

def execWhlStage (sess : Nat) (arg : Octets) (s : State) : Host.Outcome State Fault Refusal :=
  .next (cmdRow Key.whlStage whlStageWrite sess arg s)

/-! ## WHL_VERIFY (R117) -/

/-- The envelope as staged; octets nothing wrote read 0. -/
def stagedOctets (w : WhlSt) : Octets :=
  match w.staged with
  | some (n, _, l) => (List.range n).map (tget 0 l)
  | none => []

/-- Closes the staging channel of a partition. -/
def endStaging (s : State) (p : Nat) : State :=
  match (s.whlAt p).staged with
  | some (_, slot, _) => (closeChan s slot).modWhl p (fun w => { w with staged := none })
  | none => s

/-- The wheel moves to VERIFIED and its replicas are pushed, or back to EMPTY (R117, R128, R137): status and state. -/
def verified (s : State) (p : Nat) (c : EnvelopeCrypto) : Nat × State :=
  let w := s.whlAt p
  let e := stagedOctets w
  match verifyEnvelope s p ((w.staged.map (·.1)).getD 0) e c with
  | .ok n =>
    let s := (endStaging s p).modWhl p (fun w => { w with
      state := 2, verifying := false, pending := some n, pendEnvelope := some e })
    (St.ok, pushReplica s p 0 e)
  | .error st =>
    let s := dropCave (endStaging s p) (.pending p)
    (st, s.modWhl p (fun w => { w with state := 0, result := st, verifying := false }))

def whlVerifyBody (c : EnvelopeCrypto) (_sess p : Nat) (_arg : Octets) (s : State) : CmdAns :=
  inStates p [1] s <|
    let r := verified s p c
    if r.1 = 0 then doneAt r.2 0 else refuse r.2 r.1

def execWhlVerify (sess : Nat) (arg : Octets) (crypto : EnvelopeCrypto) (s : State) : Host.Outcome State Fault Refusal :=
  .next (cmdRow Key.whlVerify (cmdWrite Key.whlVerify oneRange (whlVerifyBody crypto)) sess arg s)

/-- WHL_VERIFY by a FAP WRITE: the security core's work begins, and ENVELOPE_VERIFY_DONE ends it. -/
def whlVerifyStart (_sess p : Nat) (_arg : Octets) (s : State) : CmdAns :=
  inStates p [1] s (started (s.modWhl p (fun w => { w with verifying := true })))

def whlVerifyWrite : Nat → Octets → State → Nat × State := cmdWrite Key.whlVerify oneRange whlVerifyStart

def execEnvelopeVerifyDone (part : Nat) (crypto : EnvelopeCrypto) (s : State) : Host.Outcome State Fault Refusal :=
  if (s.whlAt part).verifying && (s.whlAt part).state = 1 then
    let r := verified s part crypto
    .next (cmdEnd r.2 Key.whlVerify 0 (cmdWord (if r.1 = 0 then 2 else 3) r.1 0 0))
  else .next s

/-! ## WHL_PLACE (R138, R453) -/

/-- Chains of a wheel in ascending order of (layer, chain). -/
def layerOrder (w : Wheel) : List Nat := w.layers.flatMap (fun y => (List.range y.chainCount).map (y.chainFirst + ·))

/-- Images in ascending order of (layer, chain, position) (R123). -/
def inOrder (w : Wheel) (imgs : List ArrImg) : List ArrImg :=
  (layerOrder w).flatMap (fun c => (List.range 256).filterMap (fun i => imgs.find? (fun a => a.chain = c && a.position = i)))

/-- The image is in the target already, retained (R453). -/
def alreadyHolds (s : State) (digest : Octets) (n : Nat) (img : ArrImg) : Bool :=
  (s.arrAt n).retained.map (·.1) = some digest && (s.arrAt n).holds.map (·.2) = some img

/-- Starts programming the images at their targets; answers the arrays to be found ready. -/
def programAll (s : State) (p : Nat) (digest : Octets) (l : List (Nat × ArrImg)) : List Nat × State :=
  l.foldl (fun r x =>
    if alreadyHolds r.2 digest x.1 x.2 then r else (r.1 ++ [x.1], startProgram r.2 x.1 p x.2)) ([], s)

/-- Target arrays of the images of a placement, in programming order. -/
def targetsOf (w : Wheel) (ts : List Target) (imgs : List ArrImg) : List (Nat × ArrImg) :=
  (inOrder w imgs).filterMap (fun a => (ts.find? (fun t => t.1 = a.vat && t.2.1 = a.slot)).map (fun t => (t.2.2.1, a)))

def placeRange (_ : State) (a : Octets) : Nat := if leNat a ≤ 1 then 0 else St.outOfRange

def whlPlaceBody (_sess p : Nat) (arg : Octets) (s : State) : CmdAns :=
  inStates p [2] s <|
    let w := s.whlAt p
    match w.pending with
    | none => whlRefuse s p St.wrongState
    | some n =>
      let imgs := changedImages w
      if leNat arg = 1 then
        let todo := imgs.filter (fun a => !(alreadyHolds s n.digest (physOf s a.vat a.slot) a))
        doneAt (s.setWhl p { w with state := 4, mode := 1 }) todo.length
      else match placeAll s p n.digest imgs with
        | none => whlRefuse s p St.noSpace
        | some ts =>
          let r := programAll s p n.digest (targetsOf n ts imgs)
          doneAt (r.2.modWhl p (fun w => { w with
            state := if r.1.isEmpty then 4 else 3, mode := 0, targets := ts, toReady := r.1 })) r.1.length

def whlPlaceWrite : Nat → Octets → State → Nat × State := cmdWrite Key.whlPlace placeRange whlPlaceBody

def execWhlPlace (sess : Nat) (arg : Octets) (s : State) : Host.Outcome State Fault Refusal :=
  .next (cmdRow Key.whlPlace whlPlaceWrite sess arg s)

/-! ## WHL_ARM and WHL_CANCEL (R134, R140, R131, R137) -/

def armingOf (arg : Octets) : Arming := ⟨fld arg 0 8, fld arg 8 8, fld arg 16 8, fld arg 24 8, fld arg 32 4⟩

/-- Refusals of arming in READY. -/
def armStatus (s : State) (p : Nat) (a : Arming) : Nat :=
  let w := s.whlAt p
  let over_ := match w.pending with
    | some n => n.overflow.any (fun o => poolSize s p o.vat ≤ o.slot)
    | none => false
  firstBad [(a.epoch = 0 || a.epoch = w.epoch, St.epochInvalid),
    (cfgBool s Key.whlReplicaRequired && w.pendEnvelope.isSome && !(pushAcked w), St.replicaPending),
    (over_, St.noSpace)]

def whlArmBody (sess p : Nat) (arg : Octets) (s : State) : CmdAns :=
  inStates p [4] s <|
    let a := armingOf arg
    if armStatus s p a != 0 then whlRefuse s p (armStatus s p a)
    else stepPend Key.whlArm sess p arg (s.modWhl p (fun w => { w with
      state := 5, arming := some a, paused := w.mode = 1, arrived := false }))

def whlArmWrite : Nat → Octets → State → Nat × State := cmdWrite Key.whlArm anyRange whlArmBody

def execWhlArm (sess : Nat) (arg : Octets) (s : State) : Host.Outcome State Fault Refusal :=
  .next (cmdRow Key.whlArm whlArmWrite sess arg s)

/-- An array that no longer programs a pending image: its grant is returned unless products still need it. -/
def stopProgram (s : State) (n : Nat) : State :=
  let a := s.arrAt n
  if a.prog.isNone then s
  else
    let s := s.setArr n { a with prog := none }
    returnIfDone s n

/-- Frees everything of a pending wheel (R137). -/
def dropPending (s : State) (p : Nat) : State :=
  let s := (s.whlAt p).targets.foldl (fun s t => stopProgram s t.2.2.1) s
  let s := dropCave (endStaging s p) (.pending p)
  s.modWhl p (fun w => { w with
    state := 0, pending := none, pendEnvelope := none, targets := [], toReady := [], acks := [], openBusy := [],
    verifying := false })

def whlCancelBody (_sess p : Nat) (_arg : Octets) (s : State) : CmdAns :=
  inStates p [1, 2, 3, 4] s <|
    let t := dropPending s p
    doneAt (if (s.whlAt p).verifying then cmdEnd t Key.whlVerify 0 (cmdWord 2 St.cancelled 0 0) else t) 0

def whlCancelWrite : Nat → Octets → State → Nat × State := cmdWrite Key.whlCancel oneRange whlCancelBody

def execWhlCancel (sess : Nat) (arg : Octets) (s : State) : Host.Outcome State Fault Refusal :=
  .next (cmdRow Key.whlCancel whlCancelWrite sess arg s)

/-! ## OPEN_WRITE (R118–R120) -/

/-- An open write descriptor (R118). -/
structure OpenD where
  src : Nat
  bias : Nat
  layer : Nat
  k : Nat
  n : Nat
  fmt : Nat
  hasBias : Bool
  ok : Bool

def openDAt (b : Octets) : OpenD :=
  { src := fld b 0 8, bias := fld b 8 8, layer := fld b 16 4, k := fld b 20 4, n := fld b 24 4, fmt := fld b 28 1,
    hasBias := bit (fld b 29 1) 0, ok := fld b 28 1 ≤ 1 && fld b 29 1 ≤ 1 && zeroAt b 30 34 }

/-- The wheel an open write changes: the pending one, or a copy of the wheel in force. -/
def openBase (w : WhlSt) : Option Wheel := if w.state = 4 then w.pending else w.inForce

/-- Elements of the tensor, row-major, widened exactly. -/
def openElem (fmt : Nat) (b : Octets) (i : Nat) : Word :=
  if fmt = 0 then bf16ToF32 (BitVec.ofNat 16 (fld b (2 * i) 2)) else fp8ToF32 (b.getD i 0)

/-- The layer's arrays with their new images (R120): chains ascending, each taking its share of the outputs. -/
def openArrays (w : Wheel) (y : Layer) (qs : List (BitVec 16 × List Int)) (bias : List Word) : List ArrImg :=
  let per := outputsOf y.openFmt
  w.arrays.map (fun a =>
    if layerChains y a.chain then
      let o := (a.chain - y.chainFirst) * per
      let ms := ((w.chains.find? (fun c => c.chain = a.chain)).map (fun c => c.members.length)).getD 1
      openImage y.openFmt y.openK a.position o (min per (y.openN - o)) ms qs bias a
    else a)

/-- Columns of a row-major tensor. -/
def openColumns (d : OpenD) (b : Octets) : List (List Word) :=
  (List.range d.n).map (fun o => (List.range d.k).map (fun r => openElem d.fmt b (r * d.n + o)))

/-- Quantises the tensor into the wheel: NONFINITE_WEIGHT, or the new wheel. -/
def openQuantise (w : Wheel) (y : Layer) (d : OpenD) (src bias : Octets) : Except Nat Wheel :=
  let bs := if d.hasBias then (List.range d.n).map (fun i => BitVec.ofNat 32 (fld bias (4 * i) 4)) else []
  match (openColumns d src).mapM (quantColumn y.openFmt) with
  | none => .error St.nonfiniteWeight
  | some qs =>
    if bs.any (fun x => !(f32Finite x)) then .error St.nonfiniteWeight
    else
      let n := { w with cls := 2, arrays := openArrays w y qs bs }
      .ok { n with digest := padTo (Config.builtDigest w.digest (natLe 4 y.layer ++ src ++ bias)) 48 }

/-- Checks of R118 in its order, the reads, and the new wheel. -/
def openBuild (s : State) (p : Nat) (w : Wheel) (off : Nat) : Except Nat Wheel :=
  match memRead s p 0 off 64 with
  | .error e => .error e
  | .ok b =>
    let d := openDAt b
    let bytes := d.k * d.n * (if d.fmt = 0 then 2 else 1)
    let y := w.layers.find? (fun y => y.layer = d.layer && y.kind = 3)
    let st := firstBad [
      (!d.ok, St.descriptorFormat),
      (spaceSize s p 0 < d.src + bytes || (d.hasBias && spaceSize s p 0 < d.bias + 4 * d.n), St.lengthExceedsBuffer),
      (y.any (fun y => y.openK != d.k || y.openN != d.n), St.lengthMismatch),
      (y.isNone, St.accessDenied)]
    if st != 0 then .error st
    else match y, memRead s p 0 d.src bytes, (if d.hasBias then memRead s p 0 d.bias (4 * d.n) else .ok []) with
      | some y, .ok src, .ok bias => openQuantise w y d src bias
      | _, .error e, _ => .error e
      | _, _, .error e => .error e
      | none, _, _ => .error St.accessDenied

/-- The pending wheel of open weights has its copy in the cave, where the module has one (R127). -/
def openCave (s : State) (p : Nat) : Option State :=
  if !(hasCave s) || caveHas s (.pending p) then some s else (freeCave s).map (fun k => setCave s k (.pending p))

def openWriteBody (_sess p : Nat) (arg : Octets) (s : State) : CmdAns :=
  if !(bit (s.partAt p).rights 0) then refuse s St.accessDenied
  else inStates p [0, 4] s <|
    let w := s.whlAt p
    match openBase w with
    | none => whlRefuse s p St.accessDenied
    | some base =>
      match openBuild s p base (leNat arg), openCave s p with
      | .error st, _ => whlRefuse s p st
      | .ok _, none => whlRefuse s p St.noSpace
      | .ok n, some s => doneAt (s.setWhl p { w with
          state := 4, pending := some n, mode := if w.state = 4 then w.mode else 1 }) 0

def openWriteWrite : Nat → Octets → State → Nat × State := cmdWrite Key.openWrite anyRange openWriteBody

def execOpenWrite (sess : Nat) (arg : Octets) (s : State) : Host.Outcome State Fault Refusal :=
  .next (cmdRow Key.openWrite openWriteWrite sess arg s)

/-! ## Replicas (R128–R130, R144, R261) -/

/-- Replica slots held for a chip's partition (0: any partition): slot, partition, epoch, order. -/
def replicasOf (s : State) (chip part : Nat) : List (Nat × Nat × Nat × Nat) :=
  s.whl.cave.filterMap (fun q => match q.2 with
    | .replica c p e o _ => if c = chip && (part = 0 || p = part) then some (q.1, p, e, o) else none
    | _ => none)

/-- The slot a pushed envelope takes: the older of two epochs of the same wheel, a FREE slot, the chip's oldest replica. -/
def replicaSlot (s : State) (chip part : Nat) : Option Nat :=
  let oldest (l : List (Nat × Nat × Nat × Nat)) := argmin (fun k => ((l.find? (fun q => q.1 = k)).map (·.2.2.2)).getD 0) (l.map (·.1))
  let mine := replicasOf s chip part
  if 2 ≤ mine.length then oldest mine
  else match freeCave s with
    | some k => some k
    | none => oldest (replicasOf s chip 0)

def execReplicaStore (chip part epoch : Nat) (envelope : Octets) (s : State) : Host.Outcome State Fault Refusal :=
  if s.pwr.state != .s0 && s.pwr.state != .s1 then .next s
  else if envelope.isEmpty then
    -- the peer has flipped: its newest untagged replica takes the epoch
    match (replicasOf s chip part).filter (fun q => q.2.2.1 = 0) with
    | [] => .next s
    | l =>
      let newest := l.foldl (fun m q => if m.2.2.2 < q.2.2.2 then q else m) (0, 0, 0, 0)
      .next { s with whl := { s.whl with cave := s.whl.cave.map (fun q => if q.1 = newest.1 then (match q.2 with
        | .replica c p _ o e => (q.1, CaveSlot.replica c p epoch o e)
        | x => (q.1, x)) else q) } }
  else if !(hasCave s) then .next (s.emit (.replicaAck chip part St.noSpace))
  else match replicaSlot s chip part with
    | some k =>
      let s := setCave s k (.replica chip part epoch s.whl.order envelope)
      let held := if s.whl.heldFor.contains chip then s.whl.heldFor else s.whl.heldFor ++ [chip]
      .next (({ s with whl := { s.whl with order := s.whl.order + 1, heldFor := held } }).emit (.replicaAck chip part 0))
    | none => .next (s.emit (.replicaAck chip part St.noSpace))

def execReplicaPushAck (part holder status : Nat) (s : State) : Host.Outcome State Fault Refusal :=
  let w := s.whlAt part
  if w.acks.length ≤ holder || (holders s).getD holder 0 = 0 then .next s
  else .next (s.setWhl part { w with
    acks := lset w.acks holder (some status), result := if status = 0 then w.result else status })

/-! ## Rewriting (R142, R144) -/

/-- The array on which a slot's image is rewritten: a remap's target, or its own array; none when it has none. -/
def rewriteArray (s : State) (p : Nat) (a : ArrImg) : Option Nat :=
  match (s.vatAt a.vat).remaps.find? (fun r => r.slot = a.slot) with
  | some r => some r.target
  | none =>
    let n := physOf s a.vat a.slot
    if (s.vatAt a.vat).noTarget.contains a.slot || (s.arrAt n).fenced || slotPart s a.vat a.slot != p then none else some n

/-- Old images of the changed slots, each with its array now. -/
def oldImages (s : State) (p : Nat) : List (Nat × ArrImg) :=
  let w := s.whlAt p
  let old := (w.inForce.map (·.arrays)).getD []
  (changedImages w).filterMap (fun a =>
    (old.find? (fun o => o.vat = a.vat && o.slot = a.slot)).bind (fun o => (rewriteArray s p o).map (fun n => (n, o))))

/-- Programs the old images back from the ACTIVE slot; without a cave they wait for a replica holder (R142, R130). -/
def rollBack (s : State) (p : Nat) (byAbort : Bool) : State :=
  let s := (s.whlAt p).toReady.foldl stopProgram s
  let l := oldImages s p
  let s := if caveHas s (.active p) then l.foldl (fun s x => startProgram s x.1 p x.2) s else s
  s.modWhl p (fun w => { w with toReady := l.map (·.1), rollback := true, abortSeen := byAbort, arrived := false })

/-- Every changed array is programmed with the pending image (R142); one without an array fails the rewrite. -/
def startRewrite (s : State) (p : Nat) : State :=
  let w := s.whlAt p
  match w.pending with
  | none => s
  | some n =>
    let todo := inOrder n (changedImages w)
    let s := s.setWhl p { w with state := 8, arrived := false, rollback := false, abortSeen := false, toReady := [] }
    if todo.any (fun a => (rewriteArray s p a).isNone) then rollBack s p false
    else
      let r := programAll s p n.digest (todo.filterMap (fun a => (rewriteArray s p a).map (fun m => (m, a))))
      r.2.modWhl p (fun w => { w with toReady := r.1 })

/-- An image of a rewrite whose array was fenced: another array takes it, or the rewrite is rolled back (R142). -/
def rewriteElsewhere (s : State) (p n : Nat) (img : ArrImg) : State :=
  let on (s : State) (m : Nat) : State :=
    (startProgram s m p img).modWhl p (fun w => { w with toReady := w.toReady.filter (· != n) ++ [m] })
  match (s.vatAt img.vat).remaps.find? (fun r => r.slot = img.slot) with
  | some r => on s r.target
  | none =>
    match remapTarget s p img.vat img.slot with
    | some (m, f) =>
      let s := s.modVat img.vat (fun t => { t with
        remaps := t.remaps ++ [⟨img.slot, n, m, []⟩]
        noTarget := match f with
          | some f => f :: t.noTarget
          | none => t.noTarget })
      on s m
    | none => rollBack (s.modWhl p (fun w => { w with toReady := w.toReady.filter (· != n) })) p false

/-! ## Programming (R121–R123) -/

/-- The layer and chain of an image in a partition's wheels, as DETAIL_B gives them (R369). -/
def imgDetail (s : State) (p : Nat) (img : ArrImg) : Nat :=
  let w := s.whlAt p
  let y (w : Option Wheel) := w.bind (fun w => layerOfChain w img.chain)
  let l := match y w.pending with
    | some y => y.layer
    | none => ((y w.inForce).map (·.layer)).getD 0
  l + img.chain * 2 ^ 32

/-- REC_ADOPT ends without a target for an image: what it programmed is given up (R390). -/
def adoptFails (s : State) (p status : Nat) : State :=
  let s := (s.whlAt p).toReady.foldl stopProgram s
  let s := dropCave s (.pending p)
  let s := s.modWhl p (fun w => { w with state := 0, adopt := none, pending := none, pendEnvelope := none, toReady := [], result := status })
  cmdEnd { s with srv := { s.srv with adopted := [] } } Key.recAdopt 0 (cmdWord 2 status 0 0)

/-- An image of an adoption whose array was fenced takes another array, or the adoption ends with NO_SPACE. -/
def adoptElsewhere (s : State) (p n : Nat) (img : ArrImg) : State :=
  if (remapTarget s p img.vat img.slot).isSome then rewriteElsewhere s p n img else adoptFails s p St.noSpace

/-- Every image of an adoption is in its array: the wheel is in force at EPOCH, SRV_ROLE is the role, and the module pushes its
own replicas (R390). -/
def adoptDone (s : State) (p : Nat) : State :=
  let w := s.whlAt p
  match w.adopt, w.pending with
  | some (epoch, role), some n =>
    let s := (putInForce s p n epoch w.pendEnvelope).modWhl p (fun x => { x with state := 0, adopt := none })
    let s := cfgPut s Key.srvRole (natLe 1 role)
    let s := { s with srv := { s.srv with adoptDone := some s.time, checkpointDue := s.srv.checkpointDue || role = 1 } }
    pushReplica (cmdEnd s Key.recAdopt 0 (cmdWord 2 0 0 0)) p epoch (w.pendEnvelope.getD [])
  | _, _ => s

/-- Programming of an array ends in a fence; its image is placed on another array (R121, R122, R143). -/
def programFailed (s : State) (n p : Nat) (img : ArrImg) (mech detail : Nat) : State :=
  let shadow := shadowOf s n
  let remapping := (s.vatAt (n / 2176)).remaps.any (fun r => r.target = n)
  let s := fenceArray s n { mech := mech, part := p, detailA := detail, detailB := imgDetail s p img }
  let w := s.whlAt p
  match shadow with
  | some q => if remapping then s else placeAgain s q n
  | none =>
    if w.adopt.isSome && w.toReady.contains n then adoptElsewhere s p n img
    else if w.state = 8 && w.toReady.contains n then
      (if w.rollback then s.setWhl p { w with toReady := w.toReady.filter (· != n) } else rewriteElsewhere s p n img)
    else s

/-- Another array of the bay is being written (R123: one array per bay at a time). -/
def bayBusy (s : State) (n : Nat) : Bool :=
  (List.range 17).any (fun i =>
    let m := n / 17 * 17 + i
    m != n && match (s.arrAt m).prog with
      | some (row, _, _, _) => 0 < row && row < 1024
      | none => false)

def execProgramRow (n : Nat) (verified : Bool) (s : State) : Host.Outcome State Fault Refusal :=
  let a := s.arrAt n
  match a.prog with
  | none => .next s
  | some (row, tries, img, p) =>
    if !(running s) || !a.granted || a.fenced || vatFenced s (n / 2176) || 1024 ≤ row || (row = 0 && bayBusy s n) then .next s
    else if verified then
      .next (s.setArr n { a with rows := tput 0 a.rows row (tget 0 img.rows row), prog := some (row + 1, 0, img, p) })
    else if tries + 1 < 4 then .next (s.setArr n { a with prog := some (row, tries + 1, img, p) })
    else .next (programFailed s n p img Mech.programVerify row)

/-- ARR_n_CHAIN of an image of the wheel in force; a pending wheel's values come with the flip (R116, R141). -/
def imgChainReg (s : State) (p : Nat) (img : ArrImg) : Word :=
  match (s.whlAt p).inForce with
  | some w =>
    if w.arrays.contains img || w.overflow.contains img then
      ((w.chains.find? (fun c => c.chain = img.chain)).map (fun c => chainRegOf (memberSlot s p) c img.position)).getD 0
    else 0
  | none => 0

/-- Where an array found ready goes: into its remap, or out of its replacement's list (R137, R375). -/
def nowReady (s : State) (n p : Nat) : State :=
  let v := n / 2176
  let s := match (s.vatAt v).remaps.find? (fun r => r.target = n) with
    | some r => finishRemap s v r.slot n
    | none => s
  let w := s.whlAt p
  let left := w.toReady.filter (· != n)
  let s := s.setWhl p { w with toReady := left, state := if w.state = 3 && w.adopt.isNone && left.isEmpty then 4 else w.state }
  if w.adopt.isSome && left.isEmpty then adoptDone s p else s

/-- The image is in the array: cells, periphery store and registers (R116, R122). -/
def imageIn (s : State) (n p : Nat) (img : ArrImg) : State :=
  let r := imgChainReg s p img
  s.modArr n (fun a => { loadImage a img r with
    prog := none, ready := true, programs := a.programs + 1, holds := if p = 0 then none else some (p, img) })

def execArrayProgramDone (n : Nat) (raisedTest : Option Nat) (s : State) : Host.Outcome State Fault Refusal :=
  let a := s.arrAt n
  match a.prog with
  | some (1024, _, img, p) =>
    if !(running s) || !a.granted || a.fenced || vatFenced s (n / 2176) then .next s
    else
      let runs := match raisedTest with
        | some t => min (t + 1) 16
        | none => 16
      let s := s.modArr n (fun a => { a with passCnt := DWord.bump a.passCnt runs })
      match raisedTest with
      | some t => .next (programFailed s n p img Mech.programCheck t)
      | none =>
        let s := imageIn s n p img
        let s := returnIfDone s n
        .next (nowReady s n p)
  | _ => .next s

/-! ## The swap (R140–R142) -/

/-- The management core has no frame unacknowledged: its fabric fence is complete (R306). -/
def mgmtFenced (s : State) : Bool := (agentFrames s .mgmt).isEmpty

/-- Adds 1 to an arrival object and waits. -/
def arriveAt (s : State) (p addr : Nat) : State :=
  let r := signal s p addr (some .mgmt)
  if r.1 = 0 then r.2.modWhl p (fun w => { w with arrived := true }) else s

def execSwapArrive (part : Nat) (s : State) : Host.Outcome State Fault Refusal :=
  let w := s.whlAt part
  match w.arming with
  | some a => if w.state = 6 && !w.arrived && mgmtFenced s && running s then .next (arriveAt s part a.arrive) else .next s
  | none => .next s

/-- Holds end without a flip: READY again on the old epoch. -/
def swapAborted (s : State) (p : Nat) : State :=
  s.modWhl p (fun w => { w with
    state := 4, arming := none, held := false, paused := false, arrived := false, holdSince := none, alarmed := false,
    rollback := false, abortSeen := false, toReady := [] })

/-- The decision object has the value: what a local object holds, or what a remote one returned. -/
def decisionIs (s : State) (p addr value : Nat) : Bool :=
  if isLocal s addr then
    match objFor s p (addrOff addr) with
    | some n => (s.objAt n).c.toNat = value
    | none => false
  else true

def execSwapDecision (part value : Nat) (s : State) : Host.Outcome State Fault Refusal :=
  let w := s.whlAt part
  match w.arming with
  | none => .next s
  | some a =>
    if !w.arrived || !(running s) then .next s
    else if w.state = 6 && decisionIs s part a.decision value then
      (if value = 1 then .next (if w.mode = 1 then startRewrite s part else flip s part)
       else if value = 2 then .next (swapAborted s part) else .next s)
    else if w.state = 8 && decisionIs s part a.doneDecision value then
      (if value = 1 && !w.rollback then .next (flip s part)
       else if value = 2 then .next (if w.rollback then swapAborted s part else rollBack s part true)
       else .next s)
    else .next s

def execSwapHoldAlarm (part : Nat) (s : State) : Host.Outcome State Fault Refusal :=
  let w := s.whlAt part
  match w.holdSince with
  | some t =>
    if (w.state = 6 || w.state = 8) && !w.alarmed then
      .next (((s.until (t + cfgP s part Key.swapHoldAlarmMs * 1000000)).setWhl part { w with alarmed := true }).writeErr (reportErr St.swapStalled Kind.module 0 part))
    else .next s
  | none => .next s

def execRewriteDone (part : Nat) (s : State) : Host.Outcome State Fault Refusal :=
  let w := s.whlAt part
  match w.arming with
  | some a =>
    if w.state = 8 && w.toReady.isEmpty && !w.rollback && !w.arrived && running s then .next (arriveAt s part a.doneArrive)
    else .next s
  | none => .next s

def execRewriteRollbackDone (part : Nat) (s : State) : Host.Outcome State Fault Refusal :=
  let w := s.whlAt part
  match w.arming with
  | some a =>
    if w.state = 8 && w.toReady.isEmpty && w.rollback && !w.arrived && running s then
      (if w.abortSeen then .next (swapAborted s part)
       else .next (arriveAt (s.setWhl part { w with result := St.aborted }) part a.doneArrive))
    else .next s
  | none => .next s

/-! ## REPLICA_FETCH_DONE (R129, R144, R261, R375) -/

/-- No envelope for an INCOMPLETE partition: no epoch is in force until a wheel is installed (R144). -/
def replicaGone (s : State) (p : Nat) : State :=
  let s := dropCave s (.pending p)
  let s := s.modWhl p (fun w => { w with
    state := 0, epoch := 0, inForce := none, envelope := none, pending := none, pendEnvelope := none, arming := none,
    held := false, paused := false, arrived := false, holdSince := none, toReady := [], result := St.replicaLost })
  s.writeErr (reportErr St.replicaLost Kind.module 0 p)

/-- A fetched envelope opens to the wheel of a digest (R117, R144). -/
def fetched (s : State) (p : Nat) (e : Octets) (c : EnvelopeCrypto) (digest : Octets) : Bool :=
  match verifyEnvelope s p e.length e c with
  | .ok w => w.digest = digest
  | .error _ => false

/-- Everything of the partition that waited for its images: remaps and a rollback (R130, R142, R375). -/
def imagesHere (s : State) (p : Nat) : State :=
  let waiting := s.vat.flatMap (fun v => v.2.remaps.map (fun r => (v.1, r)))
  let s := waiting.foldl (fun s x =>
    if slotPart s x.1 x.2.slot = p && (s.arrAt x.2.target).prog.isNone then
      (match slotImage s p x.1 x.2.slot with
        | some img => startProgram s x.2.target p img
        | none => s)
    else s) s
  if (s.whlAt p).rollback then
    (oldImages s p).foldl (fun s x => if (s.arrAt x.1).prog.isNone then startProgram s x.1 p x.2 else s) s
  else s

def execReplicaFetchDone (part : Nat) (envelope : Option Octets) (crypto : EnvelopeCrypto) (s : State) :
    Host.Outcome State Fault Refusal :=
  let w := s.whlAt part
  if !(running s) then .next s
  else if w.state = 9 then
    match w.pending, envelope with
    | some n, some e =>
      if fetched s part e crypto n.digest then
        let s := match openCave s part with
          | some t => t
          | none => s
        .next (startRewrite (s.modWhl part (fun w => { w with pendEnvelope := some e })) part)
      else .next (replicaGone s part)
    | _, _ => .next (replicaGone s part)
  else match w.inForce, envelope with
    | some n, some e =>
      if !(fetched s part e crypto n.digest) || caveHas s (.active part) then .next s
      else
        let s := if hasCave s then (match freeCave s with
          | some k => setCave s k (.active part)
          | none => s) else s
        .next (imagesHere (s.modWhl part (fun w => { w with envelope := some e })) part)
    | _, _ => .next s

/-! ## OVERFLOW_LAYER_LOAD (R132, R133) -/

/-- Overflow records of a layer. -/
def layerImages (w : Wheel) (y : Layer) : List ArrImg := w.overflow.filter (fun a => layerChains y a.chain)

/-- No product of a layer is still held by its pool arrays. -/
def layerIdle (s : State) (p : Nat) (w : Wheel) (y : Layer) : Bool :=
  (layerImages w y).all (fun a =>
    let x := s.arrAt (memberPhys s p (a.vat, true, a.slot))
    x.products.isEmpty && x.waiting.isEmpty)

/-- Layers in the pool that must leave before a layer is written: those it overlaps, and the oldest of two. -/
def layersOut (s : State) (p : Nat) (w : Wheel) (y : Layer) : List Layer :=
  let here := (s.whlAt p).poolLayers.filterMap (fun k => w.layers.find? (fun z => z.layer = k))
  let mine := (layerImages w y).map (fun a => (a.vat, a.slot))
  let over_ := here.filter (fun z => (layerImages w z).any (fun a => mine.contains (a.vat, a.slot)))
  if over_.isEmpty && 2 ≤ here.length then here.take 1 else over_

/-- Writes the layer's images into their pool arrays. -/
def writeLayer (s : State) (p : Nat) (w : Wheel) (y : Layer) : State :=
  (layerImages w y).foldl (fun s a =>
    let n := memberPhys s p (a.vat, true, a.slot)
    if (s.arrAt n).fenced then s
    else
      let r := ((w.chains.find? (fun c => c.chain = a.chain)).map (fun c => chainRegOf (memberSlot s p) c a.position)).getD 0
      s.modArr n (fun x => { loadImage x a r with ready := true, programs := x.programs + 1, holds := some (p, a) })) s

def execOverflowLayerLoad (part layer : Nat) (s : State) : Host.Outcome State Fault Refusal :=
  let x := s.whlAt part
  match x.inForce.bind (fun w => (w.layers.find? (fun y => y.layer = layer && y.kind = 2)).map (fun y => (w, y))) with
  | none => .next s
  | some (w, y) =>
    let out := layersOut s part w y
    if !s.srv.inStep || !(running s) || x.poolDone.contains layer || !(caveHas s (.active part)) ||
        !(out.all (layerIdle s part w)) then .next s
    else
      let here := x.poolLayers.filter (fun k => !(out.any (fun z => z.layer = k))) ++ [layer]
      .next ((writeLayer s part w y).modWhl part (fun x => { x with poolLayers := here, poolDone := x.poolDone ++ [layer] }))

/-! ## RETENTION_AGE_TICK (R126) -/

/-- Hours at a temperature as hours at 85 °C: 2^((T − 85) / 10) above 85 °C, one for one below; thousandths, rounded down. -/
def ageWeighted (tempC milliHours : Nat) : Nat :=
  if tempC ≤ 85 then milliHours else milliHours * fxExp ((fxLn 2 1 * (tempC - 85) / 10 : Nat)) / fxOne

def execRetentionAgeTick (n tempC milliHours : Nat) (s : State) : Host.Outcome State Fault Refusal :=
  if arrPresent s n && s.pwr.state != .s4 then
    .next (s.modArr n (fun a => { a with age := a.age + ageWeighted tempC milliHours }))
  else .next s

end Sys2Proof.Machine
end

