-- ==== Sys2Proof/Machine/ChanOps.lean ====
section
/-! DEFINITION. Freeing sync objects (R308) and destroying channels (R321). -/

namespace Sys2Proof.Machine

/-- Frees an object: its waiters and waiting tasks fail, and its state is zeroed (R308). -/
def freeObject (s : State) (n : Nat) : State :=
  (failWaitingTasks (failWaiters s n St.staleHandle) n St.staleHandle).setObj n {}

/-- The objects a channel names, by local index (R308). -/
def chanObjs (s : State) (part : Nat) (x : Chan) : List Nat :=
  let loc (a : Nat) : List Nat := (localObj s part a).toList
  match x with
  | .req c => loc c.posted ++ loc c.consumed ++ loc c.credit
  | .task c => loc c.posted ++ loc c.consumed
  | .group g => g.release :: (if g.rank = g.root then [g.arrive] else [])
  | .coll c => loc c.startObj ++ loc c.doneObj
  | _ => []

/-- An object named by an open channel, input buffer, collective, wheel arming or sync group. -/
def objNamed (s : State) (n : Nat) : Bool :=
  (chans s).any (fun q => match q.2.chan with
    | some x => (chanObjs s q.2.part x).contains n
    | none => false) ||
  s.eng.bufs.any (fun q => localObj s q.2.part q.2.obj = some n) ||
  s.whl.parts.any (fun q => match q.2.arming with
    | some a => [a.arrive, a.decision, a.doneArrive, a.doneDecision].any (fun x => localObj s q.1 x = some n)
    | none => false)

/-- A stream's end closes once nothing of it is unacknowledged (R321). -/
def closeStream (s : State) (slot : Nat) (x : StreamSt) : State :=
  let h := handleAt s slot
  if x.sender && x.ended.isNone && (s.fab.sent.any (fun f => f.own = h) || s.fab.waitq.any (fun f => f.own = h)) then
    setChan s h (.stream { x with closing := true })
  else closeChan s slot

/-- The root disarms ARRIVE; waiters on RELEASE fail (R321). -/
def closeGroup (s : State) (slot : Nat) (g : GroupSt) : State :=
  let s := failWaitingTasks (failWaiters s g.release St.staleHandle) g.release St.staleHandle
  let s := if g.rank = g.root then
      s.setObj g.arrive { s.objAt g.arrive with armed := false, rootLocal := none, unicast := [] }
    else s
  closeChan s slot

/-- A request channel's requests and records go with it. -/
def closeReqChan (s : State) (slot : Nat) : State :=
  let h := handleAt s slot
  closeChan { s with srv := { s.srv with
    recs := tput [] s.srv.recs slot [], reqs := s.srv.reqs.filter (fun q => q.chan != h) } } slot

/-- Destroys a channel with the effects of R321. -/
def destroyChan (s : State) (slot : Nat) : State :=
  match (s.slotAt slot).chan with
  | some (.stream x) => closeStream s slot x
  | some (.group g) => closeGroup s slot g
  | some (.req _) => closeReqChan s slot
  | some (.staging p) => (closeChan s slot).modWhl p (fun w => { w with staged := none })
  | some _ => closeChan s slot
  | none => s

end Sys2Proof.Machine
end

