-- ==== Sys2Proof/Machine/Emb.lean ====
section
/-! DEFINITION. Embedding commands: table edits, invalidations, pins, the directory's changes at a boundary, hot-row copies, and
the kernel GATHER_POOL (chapter 7). -/

namespace Sys2Proof.Machine

/-! ## EMB_TABLE_EDIT (R198, R199) -/

def embOp (arg : Octets) : Nat := fld arg 0 1

def embImage (arg : Octets) : Octets := octs arg 8 64

def embTable (arg : Octets) : Nat := fld (embImage arg) 0 2

def defineDesc (part : Nat) (arg : Octets) : EmbD :=
  let b := embImage arg
  { part := part, home := fld b 4 1, fmt := fld b 5 1, promote := bit (fld b 6 1) 0, dim := fld b 8 2, stride := fld b 10 2,
    scale := BitVec.ofNat 32 (fld b 12 4), rows := fld b 16 8, base := fld b 24 8, bytes := fld b 32 8 }

def embFormatOk (arg : Octets) : Bool :=
  let b := embImage arg
  zeroAt arg 1 7 && zeroAt b 2 2 && zeroAt b 7 1 && zeroAt b 40 24 && fld b 6 1 ≤ 1 && (embOp arg = 1 || zeroAt b 4 60)

/-- The tables after one accepted edit. -/
def editTables (t : Tab (Option EmbD)) (part : Nat) (arg : Octets) : Tab (Option EmbD) :=
  if embOp arg = 1 then tput none t (embTable arg) (some (defineDesc part arg)) else tput none t (embTable arg) none

def plannedTables (s : State) : Tab (Option EmbD) :=
  (s.dic.stepCmds.filter (fun c => c.obj = Key.embTableEdit)).foldl (fun t c => editTables t c.part c.arg) s.emb.tables

/-- The checks of R199 against given tables, in order. -/
def embEditStatus (s : State) (tables : Tab (Option EmbD)) (p : Nat) (arg : Octets) : Nat :=
  let cur := tget none tables (embTable arg)
  let d := defineDesc p arg
  let def_ : Bool := embOp arg = 1
  firstBad [
    (cur.any (fun c => c.part != p), St.accessDenied),
    (!(embFormatOk arg), St.formatMismatch),
    (def_ && cur.isSome, St.wrongState),
    (4095 < embTable arg, St.outOfRange),
    (def_ && (1 < d.home || 2 < d.fmt || d.dim = 0 || 1024 < d.dim || d.stride = 0 || d.stride % 64 != 0 || d.rows = 0 ||
      d.base % 64 != 0), St.outOfRange),
    (def_ && !(f32PosNormal d.scale), St.formatMismatch),
    (def_ && d.home = 0 && !(hasCave s) && d.stride ≤ 4096 && d.dim * embElem d.fmt ≤ d.stride && d.rows ≤ 2 ^ 40 &&
      d.rows * d.stride ≤ d.bytes, St.unitAbsent),
    (def_ && (4096 < d.stride || d.stride < d.dim * embElem d.fmt || 2 ^ 40 < d.rows || d.bytes < d.rows * d.stride ||
      spaceSize s p (1 - d.home) < d.base + d.bytes), St.lengthExceedsBuffer),
    (def_ && d.home = 0 && !(hasCave s), St.unitAbsent),
    (def_ && d.promote && (d.home = 1 || cfgP s p Key.embHotSlotBytes < d.stride || (runOf s p).2 = 0), St.configConflict),
    (!def_ && cur.isNone, St.wrongState)]

def embEditRange (_ : State) (a : Octets) : Nat := if embOp a = 1 || embOp a = 2 then 0 else St.outOfRange

def embEditBody (sess p : Nat) (arg : Octets) (s : State) : CmdAns :=
  let st := embEditStatus s (plannedTables s) p arg
  if st != 0 then refuse s st else stepPend Key.embTableEdit sess p arg s

def embTableEditWrite : Nat → Octets → State → Nat × State := cmdWrite Key.embTableEdit embEditRange embEditBody

def execEmbTableEdit (sess : Nat) (arg : Octets) (s : State) : Host.Outcome State Fault Refusal :=
  .next (cmdRow Key.embTableEdit embTableEditWrite sess arg s)

/-- An accepted edit at its boundary; a RELEASE removes every directory entry of the table (R200). -/
def embEditApply (p : Nat) (arg : Octets) (s : State) : Nat × State :=
  let st := embEditStatus s s.emb.tables p arg
  if st != 0 then (st, s)
  else
    let s := if embOp arg = 2 then dropEntries s (fun e => e.part = p && e.table = embTable arg) else s
    (0, { s with emb := { s.emb with tables := editTables s.emb.tables p arg } })

/-! ## EMB_INVALIDATE and EMB_PIN (R201, R206) -/

/-- A table of the partition, against given tables: 0 or a status. -/
def tableStatus (tables : Tab (Option EmbD)) (p k : Nat) : Nat :=
  match tget none tables k with
  | some d => if d.part = p then 0 else St.accessDenied
  | none => St.wrongState

def invalStatus (tables : Tab (Option EmbD)) (p : Nat) (arg : Octets) : Nat :=
  let rows := ((tget none tables (fld arg 0 2)).map (·.rows)).getD 0
  firstBad [
    (tableStatus tables p (fld arg 0 2) = St.accessDenied, St.accessDenied),
    (!(zeroAt arg 2 6), St.formatMismatch),
    (tableStatus tables p (fld arg 0 2) != 0, St.wrongState),
    (fld arg 16 8 = 0, St.outOfRange),
    (rows < fld arg 8 8 + fld arg 16 8, St.lengthExceedsBuffer)]

def invalBody (sess p : Nat) (arg : Octets) (s : State) : CmdAns :=
  let st := invalStatus (plannedTables s) p arg
  if st != 0 then refuse s st else stepPend Key.embInvalidate sess p arg s

def embInvalidateWrite : Nat → Octets → State → Nat × State := cmdWrite Key.embInvalidate anyRange invalBody

def execEmbInvalidate (sess : Nat) (arg : Octets) (s : State) : Host.Outcome State Fault Refusal :=
  .next (cmdRow Key.embInvalidate embInvalidateWrite sess arg s)

/-- An invalidation at its boundary removes valid and pinned entries and cancels pending promotions (R205, R206). -/
def invalApply (p : Nat) (arg : Octets) (s : State) : Nat × State :=
  let st := invalStatus s.emb.tables p arg
  if st != 0 then (st, s)
  else
    let f := fld arg 8 8
    let inRows (r : Nat) : Bool := f ≤ r && r < f + fld arg 16 8
    let s := dropEntries s (fun e => e.part = p && e.table = fld arg 0 2 && inRows e.row)
    (0, { s with emb := { s.emb with
      cands := s.emb.cands.filter (fun c => !(c.1 = p && c.2.1 = fld arg 0 2 && inRows c.2.2)) } })

/-- A pin of a row that is not pinned yet, in a set with 8 pinned ways. -/
def pinFull (s : State) (p table row : Nat) : Bool :=
  8 ≤ pinnedIn s (setOf s p table row) && !((findRow s.emb.dir p table row).any (fun e => e.2.pinned))

def pinStatus (s : State) (tables : Tab (Option EmbD)) (p : Nat) (arg : Octets) : Nat :=
  let k := fld arg 0 2
  let row := fld arg 8 8
  let d := tget none tables k
  firstBad [
    (tableStatus tables p k = St.accessDenied, St.accessDenied),
    (!(zeroAt arg 3 5), St.formatMismatch),
    (tableStatus tables p k != 0, St.wrongState),
    ((d.map (·.rows)).getD 0 ≤ row, St.lengthExceedsBuffer),
    (fld arg 2 1 = 1 && !(d.any (·.promote)), St.configConflict),
    (fld arg 2 1 = 1 && pinFull s p k row, St.noSpace)]

def pinRange (_ : State) (a : Octets) : Nat := if fld a 2 1 = 1 || fld a 2 1 = 2 then 0 else St.outOfRange

def pinBody (sess p : Nat) (arg : Octets) (s : State) : CmdAns :=
  let st := pinStatus s (plannedTables s) p arg
  if st != 0 then refuse s st else stepPend Key.embPin sess p arg s

def embPinWrite : Nat → Octets → State → Nat × State := cmdWrite Key.embPin pinRange pinBody

def execEmbPin (sess : Nat) (arg : Octets) (s : State) : Host.Outcome State Fault Refusal :=
  .next (cmdRow Key.embPin embPinWrite sess arg s)

/-- A pin at its boundary: a present row is marked, another takes a victim and is copied (R206); unpin clears the mark. -/
def pinApply (p : Nat) (arg : Octets) (s : State) : Nat × State :=
  let st := pinStatus s s.emb.tables p arg
  if st != 0 then (st, s)
  else
    let k := fld arg 0 2
    let row := fld arg 8 8
    let pin : Bool := fld arg 2 1 = 1
    match findRow s.emb.dir p k row with
    | some (d, e) => (0, setDir s d (some { e with pinned := pin }))
    | none => (0, if pin then takeWay s p k row true else s)

/-! ## The boundary's directory changes (R200, R204, R205) -/

/-- Candidates of a partition that are taken: the first EMB_PROMOTE_MAX in the order they arose. -/
def promoteAll (s : State) : State :=
  let ps := (s.emb.cands.map (·.1)).eraseDups
  let taken := ps.flatMap (fun p => (s.emb.cands.filter (fun c => c.1 = p)).take (cfgP s p Key.embPromoteMax))
  let s := { s with emb := { s.emb with cands := [] } }
  taken.foldl (fun s c =>
    if (findRow s.emb.dir c.1 c.2.1 c.2.2).isSome || (embTableAt s c.2.1).isNone then s else takeWay s c.1 c.2.1 c.2.2 false) s

/-- The snapshot of tables and directory (R200). -/
def snapshotEmb (s : State) : State := { s with emb := { s.emb with snapTables := s.emb.tables, snapDir := s.emb.dir } }

/-- Boundaries since the last decay advance for every partition that has a run. -/
def countDecay (s : State) : State :=
  { s with emb := { s.emb with decay := s.emb.runs.foldl (fun t q => tput 0 t q.1 (tget 0 t q.1 + 1)) s.emb.decay } }

def execDirectoryDecay (part : Nat) (s : State) : Host.Outcome State Fault Refusal :=
  if tget 0 s.emb.decay part < cfgP s part Key.embDecaySteps || (runOf s part).2 = 0 then .next s
  else
    let older (e : DirEnt) : DirEnt := if e.part = part then { e with age := e.age - 1 } else e
    let sk : Tab Nat := s.emb.sketch.foldl (fun t q => tput 0 t q.1 (if q.1 / 262144 = part then q.2 / 2 else q.2)) []
    .next { s with emb := { s.emb with
      decay := tput 0 s.emb.decay part 0, sketch := sk, dir := s.emb.dir.map (fun q => (q.1, q.2.map older)) } }

/-! ## Hot-row copies (R205) -/

/-- A gather task that started before the entry's boundary still runs. -/
def gatherBefore (s : State) (since : Nat) : Bool :=
  s.eng.eng.any (fun q => match q.2.run with
    | some r => r.task.opcode = 0x0010 && r.order < since
    | none => false)

def execHotRowCopy (dirSet way : Nat) (s : State) : Host.Outcome State Fault Refusal :=
  match dirAt s (dirKey dirSet way) with
  | some e =>
    if !e.valid && e.copy = 0 && running s && !(gatherBefore s e.since) then
      .next (setDir s (dirKey dirSet way) (some { e with copy := 1 }))
    else .next s
  | none => .next s

/-- The row's octets go from the cave into the slot; a poisoned row is not copied. -/
def execHotRowCopyDone (dirSet way : Nat) (s : State) : Host.Outcome State Fault Refusal :=
  match dirAt s (dirKey dirSet way) with
  | some e =>
    if e.valid || e.copy != 1 || !(running s) then .next s
    else match embTableAt s e.table with
      | none => .next s
      | some d =>
        match memRead s e.part 1 (d.base + e.row * d.stride) d.stride with
        | .error _ => .next s
        | .ok b =>
          let r := memWrite s e.part 0 (hotSlot s e.part dirSet way) b
          if r.1 = 0 then .next (setDir r.2 (dirKey dirSet way) (some { e with copy := 2 })) else .next s
  | none => .next s

/-! ## GATHER_POOL (R207–R211) -/

structure GatherArg where
  samples : Nat
  entries : Nat
  mode : Nat
  kind : Nat
  fmt : Nat
  flags : Nat
  width : Nat
  tag : Nat
  out : Nat
  stride : Nat
  scale : Word
  dests : Nat
  rsv : Bool

def gatherArg (b : Octets) : GatherArg :=
  { samples := fld b 0 2, entries := fld b 2 2, mode := fld b 4 1, kind := fld b 5 1, fmt := fld b 6 1, flags := fld b 7 1,
    width := fld b 8 4, tag := fld b 12 4, out := fld b 16 8, stride := fld b 24 4, scale := BitVec.ofNat 32 (fld b 28 4),
    dests := fld b 32 2, rsv := zeroAt b 34 30 }

def GatherArg.weighted (a : GatherArg) : Bool := bit a.flags 0

/-- Octets of an output element: BF16, FP8 E4M3, FP32. -/
def GatherArg.elem (a : GatherArg) : Nat := if a.fmt = 0 then 2 else if a.fmt = 1 then 1 else 4

/-- A table entry, with its table and its offsets, where they can be read. -/
structure GatherEnt where
  table : Nat
  col : Nat
  rsv : Bool
  offsets : Nat
  indices : Nat
  weights : Nat
  d : Option EmbD
  offs : List Nat

def gatherEnt (s : State) (x : Running) (a : GatherArg) (b : Octets) (i : Nat) : GatherEnt :=
  let o := 64 + 32 * i
  let at_ := fld b (o + 8) 8
  { table := fld b o 2, col := fld b (o + 2) 2, rsv := zeroAt b (o + 4) 4, offsets := at_, indices := fld b (o + 16) 8,
    weights := fld b (o + 24) 8, d := tget none x.tables (fld b o 2),
    offs := match memRead s x.task.part 0 at_ (4 * (a.samples + 1)) with
      | .ok c => (List.range (a.samples + 1)).map (fun k => fld c (4 * k) 4)
      | .error _ => [] }

def nondecreasing : List Nat → Bool
  | x :: y :: t => x ≤ y && nondecreasing (y :: t)
  | _ => true

def dimOf (e : GatherEnt) : Nat := (e.d.map (·.dim)).getD 0

/-- Row numbers a task names for an entry; none where the list cannot be read. -/
def rowsOf (s : State) (p : Nat) (e : GatherEnt) : Except Nat (List Nat) :=
  let lo := e.offs.headD 0
  let hi := e.offs.getLastD 0
  match memRead s p 0 (e.indices + 8 * lo) (8 * (hi - lo)) with
  | .ok b => .ok ((List.range (hi - lo)).map (fun i => fld b (8 * i) 8))
  | .error st => .error st

/-- Padded octets of a record (R211). -/
def recordPad (a : GatherArg) : Nat := (16 + a.width * a.elem + 63) / 64 * 64

/-- The refusals of R208, in order. -/
def gatherStatus (s : State) (t : Task) (a : GatherArg) (es : List GatherEnt) (dests : List (Nat × Nat × Nat)) : Nat :=
  let p := t.part
  let overlap (x y : GatherEnt) : Bool := x.col < y.col + dimOf y && y.col < x.col + dimOf x
  let listBad (e : GatherEnt) : Bool :=
    let hi := e.offs.getLastD 0
    pastSpace s p e.offsets (4 * (a.samples + 1)) || 1048576 < hi - e.offs.headD 0 || pastSpace s p e.indices (8 * hi) ||
      (a.weighted && pastSpace s p e.weights (4 * hi)) ||
      (match rowsOf s p e with
        | .ok rs => rs.any (fun r => (e.d.map (·.rows)).getD 0 ≤ r)
        | .error _ => false)
  let needs := if a.kind = 1 then 16 + (a.samples * recordPad a + 1023) / 1024 else 16
  firstBad [
    (a.samples = 0 || 4096 < a.samples || a.entries = 0 || 64 < a.entries || a.mode = 0 || 3 < a.mode || 1 < a.kind || 2 < a.fmt ||
      1 < a.flags || a.width = 0 || (if a.kind = 0 then 65536 < a.width || a.tag != 0 || a.stride < a.width * a.elem || a.dests != 0
        else 1024 < a.width || a.stride != 0 || a.dests = 0 || 64 < a.dests) || !a.rsv ||
      es.any (fun e => !e.rsv || a.width < e.col + dimOf e || (!a.weighted && e.weights != 0) || !(nondecreasing e.offs)) ||
      es.zipIdx.any (fun x => es.zipIdx.any (fun y => x.2 < y.2 && overlap x.1 y.1)) || dests.any (fun d => d.2.1 != 0),
      St.outOfRange),
    ((if a.fmt = 1 then !(f32PosNormal a.scale) else a.scale != 0x3F800000) || (a.fmt = 2 && a.kind = 1), St.formatMismatch),
    (es.any (fun e => !(e.d.any (fun d => d.part = p))) ||
      dests.any (fun d => vatPresent s d.1 && (2048 ≤ d.2.2 || slotPart s d.1 d.2.2 != p)), St.accessDenied),
    (dests.any (fun d => !(vatPresent s d.1)), St.unitAbsent),
    (es.any listBad || (a.kind = 1 && pastSpace s p a.out (4 * a.dests)) ||
      (a.kind = 0 && pastSpace s p a.out ((a.samples - 1) * a.stride + a.width * a.elem)) || t.scratchKib < needs,
      St.lengthExceedsBuffer)]

/-- A table element widened exactly (R209). -/
def rowElem (fmt : Nat) (b : Octets) (i : Nat) : Word :=
  if fmt = 0 then fp8ToF32 (b.getD i 0)
  else if fmt = 1 then bf16ToF32 (BitVec.ofNat 16 (fld b (2 * i) 2)) else BitVec.ofNat 32 (fld b (4 * i) 4)

/-- Where a row is read: its home, or its hot slot on a hit, whose directory key is given (R203). -/
def rowAt (s : State) (x : Running) (table : Nat) (d : EmbD) (row : Nat) : Nat × Nat × Option Nat :=
  if d.home = 0 && d.promote then
    match findRow x.dir x.task.part table row with
    | some (k, e) => if e.valid then (0, hotSlot s x.task.part (k / 16) (k % 16), some k) else (1, d.base + row * d.stride, none)
    | none => (1, d.base + row * d.stride, none)
  else (1 - d.home, d.base + row * d.stride, none)

/-- One entry and sample pooled over its bag (R209). -/
def poolBag (mode : Nat) (scale : Word) (bag : List (List Word × Word)) (weighted : Bool) (dim : Nat) : List Word :=
  let n := bag.length
  let val (d : Nat) (r : List Word × Word) : Word :=
    let v := f32Mul (r.1.getD d 0) scale
    if weighted then f32Mul v r.2 else v
  (List.range dim).map (fun d =>
    let vs := bag.map (val d)
    let acc := if mode = 3 then (match vs with
        | v :: t => t.foldl f32Max v
        | [] => 0) else vs.foldl f32Add 0
    if mode = 2 && 0 < n then f32Mul acc (f32Div 0x3F800000 (f32OfNat n)) else acc)

/-- The rows an entry reads, with where each lies and its weight; `rs` and `ws` from index OFFSETS[0] on. -/
def bagRows (s : State) (x : Running) (e : GatherEnt) (d : EmbD) (rs : List Nat) : Except Nat (List (List Word)) :=
  rs.mapM (fun r => do
    let at_ := rowAt s x e.table d r
    let b ← memRead s x.task.part at_.1 at_.2.1 (d.dim * embElem d.fmt)
    pure ((List.range d.dim).map (rowElem d.fmt b)))

/-- The pooled values of an entry, sample by sample. -/
def poolEntry (s : State) (x : Running) (a : GatherArg) (e : GatherEnt) : Except Nat (List (List Word)) := do
  match e.d with
  | none => throw St.accessDenied
  | some d =>
    let p := x.task.part
    let rs ← rowsOf s p e
    let vals ← bagRows s x e d rs
    let lo := e.offs.headD 0
    let wb ← if a.weighted then memRead s p 0 (e.weights + 4 * lo) (4 * rs.length) else pure []
    let prs := vals.zipIdx.map (fun v => (v.1, (BitVec.ofNat 32 (fld wb (4 * v.2) 4) : Word)))
    pure ((List.range a.samples).map (fun k =>
      let o := e.offs.getD k 0
      poolBag a.mode d.scale ((prs.drop (o - lo)).take (e.offs.getD (k + 1) 0 - o)) a.weighted d.dim))

/-- An output row: each entry's columns, +0 elsewhere. -/
def outRow (a : GatherArg) (es : List (GatherEnt × List (List Word))) (k : Nat) : List Word :=
  es.foldl (fun r e =>
    let v := e.2.getD k []
    r.take e.1.col ++ v ++ r.drop (e.1.col + v.length)) (List.replicate a.width 0)

/-- One output value: its octets, its kind for signatures, and whether it is NaN or infinite. -/
def outValue (a : GatherArg) (z : Word) : Octets × Nat × Bool :=
  if a.fmt = 2 then (natLe 4 z.toNat, 1, !(f32Finite z))
  else
    let c := convert a.fmt a.scale z
    (c.1, if a.fmt = 0 then 2 else 0, if a.fmt = 0 then !(f32Finite (bf16ToF32 (BitVec.ofNat 16 (leNat c.1)))) else leNat c.1 % 128 = 127)

/-- The input record of a sample (R211). -/
def gatherRecord (a : GatherArg) (k : Nat) (zs : List Word) : Octets :=
  let vs := zs.map (outValue a)
  pad64 (recHeader ((a.tag + k) % 2 ^ 32) a.fmt (b2n (vs.any (fun v => v.2.2))) a.width (if a.fmt = 1 then a.scale else 0x3F800000) 0 0 0
    ++ vs.flatMap (·.1))

/-- Lookups of a task, counted in entry, sample and list order. -/
def countAll (s : State) (x : Running) (es : List GatherEnt) : State :=
  es.foldl (fun s e => match e.d, rowsOf s x.task.part e with
    | some d, .ok rs =>
      if d.home = 0 && d.promote then rs.foldl (fun s r => countLookup s x.task.part e.table r (rowAt s x e.table d r).2.2) s else s
    | _, _ => s) s

def gatherPool (s : State) (x : Running) : KRes :=
  kres s (do
    let t := x.task
    if t.argLen < 64 then throw St.lengthMismatch
    let b ← memRead s t.part 0 t.argPtr t.argLen
    let a := gatherArg b
    if t.argLen != 64 + 32 * a.entries then throw St.lengthMismatch
    let es := (List.range a.entries).map (gatherEnt s x a b)
    let dests := match (if a.kind = 1 then memRead s t.part 0 a.out (4 * a.dests) else .error 0) with
      | .ok l => (List.range a.dests).map (fun i => (fld l (4 * i) 1, fld l (4 * i + 1) 1, fld l (4 * i + 2) 2))
      | .error _ => []
    let st := gatherStatus s t a es dests
    if st != 0 then throw st
    let ps ← es.mapM (fun e => do
      let v ← poolEntry s x a e
      pure (e, v))
    let rows := (List.range a.samples).map (outRow a ps)
    let after := countAll s x es
    if a.kind = 0 then
      pure { writes := rows.zipIdx.flatMap (fun r => r.1.zipIdx.map (fun z =>
               let v := outValue a z.1
               ⟨a.out + r.2 * a.stride + z.2 * a.elem, v.2.1, v.1⟩)), st := after }
    else
      pure { records := rows.zipIdx.flatMap (fun r => dests.map (fun d => (d.1, d.2.2, gatherRecord a r.2 r.1))), st := after })

def execGatherPool (engine busyNs : Nat) (upset : Option EngineUpset) (s : State) : Host.Outcome State Fault Refusal :=
  .next (runKernel (· = 0x0010) gatherPool engine busyNs upset s)

end Sys2Proof.Machine
end

