-- ==== Sys2Proof/Machine/PartOps.lean ====
section
/-! DEFINITION. The release of a partition (R452, R453). -/

namespace Sys2Proof.Machine

/-- Every queued or live request of the partition ends CANCELLED with its completion record. -/
def endRequests (s : State) (p : Nat) : State :=
  (s.srv.reqs.filter (fun q => q.part = p && q.active)).foldl (fun s q =>
    let kv := match q.planned with
      | some e => { s.kv with named := tput none s.kv.named q.seq (some e.qpos) }
      | none => s.kv
    endReq { s with kv := kv } q St.cancelled 0 0 (batchNow s q.chan) 2 true) s

/-- The partition's channels: records that may be written are written, then every channel is destroyed (R321). -/
def endChannels (s : State) (p : Nat) : State :=
  let mine := ((chans s).filter (fun q => q.2.part = p)).map (·.1)
  let s := mine.foldl (fun s k => flushChannel s (handleAt s k)) s
  mine.foldl destroyChan s

/-- Sync objects, sequences, tables, input buffers, directory units and packages are released. -/
def endHoldings (s : State) (p : Nat) : State :=
  let objs := (s.syn.objs.filter (fun q => q.2.alloc && q.2.owner = p)).map (·.1)
  let s := objs.foldl freeObject s
  let gone := (s.kv.seqs.filter (fun q => q.2.any (fun d => d.part = p))).map (·.1)
  let s := { s with
    kv := { s.kv with
      seqs := s.kv.seqs.filter (fun q => !(gone.contains q.1)), snap := s.kv.snap.filter (fun q => !(gone.contains q.1))
      appends := s.kv.appends.filter (fun a => !(gone.contains a.seq)), named := s.kv.named.filter (fun q => !(gone.contains q.1)) }
    srv := { s.srv with
      holds := s.srv.holds.filter (fun q => !(gone.contains q)), unhold := s.srv.unhold.filter (fun q => !(gone.contains q))
      truncate := s.srv.truncate.filter (fun q => !(gone.contains q)) }
    emb := { s.emb with
      tables := s.emb.tables.filter (fun q => !(q.2.any (fun d => d.part = p)))
      snapTables := s.emb.snapTables.filter (fun q => !(q.2.any (fun d => d.part = p)))
      snapDir := s.emb.snapDir.filter (fun q => !(q.2.any (fun e => e.part = p))) }
    eng := { s.eng with
      bufs := s.eng.bufs.filter (fun q => q.2.part != p), pkgs := s.eng.pkgs.filter (fun k => k.part != p) } }
  setUnits s p 0

/-- Queued and running tasks are discarded, scratch is zeroed, and the engines belong to no partition. -/
def endTasks (s : State) (p : Nat) : State :=
  let es := (s.eng.eng.filter (fun q => q.2.part = p)).map (·.1)
  let s := es.foldl (fun s n => s.modEng n (fun e => { e with
    run := none, queue := [], scratch := none, claim := none, tried := [], part := 0, pool := 0, poolPend := none,
    idleSince := s.time })) s
  let s := { s with eng := { s.eng with duals := s.eng.duals.filter (fun d => d.task.part != p) } }
  (vatsOf s).foldl (fun s v => s.modVat v (fun t => { t with overflow := t.overflow.filter (fun o => o.2.part != p) })) s

/-- An image of a sealed wheel in force that an array holds; open layers do not count (R452, R453). -/
def sealedImage (w : Option Wheel) (a : ArrSt) (p : Nat) : Option (Octets × Octets) :=
  match w, a.holds with
  | some w, some (q, img) =>
    if q = p && w.arrays.contains img && !((layerOfChain w img.chain).any (fun y => y.kind = 3)) then some (w.digest, w.ownerKey)
    else none
  | _, _ => none

/-- An array leaves the partition: its work is discarded; an image of a sealed wheel is retained, any other is erased. -/
def releaseArray (p : Nat) (w : Option Wheel) (s : State) (n : Nat) : State :=
  let a := s.arrAt n
  let b := { a with products := [], waiting := [], inbox := [], stuck := none, prog := none }
  let c := match sealedImage w a p with
    | some k => { b with retained := some k }
    | none => erased b
  let s := s.setArr n c
  if a.granted || !a.waiting.isEmpty || !a.products.isEmpty || a.prog.isSome then returnGrant s n else s

def endArrays (s : State) (p : Nat) : State :=
  let w := s.whlAt p
  let s := dropPending s p
  let s := (vatsOf s).foldl (fun s v =>
    let ns := ((s.vatAt v).remaps.filter (fun r => slotPart s v r.slot = p)).map (·.target) ++
      (partSlots s p v).map (physOf s v)
    let cleared := bitsOf (tget 0 (s.partAt p).tables v) 16
    let s := ns.foldl (releaseArray p w.inForce) s
    s.modVat v (fun t => { t with
      remaps := t.remaps.filter (fun r => slotPart s v r.slot != p)
      tables := t.tables.filter (fun q => !(cleared.contains q.1)) })) s
  (dropCave s (.active p)).setWhl p {}

/-- Steps 2 to 5 of R452: what follows the end of the partition's requests; the number is free once the memory is zeroed. -/
def releaseRest (s : State) (p : Nat) : State :=
  let s := endArrays (endTasks (endHoldings (endChannels (endRequests s p) p) p) p) p
  let rs := s.mem.regions.filter (fun r => r.part = p)
  let q := s.partAt p
  let s := s.setPart p { q with waitFence := false, arrays := [], engines := [], tables := [] }
  startZero { s with mem := { s.mem with regions := s.mem.regions.filter (fun r => r.part != p) } } p rs true

end Sys2Proof.Machine
end

