-- ==== Sys2Proof/Machine/Health.lean ====
section
/-! DEFINITION. Watchdogs (R365, R379, R380, R483), the copies of error records (R370), brine slices (R383, R384),
re-admission and retirement (R385–R387) and the commands of R397. -/

namespace Sys2Proof.Machine

/-! ## Heartbeats (R365) -/

/-- The core of a vat runs: powered, not halted, its vat in service. -/
def vatCoreRuns (s : State) (v : Nat) : Bool :=
  vatPresent s v && !(vatFenced s v) && s.pwr.state = .s0 && !(s.flt.halted.contains (2 + v))

def execVatHeartbeat (vat : Nat) (s : State) : Host.Outcome State Fault Refusal :=
  if vatCoreRuns s vat then .next (s.modVat vat (fun t => { t with missed := 0, lastBeat := s.time })) else .next s

/-- The second missing heartbeat in a row. A halted core is not watched (entry 83). -/
def execVatWatchdog (vat : Nat) (s : State) : Host.Outcome State Fault Refusal :=
  if vatPresent s vat && !(vatFenced s vat) && s.pwr.state = .s0 && !(s.flt.halted.contains (2 + vat)) then
    let s := (s.until ((s.vatAt vat).lastBeat + 200000)).modVat vat (fun t => { t with missed := 2 })
    .next (fenceVat s vat { mech := Mech.watchdog, detailA := 2 })
  else .next s

/-- 50 µs after the fence: arrays, engines and core are gated; routers and ports stay (R380). -/
def execVatFenceGate (vat : Nat) (s : State) : Host.Outcome State Fault Refusal :=
  match (s.vatAt vat).fenced with
  | none => .next s
  | some t =>
    if (s.vatAt vat).gated then .next s
    else
      let s := (s.until (t + 50000)).modVat vat (fun x => { x with gated := true })
      let s := (s.arr.filter (fun q => q.1 / 2176 = vat)).foldl (fun s q => s.modArr q.1 (fun a => { a with awake := false, waking := none })) s
      .next ((vatEngines vat).foldl (fun s n => s.modEng n (fun e => { e with awake := false })) s)

/-- The reset ends every FAP session; steps, passes and tasks go on. -/
def execMgmtCoreReset (s : State) : Host.Outcome State Fault Refusal :=
  if s.pwr.state = .s4 || s.flt.mgmtReset.isSome then .next s
  else
    let t := endAllSessions s
    .next { t with flt := { t.flt with mgmtReset := some s.time } }

def execMgmtCoreResetDone (s : State) : Host.Outcome State Fault Refusal :=
  if s.flt.mgmtReset.isSome && !s.flt.mgmtLost then .next { s with flt := { s.flt with mgmtReset := none } } else .next s

/-- 200 ms without recovery: the management service is unavailable, and MOD_HEARTBEAT stops (R395, R483). -/
def execMgmtRecoveryTimeout (s : State) : Host.Outcome State Fault Refusal :=
  match s.flt.mgmtReset with
  | none => .next s
  | some t =>
    let s := s.until (t + 200000000)
    .next { s with flt := { s.flt with mgmtLost := true }, pin := { s.pin with heartbeat := false } }

/-- The oldest record not yet copied goes into the configuration store's ring of 256 (R370). -/
def execErrorRecordPersist (s : State) : Host.Outcome State Fault Refusal :=
  match s.flt.toStore with
  | r :: t => .next { s with flt := { s.flt with toStore := t, store := keep 256 (r :: s.flt.store) } }
  | [] => .next s

/-! ## Brine slices (R383, R384) -/

/-- Units of R372: kind and number. -/
def unitKey (u : HealthUnit) : Nat × Nat :=
  match u with
  | .array n => (Kind.array, n)
  | .engine n => (Kind.engine, n)
  | .vat v => (Kind.vat, v)

def healthCode (s : State) (u : HealthUnit) : Nat := (healthAt s (unitKey u).1 (unitKey u).2).code

def setCode (s : State) (u : HealthUnit) (c passed : Nat) : State :=
  let k := unitKey u
  setHealth s k.1 k.2 { healthAt s k.1 k.2 with code := c, passed := passed }

/-- Re-admission testing of a fenced array begins: it is erased for the firmware's test image, and its IDLE calibration is due
(R385). -/
def beginArrayTests (s : State) (n : Nat) : State :=
  (setCode s (.array n) 3 0).modArr n (fun a => { erased a with calDue := true })

def arrayBrine (s : State) (n : Nat) : State :=
  let a := s.arrAt n
  let code := (healthAt s Kind.array n).code
  let v := n / 2176
  if !(arrPresent s n) || code = 4 || a.underTest || a.calActive || !(arrIdle20 s n) || vatFenced s v then s
  else if code = 2 then beginArrayTests s n
  else if a.calDue || gv s ≤ (s.vatAt v).grants.length || 136 ≤ testedIn s v then s
  else ((s.until (a.idleSince + 20000)).modArr n (fun a => { a with underTest := true })).modVat v (fun t => { t with grants := n :: t.grants })

def engineBrine (s : State) (n : Nat) : State :=
  let e := s.engAt n
  let code := (healthAt s Kind.engine n).code
  let inVat : Bool := vatFenced s (n / 64)
  if !(engPresent s n) || code = 4 || e.underTest || e.run.isSome || (!inVat && !e.fenced && !e.queue.isEmpty) ||
      (inVat && (healthAt s Kind.vat (n / 64)).code != 3) then s
  else
    let s := if code = 2 then setCode s (.engine n) 3 0 else s
    (s.until (e.idleSince + 20000)).modEng n (fun e => { e with underTest := true })

/-- A slice starts on a unit idle for 20 µs; fenced units and spares take part (R384). A vat is tested by the slices of its
engines. -/
def execBrineSliceStart (u : HealthUnit) (s : State) : Host.Outcome State Fault Refusal :=
  if !(cfgBool s Key.brineEn) || !(running s) then .next s
  else match u with
    | .array n => .next (arrayBrine s n)
    | .engine n => .next (engineBrine s n)
    | .vat _ => .next s

/-! ## Re-admission (R385) -/

/-- A re-admitted array is erased and is the spare of its bay, or holds its slot again where no remap was made. -/
def readmitArray (s : State) (n : Nat) : State :=
  let s := (setCode s (.array n) 0 0).modArr n (fun a => { erased a with fenced := false })
  match slotOf s n with
  | some l => s.modVat (n / 2176) (fun t => { t with noTarget := t.noTarget.filter (· != l) })
  | none => s

def readmitEngine (s : State) (n : Nat) : State := (setCode s (.engine n) 0 0).modEng n (fun e => { e with fenced := false })

/-- The partition's epoch is unchanged for an array that still holds an image of the wheel in force; any other was freed. -/
def keptImage (s : State) (a : ArrSt) : Bool :=
  match a.holds with
  | some (p, img) => (s.whlAt p).inForce.any (fun w => w.arrays.contains img || w.overflow.contains img)
  | none => false

/-- A vat returns once a FULL calibration after its fence is done and each of its engines has passed its slices. -/
def vatPassed (s : State) (v : Nat) : Bool :=
  (healthAt s Kind.vat v).code = 3 && (match (s.vatAt v).fenced with
    | some t => t < (s.vatAt v).calTime
    | none => false) &&
  (vatEngines v).all (fun n => cfgNat s Key.brineReadmit ≤ (healthAt s Kind.engine n).passed || (healthAt s Kind.engine n).code = 4)

def readmitVat (s : State) (v : Nat) : State :=
  let s := setCode s (.vat v) 0 0
  let s := s.modVat v (fun t => { t with fenced := none, gated := false, missed := 0, lastBeat := s.time })
  let s := (vatEngines v).foldl (fun s n =>
    if 2 ≤ (healthAt s Kind.engine n).code then s else (setCode s (.engine n) 0 0).modEng n (fun e => { e with fenced := false })) s
  let s := (s.arr.filter (fun q => q.1 / 2176 = v)).foldl (fun s q =>
    if keptImage s q.2 then s else s.modArr q.1 erased) s
  (partsIn s v).foldl (fun s p => match (s.whlAt p).inForce with
    | some w => if servedAgain s w then s.modWhl p (fun x => { x with lost := false }) else s
    | none => s) s

/-- A slice that passed counts toward re-admission. -/
def slicePassed (s : State) (u : HealthUnit) : State :=
  let k := unitKey u
  let h := healthAt s k.1 k.2
  let inVat : Bool := match u with
    | .engine n => vatFenced s (n / 64)
    | _ => false
  if h.code != 3 && !inVat then s
  else
    let s := setHealth s k.1 k.2 { h with passed := h.passed + 1 }
    let enough : Bool := cfgNat s Key.brineReadmit ≤ h.passed + 1
    match u with
    | .array n => if enough then readmitArray s n else s
    | .engine n =>
      if inVat then (if vatPassed s (n / 64) then readmitVat s (n / 64) else s)
      else if enough then readmitEngine s n else s
    | .vat _ => s

/-- A slice that failed fences its unit with BRINE and BRINE_FAIL; on a fenced one the count restarts (R383, R385). -/
def sliceFailed (s : State) (u : HealthUnit) (test : Nat) : State :=
  let r : ErrRec := { mech := Mech.brine, status := St.brineFail, detailA := test }
  let k := unitKey u
  let s := setHealth s k.1 k.2 { healthAt s k.1 k.2 with passed := 0 }
  match u with
  | .array n => fenceArray s n r
  | .engine n => fenceEngine s n r
  | .vat v => noteAgain s Kind.vat v r

/-- The unit is given back: an array returns its grant and takes the inputs that arrived. -/
def sliceEnds (s : State) (u : HealthUnit) : State :=
  match u with
  | .array n => acceptWaiting ((returnGrant s n).modArr n (fun a => { a with underTest := false, idleSince := s.time })) n
  | .engine n =>
    let k := s.eng.nextKey
    ({ s with eng := { s.eng with nextKey := k + 1 } } : State).modEng n (fun e =>
      { e with underTest := false, scratch := some k, idleSince := s.time })
  | .vat _ => s

def sliceRuns (s : State) (u : HealthUnit) : Bool :=
  match u with
  | .array n => (s.arrAt n).underTest
  | .engine n => (s.engAt n).underTest
  | .vat _ => false

def execBrineSliceDone (u : HealthUnit) (result : BrineResult) (s : State) : Host.Outcome State Fault Refusal :=
  if !(sliceRuns s u) then .next s
  else match result with
    | .interrupted => .next (sliceEnds s u)
    | .passed => .next (slicePassed (sliceEnds s u) u)
    | .failed test => .next (sliceFailed (sliceEnds s u) u test)
    | .suspect segment column =>
      match u with
      | .array n =>
        let c := segment * 2048 + column
        let s := (sliceEnds s u).modArr n (fun a => { a with
          calDue := true, suspect := if a.suspect.contains c then a.suspect else a.suspect ++ [c] })
        .next (slicePassed s u)
      | _ => .next (slicePassed (sliceEnds s u) u)

/-! ## HEALTH_FENCE, HEALTH_READMIT, HEALTH_CLEAR (R397) -/

/-- The unit of a command's argument. -/
def unitOf (b : Octets) : Option HealthUnit :=
  let n := fld b 4 4
  if fld b 0 1 = 1 then some (.array n) else if fld b 0 1 = 2 then some (.engine n) else if fld b 0 1 = 3 then some (.vat n) else none

def unitPresent (s : State) (u : HealthUnit) : Bool :=
  match u with
  | .array n => arrPresent s n
  | .engine n => engPresent s n
  | .vat v => vatPresent s v

/-- A kind of R397 with bits [31:8] zero, and a unit number its kind has. -/
def unitRange (_ : State) (b : Octets) : Nat :=
  match unitOf b with
  | some (.array n) => if zeroAt b 1 3 && n < 17408 then 0 else St.outOfRange
  | some (.engine n) => if zeroAt b 1 3 && n < 512 then 0 else St.outOfRange
  | some (.vat v) => if zeroAt b 1 3 && v < 8 then 0 else St.outOfRange
  | none => St.outOfRange

/-- The command's work on a present unit; an absent one is refused with UNIT_ABSENT (R37). -/
def onUnit (arg : Octets) (s : State) (f : HealthUnit → CmdAns) : CmdAns :=
  match unitOf arg with
  | some u => if unitPresent s u then f u else refuse s St.unitAbsent
  | none => refuse s St.outOfRange

def healthFenceBody (_sess _p : Nat) (arg : Octets) (s : State) : CmdAns :=
  onUnit arg s (fun u =>
    let r : ErrRec := { mech := Mech.report, status := St.unitFenced }
    match u with
    | .array n => doneAt (fenceArray s n r) 0
    | .engine n => doneAt (fenceEngine s n r) 0
    | .vat v => doneAt (fenceVat s v r) 0)

def healthFenceWrite : Nat → Octets → State → Nat × State := cmdWrite Key.healthFence unitRange healthFenceBody

def execHealthFence (sess : Nat) (arg : Octets) (s : State) : Host.Outcome State Fault Refusal :=
  .next (cmdRow Key.healthFence healthFenceWrite sess arg s)

/-- Re-admission testing starts: health state 3. A vat's engines begin their slices anew; it is powered for them. -/
def startReadmit (s : State) (u : HealthUnit) : State :=
  match u with
  | .array n => beginArrayTests s n
  | .engine _ => setCode s u 3 0
  | .vat v =>
    let s := (setCode s u 3 0).modVat v (fun t => { t with gated := false })
    (vatEngines v).foldl (fun s n => setHealth s Kind.engine n { healthAt s Kind.engine n with passed := 0 }) s

def healthReadmitBody (_sess _p : Nat) (arg : Octets) (s : State) : CmdAns :=
  onUnit arg s (fun u =>
    if healthCode s u = 4 then refuse s St.unitRetired
    else if healthCode s u != 2 then refuse s St.wrongState
    else doneAt (startReadmit s u) 0)

def healthReadmitWrite : Nat → Octets → State → Nat × State := cmdWrite Key.healthReadmit unitRange healthReadmitBody

def execHealthReadmit (sess : Nat) (arg : Octets) (s : State) : Host.Outcome State Fault Refusal :=
  .next (cmdRow Key.healthReadmit healthReadmitWrite sess arg s)

def healthClearBody (_sess _p : Nat) (arg : Octets) (s : State) : CmdAns :=
  onUnit arg s (fun u => if healthCode s u != 4 then refuse s St.wrongState else doneAt (setCode s u 2 0) 0)

def healthClearWrite : Nat → Octets → State → Nat × State := cmdWrite Key.healthClear unitRange healthClearBody

def execHealthClear (sess : Nat) (arg : Octets) (s : State) : Host.Outcome State Fault Refusal :=
  .next (cmdRow Key.healthClear healthClearWrite sess arg s)

end Sys2Proof.Machine
end

