-- ==== Sys2Proof/Machine/Compose.lean ====
section
/-! DEFINITION. Composing a step (R225–R228): admission, the length table (R188, R189), the plan (R215), and the split of the
engines into the prefill and decode pools. -/

namespace Sys2Proof.Machine

/-! ## Roles and the group (R214) -/

def srvRole (s : State) : Nat := cfgNat s Key.srvRole

/-- Chips of the group table. -/
def groupChips (s : State) : List Nat :=
  let o := tget [] s.dic.vals Key.srvGroupTable
  (List.range (o.length / 2)).map (fun i => fld o (2 * i) 2)

/-- The other members of the group. -/
def otherMembers (s : State) : List Nat := (groupChips s).filter (fun c => c != ownChip s && c != 0)

/-! ## Admission (R226, R244) -/

/-- The partition admits no request: in-place replacement from arming on (R141), release (R452), or SERVICE_LOST. -/
def admissionPaused (s : State) (p : Nat) : Bool :=
  (s.whlAt p).paused || (s.partAt p).state != 1 || partLost s p

/-- One request is admitted: its context is copied into the tracker, an ADMIT record is journaled, its entry is retired. A
context that cannot be read ends it with the status of the read. -/
def admitOne (s : State) (q : Req) : State :=
  match memRead s q.part 0 q.ctxPtr (4 * q.ctxLen) with
  | .error e => endNow s q e
  | .ok b =>
    let q := { q with state := .prefill, ctx := tokensOf b, order := s.srv.order, admitTime := s.time }
    let s := { s with srv := { s.srv with order := s.srv.order + 1 } }
    let s := setReq s { q with journalAt := s.srv.jBytes }
    retire (journalWrite s 1 (admitBody q)).2 q.chan q.entry

/-- Admission in entry order, up to a number, to the first request that cannot be admitted. A ring too small for the live
requests' checkpoints stops it with an error record. -/
def admitUpTo : Nat → List Req → State → State
  | 0, _, s => s
  | _, [], s => s
  | n + 1, q :: t, s =>
    if 65536 ≤ liveCount s then s
    else if !(ringHolds s q) then s.writeErr (reportErr St.noSpace Kind.module 0 q.part)
    else admitUpTo n t (admitOne s q)

def admitQueued (s : State) (p : Nat) : State :=
  if admissionPaused s p then s
  else admitUpTo (cfgNat s Key.srvAdmitMax) (s.srv.reqs.filter (fun q => q.part = p && q.state = .queued)) s

/-! ## The plan (R226) -/

/-- HELD conditions of a request but for its channel's records (R223). -/
def heldReq (s : State) (q : Req) : Bool :=
  let w := (s.whlAt q.part).state
  q.replayHeld || (5 ≤ w && w ≤ 8) || partLost s q.part

/-- The channel can reserve two completion records more, beside two for each request picked already (R226). -/
def canReserve (s : State) (picked : List Req) (q : Req) : Bool :=
  match reqChanAt s q.chan with
  | some (_, c) =>
    c.written + (recsOf s q.chan).length + 2 * (picked.filter (fun r => r.chan = q.chan)).length + 2 ≤ creditOf s q.chan + c.cqSlots
  | none => false

/-- Longest wait first, then the order of admission. -/
def decodeBefore (x y : Req) : Bool := y.waited < x.waited || (x.waited = y.waited && x.order < y.order)

def insertReq (before : Req → Req → Bool) (x : Req) : List Req → List Req
  | [] => [x]
  | y :: t => if before y x then y :: insertReq before x t else x :: y :: t

def sortReqs (before : Req → Req → Bool) (l : List Req) : List Req := l.foldl (fun t x => insertReq before x t) []

/-- Effective draft length D (R235). -/
def draftLen (s : State) (q : Req) : Nat :=
  match seqAt s q.seq with
  | some d => min q.specDraft (min (q.maxNew - q.emitted.length - 1) (d.maxLen - q.named - 1))
  | none => 0

/-- A request with its entry: KIND, QPOS, QLEN; ROW is set once all are chosen. -/
abbrev Pick := Req × LenEntry

/-- Decode and verify entries within a budget. -/
def pickDecode (s : State) : Nat → List Req → List Pick → List Pick
  | _, [], acc => acc
  | budget, q :: t, acc =>
    let d := draftLen s q
    if d + 1 ≤ budget && canReserve s (acc.map (·.1)) q then
      pickDecode s (budget - (d + 1)) t (acc ++ [(q, ⟨q.seq, if d = 0 then 0 else 2, q.named, d + 1, 0⟩)])
    else pickDecode s budget t acc

/-- Prefill chunks within a budget; the lead stops when it is spent. -/
def pickPrefill (s : State) (chunk : Nat) : Nat → List Req → List Pick → List Pick
  | _, [], acc => acc
  | budget, q :: t, acc =>
    let n := min (q.tokens.length - q.named) (min chunk budget)
    if budget = 0 then acc
    else if n != 0 && canReserve s (acc.map (·.1)) q then
      pickPrefill s chunk (budget - n) t (acc ++ [(q, ⟨q.seq, 1, q.named, n, 0⟩)])
    else pickPrefill s chunk budget t acc

/-- ROW of each entry: the sum of QLEN over the earlier ones (R189). -/
def withRows : Nat → List Pick → List Pick
  | _, [] => []
  | r, p :: t => (p.1, { p.2 with row := r }) :: withRows (r + p.2.qlen) t

/-- The entries of a partition's plan. -/
def compose (s : State) (p : Nat) : List Pick :=
  let mine := s.srv.reqs.filter (fun q => q.part = p && q.live && !(heldReq s q))
  let total := cfgNat s Key.srvStepTokens
  let pre := mine.filter (fun q => q.state = .prefill)
  let forDecode := if pre.isEmpty then total else total - cfgNat s Key.srvPrefillReserve
  let ds := pickDecode s forDecode (sortReqs decodeBefore (mine.filter (fun q => q.state = .decode))) []
  let used := (ds.map (fun x => x.2.qlen)).sum
  withRows 0 (pickPrefill s (cfgNat s Key.srvPrefillChunk) (total - used) (sortReqs (fun x y => x.order < y.order) pre) ds)

/-- The input tokens of an entry: the last emitted token, or the positions of a chunk. -/
def entryTokens (q : Req) (e : LenEntry) : List Nat :=
  if e.kind = 1 then (q.tokens.drop e.qpos).take e.qlen else [q.emitted.getLast?.getD 0]

def planOf (s : State) (p step : Nat) (l : List Pick) (named : List (Nat × Nat)) : Plan :=
  { step := step, epoch := (s.whlAt p).epoch, entries := l.map (·.2), tokens := l.flatMap (fun x => entryTokens x.1 x.2),
    named := named.filter (fun n => (seqAt s n.1).any (fun d => d.part = p)) }

/-! ## The length table (R189, R216) -/

def qlenOk (e : LenEntry) : Bool :=
  if e.kind = 0 then e.qlen = 1 else if e.kind = 1 then 1 ≤ e.qlen && e.qlen ≤ 4096 else e.kind = 2 && 2 ≤ e.qlen && e.qlen ≤ 16

/-- The check of one entry after the snapshot: 0, SEQ_INVALID, or the status of R189. -/
def entryStatus (s : State) (p : Nat) (l : List LenEntry) (row : Nat) (e : LenEntry) : Nat :=
  match snapSeq s.kv.snap p e.seq with
  | none => St.seqInvalid
  | some d => firstBad [
      (2 ≤ (l.filter (fun x => x.seq = e.seq)).length, St.configConflict),
      (e.qpos != d.len, St.lengthMismatch),
      (!(qlenOk e), St.outOfRange),
      (d.maxLen < e.qpos + e.qlen, St.lengthExceedsBuffer),
      (e.row != row, St.configConflict)]

/-- Every entry with its status. -/
def checkEntries (s : State) (p : Nat) (all : List LenEntry) : Nat → List LenEntry → List (LenEntry × Nat)
  | _, [] => []
  | row, e :: t => (e, entryStatus s p all row e) :: checkEntries s p all (row + e.qlen) t

/-! ## The prefill and decode pools (R228) -/

/-- Positions of prefill and of decode and verify entries. -/
def positions (l : List LenEntry) : Nat × Nat :=
  (((l.filter (fun e => e.kind = 1)).map (·.qlen)).sum, ((l.filter (fun e => e.kind != 1)).map (·.qlen)).sum)

/-- The law at a boundary, in binary32. -/
def lawStep (gain p d : Nat) (l : PoolLaw) : PoolLaw :=
  let tp := if p != 0 && l.prevP != 0 then f32Div (f32OfNat l.busyP) (f32OfNat l.prevP) else l.tp
  let td := if d != 0 && l.prevD != 0 then f32Div (f32OfNat l.busyD) (f32OfNat l.prevD) else l.td
  let a := f32Mul (f32OfNat p) tp
  let ft := f32Div a (f32Add a (f32Mul (f32OfNat d) td))
  let n : PoolLaw := { l with tp := tp, td := td, prevP := p, prevD := d, busyP := 0, busyD := 0 }
  if p = 0 then { n with f := 0 }
  else if d = 0 then { n with f := 0x3F800000 }
  else { n with
    f := if l.started then f32Add l.f (f32Div (f32Sub ft l.f) (f32OfNat (2 ^ gain))) else ft
    started := true }

/-- Np of a vat with E engines; where f is no number the share is a free value within the bounds. -/
def prefillEngines (k e p d minE : Nat) (f : Word) : Nat :=
  let lo := if p != 0 then min minE e else 0
  let hi := if d != 0 then e - min minE e else e
  if hi < lo then hi
  else if f32IsNan f then lo + Config.poolSplit k % (hi - lo + 1)
  else (f32ClampInt lo hi (f32Mul f (f32OfNat e))).toNat

/-- Engines of a partition in a vat that are awake or gateable. -/
def usableEngines (s : State) (v p : Nat) : List Nat := (engsOf s v p).filter (fun n => !((s.engAt n).fenced))

def setPools (s : State) (p pp dd : Nat) (f : Word) : State :=
  let r := s.fresh
  (vatsOf s).foldl (fun s v =>
    let es := usableEngines s v p
    let np := prefillEngines (r.1 * 8 + v) es.length pp dd (cfgNat s Key.srvPoolMin) f
    es.zipIdx.foldl (fun s e => s.modEng e.1 (fun x => { x with pool := if es.length - np ≤ e.2 then 1 else 2 })) s)
    (if f32IsNan f then r.2 else s)

/-- The law of a partition for the entries of its plan, and the split it gives. -/
def poolLaw (s : State) (p : Nat) (l : List LenEntry) : State :=
  let n := positions l
  let law := lawStep (cfgNat s Key.srvRatioGainLog2) n.1 n.2 (tget {} s.srv.law p)
  setPools { s with srv := { s.srv with law := tput {} s.srv.law p law, fraction := law.f } } p n.1 n.2 law.f

/-! ## The lead's step (R215, R225) -/

/-- A request takes its entry, with the status that removes it, if any. -/
def planReq (x : Pick) (status : Nat) (q : Req) : Req :=
  if q.is x.1 then { q with planned := some x.2, failStatus := status, waited := 0 } else q

/-- One partition's plan goes into the step: entries checked, the law applied, the plan sent to every other member. -/
def leadPlan (named : List (Nat × Nat)) (s : State) (p : Nat) : State :=
  let l := compose s p
  if l.isEmpty then s
  else
    let es := l.map (·.2)
    let st := checkEntries s p es 0 es
    let good := (st.filter (fun x => x.2 = 0)).map (·.1)
    let s := { s with srv := { s.srv with
      reqs := (l.zip st).foldl (fun rs x => rs.map (planReq x.1 x.2.2)) s.srv.reqs
      table := s.srv.table ++ good
      inStep := true } }
    let plan := planOf s p (s.srv.step + 1) l named
    (otherMembers s).foldl (fun s c => s.emit (.plan c plan)) (poolLaw s p es)

/-- Decode requests without an entry in the step have waited one more. -/
def countWaits (s : State) : State :=
  { s with srv := { s.srv with reqs := s.srv.reqs.map (fun q =>
    if q.state = .decode && q.planned.isNone then { q with waited := q.waited + 1 } else q) } }

/-- Boundary n on the lead: admission and composition, the pool split, the plan. With nothing to plan no step begins. -/
def leadStep (s : State) (named : List (Nat × Nat)) : State :=
  let ps := (s.srv.reqs.map (·.part)).eraseDups
  let s := ps.foldl admitQueued s
  let s := { s with srv := { s.srv with inStep := false, fencePassed := false, table := [], drafts := [] } }
  let t := ps.foldl (leadPlan named) s
  if t.srv.inStep then countWaits { t with srv := { t.srv with step := t.srv.step + 1 } } else t

/-! ## A member's step (R216) -/

/-- Entries of a plan whose sequence is not VALID here are removed and reported; those that fail R189 are removed. -/
def memberStep (s : State) (p : Nat) (plan : Plan) : State :=
  let st := checkEntries s p plan.entries 0 plan.entries
  let good := (st.filter (fun x => x.2 = 0)).map (·.1)
  let lost := (st.filter (fun x => x.2 = St.seqInvalid)).map (fun x => x.1.seq)
  let s := lost.foldl (fun s q => s.emit (.seqInvalid (cfgNat s Key.srvLeadChip) p q)) s
  let s := { s with srv := { s.srv with
    table := good, inStep := true, fencePassed := false, step := plan.step, plan := none, drafts := [], mismatchSaid := false } }
  poolLaw s p plan.entries

/-- Work of a step is left on the module: a task queued or running, or a product in an array. -/
def workLeft (s : State) : Bool :=
  s.eng.eng.any (fun q => q.2.run.isSome || !q.2.queue.isEmpty) || s.vat.any (fun v => !v.2.overflow.isEmpty) ||
    s.arr.any (fun a => !a.2.products.isEmpty || !a.2.waiting.isEmpty)

/-- A step is in progress (R19): on a lead until the commit fence of every request planned, elsewhere while its work is left. -/
def stepInProgress (s : State) : Bool := s.srv.inStep && (s.srv.reqs.any (fun q => q.planned.isSome) || workLeft s)

end Sys2Proof.Machine
end

