-- ==== Sys2Proof/Machine/Serve.lean ====
section
/-! DEFINITION. The serving commands (chapter 8): request channels, submission, cancellation, the commit fence, the journal and
the completion ring. -/

namespace Sys2Proof.Machine

/-! ## REQ_CHAN_OPEN and REQ_CHAN_CLOSE (R217, R222) -/

def reqChanArg (b : Octets) : ReqChan :=
  { subBase := fld b 0 8, subSlots := fld b 8 4, cqSlots := fld b 12 4, posted := fld b 16 8, consumed := fld b 24 8,
    credit := fld b 32 8, qp := fld b 40 4, rkey := fld b 44 4, cqAddr := fld b 48 8, vat := fld b 56 1 }

/-- A queue pair of the partition that is bound to a channel. -/
def qpBound (s : State) (h : Nat) : Bool :=
  (chans s).any (fun q => match q.2.chan with
    | some (.req c) => c.qp = h
    | _ => false)

/-- The refusals of R217, after R214's. -/
def reqOpenStatus (s : State) (p : Nat) (b : Octets) : Nat :=
  let c := reqChanArg b
  let auto := bit (fld b 57 1) 0
  let objs := [c.posted, c.consumed, c.credit]
  firstBad [
    (srvRole s = 0, St.wrongState),
    (1 < fld b 57 1 || !(zeroAt b 58 6) || c.subBase % 64 != 0 || c.subSlots = 0 || 65536 < c.subSlots || c.cqSlots = 0 ||
      65536 < c.cqSlots, St.outOfRange),
    (spaceSize s p 0 < c.subBase + 128 * c.subSlots, St.lengthExceedsBuffer),
    (objs.any (fun a => (localObj s p a).isNone) || (qpAt s c.qp).all (fun q => q.1 != p), St.accessDenied),
    (!auto && !(vatPresent s c.vat), St.unitAbsent),
    (objs.any (fun a => counterOf s p a != 0) || qpBound s c.qp, St.configConflict),
    (1024 ≤ chanCount s 1, St.noSpace)]

def reqOpenBody (_sess p : Nat) (arg : Octets) (s : State) : CmdAns :=
  let st := reqOpenStatus s p arg
  if st != 0 then refuse s st
  else match pickSlot s with
    | none => refuse s St.noSpace
    | some slot =>
      let c := reqChanArg arg
      let auto := (argmin (homeLoad s) ((vatsOf s).filter (fun v => !(vatFenced s v)))).getD c.vat
      let r := openChan s slot p (.req { c with vat := if bit (fld arg 57 1) 0 then auto else c.vat })
      doneAt r.2 r.1

def reqOpenWrite : Nat → Octets → State → Nat × State := cmdWrite Key.reqChanOpen anyRange reqOpenBody

def execReqChanOpen (sess : Nat) (arg : Octets) (s : State) : Host.Outcome State Fault Refusal :=
  .next (cmdRow Key.reqChanOpen reqOpenWrite sess arg s)

def reqCloseBody (_sess p : Nat) (arg : Octets) (s : State) : CmdAns :=
  let h := leNat arg
  match reqChanAt s h with
  | some (q, _) =>
    if q != p then refuse s St.staleHandle
    else if s.srv.reqs.any (fun r => r.chan = h && r.active) then refuse s St.wrongState
    else doneAt (closeReqChan s (hSlot h)) 0
  | none => refuse s St.staleHandle

def reqCloseWrite : Nat → Octets → State → Nat × State := cmdWrite Key.reqChanClose anyRange reqCloseBody

def execReqChanClose (sess : Nat) (arg : Octets) (s : State) : Host.Outcome State Fault Refusal :=
  .next (cmdRow Key.reqChanClose reqCloseWrite sess arg s)

/-! ## Reading submission entries (R218, R219, R241) -/

/-- What the home vat core reads next on a channel: partition, channel, entry number, and the entry or the status of its
read. -/
def nextEntry (s : State) (h : Nat) : Option (Nat × ReqChan × Nat × Except Nat Octets) :=
  match reqChanAt s h with
  | some (p, c) =>
    if srvRole s = 1 && vatServing s c.vat && !c.dead && c.read < counterOf s p c.posted then
      some (p, c, c.read, memRead s p 0 (c.subBase + c.read % c.subSlots * 128) 128)
    else none
  | none => none

/-- The entry is read. -/
def entryRead (s : State) (h : Nat) (c : ReqChan) : State := setChan s h (.req { c with read := c.read + 1 })

/-- An entry is refused: retired, with an entry refusal record (R241). -/
def refuseEntry (s : State) (h k status op reqId : Nat) : State :=
  addRec (retire s h k) h ⟨refusalRecord status op reqId k, 0, none, batchNow s h, 3⟩

def readTokens (s : State) (p off n : Nat) : List Nat :=
  match memRead s p 0 off (4 * n) with
  | .ok b => tokensOf b
  | .error _ => []

def stopBlock (s : State) (p : Nat) (b : Octets) : Octets :=
  let n := fld b 43 1
  if n = 0 || 4 < n then [] else match memRead s p 0 (fld b 56 8) (36 * n) with
    | .ok o => o
    | .error _ => []

/-- Check 1 of R220: reserved octets, and stop entries beyond their count. -/
def submitFormatOk (b stops : Octets) : Bool :=
  zeroAt b 1 1 && zeroAt b 4 4 && zeroAt b 45 3 && (fld b 43 1 != 0 || zeroAt b 56 8) &&
  (List.range 16).all (fun i => i < fld b 42 1 || fld b (64 + 4 * i) 4 = 0) &&
  (List.range (stops.length / 36)).all (fun i =>
    zeroAt stops (36 * i + 1) 3 && (List.range 8).all (fun j => j < fld stops (36 * i) 1 || fld stops (36 * i + 4 + 4 * j) 4 = 0))

/-- The request of an entry. -/
def reqOf (p h k : Nat) (b stops : Octets) : Req :=
  { chan := h, part := p, entry := k, reqId := fld b 8 8, seq := fld b 2 2, ctxPtr := fld b 16 8, ctxLen := fld b 24 4,
    maxNew := fld b 28 4, temp := BitVec.ofNat 32 (fld b 32 4), topP := BitVec.ofNat 32 (fld b 36 4), topK := fld b 40 2,
    specDraft := fld b 44 1, seed := fld b 48 8,
    stopIds := (List.range (min 16 (fld b 42 1))).map (fun i => fld b (64 + 4 * i) 4)
    stopSeqs := (List.range (stops.length / 36)).map (stopSeqAt stops), raw := b, stopsRaw := stops }

/-- Fields out of range (check 5). -/
def submitRange (s : State) (q : Req) (b stops : Octets) : Bool :=
  let vocab := cfgNat s Key.srvVocabSize
  !(f32Finite q.temp) || f32Lt q.temp 0 || !(f32Lt 0 q.topP) || !(f32Le q.topP 0x3F800000) || 1024 < q.topK || 16 < fld b 42 1 ||
  4 < fld b 43 1 || 15 < q.specDraft || q.maxNew = 0 || 262144 < q.maxNew || q.ctxLen = 0 || 262144 < q.ctxLen ||
  (List.range (stops.length / 36)).any (fun i => fld stops (36 * i) 1 = 0 || 8 < fld stops (36 * i) 1) ||
  (q.stopIds ++ q.stopSeqs.flatten ++ readTokens s q.part q.ctxPtr (min q.ctxLen 262144)).any (fun t => vocab ≤ t)

/-- The wheel in force of the partition has DRAFT layers. -/
def hasDrafts (s : State) (p : Nat) : Bool := (s.whlAt p).inForce.any (fun w => w.layers.any (·.draft))

/-- Checks 3 to 8 of R220, in order. -/
def submitStatus (s : State) (q : Req) (b stops : Octets) : Nat :=
  let d := match seqAt s q.seq with
    | some d => if d.part = q.part then some d else none
    | none => none
  let len := (d.map (·.len)).getD 0
  let mx := (d.map (·.maxLen)).getD 0
  firstBad [
    (d.isNone, St.accessDenied),
    (s.srv.holds.contains q.seq, St.wrongState),
    (submitRange s q b stops, St.outOfRange),
    (q.ctxLen ≤ len, St.lengthMismatch),
    (mx < q.ctxLen || spaceSize s q.part 0 < q.ctxPtr + 4 * q.ctxLen ||
      (fld b 43 1 != 0 && spaceSize s q.part 0 < fld b 56 8 + 36 * fld b 43 1), St.lengthExceedsBuffer),
    (q.specDraft != 0 && !(hasDrafts s q.part), St.configConflict)]

/-- A SUBMIT that is a request: QUEUED with its sequence held, or ended at once. -/
def submit (s : State) (q : Req) (b stops : Octets) : State :=
  let st := submitStatus s q b stops
  let q := { q with named := ((seqAt s q.seq).map (·.len)).getD 0 }
  if st = 0 then addReq { s with srv := { s.srv with holds := s.srv.holds ++ [q.seq] } } q
  else
    let q := { q with named := if st = St.accessDenied then 0 else q.named }
    endReq (addReq s q) q st 0 0 (batchNow s q.chan) 2 false

/-- Reads the channel's next entry when it is no CANCEL. -/
def execSubmit (chan : Nat) (s : State) : Host.Outcome State Fault Refusal :=
  match nextEntry s chan with
  | none => .next s
  | some (_, c, k, .error e) => .next (refuseEntry (entryRead s chan c) chan k e 0 0)
  | some (p, c, k, .ok b) =>
    let op := fld b 0 1
    if op = 2 then .next s
    else
      let s := forgetEnded (entryRead s chan c) chan
      let stops := stopBlock s p b
      if op != 1 || !(submitFormatOk b stops) then .next (refuseEntry s chan k St.formatMismatch op (fld b 8 8))
      else if s.srv.reqs.any (fun q => q.chan = chan && q.reqId = fld b 8 8) then
        .next (refuseEntry s chan k St.configConflict op (fld b 8 8))
      else .next (submit s (reqOf p chan k b stops) b stops)

/-! ## CANCEL (R237) -/

def ackCancel (s : State) (h status reqId terminal : Nat) : State :=
  addRec s h ⟨cancelRecord status reqId terminal, 0, none, batchNow s h, 3⟩

/-- A CANCEL against the request with its REQ_ID. -/
def resolveCancel (s : State) (h reqId : Nat) : State :=
  match s.srv.reqs.find? (fun q => q.chan = h && q.reqId = reqId) with
  | none => ackCancel s h St.unknownRequest reqId 0
  | some q =>
    if q.state = .ended then ackCancel s h St.alreadyComplete reqId q.status
    else if q.cancel then ackCancel s h St.alreadyComplete reqId St.cancelled
    else if q.planned.isSome then ackCancel (setReq s { q with cancel := true }) h St.cancelled reqId 0
    else ackCancel (endNow s q St.cancelled) h St.cancelled reqId 0

/-- Reads the channel's next entry when it is a CANCEL. -/
def execCancel (chan : Nat) (s : State) : Host.Outcome State Fault Refusal :=
  match nextEntry s chan with
  | some (_, c, k, .ok b) =>
    if fld b 0 1 != 2 then .next s
    else
      let s := forgetEnded (entryRead s chan c) chan
      if !(zeroAt b 1 7 && zeroAt b 16 112) then .next (refuseEntry s chan k St.formatMismatch 2 (fld b 8 8))
      else .next (resolveCancel (retire s chan k) chan (fld b 8 8))
  | _ => .next s

/-! ## Transport errors (R222) -/

/-- A queue pair in error ends its channel's requests and closes the channel to input. -/
def qpFails (s : State) (h : Nat) : State :=
  match qpAt s h with
  | some (_, q) =>
    let s := setChan s h (.qp { q with error := true, outstanding := [] })
    ((chans s).filter (fun x => match x.2.chan with
      | some (.req c) => c.qp = h && !c.dead
      | _ => false)).foldl (fun s x => killChannel s (handleAt s x.1)) s
  | none => s

def execQpTransportError (qp : Nat) (s : State) : Host.Outcome State Fault Refusal := .next (qpFails s qp)

/-! ## Plans, invalid sequences and drafts (R215, R216, R235) -/

def execPlanReceive (part : Nat) (plan : Plan) (s : State) : Host.Outcome State Fault Refusal :=
  if srvRole s = 2 && running s && s.srv.step < plan.step && (!s.srv.inStep || s.srv.plan.isNone) then
    .next { s with srv := { s.srv with plan := some (part, plan), mismatchSaid := false } }
  else .next s

/-- The lead ends the request at its next commit fence (R216). -/
def execSeqInvalidReport (part seq chip : Nat) (s : State) : Host.Outcome State Fault Refusal :=
  if srvRole s = 1 && (otherMembers s).contains chip then
    .next { s with srv := { s.srv with reqs := s.srv.reqs.map (fun q =>
      if q.part = part && q.seq = seq && q.live && q.failStatus = 0 then { q with failStatus := St.seqInvalid } else q) } }
  else .next s

/-- The drafted tokens of a verify entry: the lead sends them to the members, a member receives them. -/
def execDraftMessage (part seq : Nat) (drafts : List Nat) (s : State) : Host.Outcome State Fault Refusal :=
  let entry := s.srv.table.find? (fun e => e.seq = seq && e.kind = 2 && e.qlen = drafts.length + 1)
  if s.srv.inStep && running s && entry.isSome && (seqAt s seq).any (fun d => d.part = part) && srvRole s != 0 && (tget [] s.srv.drafts seq).isEmpty then
    let t := { s with srv := { s.srv with drafts := tput [] s.srv.drafts seq drafts } }
    .next (if srvRole s = 1 then (otherMembers s).foldl (fun s c => s.emit (.drafts c seq drafts)) t else t)
  else .next s

/-! ## The commit fence (R227, R232–R234, R237) -/

/-- The named length with j + 1 of the entry's tokens emitted (R227, R234). -/
def namedAt (e : LenEntry) (j : Nat) : Nat := if e.kind = 1 then e.qpos + e.qlen else e.qpos + 1 + j

/-- The stop test that holds after a token, with STOP_INDEX (R233). -/
def stopTest (q : Req) (maxLen : Nat) (e : LenEntry) (j : Nat) (emitted : List Nat) : Option (Nat × Nat) :=
  let tok := emitted.getLast?.getD 0
  let ends (l : List Nat) : Bool := l.length ≤ emitted.length && emitted.drop (emitted.length - l.length) = l
  match q.stopIds.findIdx? (· = tok), q.stopSeqs.findIdx? ends with
  | some i, _ => some (1, i)
  | none, some i => some (2, i)
  | none, none =>
    if emitted.length = q.maxNew then some (3, 0)
    else if namedAt e j = maxLen then some (4, 0)
    else none

/-- Tokens taken in index order, to the one that ends the request: how many, and the reason. -/
def takeTokens (q : Req) (maxLen : Nat) (e : LenEntry) : Nat → List Nat → List Nat → Nat × Option (Nat × Nat)
  | j, _, [] => (j, none)
  | j, emitted, t :: ts =>
    match stopTest q maxLen e j (emitted ++ [t]) with
    | some r => (j + 1, some r)
    | none => takeTokens q maxLen e (j + 1) (emitted ++ [t]) ts

/-- What the fence decides for one request: tokens emitted, drafts accepted, the named length, and the end. -/
structure Decision where
  req : Req
  entry : LenEntry
  tokens : List Nat
  accepted : Nat
  named : Nat
  done : Option (Nat × Nat × Nat)

/-- Whether the entry's last position is sampled: decode, verify, and the last chunk of a prefill. -/
def samples (q : Req) (e : LenEntry) : Bool := e.kind != 1 || e.qpos + e.qlen = q.tokens.length

/-- An outcome that fits its entry: one token, or the accepted drafts and one more. -/
def outcomeFits (s : State) (q : Req) (e : LenEntry) (o : RowOutcome) : Bool :=
  o.failure != 0 || o.nonfinite || !(samples q e) ||
  (if e.kind = 2 then
    let d := tget [] s.srv.drafts q.seq
    o.accepted < e.qlen && o.tokens.length = o.accepted + 1 && d.length + 1 = e.qlen && o.tokens.take o.accepted = d.take o.accepted
   else o.accepted = 0 && o.tokens.length = 1)

/-- The decision for a request with its entry, and its outcome if it has one. -/
def decide1 (s : State) (q : Req) (e : LenEntry) (o : Option RowOutcome) : Decision :=
  let none_ (named : Nat) (done : Option (Nat × Nat × Nat)) : Decision := ⟨q, e, [], 0, named, done⟩
  let maxLen := ((snapSeq s.kv.snap q.part q.seq).map (·.maxLen)).getD 0
  if q.failStatus != 0 then none_ e.qpos (some (q.failStatus, 0, 0))
  else if q.cancel || (s.partAt q.part).state = 2 then none_ e.qpos (some (St.cancelled, 0, 0))
  else match o with
    | none => none_ (e.qpos + e.qlen) none
    | some o =>
      if o.failure != 0 then none_ e.qpos (some (o.failure, 0, 0))
      else if !(samples q e) then none_ (e.qpos + e.qlen) none
      else if o.nonfinite then none_ (namedAt e 0) (some (St.nonfiniteLogits, 0, 0))
      else
        let r := takeTokens q maxLen e 0 q.emitted o.tokens
        ⟨q, e, o.tokens.take r.1, o.accepted, namedAt e (r.1 - 1), r.2.map (fun x => (St.complete, x.1, x.2))⟩

/-- The request after its step. An entry that was removed did not run (R189, R216). -/
def commitReq (s : State) (d : Decision) : Req :=
  let q := d.req
  let ran : Bool := q.failStatus = 0
  let epoch := (s.whlAt q.part).epoch
  { q with
    planned := none, named := d.named, emitted := q.emitted ++ d.tokens
    state := if d.entry.kind = 1 && samples q d.entry then .decode else q.state
    prefilled := q.prefilled + (if ran && d.entry.kind = 1 then d.entry.qlen else 0)
    drafted := q.drafted + (if ran && d.entry.kind = 2 then d.entry.qlen - 1 else 0)
    accepted := q.accepted + d.accepted
    firstStep := if ran && q.firstStep = 0 then s.srv.step else q.firstStep
    lastStep := if ran then s.srv.step else q.lastStep
    firstEpoch := if ran && q.firstStep = 0 then epoch else q.firstEpoch
    lastEpoch := if ran then epoch else q.lastEpoch }

/-- A STEP journal record's entry (R244). -/
def stepEntry (d : Decision) : Octets :=
  let b := natLe 8 d.req.reqId ++ natLe 4 d.req.emitted.length ++ natLe 1 d.tokens.length ++ natLe 3 0 ++ tokenOctets d.tokens
  padTo b ((b.length + 7) / 8 * 8)

/-- Counters of tokens (R246, R340). -/
def countTokens (s : State) (d : Decision) : State :=
  let p := d.req.part
  let drafted := if d.req.failStatus = 0 && d.entry.kind = 2 then d.entry.qlen - 1 else 0
  let srv := { s.srv with
    tokens := tput 0 s.srv.tokens p (tget 0 s.srv.tokens p + d.tokens.length)
    drafted := tput 0 s.srv.drafted p (tget 0 s.srv.drafted p + drafted)
    accepted := tput 0 s.srv.accepted p (tget 0 s.srv.accepted p + d.accepted) }
  State.tel { s with srv := srv } p d.tokens.length 0 0 0

/-- One request's decision takes effect: named length, stream record, and the end with its terminal record. -/
def applyDecision (seqno : Nat) (s : State) (d : Decision) : State :=
  let q := commitReq s d
  let s := countTokens (setReq s q) d
  let s := { s with kv := { s.kv with named := tput none s.kv.named q.seq (some d.named) } }
  let flags := if d.done.isSome then 2 else 0
  let s := if d.tokens.isEmpty then s
    else addRec s q.chan ⟨streamRecord q flags d.accepted (s.whlAt q.part).epoch d.req.emitted.length s.srv.step d.tokens, seqno, none,
      s.srv.step, 1⟩
  match d.done with
  | some (st, reason, idx) => endReq s q st reason idx s.srv.step 1 true
  | none => s

/-- CHECKPOINTs that a holder's loss made due come before the STEP record (R261, R391). -/
def dueCheckpoints (s : State) : State :=
  if s.srv.checkpointDue then
    (s.srv.reqs.filter Req.live).foldl checkpoint { s with srv := { s.srv with checkpointDue := false } }
  else s

/-- The requests of a home vat with entries in the step, in the order of the plan's entries. -/
def fenceReqs (s : State) (v : Nat) : List (Req × LenEntry) :=
  let mine := s.srv.reqs.filterMap (fun q => match q.planned with
    | some e => if homeOf s q.chan = v then some (q, e) else none
    | none => none)
  let byPart := (mine.map (fun x => x.1.part)).eraseDups
  byPart.flatMap (fun p => (mine.filter (fun x => x.1.part = p)).foldl (fun t x =>
    t.takeWhile (fun y => y.2.row ≤ x.2.row) ++ x :: t.dropWhile (fun y => y.2.row ≤ x.2.row)) [])

/-- The fence has what it needs of a request: it is cancelled or removed, or its entry's outcome fits. -/
def fenceReady (s : State) (os : List RowOutcome) (x : Req × LenEntry) : Bool :=
  x.1.failStatus != 0 || x.1.cancel || (s.partAt x.1.part).state = 2 ||
  match os.find? (fun o => o.seq = x.1.seq) with
  | some o => outcomeFits s x.1 x.2 o
  | none => !(samples x.1 x.2)

/-- The fence of one home vat core. -/
def commitFence (s : State) (xs : List (Req × LenEntry)) (os : List RowOutcome) : State :=
  let ds := xs.map (fun x => decide1 s x.1 x.2 (os.find? (fun o => o.seq = x.1.seq)))
  let s := dueCheckpoints s
  let body := ds.filter (fun d => !d.tokens.isEmpty)
  let epoch := ((xs.head?).map (fun x => (s.whlAt x.1.part).epoch)).getD 0
  let j := journalWrite s 2 (natLe 4 epoch ++ natLe 4 body.length ++ body.flatMap stepEntry)
  ds.foldl (applyDecision j.1) j.2

/-- Once every home vat's fence has passed, a partition's release that waited for it goes on (R452). -/
def afterFence (s : State) : State :=
  if s.srv.reqs.any (fun q => q.planned.isSome) then s
  else
    let s := { s with srv := { s.srv with fencePassed := true } }
    ((s.sec.parts.filter (fun q => q.2.state = 2 && q.2.waitFence)).map (·.1)).foldl releaseRest s

def execCommitFence (vat : Nat) (outcomes : List RowOutcome) (s : State) : Host.Outcome State Fault Refusal :=
  let xs := fenceReqs s vat
  if !s.srv.inStep || !(vatServing s vat) || xs.isEmpty || !(xs.all (fenceReady s outcomes)) then .next s
  else .next (afterFence (commitFence s xs outcomes))

/-! ## Journal holders (R243) -/

/-- Octets of the ring each lead gets in the journal area. -/
def ringShare (s : State) : Nat := if hasCave s then cfgNat s Key.srvJournalGib * 2 ^ 30 / 8 else 0

/-- The newest records that fit a ring. -/
def fitRing (n : Nat) : List Octets → List Octets
  | [] => []
  | r :: t => if ((r :: t).map (·.length)).sum ≤ n then r :: t else fitRing n t

/-- A holder stores a lead's record; a lead without a ring is refused when 8 leads have one, or the record does not fit. -/
def execJournalRecord (lead : Nat) (record : Octets) (s : State) : Host.Outcome State Fault Refusal :=
  if s.pwr.state != .s0 && s.pwr.state != .s1 then .next s
  else
    let seqno := fld record 8 8
    let has := s.srv.rings.any (fun r => r.1 = lead)
    if ringShare s < record.length || (!has && 8 ≤ s.srv.rings.length) || record.isEmpty then
      .next (s.emit (.journalAck lead seqno St.noSpace))
    else
      let l := fitRing (ringShare s) (tget [] s.srv.rings lead ++ [record])
      let held := if s.whl.heldFor.contains lead then s.whl.heldFor else s.whl.heldFor ++ [lead]
      .next (({ s with srv := { s.srv with rings := tput [] s.srv.rings lead l }, whl := { s.whl with heldFor := held } }).emit
        (.journalAck lead seqno 0))

/-- A holder (0 or 1) acknowledges a record, or refuses it: it is then lost for journalling (R243). -/
def execJournalAck (holder seqno status : Nat) (s : State) : Host.Outcome State Fault Refusal :=
  if 2 ≤ holder || holderAt s holder = 0 || s.srv.jNext ≤ seqno then .next s
  else if status = 0 then
    .next { s with srv := { s.srv with jAck := lset s.srv.jAck holder (max seqno (s.srv.jAck.getD holder 0)) } }
  else if s.srv.jLost.getD holder true then .next s
  else
    let s := { s with srv := { s.srv with jLost := lset s.srv.jLost holder true } }
    .next (s.writeErr (reportErr status Kind.chip (holderAt s holder) 0))

/-! ## The completion ring (R221) -/

def execCompletionRecordWrite (chan : Nat) (s : State) : Host.Outcome State Fault Refusal :=
  if vatServing s (homeOf s chan) then .next (flushChannel s chan) else .next s

end Sys2Proof.Machine
end

