-- ==== Sys2Proof/Machine/LinkOps.lean ====
section
/-! DEFINITION. Ports: their configuration (R264, R265, R301), bring-up (R294–R296), the board's routes (R281), ports that go
DOWN and what is retransmitted (R274, R278, R298), and chips declared lost (R290, R299, R316, R388). -/

namespace Sys2Proof.Machine

/-! ## Configuration -/

/-- Sub-ports of a port in its split (R264). -/
def subCount (s : State) (p : Nat) : Nat := 2 ^ (s.portAt p).split

/-- The register value in force at offset 0x00 (R301). -/
def portCfgValue (s : State) (p : Nat) : Nat :=
  let q := s.portAt p
  q.split + portMode s p * 4 + b2n q.preemptEn * 16 + b2n q.enable * 32

/-- Transmitters run: neither in reset nor in S3 or S4 (R297). -/
def portsPowered (s : State) : Bool := !(s.pwr.state = .s3 || s.pwr.state = .s4) && !s.pin.reset

/-- A port begins bring-up: straps valid (R40), enabled, and TOPO_CHIP set for ports 0–19 (R45, R294). -/
def mayTrain (s : State) (p : Nat) : Bool :=
  (boardClass s.pin.straps).isSome && (s.portAt p).enable && portsPowered s && (20 ≤ p || ownChip s != 0)

/-- A sub-port as bring-up finds it: nothing of the last link but its accepted calibration. -/
def freshSub (x : SubSt) (st : SubState) (now : Nat) : SubSt := { ({} : SubSt) with state := st, calOk := x.calOk, lastProgress := now }

/-- Every sub-port of a port trains, or stays down. -/
def trainPort (s : State) (p : Nat) : State :=
  let st : SubState := if mayTrain s p then .training else if (s.portAt p).enable then .down else .disabled
  let subs : Tab SubSt := (List.range 4).foldl (fun t k =>
    tput {} t k (if k < subCount s p then freshSub (tget {} t k) st s.time else {})) (s.portAt p).subs
  s.modPort p (fun q => { q with subs := subs })

/-- Ports that wait for a coordinate, power or straps begin bring-up once they may (R45, R294). -/
def trainAll (s : State) : State :=
  (List.range 24).foldl (fun s p =>
    if mayTrain s p && ((List.range (subCount s p)).any (fun k => (s.subAt p k).state = .down)) then trainPort s p else s) s

/-! ## Retransmission (R278) -/

/-- A frame of this module is sent again with RETX, on another path where it can; while none is usable it waits (R278, R280). -/
def resend (s : State) (f : SentFrame) : State :=
  let g := { f with retries := f.retries + 1, port := none, mcast := false }
  if s.fab.waitq.any (sameFrame f) then s else sendFrame s g

/-- Frames that a sub-port carried and that were not link-acknowledged there: this module's own are retransmitted end to end,
its acknowledgements are sent again (R274, R278, R298). -/
def passOn (s : State) (p k : Nat) (x : SubSt) : State :=
  let carried := s.fab.sent.filter (fun f => f.port = some (p * 4 + k) && (portMode s p != 0 || x.replay.any (sameFrame f)))
  let acks := x.replay.filter (fun f => f.typ = 5 && !f.transit)
  let s := carried.foldl resend s
  acks.foldl (fun s f => sendEack s f.dst f.op f.stream f.eseq f.offset f.aux) s

/-- Queue pairs bound to a ROCE port go into error (R293). -/
def portQpsFail (s : State) (p : Nat) : State :=
  ((chans s).filter (fun x => match x.2.chan with
    | some (.qp q) => q.port = p && !q.error
    | _ => false)).foldl (fun s x => qpFails s (handleAt s x.1)) s

/-- What a sub-port held goes on elsewhere once it is no longer UP. -/
def leaveUp (s : State) (p k : Nat) (x : SubSt) : State :=
  let s := passOn s p k x
  if portMode s p = 2 && !((s.portAt p).subs.any (fun q => q.2.state = .up)) then portQpsFail s p else s

/-- A record of the LINK mechanism (R369): event 1 DOWN, 2 retrain, 3 bring-up outcome. -/
def linkErr (p k event status peer : Nat) : ErrRec :=
  { mech := Mech.link, status := status, unitKind := Kind.subPort, unit := p * 4 + k, detailA := event, detailB := peer }

/-- A sub-port leaves its link and trains again on its own (R274, R298). -/
def subDown (s : State) (p k event : Nat) : State :=
  let x := s.subAt p k
  let st : SubState := if mayTrain s p then .training else if (s.portAt p).enable then .down else .disabled
  let t := s.setSub p k (freshSub x st s.time)
  let t := if subCarries x then leaveUp t p k x else t
  t.writeErr (linkErr p k event 0 x.peerChip)

/-- Writes offset 0x00 of PORT_p, or PORT_CFG: status and state (R265, R301, R303). PREEMPT_EN waits for the next frame. -/
def portCfg (s : State) (p v : Nat) : Nat × State :=
  let q := s.portAt p
  let split := bits v 1 0
  let mode := bits v 3 2
  let e := firstBad [
    (split = 3 || mode = 3, St.outOfRange),
    ((if 20 ≤ p then mode != 2 else mode = 2) || (boardPort s p && !(split = 0 && mode = 0)), St.configConflict),
    (q.enable && (split != q.split || mode != portMode s p), St.wrongState)]
  if e != 0 then (e, s)
  else
    let en := bit v 5
    let was := s.portAt p
    let s := s.modPort p (fun q => { q with
      split := split, mode := some mode, enable := en
      preemptPend := if bit v 4 = q.preemptEn then none else some (bit v 4) })
    (St.ok, if en = was.enable then s
      else
        let t := trainPort s p
        if en then t else was.subs.foldl (fun t x => if subCarries x.2 then leaveUp t p x.1 x.2 else t) t)

/-! ## The board's wiring (R41, R42, R281) -/

/-- The partner that R42 wires to a board port: its slot and the port on which the link arrives there. -/
def boardMap (cls slot p : Nat) : Nat × Nat :=
  if cls = 16 then
    let t := if p < slot then p else p + 1
    (t, if slot < t then slot else slot - 1)
  else
    let k := p / 2
    let t := if k < slot then k else k + 1
    (t, 2 * (if slot < t then slot else slot - 1) + p % 2)

/-- Board ports observed to lead to a slot, ascending. -/
def portsTo (s : State) (t : Nat) : List (Nat × Nat × Nat × Nat) := s.fab.wiring.filter (fun w => w.2.1 = t)

/-- A path word (R279). -/
def pathWord (port rport next : Nat) (via : Bool) : Word :=
  BitVec.ofNat 32 (port + 2 ^ 7 + rport * 2 ^ 8 + b2n via * 2 ^ 15 + next * 2 ^ 16)

/-- The direct paths to a slot: one on a 16-module board, two on an 8-module board; 0 where no port leads there. -/
def directWords (s : State) (cls t : Nat) : List Word :=
  let n := if cls = 16 then 1 else 2
  (((portsTo s t).map (fun (w : Nat × Nat × Nat × Nat) => pathWord w.1 w.2.2.2 w.2.2.1 false)) ++ List.replicate n 0).take n

/-- The VIA path through a slot. -/
def viaWord (s : State) (u : Nat) : Word :=
  match portsTo s u with
  | w :: _ => pathWord w.1 w.2.2.2 w.2.2.1 true
  | [] => 0

/-- Slots that follow t, ascending modulo the board, without t and the module's own. -/
def viaSlots (cls slot t : Nat) : List Nat :=
  ((List.range (cls - 1)).map (fun i => (t + 1 + i) % cls)).filter (· != slot)

/-- The entry of a board peer: its direct paths, then VIA paths. -/
def boardEntry (s : State) (cls t : Nat) : List Word :=
  (directWords s cls t ++ (viaSlots cls (strappedSlot s) t).map (viaWord s) ++ List.replicate 8 0).take 8

/-- Firmware fills the entries of the board peers it has observed (R281; after ADOPT, R295). -/
def boardRoutes (s : State) : State :=
  match boardClass s.pin.straps with
  | some cls =>
    if cls = 0 then s
    else
      s.fab.wiring.foldl (fun s w =>
        let es := boardEntry s cls w.2.1
        { s with fab := { s.fab with routes := es.zipIdx.foldl (fun t e => tput 0 t (w.2.2.1 * 8 + e.2) e.1) s.fab.routes } }) s
  | none => s

/-- A chip whose route entry firmware keeps (R281). -/
def boardPeer (s : State) (chip : Nat) : Bool := s.fab.wiring.any (fun w => w.2.2.1 = chip)

/-! ## UP -/

/-- A chip that is heard again after it was declared lost is routed to again (entry 80). -/
def foundAgain (s : State) (chip : Nat) : State := { s with fab := { s.fab with lost := s.fab.lost.filter (· != chip) } }

/-- A sub-port goes UP: credits from the partner's HELLO, LSEQ from 1 (R294). A board port's partner takes its routes. -/
def goUp (s : State) (p k : Nat) : State :=
  let x := s.subAt p k
  let s := s.setSub p k { x with
    state := .up, ver := x.peerVer, credits := x.peerCredits, txNext := 1, rxNext := 1, unacked := 0, naked := false, replay := [],
    replayTries := 0, lastRx := s.time, lastTx := s.time, lastProgress := s.time }
  let s := foundAgain (s.writeErr (linkErr p k 3 0 x.peerChip)) x.peerChip
  if boardPort s p && k = 0 then
    flushWaiting (boardRoutes { s with fab := { s.fab with wiring := tput (0, 0, 0) s.fab.wiring p (x.peerSlot, x.peerChip, x.peerPort) } })
  else flushWaiting s

/-! ## A chip is lost (R299) -/

/-- Whether a channel joins this module to a chip. -/
def chanNames (x : Chan) (chip : Nat) : Bool :=
  match x with
  | .stream t => t.chip = chip
  | .group g => g.chips.contains chip
  | .coll c => c.chips.contains chip
  | _ => false

/-- A channel loses its partner: streams and collectives end, groups break, with the records of R290 and R316. -/
def chanLoses (s : State) (slot : Nat) : State :=
  let part := (s.slotAt slot).part
  match (s.slotAt slot).chan with
  | some (.stream _) => endChan s slot St.peerLost
  | some (.coll x) =>
    let t := endChan s slot St.peerLost
    if x.broken then t else t.writeErr { (reportErr St.collMemberLost Kind.module 0 part) with tag := x.collId }
  | some (.group g) =>
    if g.broken then s else (breakGroup s slot).writeErr { (reportErr St.peerLost Kind.module 0 part) with tag := handleAt s slot }
  | _ => s

/-- The lead's holder is lost: it journals to the other alone, and records that waited may be written (R243). -/
def holderLost (s : State) (chip status : Nat) : State :=
  let idx := ((holders s).zipIdx.filter (fun h => h.1 = chip && !(s.srv.jLost.getD h.2 false))).map (·.2)
  if idx.isEmpty || cfgNat s Key.srvJournalEn = 0 then s
  else
    let s := { s with srv := { s.srv with jLost := idx.foldl (fun l i => lset l i true) s.srv.jLost } }
    let s := s.writeErr (reportErr status Kind.chip chip 0)
    (chans s).foldl (fun s q => flushChannel s (handleAt s q.1)) s

/-- Chips of the serving group (R246). -/
def srvChips (s : State) : List Nat :=
  let o := tget [] s.dic.vals Key.srvGroupTable
  (List.range (o.length / 2)).map (fun i => fld o (2 * i) 2)

/-- A member of the serving group is lost: the lead abandons its step and holds every live request; a member discards its
partial work (R388). -/
def memberLost (s : State) : State :=
  let lead : Bool := cfgNat s Key.srvRole = 1
  let s := abandonStep s lead
  if lead then
    { s with srv := { s.srv with reqs := s.srv.reqs.map (fun q =>
        if q.state = .prefill || q.state = .decode then { q with replayHeld := true } else q) } }
  else s

/-- A chip is declared lost (R299). -/
def chipIsLost (s : State) (chip : Nat) : State :=
  if chipLost s chip || chip = 0 then s
  else
    let s := { s with
      fab := { s.fab with
        lost := s.fab.lost ++ [chip], peers := s.fab.peers.filter (· != chip), kept := s.fab.kept.filter (· != chip)
        peerVer := tput 0 s.fab.peerVer chip 0 }
      syn := { s.syn with waiters := s.syn.waiters.filter (fun w => match w.by_ with
        | .wire f => f.srcChip != chip
        | _ => true) }
      srv := { s.srv with rings := s.srv.rings.filter (fun r => r.1 != chip) } }
    let mine := ((chans s).filter (fun q => q.2.chan.any (fun x => chanNames x chip))).map (·.1)
    let s := mine.foldl chanLoses s
    let left := s.fab.sent.filter (fun f => f.dst = chip)
    let s := { s with fab := { s.fab with
      sent := s.fab.sent.filter (fun f => f.dst != chip), waitq := s.fab.waitq.filter (fun f => f.dst != chip) } }
    let s := left.foldl (fun s f => failFrame s f St.peerLost) s
    let s := (s.syn.requests.filter (fun r => addrChip r.addr = chip)).foldl (fun s r => failRequest s r St.peerLost) s
    let s := s.writeErr { mech := Mech.peer, status := St.peerLost, unitKind := Kind.chip, unit := chip, detailA := 4, detailB := chip }
    let s := holderLost s chip St.peerLost
    if cfgNat s Key.srvRole != 0 && (srvChips s).contains chip then memberLost s else s

end Sys2Proof.Machine
end

