-- ==== Sys2Proof/Machine/PeerOps.lean ====
section
/-! DEFINITION. Commands that name peer chips: the peers' reports, the peer policy (R454), and commands that wait for them when
they come over FAP. -/

namespace Sys2Proof.Machine

/-- LIFECYCLE as the one-way fuses give it, in the codes of R338: the state of the highest bit blown, BLANK when none is (R432). -/
def lifecycleOf (s : State) : Nat := if s.fuse.lifecycleBits = 0 then 0 else Nat.log2 s.fuse.lifecycleBits.toNat + 1

/-- LIFECYCLE codes (R338). -/
abbrev Lc.blank : Nat := 0
abbrev Lc.vendorTest : Nat := 1
abbrev Lc.provisioned : Nat := 2
abbrev Lc.deployed : Nat := 3
abbrev Lc.returned : Nat := 4
abbrev Lc.scrapped : Nat := 5

def reportOf (peers : List PeerReport) (chip : Nat) : Option PeerReport := peers.find? (fun r => r.chip = chip)

/-- The peer session opens: its chain reaches Renzel's root, and the policy admits what it measures (R454). -/
def peerTrusted (s : State) (peers : List PeerReport) (chip : Nat) : Bool :=
  s.fab.peers.contains chip || match reportOf peers chip with
    | some r => r.chainOk && !(lifecycleOf s = Lc.deployed && cfgNat s Key.secPeerPolicy = 1 &&
        (r.lifecycle != Lc.deployed || 1 < r.debugLevel || r.fallback))
    | none => false

/-- Sessions with the chips stay open (R454). -/
def addPeers (s : State) (chips : List Nat) : State :=
  { s with fab := { s.fab with peers := s.fab.peers ++ chips.filter (fun c => !(s.fab.peers.contains c)) } }

/-- The write over FAP of a command that names peers: it runs until they have answered. -/
def peerWaitBody (k : Nat) (sess _p : Nat) (arg : Octets) (s : State) : CmdAns :=
  started { s with dic := { s.dic with waitPeers := s.dic.waitPeers ++ [(k, sess, arg)] } }

/-- A command row that carries what the command waits for: it ends the one that waits for the session, or is a write of its
own. -/
def peerRow (k : Nat) (body : Nat → Nat → Octets → State → CmdAns) (w : Nat → Octets → State → Nat × State)
    (sess : Nat) (arg : Octets) (s : State) : State :=
  match s.dic.waitPeers.find? (fun q => q.1 = k && q.2.1 = sess) with
  | some q =>
    let scope := ((s.dic.running.find? (fun r => r.1 = k && r.2.2 = sess)).map (fun r => r.2.1)).getD 0
    let part := if (objRow k).any (fun r => r.rights &&& 8 != 0) then scope else sessPart s sess
    let s := { s with dic := { s.dic with waitPeers := s.dic.waitPeers.filter (fun x => !(x.1 = k && x.2.1 = sess)) } }
    let a := body sess part q.2.2 s
    if a.running then a.st else cmdEnd a.st k scope a.word
  | none => cmdRow k w sess arg s

/-- MEMBER_CHIP of an argument: the chips of the members, in rank order. -/
def memberChips (b : Octets) (off n : Nat) : List Nat := (List.range n).map (fun i => fld b (off + 2 * i) 2)

/-- Members in range, at least two and at most 64, and nothing after them (R286, R314). -/
def membersOk (b : Octets) (off : Nat) : Bool :=
  let n := fld b 0 1
  2 ≤ n && n ≤ 64 && fld b 1 1 < n && (memberChips b off n).all (fun c => 1 ≤ c && c ≤ 0xFFEF) &&
    zeroAt b (off + 2 * n) (128 - 2 * n)

/-- The module is the member of its rank, and no chip is named twice. -/
def membersFit (s : State) (b : Octets) (off : Nat) : Bool :=
  let cs := memberChips b off (fld b 0 1)
  cs.getD (fld b 1 1) 0 = ownChip s && cs.Nodup

/-- The members but this one. -/
def othersOf (s : State) (cs : List Nat) : List Nat := cs.filter (· != ownChip s)

end Sys2Proof.Machine
end

