-- ==== Sys2Proof/Machine/Takeover.lean ====
section
/-! DEFINITION. Module takeover (R388–R393): REC_ADOPT, REC_REPLACE, REC_REBIND. -/

namespace Sys2Proof.Machine

/-! ## REC_ADOPT (R390) -/

def adoptRange (s : State) (b : Octets) : Nat :=
  if zeroAt b 13 3 && (fld b 12 1 = 1 || fld b 12 1 = 2) && partCreated s (fld b 2 2) then 0 else St.outOfRange

/-- The checks before anything is fetched. -/
def adoptStatus (s : State) (p : Nat) : Nat :=
  firstBad [
    (!(cfgBool s Key.recStandby), St.notStandby),
    ((s.whlAt p).state != 0 || (s.whlAt p).epoch != 0 || cfgNat s Key.srvRole != 0, St.wrongState)]

/-- The images of a wheel whose named slot the partition has no array for. -/
def adoptSpace (s : State) (p : Nat) (w : Wheel) : Bool :=
  w.arrays.all (fun a => slotPart s a.vat a.slot = p && !(s.arrAt (physOf s a.vat a.slot)).fenced && !(vatFenced s a.vat))

/-- The lost lead's journal, kept for the rebinding of its channels. -/
def keepJournal (s : State) (p lost role : Nat) (js : List JournalReq) : State :=
  { s with srv := { s.srv with
    adopted := if role = 1 then js.map (fun j => (lost, j.handle, j)) else [], adoptPart := p, adoptDone := none } }

/-- The fetched envelope is opened and verified, and every image is programmed to its named slot. A module without a cave stages
the envelope in the partition's tier A. -/
def adoptWith (s : State) (p lost epoch role : Nat) (e : Octets) (fetch : AdoptFetch) : CmdAns :=
  match verifyEnvelope s p e.length e fetch.crypto with
  | .error st => if st = St.accessDenied then refuse s St.noSpace else refuse s st
  | .ok w =>
    if !(adoptSpace s p w) then refuse s St.noSpace
    else match (if hasCave s then (freeCave s).map some else some none) with
      | none => refuse s St.noSpace
      | some k =>
        let s := match k with
          | some k => setCave s k (.pending p)
          | none => s
        let s := keepJournal s p lost role fetch.journal
        let s := s.modWhl p (fun x => { x with
          state := 3, mode := 1, pending := some w, pendEnvelope := some e, adopt := some (epoch, role), targets := [] })
        let r := programAll s p w.digest ((inOrder w w.arrays).map (fun a => (physOf s a.vat a.slot, a)))
        let s := r.2.modWhl p (fun x => { x with toReady := r.1 })
        if r.1.isEmpty then doneAt (adoptDone s p) 0 else started s

def recAdoptBody (fetch : AdoptFetch) (_sess _p : Nat) (arg : Octets) (s : State) : CmdAns :=
  let p := fld arg 2 2
  let st := adoptStatus s p
  if st != 0 then refuse s st
  else match fetch.envelope with
    | none => refuse s (if fetch.holdersLost then St.peerLost else St.replicaLost)
    | some e => adoptWith s p (fld arg 0 2) (fld arg 4 4) (fld arg 12 1) e fetch

/-- REC_ADOPT over FAP waits for the fetch. -/
def recAdoptWait : Nat → Octets → State → Nat × State :=
  cmdWrite Key.recAdopt adoptRange (fun sess p arg s =>
    if adoptStatus s (fld arg 2 2) != 0 then refuse s (adoptStatus s (fld arg 2 2)) else peerWaitBody Key.recAdopt sess p arg s)

/-- The fetch of a REC_ADOPT that waits, or the command with its fetch. -/
def execRecAdopt (sess : Nat) (arg : Octets) (fetch : AdoptFetch) (s : State) : Host.Outcome State Fault Refusal :=
  match s.dic.waitPeers.find? (fun q => q.1 = Key.recAdopt && q.2.1 = sess) with
  | some q =>
    let s := { s with dic := { s.dic with waitPeers := s.dic.waitPeers.filter (fun x => !(x.1 = Key.recAdopt && x.2.1 = sess)) } }
    let a := recAdoptBody fetch sess 0 q.2.2 s
    .next (if a.running then a.st else cmdEnd a.st Key.recAdopt 0 a.word)
  | none => .next (cmdRow Key.recAdopt (cmdWrite Key.recAdopt adoptRange (recAdoptBody fetch)) sess arg s)

/-! ## REC_REPLACE (R391) -/

def replaceRange (_ : State) (b : Octets) : Nat := if zeroAt b 6 2 then 0 else St.outOfRange

def replaceStatus (s : State) (b : Octets) : Nat :=
  firstBad [
    (fld b 2 2 != ownChip s && !(reachable s (fld b 2 2)), St.routeUnreachable),
    (!((srvChips s).contains (fld b 0 2)), St.configConflict)]

/-- The coordinator names a member lost: the step in progress is abandoned at once (R388), the table changes at the boundary. -/
def recReplaceBody (sess p : Nat) (arg : Octets) (s : State) : CmdAns :=
  let st := replaceStatus s arg
  if st != 0 then refuse s st else stepPend Key.recReplace sess p arg (memberLost s)

def recReplaceWrite : Nat → Octets → State → Nat × State := cmdWrite Key.recReplace replaceRange recReplaceBody

def execRecReplace (sess : Nat) (arg : Octets) (s : State) : Host.Outcome State Fault Refusal :=
  .next (cmdRow Key.recReplace recReplaceWrite sess arg s)

/-- SRV_GROUP_TABLE with a chip replaced. -/
def replacedTable (o : Octets) (old new : Nat) : Octets :=
  (List.range (o.length / 2)).flatMap (fun i => natLe 2 (if fld o (2 * i) 2 = old then new else fld o (2 * i) 2))

/-- Every live request is prefilled again over its context and emitted tokens, its sequence truncated to 0 on every member. -/
def prefillAll (s : State) : State :=
  let live (q : Req) : Bool := q.state = .prefill || q.state = .decode
  { s with srv := { s.srv with
    truncate := s.srv.truncate ++ (s.srv.reqs.filter live).map (·.seq)
    reqs := s.srv.reqs.map (fun q => if live q then { q with state := .prefill, named := 0, replayHeld := false, planned := none } else q) } }

/-- REC_REPLACE at its boundary: status and state. -/
def recReplaceApply (b : Octets) (s : State) : Nat × State :=
  let st := replaceStatus s b
  if st != 0 then (st, s)
  else
    let old := fld b 0 2
    let new := fld b 2 2
    let s := cfgPut s Key.srvGroupTable (replacedTable (tget [] s.dic.vals Key.srvGroupTable) old new)
    let s := if cfgNat s Key.srvLeadChip = old then cfgPut s Key.srvLeadChip (natLe 2 new) else s
    let s := if srvRole s = 1 then prefillAll { s with srv := { s.srv with checkpointDue := true } } else s
    (0, s.writeErr { (reportErr St.peerLost Kind.chip old (fld b 4 2)) with detailB := new })

/-! ## REC_REBIND (R392) -/

def recoveredRecord (j : JournalReq) (n : Nat) : Octets :=
  rec128 (natLe 1 4 ++ natLe 1 1 ++ List.replicate 6 0 ++ octs j.entry 8 8 ++ natLe 4 n)

def rebindDoneRecord (n : Nat) : Octets := rec128 (natLe 1 5 ++ natLe 1 1 ++ List.replicate 14 0 ++ natLe 4 n)

/-- Stream records of the journaled steps with REPLAY: index, then steps. -/
def replayRecords (q : Req) (ended : Bool) : Nat → List (Nat × Nat × List Nat) → List Octets
  | _, [] => []
  | i, (step, epoch, ts) :: t =>
    streamRecord q (1 + (if ended && t.isEmpty then 2 else 0)) 0 epoch i step (ts.take 16) :: replayRecords q ended (i + ts.length) t

/-- A step's tokens in records of at most 16. -/
def cutSteps (l : List (Nat × Nat × List Nat)) : List (Nat × Nat × List Nat) :=
  l.flatMap (fun e => (List.range ((e.2.2.length + 15) / 16)).map (fun i => (e.1, e.2.1, (e.2.2.drop (16 * i)).take 16)))

/-- A journaled request on its new channel. Its entry numbers lie above every entry the channel reads (entry 84). -/
def adoptedReq (s : State) (p h i : Nat) (j : JournalReq) : Req :=
  let q := reqOf p h (2 ^ 63 + i) j.entry j.stops
  { q with ctx := j.ctx, emitted := j.emitted.flatMap (·.2.2), order := s.srv.order + i, admitTime := s.time, journalAt := s.srv.jBytes
           state := if j.ended.isSome then .ended else .prefill
           status := (j.ended.map (·.1)).getD 0, reason := (j.ended.map (·.2)).getD 0 }

/-- RECOVERED, the replays and the request itself. -/
def rebindOne (p h : Nat) (s : State) (x : JournalReq × Nat) : State :=
  let q := adoptedReq s p h x.2 x.1
  let put (s : State) (o : Octets) (t : Option Nat) : State := addRec s h ⟨o, 0, t, batchNow s h, 3⟩
  let s := put s (recoveredRecord x.1 q.emitted.length) none
  let s := (replayRecords q x.1.ended.isSome 0 (cutSteps x.1.emitted)).foldl (fun s o => put s o none) s
  let s := addReq s q
  if x.1.ended.isSome then put s (completionRecord q 1 s.time) (some q.reqId)
  else { s with srv := { s.srv with holds := s.srv.holds ++ [q.seq], truncate := s.srv.truncate ++ [q.seq] } }

def rebindRange (_ : State) (b : Octets) : Nat := if zeroAt b 2 2 then 0 else St.outOfRange

def recRebindBody (_sess p : Nat) (arg : Octets) (s : State) : CmdAns :=
  let h := fld arg 8 4
  let mine := (s.srv.adopted.filter (fun a => a.1 = fld arg 0 2 && a.2.1 = fld arg 4 4)).map (·.2.2)
  match reqChanAt s h with
  | some (q, _) =>
    if q != p then refuse s St.staleHandle
    else if mine.isEmpty || s.srv.adoptPart != p || s.srv.adoptDone.isNone then refuse s St.rebindUnknown
    else
      let s := { s with srv := { s.srv with adopted := s.srv.adopted.filter (fun a => !(a.1 = fld arg 0 2 && a.2.1 = fld arg 4 4)) } }
      let s := mine.zipIdx.foldl (rebindOne p h) s
      let s := addRec s h ⟨rebindDoneRecord mine.length, 0, none, batchNow s h, 3⟩
      let s := { s with srv := { s.srv with order := s.srv.order + mine.length, checkpointDue := true } }
      doneAt (flushChannel s h) 0
  | none => refuse s St.staleHandle

def recRebindWrite : Nat → Octets → State → Nat × State := cmdWrite Key.recRebind rebindRange recRebindBody

def execRecRebind (sess : Nat) (arg : Octets) (s : State) : Host.Outcome State Fault Refusal :=
  .next (cmdRow Key.recRebind recRebindWrite sess arg s)

/-- Live requests of an old channel that was not rebound end MODULE_LOST: an END record, no completion record. -/
def execRebindTimeout (oldChip oldHandle : Nat) (s : State) : Host.Outcome State Fault Refusal :=
  let hit (a : Nat × Nat × JournalReq) : Bool := a.1 = oldChip && a.2.1 = oldHandle
  match s.srv.adoptDone with
  | none => .next s
  | some t =>
    if !(s.srv.adopted.any hit) then .next s
    else
      let s := s.until (t + cfgNat s Key.recRebindS * 1000000000)
      let gone := (s.srv.adopted.filter (fun a => hit a && a.2.2.ended.isNone)).map (·.2.2)
      let s := { s with srv := { s.srv with adopted := s.srv.adopted.filter (fun a => !(hit a)) } }
      .next (gone.foldl (fun s j =>
        (journalWrite s 3 (octs j.entry 8 8 ++ natLe 2 St.moduleLost ++ natLe 1 0 ++ List.replicate 5 0)).2) s)

end Sys2Proof.Machine
end

