-- ==== Sys2Proof/Machine/PowerOps.lean ====
section
/-! DEFINITION. The power manager (R407–R411), what enters and leaves the states S0–S3 (R398–R402) and with them the memory
tiers (R259, R260), channels and sync objects (R322), pending values (R18), wheels (R144) and remaps (R382), and the
ordered and fast stops (R417–R420). -/

namespace Sys2Proof.Machine

/-! ## The throttle (R407, R408) -/

/-- n_eff: the largest of the three indices. -/
def nEffOf (p : PwrSt) : Nat := max p.nThermal (max p.nPower p.nBrake)

/-- G₀ = 3,912 / V. -/
def gZero (s : State) : Nat := 3912 / (vatsOf s).length

/-- G_v at a throttle index. -/
def gvAt (s : State) (n : Nat) : Nat := gZero s * (16 - n) / 16

/-- A revoked array keeps its accepted products and asks again at the head of its vat's queue; a brine slice ends. -/
def revoke (s : State) (n : Nat) : State :=
  if (s.arrAt n).underTest then sliceEnds s (.array n) else askGrant (returnGrant s n) n true

/-- A vat gives up the grants beyond G_v, those granted most recently first. -/
def revokeVat (s : State) (v : Nat) : State :=
  let g := (s.vatAt v).grants
  (g.take (g.length - s.pwr.gV)).foldl revoke s

/-- N_EFF, G_V and CAP from the three indices, and the revocations. -/
def throttle (s : State) : State :=
  let n := nEffOf s.pwr
  let s := { s with pwr := { s.pwr with nEff := n, gV := gvAt s n, cap := (vatsOf s).length * gvAt s n } }
  (vatsOf s).foldl revokeVat s

/-- PWR_BRAKE_N applies: n_brake is PWR_BRAKE_LEVEL (R411). -/
def applyBrake (s : State) : State :=
  throttle { s with pwr := { s.pwr with nBrake := cfgNat s Key.pwrBrakeLevel } }

/-! ## Idleness (R399) -/

def arrWorks (a : ArrSt) : Bool := !a.products.isEmpty || !a.waiting.isEmpty || a.stuck.isSome

/-- No product is queued or in flight and no task is queued or running. -/
def workIdle (s : State) : Bool :=
  s.arr.all (fun q => !(arrWorks q.2)) && s.eng.eng.all (fun q => q.2.queue.isEmpty && q.2.run.isNone) &&
  s.vat.all (fun q => q.2.overflow.isEmpty)

def collRuns (c : ChanSlot) : Bool :=
  match c.chan with
  | some (.coll x) => x.finished < x.started
  | _ => false

/-- Idle as R399 defines it. -/
def moduleIdle (s : State) : Bool :=
  workIdle s && !s.srv.inStep && s.arr.all (fun q => q.2.prog.isNone && !q.2.calActive && !q.2.underTest) &&
  s.vat.all (fun q => q.2.calState != 1) && s.eng.eng.all (fun q => !q.2.underTest) &&
  (chans s).all (fun q => !(collRuns q.2)) && s.whl.parts.all (fun q => !([3, 5, 6, 7, 8].contains q.2.state))

/-- The latest end of work that arrays and engines remember, or the module's last coming to S0. -/
def idleFrom (s : State) : Nat :=
  let a := s.arr.foldl (fun m q => max m q.2.idleSince) s.pwr.idleSince
  s.eng.eng.foldl (fun m q => max m q.2.idleSince) a

/-- A request is queued or live (R399). -/
def requestsActive (s : State) : Bool := s.srv.reqs.any Req.active

/-! ## Memory tiers and vats (R259, R398) -/

/-- PSTATE of tier A and of the cave. -/
def setTiers (s : State) (a b : Nat) : State :=
  (List.range 8).foldl (fun s k =>
    if slicePresent s k then s.setSlice k { s.sliceAt k with pstate := if k < 6 then a else b } else s) s

/-- Every vat is gated, with its arrays and engines. -/
def gateVats (s : State) : State :=
  let s := { s with
    arr := tmapv {} (fun a => { a with awake := false, waking := none }) s.arr
    eng := { s.eng with eng := tmapv {} (fun e => { e with awake := false, claim := none, tried := [] }) s.eng.eng } }
  (vatsOf s).foldl (fun s v => s.modVat v (fun t => { t with gated := true })) s

/-- Present vats that are not fenced are powered again, their heartbeats watched from now. -/
def ungateVats (s : State) : State :=
  (vatsOf s).foldl (fun s v =>
    if vatFenced s v then s else s.modVat v (fun t => { t with gated := false, missed := 0, lastBeat := s.time })) s

/-! ## What a loss of power takes away -/

/-- An array without power: weights, periphery store and the values in force stay; its work, its pending values and a partly
written image do not (R18, R144, R398). -/
def arrPowerless (a : ArrSt) : ArrSt :=
  let b := { a with
    awake := false, waking := none, granted := false, calActive := false, underTest := false, waiting := [], products := []
    inbox := [], stuck := none, pend := [], tapsPend := [], prog := none }
  if a.prog.isSome then { erased b with ready := false } else b

def vatPowerless (t : VatSt) : VatSt :=
  { t with
    grants := [], asking := [], overflow := [], remaps := [], calState := if t.calState = 1 then 0 else t.calState
    calCmd := false, gated := true, railOut := false }

/-- What scratch holds after power was off is not known: a content of its own (R148). -/
def engPowerless (k : Nat) (e : EngSt) : EngSt :=
  { e with
    awake := false, underTest := false, run := none, queue := [], claim := none, tried := [], poolPend := none, scratch := some k }

/-- Arrays, engines and vats lose their work. -/
def stopUnits (s : State) : State :=
  { s with
    arr := tmapv {} arrPowerless s.arr, vat := tmapv {} vatPowerless s.vat
    eng := { s.eng with
      eng := tmapv {} (engPowerless s.eng.nextKey) s.eng.eng, nextKey := s.eng.nextKey + 1, duals := [], selDue := []
      bufs := s.eng.bufs.map (fun q => (q.1, { q.2 with w := 0, r := 0 })), pkgs := [] } }

/-- The step in progress, the tracker's requests and their records end with the channels. -/
def stopServing (s : State) : State :=
  { s with
    srv := { s.srv with
      inStep := false, plan := none, table := [], drafts := [], fencePassed := false, reqs := [], recs := [], unhold := [], holds := []
      truncate := [], law := [], mismatchSaid := false }
    kv := { s.kv with snap := [], appends := [], named := [] }
    emb := { s.emb with snapTables := [], snapDir := [], dir := [], sketch := [], cands := [], decay := [] } }

/-- Every transmitter is idle; links are gone, and with them what they held (R297). -/
def stopPorts (s : State) : State :=
  let idle (q : PortSt) : PortSt :=
    { q with preemptPend := none, subs := tmapv {} (fun x => freshSub x (if q.enable then .down else .disabled) s.time) q.subs }
  { s with
    fab := { s.fab with
      ports := tmapv {} idle s.fab.ports, sent := [], waitq := [], peers := [], kept := [], peerVer := [], heard := [] }
    pin := { s.pin with txIdle := true } }

/-- A sync object over S3: allocation and threshold settings stay (R322). -/
def syncOverS3 (o : SyncObj) : SyncObj :=
  if o.alloc then { o with c := 0, gen := 0, thr := o.stride.setWidth 64, broken := false, rootLocal := none, unicast := [] } else {}

/-- Every channel of types 1–6 ends and its slot is freed; waiters fail with PEER_LOST (R322). -/
def stopChannels (s : State) : State :=
  let ws := s.syn.waiters
  let rs := s.syn.requests
  let s := { s with syn := { s.syn with waiters := [], flights := [], fences := [], fenceStatus := [], lateStatus := [], remoteSeen := [] } }
  let s := ws.foldl (fun s w => answerSync s w.by_ 3 0 St.peerLost) s
  let s := rs.foldl (fun s r => failRequest s r St.peerLost) s
  let mine := ((chans s).filter (fun q => q.2.chan.any (fun c => chanType c != 7))).map (·.1)
  let s := mine.foldl closeChan s
  let s := { s with syn := { s.syn with objs := tmapv {} syncOverS3 s.syn.objs } }
  { s with fab := { s.fab with sent := [], waitq := [] } }

/-- A replacement at the entry to S3 (R144). -/
def wheelAtS3 (status : Nat) (s : State) (p : Nat) : State :=
  let s := s.modWhl p (fun w => { w with poolLayers := [], poolDone := [], envelope := if hasCave s then w.envelope else none })
  let w := s.whlAt p
  let free (w : WhlSt) : WhlSt :=
    { w with
      arming := none, held := false, paused := false, arrived := false, holdSince := none, alarmed := false, rollback := false
      abortSeen := false, verifying := false, targets := [], toReady := [] }
  if w.adopt.isSome then adoptFails s p status
  else if w.state = 8 then
    s.modWhl p (fun w => { w with state := 9, arrived := false, rollback := false, abortSeen := false, toReady := [] })
  else if w.state = 9 || w.state = 0 then s
  else if 2 ≤ w.state && w.pendEnvelope.isSome && caveHas s (.pending p) then s.modWhl p (fun w => { free w with state := 2 })
  else (dropPending s p).modWhl p free

/-- Commands that wait at an entry to S3: those of a STEP boundary are discarded with WRONG_STATE (R18); others that the module
can no longer carry out end with a status. -/
def stopCommands (s : State) (status : Nat) : State :=
  let s := s.dic.stepCmds.foldl (fun s c => stepDone c St.wrongState s) { s with dic := { s.dic with pend := [], stepCmds := [] } }
  let goes (k : Nat) : Bool :=
    k != Key.lcTransition && k != Key.secPartRelease && !((objRow k).any (fun r => bit r.flags 3))
  let rs := s.dic.running.filter (fun r => goes r.1)
  rs.foldl (fun s r => cmdEnd s r.1 r.2.1 (cmdWord 2 status 0 0))
    { s with dic := { s.dic with waitPeers := s.dic.waitPeers.filter (fun q => !(goes q.1)) } }

/-- A pending SLOT value of the monitor goes with the others, and so does a clear that waits (R18). -/
def stopSlots (s : State) : State :=
  let s := if s.pwr.clearWait = 0 then s else cmdEnd s Key.monClear 0 (cmdWord 3 St.wrongState 0 0)
  { s with pwr := { s.pwr with
    clearWait := 0
    seqs := tmapv {} (fun q => { q with pend := [], clearDue := false }) s.pwr.seqs
    convs := tmapv {} (fun c => { c with gainPend := none, offsetPend := none }) s.pwr.convs } }

/-- The contents of tier A are lost (R259); it is zeroed before any access at the wake (R260). -/
def loseTierA (s : State) : State :=
  let s := zeroKeys s (fun k => k / 2 ^ 40 < 6)
  (List.range 6).foldl (fun s k =>
    if slicePresent s k then s.setSlice k { s.sliceAt k with trained := false, corrected := [] } else s) s

/-- Sequences keep their descriptors with LEN 0; a module without a cave has nowhere to save them (R260). -/
def loseTables (s : State) : State :=
  if hasCave s then
    { s with kv := { s.kv with seqs := tmapv none (fun (d : Option SeqD) => d.map (fun d => { d with len := 0 })) s.kv.seqs } }
  else { s with kv := { s.kv with seqs := [] }, emb := { s.emb with tables := [] } }

/-! ## Entry (R398, R399) -/

/-- A debug level above OBSERVE does not outlast the entry to S3; every change of the level ends the sessions and makes a new AK
(R349, R445, R463). -/
def setDebug (s : State) (level until_ : Nat) : State :=
  if s.sec.debug = level then { s with sec := { s.sec with debugUntil := until_ } }
  else
    let t := endAllSessions s
    { t with
      sec := { t.sec with debug := level, debugUntil := until_, akGen := t.sec.akGen + 1 }
      flt := { t.flt with halted := if level < 2 then [] else t.flt.halted } }

/-- A partition that waited for the commit fence of a step that is gone is released (R452). -/
def releaseWaiting (s : State) : State :=
  (s.sec.parts.filter (fun q => q.2.waitFence)).foldl (fun s q => releaseRest s q.1) s

/-- Entry to S3, with the status that commands under way end with. -/
def enterS3 (status : Nat) (s : State) : State :=
  let s := stopPorts (abandonStep s false)
  let s := stopCommands s status
  let s := (s.whl.parts.map (·.1)).foldl (wheelAtS3 status) s
  let s := stopServing (stopUnits (stopChannels s))
  let s := releaseWaiting (stopSlots (loseTables (loseTierA s)))
  let s := gateVats (setTiers s 3 2)
  let s := if 2 ≤ s.sec.debug then setDebug s 0 0 else s
  { s with pwr := { s.pwr with state := .s3, entering := none, exiting := false, coreLock := false, refLock := false } }

/-- S1: core PLLs off, vats gated, tier A in self-refresh, the cave in power-down. -/
def enterS1 (s : State) : State :=
  let s := gateVats (setTiers s 2 1)
  { s with pwr := { s.pwr with state := .s1, entering := none, coreLock := false } }

/-- The UP ports of a DIRECT link whose two ends advertise doze (R300). -/
def dozePorts (s : State) : List (Nat × Nat) :=
  (List.range 24).flatMap (fun p => ((List.range 4).filter (fun k =>
    portMode s p = 0 && (s.subAt p k).state = .up && (s.subAt p k).peerDoze)).map (fun k => (p, k)))

/-- S2: as S1, both tiers in self-refresh; DOZE_REQ goes to the partners. -/
def enterS2 (s : State) : State :=
  let s := (dozePorts s).foldl (fun s x =>
    (sendLink s x.1 x.2 5 0).modSub x.1 x.2 (fun y => { y with dozeSent := true })) s
  let s := gateVats (setTiers s 2 2)
  { s with pwr := { s.pwr with state := .s2, entering := none, coreLock := false } }

/-! ## Exit (R400, R401) -/

/-- WAKE returns dozing ports to UP (R300). -/
def wakePorts (s : State) : State :=
  (List.range 24).foldl (fun s p => (List.range 4).foldl (fun s k =>
    let x := s.subAt p k
    if x.state = .doze then (sendLink s p k 7 0).modSub p k (fun y => { y with state := .up })
    else if x.dozeSent then s.modSub p k (fun y => { y with dozeSent := false })
    else s) s) s

/-- Slots in use whose array is fenced get a target again (R382). -/
def retryRemaps (s : State) : State :=
  (s.arr.filter (fun q => q.2.fenced)).foldl (fun s q =>
    let v := q.1 / 2176
    match slotOf s q.1 with
    | some l =>
      let p := slotPart s v l
      if slotInUse s p v l && !(vatFenced s v) && !((s.vatAt v).noTarget.contains l) then (beginRemap s p v l q.1 []).2 else s
    | none => s) s

/-- A partition left INCOMPLETE is rewritten from its PENDING slot before any step; without the slot it waits for a replica
holder (R144). -/
def resumeRewrites (s : State) : State :=
  (s.whl.parts.filter (fun q => q.2.state = 9)).foldl (fun s q =>
    if caveHas s (.pending q.1) then startRewrite s q.1 else s) s

/-- SerDes and memory interfaces train on the way out of S3: the calibration is taken as accepted (entry 85). -/
def trainS3 (s : State) : State :=
  let s := (List.range 6).foldl (fun s k => if slicePresent s k then s.setSlice k { s.sliceAt k with trained := true } else s) s
  let s := (List.range 24).foldl (fun s p => (List.range (subCount s p)).foldl (fun s k =>
    s.modSub p k (fun x => { x with calOk := true })) s) s
  trainAll { s with pin := { s.pin with txIdle := false } }

/-- The state is S0: clocks, tiers and vats are back, the brake applies if it is still asserted, and the command that asked for
it is done (R401, R402). -/
def exitToS0 (s : State) : State :=
  let was := s.pwr.state
  let s := setTiers (ungateVats s) 0 0
  let s := { s with pwr := { s.pwr with
    state := .s0, exiting := false, entering := none, kept := [], coreLock := true, refLock := if was = .s3 then true else s.pwr.refLock
    idleSince := s.time } }
  let s := if was = .s2 then wakePorts s else s
  let s := if was = .s3 then retryRemaps (resumeRewrites (trainS3 s)) else s
  let s := if s.pwr.brakeIn && s.pwr.nBrake = 0 then applyBrake s else s
  cmdEnd s Key.pwrStateReq 0 (cmdWord 2 0 0 0)

/-! ## Stopping on heat (R417–R420) -/

/-- A PWR_STATE_REQ under way ends with the stop. -/
def stopRequest (s : State) : State :=
  let t := cmdEnd s Key.pwrStateReq 0 (cmdWord 2 St.thermalStop 0 0)
  { t with pwr := { t.pwr with waitReq := none, kept := t.pwr.kept.filter (· != .stateReq), exiting := false } }

/-- THERMAL_HOLD and the counter of the kind of stop (R418–R420, R431). -/
def holdOn (s : State) : State :=
  let p := s.pwr
  { s with pwr := { p with
    hold := true
    orderedStops := if p.stop = 1 then Word.bump p.orderedStops 1 else p.orderedStops
    fastStops := if p.stop = 2 then Word.bump p.fastStops 1 else p.fastStops } }

/-- A fast stop: nothing further is sent; requests that have no END record at the holders stay live in the journal (R419). -/
def fastStop (s : State) : State :=
  let s := stopRequest { s with pwr := { s.pwr with stop := 2 } }
  holdOn (enterS3 St.thermalStop s)

/-- An ordered stop begins: no launch and no task starts, a step before its commit fence is abandoned, and on a module that
tracks requests each ends with THERMAL_STOP (R418). -/
def orderedStop (s : State) : State :=
  let s := stopRequest { s with pwr := { s.pwr with stop := 1, stopBegan := s.time, entering := some .s3 } }
  let s := abandonStep s false
  let s := { s with eng := { s.eng with eng := tmapv {} (fun e => { e with run := none }) s.eng.eng } }
  if cfgNat s Key.srvRole = 2 then s
  else
    let s := (s.srv.reqs.filter Req.active).foldl (fun s q => endNow s q St.thermalStop) s
    (chans s).foldl (fun s q => flushChannel s (handleAt s q.1)) s

/-- Steps 1 to 3 of an ordered stop are done: no pass is in flight, no step in progress, every record is written. -/
def orderedReady (s : State) : Bool :=
  s.arr.all (fun q => q.2.products.all (fun p => p.inFlight.isEmpty)) && !s.srv.inStep && s.srv.recs.isEmpty

/-- Steps 4 and 5. -/
def orderedEnd (s : State) : State :=
  let s := s.writeErr { (reportErr St.thermalStop Kind.module 0 0) with mech := Mech.environment }
  holdOn (enterS3 St.thermalStop s)

/-- Time left before 115 °C is at least `ms` milliseconds: t_left = (115 − T) / r, infinite when r ≤ 0. -/
def timeLeft (t r ms : Int) : Bool := r ≤ 0 || ms * r ≤ 1840 - t

/-- A sample with the hottest reading and its rate begins a stop, or decides again during an ordered one (R417). -/
def thermalStop (s : State) (t r : Int) : State :=
  if s.pwr.stop = 1 then (if timeLeft t r 1 then s else fastStop s)
  else if s.pwr.stop = 0 && !s.pwr.hold && 1680 < t then (if timeLeft t r 2 then orderedStop s else fastStop s)
  else s

/-- The hold ends once every healthy sensor reads below THM_RESUME_C; kept wake events then act (R420). -/
def holdOff (s : State) : State :=
  if s.pwr.hold && s.pwr.sensors.all (fun q => !q.2.healthy || q.2.temp < 16 * (cfgNat s Key.thmResumeC : Int)) then
    { s with pwr := { s.pwr with hold := false, stop := 0, exiting := !s.pwr.kept.isEmpty } }
  else s

end Sys2Proof.Machine
end

