-- ==== Sys2Proof/Machine/SecOps.lean ====
section
/-! DEFINITION. Shared operations of the security core: enrolment rows (R439), assignments (R450, R451), retained images (R453),
lifecycle transitions (R446, R447), unlock tokens (R461, R462), images (R440, R441, R443) and memory keys (R467). -/

namespace Sys2Proof.Machine

/-! ## Enrolment (R438, R439) -/

/-- A row as SEC_ENROLL lays it out. -/
structure EnrollArg where
  cls : Nat
  part : Nat
  rsv : Bool
  digest : Octets

def enrollArg (b : Octets) : EnrollArg := ⟨fld b 0 1, fld b 2 2, zeroAt b 1 1 && zeroAt b 4 4, octs b 8 48⟩

/-- The row a write leaves: none when it clears it. -/
def EnrollArg.row (a : EnrollArg) : Option (Nat × Nat × Octets) := if a.cls = 0 then none else some (a.cls + 1, a.part, a.digest)

/-- Values no row takes. -/
def EnrollArg.bad (a : EnrollArg) : Bool :=
  3 < a.cls || !a.rsv || (a.cls = 1 && a.part != 0) || ((a.cls = 2 || a.cls = 3) && (a.part = 0 || 255 < a.part))

def enrollPut (t : Tab (Option (Nat × Nat × Octets))) (row : Nat) (rows : List Octets) : Tab (Option (Nat × Nat × Octets)) :=
  rows.zipIdx.foldl (fun t r => tput none t (row + r.2) (enrollArg r.1).row) t

def operatorRow (t : Tab (Option (Nat × Nat × Octets))) : Bool := t.any (fun r => r.2.any (fun x => x.1 = 2))

/-- The refusals of a row write (R439). -/
def enrollStatus (s : State) (row : Nat) (rows : List Octets) : Nat :=
  firstBad [
    (rows.any (fun r => (enrollArg r).bad), St.outOfRange),
    (rows.any (fun r => (enrollArg r).cls = 3 && !(partCreated s (enrollArg r).part)), St.wrongState),
    (lifecycleOf s = Lc.deployed && !(operatorRow (enrollPut s.sec.enroll row rows)), St.configConflict)]

/-- An OWNER row for the key is enrolled, for whichever partition. -/
def ownerKeyKept (s : State) (key : Octets) : Bool := s.sec.enroll.any (fun r => r.2.any (fun x => x.1 = 3 && x.2.2 = key))

/-- Retained arrays whose owner key has no row left are erased (R453). -/
def dropRetained (s : State) : State :=
  { s with arr := tmapv {} (fun a => match a.retained with
    | some k => if ownerKeyKept s k.2 then a else erased a
    | none => a) s.arr }

/-- Rows are written: sessions admitted through them end. -/
def enrollApply (s : State) (row : Nat) (rows : List Octets) : State :=
  let hit (x : Session) : Bool := x.row.any (fun r => row ≤ r && r < row + rows.length)
  let s := endSessionsWhere s hit
  dropRetained { s with sec := { s.sec with enroll := enrollPut s.sec.enroll row rows } }

/-- Every retained image is erased (R447, R460). -/
def eraseRetained (s : State) : State :=
  { s with arr := tmapv {} (fun a => if a.retained.isSome then erased a else a) s.arr }

/-! ## Assignments (R450, R451) -/

structure AssignArg where
  part : Nat
  vat : Nat
  kind : Nat
  first : Nat
  count : Nat
  mask : Nat

def assignArg (b : Octets) : AssignArg := ⟨fld b 0 2, fld b 2 1, fld b 3 1, fld b 4 2, fld b 6 2, fld b 8 8⟩

/-- A field that the KIND does not use, KIND or VAT is out of range. -/
def AssignArg.bad (a : AssignArg) : Bool :=
  a.kind = 0 || 3 < a.kind || 7 < a.vat || (a.kind = 1 && a.mask != 0) || (a.kind != 1 && (a.first != 0 || a.count != 0)) ||
  (a.kind = 3 && 2 ^ 16 ≤ a.mask)

/-- The assignment alone. -/
def assignSet (s : State) (a : AssignArg) : State :=
  let q := s.partAt a.part
  if a.kind = 1 then s.setPart a.part { q with arrays := tput (0, 0) q.arrays a.vat (if a.count = 0 then (0, 0) else (a.first, a.count)) }
  else if a.kind = 2 then s.setPart a.part { q with engines := tput 0 q.engines a.vat a.mask }
  else s.setPart a.part { q with tables := tput 0 q.tables a.vat a.mask }

def inRange (r : Nat × Nat) (l : Nat) : Bool := r.1 ≤ l && l < r.1 + r.2

/-- Logical slots of the vat that the partition gives up. -/
def removedSlots (s : State) (a : AssignArg) : List Nat :=
  if a.kind = 1 then (partSlots s a.part a.vat).filter (fun l => !(inRange (a.first, a.count) l)) else []

/-- Custom table slots of the vat that the partition gives up. -/
def removedTables (s : State) (a : AssignArg) : List Nat :=
  if a.kind = 3 then (bitsOf (tget 0 (s.partAt a.part).tables a.vat) 16).filter (fun k => !(bit a.mask k)) else []

/-- A table slot named by a wheel of the partition, or by ACT_TABLE of one of its arrays (SHAPE 5). -/
def tableUsed (s : State) (p v k : Nat) : Bool :=
  let w := s.whlAt p
  let named (x : Option Wheel) : Bool := x.any (fun x => x.tables.any (fun t => t.1 = v && t.2.1 = k))
  named w.inForce || named w.pending ||
    (partSlots s p v).any (fun l => let a := s.arrAt (physOf s v l); actShape a = 5 && actTable a = k)

/-- What another partition holds of what is asked for. -/
def heldByOther (s : State) (a : AssignArg) : Bool :=
  s.sec.parts.any (fun q => q.1 != a.part &&
    (if a.kind = 1 then (let r := tget (0, 0) q.2.arrays a.vat; rangesMeet a.first a.count r.1 r.2)
     else if a.kind = 2 then tget 0 q.2.engines a.vat &&& a.mask != 0
     else tget 0 q.2.tables a.vat &&& a.mask != 0))

def engineCount (q : PartSt) : Nat := ((List.range 8).map (fun v => popcount (tget 0 q.engines v) 64)).sum

/-- The checks of R450, in order. -/
def assignStatus (s : State) (b : Octets) : Nat :=
  let a := assignArg b
  let w := s.whlAt a.part
  firstBad [
    (a.bad, St.outOfRange),
    ((s.partAt a.part).state != 1, St.wrongState),
    ((removedSlots s a).any (fun l => wheelNames w.inForce a.vat l || wheelNames w.pending a.vat l), St.wrongState),
    ((removedTables s a).any (tableUsed s a.part a.vat), St.wrongState),
    (!(vatPresent s a.vat), St.unitAbsent),
    (2048 < a.first + a.count, St.lengthExceedsBuffer),
    (heldByOther s a, St.configConflict),
    (a.kind = 2 && engineCount ((assignSet s a).partAt a.part) = 1, St.configConflict)]

/-- The assignments as they will stand once every accepted command has applied. -/
def plannedAssigns (s : State) : State :=
  (s.dic.stepCmds.filter (fun c => c.obj = Key.secPartAssign)).foldl (fun s c => assignSet s (assignArg c.arg)) s

/-- An array joins a partition: erased, unless it holds a retained image that the partition may take (R451, R453). -/
def joinArray (p : Nat) (s : State) (n : Nat) : State :=
  s.modArr n (fun a => match a.retained with
    | some k => if ownerEnrolled s p k.2 then a else erased a
    | none => erased a)

/-- A task of an engine that leaves its partition goes to the partition's engine with the shortest queue, of the same vat first,
free of PIN and LOCAL as a fenced engine's is. -/
def moveTask (p v : Nat) (s : State) (t : Task) : State :=
  let to_ := (argmin (queueLen s) (poolEngines s v p t.pool)).orElse (fun _ =>
    ((vatOrder s v).filterMap (fun u => argmin (queueLen s) (poolEngines s u p t.pool))).head?)
  match to_ with
  | some m => s.modEng m (fun e => { e with queue := e.queue ++ [{ t with freed := true }] })
  | none => s

/-- An engine leaves the partition, after the assignment has changed. -/
def leaveEngine (p : Nat) (s : State) (n : Nat) : State :=
  let s := requeueRunning s n
  let q := (s.engAt n).queue
  let o := ((s.vatAt (n / 64)).overflow.filter (fun x => x.1 = n)).map (·.2)
  let s := s.modEng n (fun e => { e with
    queue := [], part := 0, pool := 0, poolPend := none, claim := none, tried := [], idleSince := s.time })
  let s := s.modVat (n / 64) (fun t => { t with overflow := t.overflow.filter (fun x => x.1 != n) })
  (q ++ o).foldl (fun s t =>
    if t.role = 0 then moveTask p (n / 64) s t
    else match dualOf s t.key with
      | some d => if t.role = 2 then placeSecondary s d else placeThird s d
      | none => s) s

/-- An engine joins the partition with zeroed scratch (R451). -/
def joinEngine (p : Nat) (s : State) (n : Nat) : State := s.modEng n (fun e => { e with part := p, scratch := none })

/-- An accepted assignment at its boundary, checked again. -/
def partAssignApply (b : Octets) (s : State) : Nat × State :=
  let st := assignStatus s b
  if st != 0 then (st, s)
  else
    let a := assignArg b
    let t := assignSet s a
    if a.kind = 1 then
      let old := partSlots s a.part a.vat
      let new := (partSlots t a.part a.vat).filter (fun l => !(old.contains l))
      (0, (new.map (physOf t a.vat)).foldl (joinArray a.part) t)
    else if a.kind = 2 then
      let was := tget 0 (s.partAt a.part).engines a.vat
      let gone := (bitsOf was 64).filter (fun e => !(bit a.mask e))
      let new := (bitsOf a.mask 64).filter (fun e => !(bit was e))
      let t := (new.map (64 * a.vat + ·)).foldl (joinEngine a.part) t
      let t := gone.foldl (fun s e => s.modEng (64 * a.vat + e) (fun x => { x with part := 0 })) t
      (0, (gone.map (64 * a.vat + ·)).foldl (leaveEngine a.part) t)
    else
      let gone := removedTables s a
      (0, t.modVat a.vat (fun v => { v with tables := v.tables.filter (fun q => !(gone.contains q.1)) }))

/-! ## Release (R452) -/

/-- A release begins: the partition's PARTITION rows and their sessions end, and at the commit fence of a step in progress, or at
once, its work does. -/
def beginRelease (s : State) (p : Nat) : State :=
  let s := endSessionsWhere s (fun x => x.cls = 4 && x.part = p)
  let rows := s.sec.enroll.filter (fun r => !(r.2.any (fun x => x.1 = 4 && x.2.1 = p)))
  let s := { s with sec := { s.sec with enroll := rows } }
  let waits : Bool := s.srv.inStep && !s.srv.fencePassed && s.srv.reqs.any (fun q => q.planned.isSome)
  let s := s.setPart p { s.partAt p with state := 2, waitFence := waits }
  if waits then s else releaseRest s p

/-! ## Lifecycle (R446–R448) -/

/-- The session classes that R446 lets request a transition; none where it has no such transition. -/
def lcClasses (from_ to_ : Nat) : List Nat :=
  if from_ = Lc.vendorTest && to_ = Lc.provisioned then [1]
  else if from_ = Lc.provisioned && to_ = Lc.deployed then [2]
  else if (from_ = Lc.provisioned || from_ = Lc.deployed) && to_ = Lc.returned then [1, 2]
  else if to_ = Lc.scrapped && (from_ = Lc.provisioned || from_ = Lc.deployed) then [1, 2]
  else if to_ = Lc.scrapped && (from_ = Lc.vendorTest || from_ = Lc.returned) then [1]
  else []

/-- Preconditions of R446. -/
def lcReady (s : State) (to_ : Nat) : Bool :=
  if to_ = Lc.provisioned then s.fuse.ikCert && s.sec.debug = 0 && (partsOf s).isEmpty
  else if to_ = Lc.deployed then s.sec.debug = 0 && operatorRow s.sec.enroll
  else if to_ = Lc.returned then s.sec.debug = 0
  else true

/-- The fuse of a state is blown: every session ends, and a new AK is made (R349, R445). No debug level above NONE exists in
SCRAPPED (R448). -/
def lcBlow (s : State) (to_ : Nat) : State :=
  let t := endAllSessions s
  { t with
    fuse := { t.fuse with
      lifecycleBits := t.fuse.lifecycleBits ||| BitVec.ofNat 5 (2 ^ (to_ - 1)), pkCert := t.fuse.pkCert || to_ = Lc.provisioned }
    sec := { t.sec with
      akGen := t.sec.akGen + 1, lcTarget := none, debug := if to_ = Lc.scrapped then 0 else t.sec.debug
      debugUntil := if to_ = Lc.scrapped then 0 else t.sec.debugUntil }
    flt := { t.flt with halted := if to_ = Lc.scrapped then [] else t.flt.halted } }

/-- The wheel, replica and journal settings (R447): the writable objects of 0x4000–0x4005, and 0x4031:07 and 08. -/
def whlSetting (k : Nat) : Bool :=
  let k := k % 2 ^ 24
  (0x400000 ≤ k && k < 0x400600) || k = Key.srvJournalEn || k = Key.srvJournalGib

/-- Steps 2 to 4 of R447. -/
def lcErase (s : State) : State :=
  { s with
    arr := tmapv {} erased s.arr
    vat := tmapv {} (fun t => { t with tables := [] }) s.vat
    dic := { s.dic with
      vals := s.dic.vals.filter (fun q => !(whlSetting q.1)), pend := s.dic.pend.filter (fun q => !(whlSetting q.key))
      bootPend := s.dic.bootPend.filter (fun q => !(whlSetting q.key)) }
    whl := { s.whl with cave := [], heldFor := [] }
    srv := { s.srv with rings := [] }
    mem := { s.mem with
      bytes := [], poison := [], garbled := [], rewritten := [], regions := [], keys := [(0, some (0, s.mem.keyGen))]
      keyGen := s.mem.keyGen + 1 }
    sec := { s.sec with enroll := [] } }

/-! ## Unlock tokens (R461, R462) -/

/-- The 48 octets of SEC_DEBUG_CHALLENGE for a nonce. -/
def challengeOctets (s : State) (nonce : Octets) : Octets :=
  padTo nonce 32 ++ natLe 8 s.fuse.serial.toNat ++ natLe 1 (lifecycleOf s) ++ natLe 1 s.sec.debug ++ natLe 6 0

/-- A read of the challenge: its nonce is the one that is valid. -/
def readChallenge (s : State) (nonce : Octets) : Octets × State :=
  (challengeOctets s nonce, { s with sec := { s.sec with nonce := some (padTo nonce 32, s.time), drbg := s.sec.drbg + 1 } })

def tokenLevel (b : Octets) : Nat := fld b 4 1

def tokenFormatOk (s : State) (b : Octets) : Bool :=
  octs b 0 4 = [0x4B, 0x44, 0x42, 0x47] && 1 ≤ tokenLevel b && tokenLevel b ≤ 3 && zeroAt b 6 2 && zeroAt b 52 12 &&
  1 ≤ fld b 48 4 && fld b 48 4 ≤ 86400 && fld b 8 8 = s.fuse.serial.toNat && fld b 5 1 = lifecycleOf s

def nonceOk (s : State) (b : Octets) : Bool :=
  match s.sec.nonce with
  | some (n, t) => n = octs b 16 32 && s.time ≤ t + 600 * 10 ^ 9
  | none => false

/-- The signers R460 admits for a level. -/
def signerOk (level : Nat) : TokenSigner → Bool
  | .renzel ok => ok
  | .operator ok => ok && level = 1
  | .other => false

/-- The levels R464 allows. -/
def levelAllowed (lc level : Nat) : Bool :=
  if level = 3 then lc = Lc.vendorTest || lc = Lc.returned else 1 ≤ lc && lc ≤ 4

/-- The checks of R448 and R462, in order; R460's session class for HALT in DEPLOYED stands with the other conditions of its
level. -/
def unlockStatus (s : State) (cls : Nat) (b : Octets) (signer : TokenSigner) : Nat :=
  firstBad [
    (lifecycleOf s = Lc.scrapped, St.lifecycleForbids),
    (!(tokenFormatOk s b), St.tokenInvalid),
    (!(nonceOk s b), St.tokenExpired),
    (!(signerOk (tokenLevel b) signer), St.tokenInvalid),
    (!(levelAllowed (lifecycleOf s) (tokenLevel b)), St.lifecycleForbids),
    (tokenLevel b = 2 && lifecycleOf s = Lc.deployed && cls != 2, St.accessDenied),
    (2 ≤ tokenLevel b && !(partsOf s).isEmpty, St.partitionsPresent)]

/-! ## Images (R440, R441, R443) -/

/-- Format of a staged image of a TYPE: MAGIC, VERSION, reserved octets, and the length its header gives. -/
def imageFormatOk (typ : Nat) (b : Octets) : Bool :=
  256 ≤ b.length && octs b 0 4 = [0x4B, 0x46, 0x57, 0x49] && fld b 4 2 = 1 && fld b 6 1 = typ && zeroAt b 7 1 && zeroAt b 120 8 &&
  zeroAt b 224 32 && b.length = 256 + fld b 16 8

def imageSvn (b : Octets) : Nat := fld b 8 4

def imageDigest (b : Octets) : Octets := octs b 24 48

def imageSigner (b : Octets) : Octets := octs b 72 48

/-- The checks of FW_ACTIVATE (R441). -/
def firmwareStatus (s : State) (b : Octets) (c : ImageCrypto) : Nat :=
  firstBad [
    (!(imageFormatOk 1 b), St.imageFormat),
    (!(c.signerRenzel && c.sigOk && c.digestOk), St.imageSignature),
    (imageSvn b < s.fuse.rollback || 128 < imageSvn b, St.imageRollback)]

/-- The package an image spells for a partition. -/
def pkgOf (p : Nat) (b : Octets) : Pkg :=
  let m := Config.pkgManifest (imageDigest b)
  let first := 0x4000 + m.1 % 0x4000
  { part := p, first := first, last := min 0x7FFF (first + m.2.1), inPlace := m.2.2, digest := imageDigest b }

/-- At most 8 packages, whose opcode ranges do not overlap. -/
def pkgFits (s : State) (k : Pkg) : Bool :=
  let mine := s.eng.pkgs.filter (fun x => x.part = k.part)
  mine.length < 8 && mine.all (fun x => x.last < k.first || k.last < x.first)

/-- The checks of SEC_PKG_LOAD (R443). -/
def pkgStatus (s : State) (p : Nat) (b : Octets) (c : ImageCrypto) : Nat :=
  firstBad [
    (p = 0, St.outOfRange),
    ((s.partAt p).state != 1, St.wrongState),
    (!(imageFormatOk 2 b), St.imageFormat),
    (!((c.signerRenzel || ownerEnrolled s p (imageSigner b)) && c.sigOk && c.digestOk), St.imageSignature),
    (!(pkgFits s (pkgOf p b)), St.configConflict)]

/-- A package as the pending command keeps it. -/
def pkgOctets (k : Pkg) : Octets := natLe 2 k.first ++ natLe 2 k.last ++ natLe 1 (b2n k.inPlace) ++ k.digest

def pkgFrom (p : Nat) (b : Octets) : Pkg := ⟨p, fld b 0 2, fld b 2 2, fld b 4 1 = 1, octs b 5 48⟩

/-- Loading at the boundary: a package accepted before it may have taken its place. -/
def pkgLoadApply (p : Nat) (b : Octets) (s : State) : Nat × State :=
  let k := pkgFrom p b
  if (s.partAt p).state != 1 then (St.wrongState, s)
  else if pkgFits s k then (0, { s with eng := { s.eng with pkgs := s.eng.pkgs ++ [k] } })
  else (St.configConflict, s)

/-! ## Memory keys (R255, R467) -/

/-- What was written under a slot's old key is garbage: the lines of its partition, and the wheel slots it covers. -/
def garble (s : State) (slot : Nat) : State :=
  match tget none s.mem.keys slot with
  | none => s
  | some (p, _) =>
    if slot = 0 then
      { s with
        whl := { s.whl with cave := s.whl.cave.filter (fun q => match q.2 with
          | .replica .. => false
          | _ => true) }
        srv := { s.srv with rings := [] } }
    else
      let rs := s.mem.regions.filter (fun r => r.part = p)
      let old := s.mem.garbled.filter (fun r => !(rs.contains r))
      let fresh := s.mem.rewritten.filter (fun l => !(rs.any (fun r => inRegion r (l / 2 ^ 40 * 2 ^ 40 + l % 2 ^ 40 * 64))))
      let s := { s with mem := { s.mem with garbled := old ++ rs, rewritten := fresh } }
      if p = 0 then s else s.modWhl p (fun w => { w with envelope := none, pendEnvelope := none })

/-- A fresh key pair in a slot, for the partition that has it. -/
def loadKey (s : State) (slot : Nat) : State :=
  let p := ((tget none s.mem.keys slot).map (·.1)).getD 0
  let s := garble s slot
  { s with
    mem := { s.mem with keys := tput none s.mem.keys slot (some (p, s.mem.keyGen)), keyGen := s.mem.keyGen + 1 }
    sec := { s.sec with drbg := s.sec.drbg + 1 } }

def clearKey (s : State) (slot : Nat) : State :=
  let s := garble s slot
  { s with mem := { s.mem with keys := tput none s.mem.keys slot none } }

/-- SLOT, LOAD and CLEAR of one write of the key register: SLOT first, then the command bits. -/
def keyRegWrite (s : State) (w : Nat) : State :=
  let slot := bits w 7 0
  let s := { s with mem := { s.mem with keySlot := slot } }
  let s := if bit w 8 then loadKey s slot else s
  if bit w 9 then clearKey s slot else s

end Sys2Proof.Machine
end

