-- ==== Sys2Proof/Machine/BootOps.lean ====
section
/-! DEFINITION. What the module keeps without power (R335, R386, R398, R465) and how it boots (R40, R261, R441, R465, R475). -/

namespace Sys2Proof.Machine

/-! ## The configuration store (R335) -/

/-- A persistent value: RW or RWB, no TABLE, with OPERATOR or VENDOR among its rights. -/
def persists (k : Nat) : Bool :=
  (objRow (k % 2 ^ 24)).any (fun r => (r.acc = 2 || r.acc = 3) && r.typ != 14 && r.rights &&& 3 != 0)

/-- The ring of 256 records of the configuration store takes the records not yet copied (R370). -/
def copyRecords (s : State) : State :=
  { s with flt := { s.flt with store := keep 256 (s.flt.toStore.reverse ++ s.flt.store), toStore := [] } }

/-! ## Power off (R144, R382, R386, R465) -/

def arrOff (a : ArrSt) : ArrSt :=
  let b := arrPowerless a
  { b with
    cfgErr := false, passCnt := 0, skipCnt := 0, splitCnt := 0, tolCnt := 0, lastCheck := 0, satCnt := 0, nonfinCnt := 0
    conflictCnt := 0, tolLast := [], taps := [], suspect := [], failed := [], calTemp := none, driftTol := 0, driftChecks := 0
    calDue := false, lastLaunch := none, idleSince := 0, ccSeg := 0, ccCol := 0 }

def vatOff (t : VatSt) : VatSt :=
  { slotMap := t.slotMap, noTarget := t.noTarget, tables := t.tables, fenced := t.fenced.map (fun _ => 0), rotation := t.rotation }

/-- What scratch holds at the next boot is not known. -/
def engOff (k : Nat) (e : EngSt) : EngSt := { fenced := e.fenced, part := e.part, scratch := some k }

/-- A replacement at a loss of power (R144). -/
def whlOff (w : WhlSt) : WhlSt :=
  if w.adopt.isSome then { inForce := none, lost := w.lost }
  else if w.state = 7 || w.state = 8 || w.state = 9 then
    { state := 9, epoch := w.epoch, inForce := w.inForce, pending := w.pending, mode := w.mode, arming := w.arming, lost := w.lost }
  else { epoch := w.epoch, inForce := w.inForce, lost := w.lost, result := w.result }

def seqOff (q : MonSeq) : MonSeq :=
  { en := q.en, trig := q.trig, lenM1 := q.lenM1, vrSel := q.vrSel, delay := q.delay, period := q.period, inputs := q.inputs }

def portOff (q : PortSt) : PortSt := { split := q.split, mode := q.mode, preemptEn := q.preemptEn, enable := q.enable }

/-- Every rail is off: what is not kept without power is gone. -/
def powerOff (s : State) : State :=
  { s with
    dic := { vals := s.dic.vals.filter (fun q => persists q.1), bootPend := s.dic.bootPend, cfgDefaults := s.dic.cfgDefaults
             winAddr := s.dic.winAddr }
    arr := tmapv {} arrOff s.arr
    vat := tmapv {} vatOff s.vat
    eng := { eng := tmapv {} (engOff s.eng.nextKey) s.eng.eng, nextKey := s.eng.nextKey + 1 }
    whl := { parts := tmapv {} whlOff s.whl.parts, heldFor := s.whl.heldFor }
    kv := {}
    emb := { runs := s.emb.runs }
    srv := {}
    mem := { regions := s.mem.regions, keyGen := s.mem.keyGen, nextJob := s.mem.nextJob }
    fab := { ports := tmapv {} portOff s.fab.ports }
    syn := {}
    flt := { arrays := s.flt.arrays, engines := s.flt.engines, vats := s.flt.vats, store := s.flt.store, toStore := s.flt.toStore }
    pwr := { seqs := tmapv {} seqOff s.pwr.seqs, orderedStops := s.pwr.orderedStops, fastStops := s.pwr.fastStops
             tripFlag := s.pwr.tripFlag }
    sec := { s.sec with debug := 0, debugUntil := 0, nonce := none, lcTarget := none, fallback := false, selfTest := false }
    pin := { s.pin with heartbeat := false, txIdle := true, tap := none } }

/-! ## Values at a boot -/

/-- CFG_DEFAULTS takes effect (R338): every persistent value except 0x1200 is at its default, SEC_ENROLL and the region
definitions among them. -/
def toDefaults (s : State) : State :=
  if s.dic.cfgDefaults then
    { s with
      dic := { s.dic with vals := s.dic.vals.filter (fun q => q.1 % 2 ^ 24 / 256 = 0x1200), winAddr := 0, cfgDefaults := false }
      emb := {}
      mem := { s.mem with regions := [] }
      fab := { s.fab with ports := [] }
      pwr := { s.pwr with seqs := [] }
      sec := { s.sec with enroll := [] } }
  else s

/-- The area that a pending WHL_STORE_SLOTS or SRV_JOURNAL_GIB value claims. -/
def claimedAreas (p : PendVal) : List (Nat × Nat × Nat × Nat) :=
  if p.key = Key.whlStoreSlots then slotAreas (leNat p.value)
  else if p.key = Key.srvJournalGib then journalAreas (leNat p.value) else []

/-- A pending BOOT value takes effect (R16); one whose reserved area would overlap a defined region is discarded (R253). -/
def bootValue (s : State) (p : PendVal) : State :=
  if (claimedAreas p).any (fun x => s.mem.regions.any (fun r => areaMeets r x)) then
    s.writeErr (reportErr St.configConflict Kind.module 0 0)
  else cfgPut s p.key p.value

/-- Pending BOOT values take effect, in the order they were accepted (R17). -/
def bootValues (s : State) : State := s.dic.bootPend.foldl bootValue { s with dic := { s.dic with bootPend := [] } }

/-! ## The boot ROM (R370, R441) -/

/-- The record of a hard cut, for the head of ERR_PREV. -/
def tripRecord (sensor : Option Nat) (prev : List ErrRec) : ErrRec :=
  { seqno := match prev with
      | r :: _ => (r.seqno + 1) % 2 ^ 32
      | [] => 0
    mech := Mech.environment, status := St.thermalTrip
    unitKind := if sensor.isSome then Kind.sensor else Kind.module, unit := sensor.getD 0, sensor := sensor.getD 0 }

/-- The ring of the configuration store reads as ERR_PREV, and begins again. -/
def bootRecords (s : State) : State :=
  let prev := match s.pwr.tripFlag with
    | some t => keep 256 (tripRecord t s.flt.store :: s.flt.store)
    | none => s.flt.store
  { s with flt := { s.flt with prev := prev, store := [], toStore := [] }, pwr := { s.pwr with tripFlag := none } }

/-- The status of a bank's verification: what the check found, and a SVN the fuses have passed (R441, R442). -/
def bankStatus (s : State) (img : Option FwImage) (found : Nat) : Nat :=
  match img with
  | none => St.imageFormat
  | some i => if found != 0 then found else if i.svn < s.fuse.rollback || 128 < i.svn then St.imageRollback else 0

def bankImage (s : State) (k : Nat) : Option FwImage := if k = 0 then s.sec.bank0 else s.sec.bank1

/-- New memory keys: slot 0, and a slot for each existing partition (R255, R465). -/
def bootKeys (s : State) : State :=
  let ps := partsOf s
  let keys : Tab (Option (Nat × Nat)) :=
    (0, some (0, s.mem.keyGen)) :: ps.zipIdx.map (fun p => (p.2 + 1, some (p.1, s.mem.keyGen + 1 + p.2)))
  { s with mem := { s.mem with keys := keys, keyGen := s.mem.keyGen + 1 + ps.length }, sec := { s.sec with drbg := s.sec.drbg + 1 } }

/-- A release that the loss of power met is over: its memory is gone (R452). -/
def bootReleases (s : State) : State :=
  ((s.sec.parts.filter (fun q => q.2.state = 2)).map (·.1)).foldl (fun s p =>
    let s := if (s.partAt p).waitFence then releaseRest s p else s
    partGone { s with mem := { s.mem with zero := s.mem.zero.filter (fun j => j.part != p), regions := s.mem.regions.filter (fun r => r.part != p) } } p) s

/-! ## The rest of the boot (R40, R261, R382, R475) -/

/-- Slices and SerDes as training and calibration left them. -/
def bootTrain (s : State) (slices ports : Nat) : State :=
  let s := (List.range 8).foldl (fun s k =>
    if slicePresent s k then s.setSlice k { trained := bit slices k } else s) s
  (List.range 24).foldl (fun s p => (List.range (subCount s p)).foldl (fun s k =>
    s.setSub p k { state := if (s.portAt p).enable then .down else .disabled, calOk := bit ports p }) s) s

/-- A brake still asserted when the power manager starts applies at once (R485). -/
def bootBrake (s : State) : State :=
  if s.pin.brakeLow then
    (applyBrake { s with pwr := { s.pwr with brakeIn := true, brakeCnt := Word.bump s.pwr.brakeCnt 1 } }).writeErr
      { (reportErr St.powerBrake Kind.module 0 0) with mech := Mech.environment }
  else s

/-- REPLICA_LOST goes to each peer whose replicas or journals were held here. -/
def bootReplicas (s : State) : State :=
  let l := s.whl.heldFor
  l.foldl (fun s c => s.emit (.replicaLost c)) { s with whl := { s.whl with heldFor := [] } }

/-- The compute service comes up: clocks, vats, tiers, ports, power manager, FULL calibration of every vat (R74). -/
def bootCompute (s : State) (slices ports : Nat) : State :=
  let s := bootTrain { s with pwr := { s.pwr with coreLock := true, refLock := true } } slices ports
  let s := bootBrake (throttle (ungateVats s))
  let s := ((vatsOf s).filter (fun v => !(vatFenced s v))).foldl (fun s v => startCal s v 0 false) s
  let s := bootReplicas (retryRemaps s)
  trainAll { s with pin := { s.pin with txIdle := false } }

/-- Invalid straps stop the boot after the management service, with a record that names them (R40). -/
def bootInvalid (s : State) : State :=
  let r := s.fresh
  r.2.writeErr { (reportErr (Config.openStatus r.1) Kind.module 0 0) with detailA := s.pin.straps }

/-- What the debug UART carries in every lifecycle: LIFECYCLE, DEBUG_LEVEL and FW_VERSION (R488). -/
def bootUart (s : State) : State :=
  let v := ((bankImage s s.sec.bank).map (·.version)).getD 0
  s.emit (.uart 0 (natLe 1 (lifecycleOf s) ++ natLe 1 s.sec.debug ++ natLe 4 v))

/-- TOPO_DISTANCE as the boot measures it: 0 for an absent vat or slice (R35). -/
def distanceTable (s : State) (l : List Nat) : List Nat :=
  (List.range 64).map (fun i => if vatPresent s (i / 8) && slicePresent s (i % 8) then l.getD i 0 % 2 ^ 16 else 0)

/-- The firmware of a bank boots. -/
def bootBank (s : State) (bank : Nat) (fallback : Bool) (failed slices ports : Nat) (distance : List Nat) : State :=
  let s := bootValues (toDefaults (bootRecords { s with time := 0 }))
  let s := bootReleases { s with
    sec := { s.sec with bank := bank, fallback := fallback, selfTest := false, akGen := s.sec.akGen + 1 }
    pin := { s.pin with straps := s.pin.strapPins, heartbeat := true } }
  let s := bootKeys s
  let s := { s with
    pwr := { s.pwr with state := .s0, spread := cfgBool s Key.pwrSpreadEn }
    dic := { s.dic with distance := distanceTable s distance } }
  let s := if fallback then s.writeErr (reportErr failed Kind.module 0 0) else s
  let s := startMonCal (bootUart s) 15
  if (boardClass s.pin.straps).isSome then bootCompute s slices ports else bootInvalid s

/-- The boot ROM verifies the marked bank, and boots the other one when it fails; with neither the module stays off. -/
def boot (s : State) (c : BootCheck) : State :=
  let m := s.sec.marked
  let st := bankStatus s (bankImage s m) c.markedStatus
  if st = 0 then bootBank s m false 0 c.slicesTrained c.portsTrained c.distance
  else if bankStatus s (bankImage s (1 - m)) c.otherStatus = 0 then
    bootBank s (1 - m) true st c.slicesTrained c.portsTrained c.distance
  else s

/-- The module may boot: input in range, not in reset, no trip latched (R469, R485, R486). -/
def mayBoot (s : State) : Bool := s.pin.input && !s.pin.overvolt && !s.pin.reset && !s.pin.tripLatch

/-- It boots with the straps as they read now, if nothing holds it. -/
def bootIfFree (s : State) (straps : Nat) (c : BootCheck) : State :=
  let s := { s with pin := { s.pin with strapPins := straps % 64 } }
  if mayBoot s && s.pwr.state = .s4 then boot s c else s

end Sys2Proof.Machine
end

