-- ==== Sys2Proof/Machine/Boot.lean ====
section
/-! DEFINITION. Power, reset and the sideband (chapter 16), the hard cut (R421) and the self-test's time limit (R441). -/

namespace Sys2Proof.Machine

/-! ## Supply and reset (R469, R470, R475, R485, R486) -/

/-- The input rises above the turn-on threshold. -/
def execPowerUp (straps : Nat) (check : BootCheck) (s : State) : Host.Outcome State Fault Refusal :=
  if s.pin.input then .next s
  else .next (bootIfFree { s with pin := { s.pin with input := true } } straps check)

/-- A loss of supply: hold-up power lets the rind copy its records, then the module is off. In overvoltage the input is present
and conversion is locked out. -/
def execSupplyLoss (overvoltage : Bool) (s : State) : Host.Outcome State Fault Refusal :=
  if !s.pin.input || s.pin.overvolt then .next s
  else
    let s := if s.pwr.state = .s4 then s else powerOff (copyRecords s)
    .next { s with pin := { s.pin with input := overvoltage, overvolt := overvoltage } }

def execOvervoltageLockoutRelease (straps : Nat) (check : BootCheck) (s : State) : Host.Outcome State Fault Refusal :=
  if !s.pin.overvolt then .next s
  else .next (bootIfFree { s with pin := { s.pin with overvolt := false } } straps check)

/-- MOD_RESET_N low places the module in S4. -/
def execResetAssert (s : State) : Host.Outcome State Fault Refusal :=
  let s := if s.pwr.state = .s4 then s else powerOff (copyRecords s)
  .next { s with pin := { s.pin with reset := true } }

/-- Its rising edge boots the module. -/
def execResetRelease (straps : Nat) (check : BootCheck) (s : State) : Host.Outcome State Fault Refusal :=
  if !s.pin.reset then .next s
  else .next (bootIfFree { s with pin := { s.pin with reset := false } } straps check)

/-- A hard cut: the trip flag is set and every rail is cut; records not yet copied are lost (R370, R421). -/
def execThermalTrip (sensor : Option Nat) (s : State) : Host.Outcome State Fault Refusal :=
  if s.pwr.state = .s4 || !(sensor.all (fun i => i < 288)) then .next s
  else
    let s := { s with pwr := { s.pwr with tripFlag := some sensor } }
    let s := powerOff { s with flt := { s.flt with toStore := [] } }
    .next { s with pin := { s.pin with tripLatch := true } }

/-- The input falls below 30 V: the latch clears. -/
def execThermTripLatchClear (s : State) : Host.Outcome State Fault Refusal :=
  if s.pwr.state != .s4 then .next s
  else .next { s with pin := { s.pin with tripLatch := false, input := false, overvolt := false } }

/-- SLOT_ID is read at a boot only (R489). -/
def execSlotIdChange (straps : Nat) (s : State) : Host.Outcome State Fault Refusal :=
  .next { s with pin := { s.pin with strapPins := straps % 64 } }

/-! ## The self-test's time limit (R441, R442) -/

/-- Slices and ports that are trained and calibrated now. -/
def trainedSlices (s : State) : Nat := maskOf ((List.range 8).filter (fun k => (s.sliceAt k).trained))

def trainedPorts (s : State) : Nat := maskOf ((List.range 24).filter (fun p => (s.portAt p).subs.any (fun q => q.2.calOk)))

/-- No self-test report within 30 s of the boot: the other bank boots, unless it may not or is the one that failed before. -/
def execFwSelfTestTimeout (s : State) : Host.Outcome State Fault Refusal :=
  if s.pwr.state = .s4 || s.sec.selfTest || s.sec.fallback then .next s
  else
    let s := s.until (30 * 10 ^ 9)
    let other := 1 - s.sec.bank
    if bankStatus s (bankImage s other) 0 != 0 then .next s
    else
      let r := s.fresh
      .next (bootBank (powerOff (copyRecords r.2)) other true (Config.openStatus r.1) (trainedSlices s) (trainedPorts s) s.dic.distance)

/-! ## JTAG (R487) -/

/-- The TAP runs with the module powered and out of reset (R482). -/
def tapRuns (s : State) : Bool := s.pwr.state != .s4

/-- SAMPLE/PRELOAD and EXTEST are there in BLANK, VENDOR_TEST and RETURNED. -/
def boundaryAllowed (s : State) : Bool :=
  let lc := lifecycleOf s
  lc = Lc.blank || lc = Lc.vendorTest || lc = Lc.returned

/-- An instruction is selected. -/
def selectIr (s : State) (ir : JtagIr) : State := if tapRuns s then { s with pin := { s.pin with tap := some ir } } else s

/-- The number of a stepping code (R495). -/
def steppingNumber (o : Octets) : Nat := 4 * ((o.getD 0 0).toNat - 0x41) + ((o.getD 1 0).toNat - 0x30)

def idcode (s : State) : Nat := steppingNumber s.fuse.stepping % 16 * 2 ^ 28 + 0xD160 * 2 ^ 12 + 0x2AF * 2 + 1

/-- IDCODE selects the identification register, which shifts out. -/
def execJtagIdcode (s : State) : Host.Outcome State Fault Refusal :=
  if tapRuns s then .next ((selectIr s .idcode).emit (.jtag (idcode s))) else .next s

def execJtagBypass (s : State) : Host.Outcome State Fault Refusal := .next (selectIr s .bypass)

def execJtagSamplePreload (s : State) : Host.Outcome State Fault Refusal :=
  .next (selectIr s (if boundaryAllowed s then .samplePreload else .bypass))

def execJtagExtest (s : State) : Host.Outcome State Fault Refusal :=
  .next (selectIr s (if boundaryAllowed s then .extest else .bypass))

/-- Fuses are programmed in BLANK, and the module is in VENDOR_TEST (R432, R446). -/
def execJtagFuseProgram (f : FuseImage) (s : State) : Host.Outcome State Fault Refusal :=
  if !(tapRuns s) || lifecycleOf s != Lc.blank then .next (selectIr s .bypass)
  else
    let s := selectIr s .fuse
    let fuse : FuseSt := { s.fuse with
      lot := padTo f.lot 8, wafer := f.wafer % 256, dieX := BitVec.ofInt 8 f.dieX, dieY := BitVec.ofInt 8 f.dieY
      serial := BitVec.ofNat 64 f.serial, mac := padTo f.mac 6, product := padTo f.product 16, uds := padTo f.uds 32 }
    .next (lcBlow { s with fuse := fuse } Lc.vendorTest)

def execJtagTapReset (s : State) : Host.Outcome State Fault Refusal := .next { s with pin := { s.pin with tap := none } }

end Sys2Proof.Machine
end

