-- ==== Sys2Proof/Machine/Engine.lean ====
section
/-! DEFINITION. Task and engine commands: posting, starting, gating, stealing, dual execution, input buffers (chapter 5). -/

namespace Sys2Proof.Machine

/-! ## TASK_POST (R154, R155) -/

/-- Who hears of a posted descriptor's status. -/
def posterAgent (p : Poster) (d : Octets) : Agent :=
  match p with
  | .vatCore v _ => .vatCore v
  | .mgmt _ => .mgmt
  | .partition _ => .vatCore (targetVat (descTarget d))

def execTaskPost (poster : Poster) (desc : Octets) (s : State) : Host.Outcome State Fault Refusal :=
  if s.pwr.state != .s0 || desc.length != 64 then .next s
  else
    let r := postTask s poster desc
    .next (r.2.emit (.status (posterAgent poster desc) r.1))

/-! ## TASK_START (R156, R165, R166, R168) -/

/-- An engine that may start a task. -/
def engineReady (s : State) (n : Nat) : Bool :=
  let e := s.engAt n
  running s && engPresent s n && e.awake && !e.fenced && !e.underTest && e.run.isNone && !(vatFenced s (n / 64)) && s.pwr.stop = 0

/-- The task starts on the engine in a role. -/
def startTask (s : State) (n : Nat) (t : Task) : State :=
  let o := s.eng.nextKey
  let r : Running :=
    { task := t, start := s.time, order := o, seqs := s.kv.snap, tables := s.emb.snapTables, dir := s.emb.snapDir }
  ({ s with eng := { s.eng with nextKey := o + 1 } }).modEng n (fun e => { e with run := some r })

/-- A selected task starts as primary, and its secondary is placed (R166). -/
def startPrimary (s : State) (n : Nat) (t : Task) : State :=
  let d : DualSt := { task := t, primary := n }
  let eng := { s.eng with duals := s.eng.duals ++ [d], selDue := s.eng.selDue.filter (· != n / 64) }
  placeSecondary (startTask { s with eng := eng } n { t with role := 1 }) d

/-- The vat's sequence, or a selection that an ineligible task passed on, falls on this start (R165). -/
def selected (s : State) (n : Nat) (dual : Bool) : Bool :=
  dual || s.eng.selDue.contains (n / 64) || cfgNat s Key.veDualLog2 = 0

def selectNext (s : State) (v : Nat) : State :=
  if s.eng.selDue.contains v then s else { s with eng := { s.eng with selDue := s.eng.selDue ++ [v] } }

def execTaskStart (engine : Nat) (dual : Bool) (s : State) : Host.Outcome State Fault Refusal :=
  match nextTask s engine with
  | none => .next s
  | some (o, t) =>
    if !(engineReady s engine) then .next s
    else if t.role != 0 then .next (startTask (takeTask s engine o t) engine t)
    else if !(selected s engine dual) then .next (startTask (takeTask s engine o t) engine t)
    else if !(dualEligible s t) then .next (selectNext (startTask (takeTask s engine o t) engine t) (engine / 64))
    else if (copyEngine s (engine / 64) t [engine]).isNone then .next (selectNext s (engine / 64))
    else .next (startPrimary (takeTask s engine o t) engine t)

/-! ## Waking and gating (R147, R168) -/

/-- A queue or the overflow list of the vat holds more runnable descriptors than VE_XVAT_MIN_DEPTH, one of the engine's
pool among them. -/
def vatBusy (s : State) (n : Nat) : Bool :=
  let e := s.engAt n
  let deep (l : List Task) : Bool :=
    let r := l.filter (runnable s)
    cfgNat s Key.veXvatMinDepth < r.length && r.any (fun t => t.part = e.part && (t.pool = 0 || t.pool = e.pool))
  (vatEngines (n / 64)).any (fun m => deep (s.engAt m).queue) || deep ((s.vatAt (n / 64)).overflow.map Prod.snd)

/-- A selected task of the partition waits for a second engine (R168). -/
def dualWaits (s : State) (part : Nat) : Bool :=
  s.eng.eng.any (fun q => q.2.part = part && s.eng.selDue.contains (q.1 / 64) && match nextTask s q.1 with
    | some (_, t) => t.role = 0 && dualEligible s t
    | none => false)

def execEngineWake (engine : Nat) (s : State) : Host.Outcome State Fault Refusal :=
  let e := s.engAt engine
  let posted : Bool := !e.queue.isEmpty || (s.vatAt (engine / 64)).overflow.any (fun q => q.1 = engine)
  if running s && engPresent s engine && !e.awake && !e.fenced && !(vatFenced s (engine / 64)) &&
      (posted || vatBusy s engine || dualWaits s e.part) then
    .next (s.modEng engine (fun e => { e with awake := true, idleSince := if e.queue.isEmpty then s.time else e.idleSince }))
  else .next s

def execEngineIdleGate (engine : Nat) (s : State) : Host.Outcome State Fault Refusal :=
  let e := s.engAt engine
  if e.awake && e.gateEn && e.queue.isEmpty && e.run.isNone && !e.underTest then
    .next ((s.until (e.idleSince + cfgNat s Key.veIdleHoldNs)).modEng engine (fun e => { e with awake := false, claim := none, tried := [] }))
  else .next s

/-! ## Stealing (R159–R163) -/

def execStealSearch (engine : Nat) (s : State) : Host.Outcome State Fault Refusal :=
  let e := s.engAt engine
  if engineReady s engine && e.stealEn && e.claim.isNone && (nextTask s engine).isNone then
    match chooseVictim s engine with
    | some v => .next (s.modEng engine (fun e => { e with claim := some v }))
    | none => .next (s.modEng engine (fun e => { e with tried := [] }))
  else .next s

/-- Removes a descriptor from a victim, and counts it there (R174). -/
def takeFrom (s : State) (v : Victim) (t : Task) : State :=
  match v with
  | .queue n => s.modEng n (fun e => queueLeft s.time
      { e with queue := e.queue.filter (fun u => !(sameTask u t)), stolenOut := Word.bump e.stolenOut 1 })
  | .overflow w => s.modVat w (fun x => { x with overflow := x.overflow.filter (fun q => !(sameTask q.2 t)) })

/-- One claim: the oldest eligible descriptor moves to the thief, or the search goes on at the next victim (R161). -/
def claimOne (v : Victim) (s : State) (thief : Nat) : State :=
  if (s.engAt thief).claim != some v || !(engineReady s thief) then s
  else match claimed s thief v with
    | some t =>
      (takeFrom s v t).modEng thief (fun e =>
        { e with queue := t :: e.queue, stolenIn := Word.bump e.stolenIn 1, claim := none, tried := [] })
    | none => s.modEng thief (fun e => { e with claim := none, tried := v :: e.tried })

def insertNat (x : Nat) : List Nat → List Nat
  | [] => [x]
  | y :: t => if x ≤ y then x :: y :: t else y :: insertNat x t

def sortNat (l : List Nat) : List Nat := l.foldl (fun t x => insertNat x t) []

/-- Claims that arrive together are resolved in ascending engine number (R161). -/
def execStealClaim (victim : Victim) (thieves : List Nat) (s : State) : Host.Outcome State Fault Refusal :=
  .next ((sortNat thieves).foldl (claimOne victim) s)

/-! ## DUAL_COMPARE (R167) -/

/-- Both engines of a pair advance a counter. -/
def bothEngines (s : State) (d : DualSt) (f : EngSt → EngSt) : State :=
  (s.modEng d.primary f).modEng (d.secondary.getD d.primary) f

def forget (s : State) (d : DualSt) : State :=
  { s with eng := { s.eng with duals := s.eng.duals.filter (fun x => x.task.key != d.task.key) } }

/-- The task completes; its records are sent now. -/
def dualDone (s : State) (d : DualSt) : State := finishTask (forget s d) d.primary d.task d.records

def dualErr (d : DualSt) (other sig : Nat) : ErrRec :=
  { mech := Mech.dualExec, operation := d.task.opcode, tag := d.task.taskId, detailA := other, detailB := sig }

/-- A copy of the task is queued or running in a role. -/
def copyExists (s : State) (k role : Nat) : Bool :=
  s.eng.eng.any (fun q => q.2.queue.any (fun t => t.key = k && t.role = role) || match q.2.run with
    | some r => r.task.key = k && r.task.role = role
    | none => false)

def execDualCompare (taskKey : Nat) (s : State) : Host.Outcome State Fault Refusal :=
  match dualOf s taskKey with
  | none => .next s
  | some d =>
    match d.sig1, d.sig2, d.secondary with
    | some a, some b, some x =>
      if a = b then .next (dualDone (bothEngines s d (fun e => { e with dualRun := Word.bump e.dualRun 1 })) d)
      else if !d.thirdPlaced then
        let s := bothEngines s d (fun e => { e with dualMismatch := Word.bump e.dualMismatch 1 })
        let s := s.modVat (d.primary / 64) (fun v => { v with mismatchTotal := DWord.bump v.mismatchTotal 1 })
        let d := { d with thirdPlaced := true }
        .next (placeThird (setDual s d) d)
      else match d.sig3, d.third with
        | some c, some y =>
          if c = a then .next (fenceEngine (dualDone s d) x (dualErr d d.primary b))
          else if c = b then .next (fenceEngine (dualDone s d) d.primary (dualErr d x a))
          else
            let s := failTask (forget s d) d.primary St.dualUnresolved d.task
            let s := fenceEngine s d.primary (dualErr d x a)
            let s := fenceEngine s x (dualErr d d.primary b)
            .next (fenceEngine s y (dualErr d d.primary c))
        | _, _ => if copyExists s taskKey 3 then .next s else .next (placeThird s d)
    | some _, none, _ => if copyExists s taskKey 2 then .next s else .next (placeSecondary s d)
    | _, _, _ => .next s

/-! ## Input buffers (R170, R171) -/

def inbufArg (arg : Octets) (p : Nat) : Nat × InBuf :=
  (fld arg 0 2, { part := p, slotBytes := fld arg 2 2, slots := fld arg 4 2, base := fld arg 8 8, obj := fld arg 16 8 })

/-- The refusals of VE_INBUF_SET. -/
def inbufStatus (s : State) (p : Nat) (arg : Octets) : Nat :=
  let b := inbufArg arg p
  firstBad [
    (b.1 < 4096 && !(vatPresent s (b.1 / 512)), St.unitAbsent),
    (pastSpace s p b.2.base (b.2.slotBytes * b.2.slots), St.lengthExceedsBuffer),
    (s.eng.bufs.any (fun q => q.1 = b.1 && q.2.part != p), St.accessDenied),
    (4095 < b.1 || b.2.slotBytes < 64 || 4096 < b.2.slotBytes || b.2.slotBytes % 64 != 0 || b.2.slots = 0 || b.2.base % 64 != 0 ||
      !(zeroAt arg 6 2) || !(zeroAt arg 24 8), St.outOfRange)]

def inbufBody (sess p : Nat) (arg : Octets) (s : State) : CmdAns :=
  if inbufStatus s p arg != 0 then refuse s (inbufStatus s p arg) else stepPend Key.veInbufSet sess p arg s

/-- The definition takes effect at the boundary, where it is checked again (R170, R343). -/
def inbufApply (p : Nat) (arg : Octets) (s : State) : Nat × State :=
  let st := inbufStatus s p arg
  if st != 0 then (st, s)
  else
    let b := inbufArg arg p
    (0, { s with eng := { s.eng with bufs := tput ⟨0, 0, 0, 0, 0, 0, 0⟩ s.eng.bufs b.1 b.2 } })

def veInbufWrite : Nat → Octets → State → Nat × State := cmdWrite Key.veInbufSet anyRange inbufBody

def execVeInbufSet (sess : Nat) (arg : Octets) (s : State) : Host.Outcome State Fault Refusal :=
  .next (cmdRow Key.veInbufSet veInbufWrite sess arg s)

/-- A dropped record (R171). -/
def dropRecord (s : State) (b part status : Nat) : State := s.writeErr (reportErr status Kind.vat (b / 512) part)

/-- Writes a record into a buffer with room: slot, write index, arrival object. -/
def putRecord (s : State) (b : Nat) (x : InBuf) (record : Octets) : State :=
  let r := memWrite s x.part 0 (x.base + x.w % x.slots * x.slotBytes) (pad64 record)
  if r.1 != 0 then dropRecord s b x.part r.1
  else
    let s := { r.2 with eng := { r.2.eng with bufs := r.2.eng.bufs.map (fun q => if q.1 = b then (b, { x with w := x.w + 1 }) else q) } }
    (signal s x.part x.obj (some (.vatCore (b / 512)))).2

def execInbufRecordArrival (sender : Agent) (part buffer : Nat) (record : Octets) (s : State) :
    Host.Outcome State Fault Refusal :=
  if s.pwr.state != .s0 || !(vatPresent s (buffer / 512)) then .next s
  else match inbufOf s part buffer with
    | none => .next (dropRecord s buffer part St.accessDenied)
    | some x =>
      if x.slotBytes < (pad64 record).length then .next (dropRecord s buffer part St.lengthExceedsBuffer)
      else if x.w < x.r + x.slots then .next (putRecord s buffer x record)
      else match sender with
        | .array n =>
          if (s.arrAt n).stuck.isNone then .next (s.modArr n (fun a => { a with stuck := some (part, buffer, record) })) else .next s
        | _ => .next s

/-- A record held for lack of room is written, and its array accepts again (R171, R60): the lowest array that holds one. -/
def execInbufRecordWrite (buffer : Nat) (s : State) : Host.Outcome State Fault Refusal :=
  match s.arr.findSome? (fun q => match q.2.stuck with
    | some (p, b, r) => if b = buffer then some (q.1, p, r) else none
    | none => none) with
  | none => .next s
  | some (n, p, r) =>
    let free (s : State) : State := acceptWaiting (s.modArr n (fun a => { a with stuck := none })) n
    match inbufOf s p buffer with
    | none => .next (free (dropRecord s buffer p St.accessDenied))
    | some x => if x.w < x.r + x.slots then .next (free (putRecord s buffer x r)) else .next s

end Sys2Proof.Machine
end

