-- ==== Sys2Proof/Machine/Kv.lean ====
section
/-! DEFINITION. SEQ_EDIT (R180) and what a step boundary does to sequences (R182, R183). -/

namespace Sys2Proof.Machine

/-! ## Edits (R179, R180) -/

def editOp (arg : Octets) : Nat := fld arg 0 1

/-- The descriptor image of an edit. -/
def editDesc (arg : Octets) : Octets := octs arg 8 64

def editSeq (arg : Octets) : Nat := fld (editDesc arg) 0 2

def editLen (arg : Octets) : Nat := fld (editDesc arg) 16 4

/-- The descriptor a CREATE makes. -/
def createDesc (part : Nat) (arg : Octets) : SeqD :=
  let b := editDesc arg
  { part := part, fmt := fld b 4 1, headDim := fld b 6 2, layers := fld b 8 2, heads := fld b 10 2, maxLen := fld b 12 4,
    len := fld b 16 4, gen := 0, base := fld b 24 8, regionBytes := fld b 32 8, epoch := 0 }

/-- Reserved octets and fields the operation does not use are zero. -/
def editFormatOk (arg : Octets) : Bool :=
  let b := editDesc arg
  let op := editOp arg
  zeroAt arg 1 7 && zeroAt b 44 20 && zeroAt b 2 2 && zeroAt b 5 1 && zeroAt b 20 4 && zeroAt b 40 4 &&
  (op = 1 || (zeroAt b 4 1 && zeroAt b 6 10 && zeroAt b 24 16)) && (op != 3 || zeroAt b 16 4)

/-- The descriptors after one accepted edit: TRUNCATE takes the smaller length, and each applied edit advances GEN (R182). -/
def editSeqs (t : Tab (Option SeqD)) (part : Nat) (arg : Octets) : Tab (Option SeqD) :=
  let q := editSeq arg
  match editOp arg, tget none t q with
  | 1, _ => tput none t q (some (createDesc part arg))
  | 2, some d => tput none t q (some { d with len := min (editLen arg) d.len, gen := (d.gen + 1) % 2 ^ 32 })
  | _, some _ => tput none t q none
  | _, none => t

/-- The descriptors as they will stand once every accepted edit is applied (R180). -/
def plannedSeqs (s : State) : Tab (Option SeqD) :=
  (s.dic.stepCmds.filter (fun c => c.obj = Key.seqEdit)).foldl (fun t c => editSeqs t c.part c.arg) s.kv.seqs

/-- Regions of one partition overlap. -/
def regionsMeet (x y : SeqD) : Bool :=
  x.part = y.part && x.base < y.base + y.regionBytes && y.base < x.base + x.regionBytes

/-- The checks of R180 against given descriptors. -/
def editStatus (s : State) (seqs : Tab (Option SeqD)) (p : Nat) (arg : Octets) : Nat :=
  let cur := tget none seqs (editSeq arg)
  let d := createDesc p arg
  let op := editOp arg
  firstBad [
    (cur.any (fun c => c.part != p), St.accessDenied),
    (!(editFormatOk arg), St.formatMismatch),
    (op = 1 && cur.isSome, St.wrongState),
    (op = 1 && (1 < d.fmt || !([64, 128, 256].contains d.headDim) || d.layers = 0 || d.heads = 0 || d.maxLen = 0 ||
      256 < d.layers || 64 < d.heads || d.base % 64 != 0), St.outOfRange),
    (op = 1 && (262144 < d.maxLen || d.maxLen < d.len || d.regionBytes < d.region || spaceSize s p 0 < d.base + d.regionBytes),
      St.lengthExceedsBuffer),
    (op = 1 && seqs.any (fun q => q.2.any (regionsMeet d)), St.configConflict),
    (op != 1 && (cur.isNone || s.srv.holds.contains (editSeq arg)), St.wrongState),
    (op = 2 && cur.any (fun c => c.maxLen < editLen arg), St.lengthExceedsBuffer)]

def seqEditRange (_ : State) (a : Octets) : Nat := if 1 ≤ editOp a && editOp a ≤ 3 then 0 else St.outOfRange

def seqEditBody (sess p : Nat) (arg : Octets) (s : State) : CmdAns :=
  let st := editStatus s (plannedSeqs s) p arg
  if st != 0 then refuse s st else stepPend Key.seqEdit sess p arg s

def seqEditWrite : Nat → Octets → State → Nat × State := cmdWrite Key.seqEdit seqEditRange seqEditBody

def execSeqEdit (sess : Nat) (arg : Octets) (s : State) : Host.Outcome State Fault Refusal :=
  .next (cmdRow Key.seqEdit seqEditWrite sess arg s)

/-! ## The boundary (R182, R183) -/

/-- An accepted edit at its boundary. Appends of a sequence that becomes shorter are not committed later. -/
def seqEditApply (p : Nat) (arg : Octets) (s : State) : Nat × State :=
  let st := editStatus s s.kv.seqs p arg
  if st != 0 then (st, s)
  else
    let kv := { s.kv with
      seqs := editSeqs s.kv.seqs p arg
      appends := if editOp arg = 1 then s.kv.appends else s.kv.appends.filter (fun a => a.seq != editSeq arg) }
    (0, { s with kv := kv })

/-- Step 1: LEN becomes H, or the shorter length the tracker names; EPOCH that of the step that committed positions. -/
def commitSeq (s : State) (k : Nat) (d : SeqD) : SeqD :=
  let l0 := match tget none s.kv.snap k with
    | some x => x.len
    | none => d.len
  let h := committedEnd s k d l0
  let len := match tget none s.kv.named k with
    | some n => min n h
    | none => h
  { d with len := len, epoch := if h = l0 then d.epoch else (s.whlAt d.part).epoch }

def commitAppends (s : State) : State :=
  let seqs := s.kv.seqs.foldl (fun t q => tput none t q.1 (q.2.map (commitSeq s q.1))) s.kv.seqs
  { s with kv := { s.kv with seqs := seqs, appends := [], named := [] } }

/-- Step 3: +0 to both scales of every block of a sequence that holds no position below LEN; codes are not cleared. -/
def clearScales (s : State) (d : SeqD) : State :=
  let first := (d.len + 63) / 64
  let z : Octets := List.replicate (4 * (d.nb - first)) 0
  ((List.range d.layers).flatMap (fun l => (List.range d.heads).map (fun h => (l, h)))).foldl (fun s x =>
    (memWrite s d.part 0 (d.scaleAt x.1 x.2 0 first) z).2) s

/-- Step 3 for the sequences of a list of indices. -/
def clearSeqs (s : State) (ks : List Nat) : State :=
  ks.foldl (fun s k => match seqAt s k with
    | some d => clearScales s d
    | none => s) s

/-- Step 4: the snapshot of every VALID descriptor (R181). -/
def snapshotSeqs (s : State) : State := { s with kv := { s.kv with snap := s.kv.seqs } }

/-- VALID sequences of a partition. -/
def liveSeqs (s : State) (p : Nat) : Nat := (s.kv.seqs.filter (fun q => q.2.any (fun d => d.part = p))).length

/-- SEQ_VIEW: a descriptor as 64 octets (R179). -/
def seqOctets (k : Nat) (d : SeqD) : Octets :=
  natLe 2 k ++ natLe 2 d.part ++ natLe 1 d.fmt ++ natLe 1 1 ++ natLe 2 d.headDim ++ natLe 2 d.layers ++ natLe 2 d.heads ++
  natLe 4 d.maxLen ++ natLe 4 d.len ++ natLe 4 d.gen ++ natLe 8 d.base ++ natLe 8 d.regionBytes ++ natLe 4 d.epoch ++
  List.replicate 20 0

end Sys2Proof.Machine
end

