-- ==== Sys2Proof/Machine/Coll.lean ====
section
/-! DEFINITION. Collectives and the press units (R286–R290, R458). -/

namespace Sys2Proof.Machine

/-! ## COLL_CREATE and COLL_DESTROY -/

/-- Octets of an element: BF16 or FP32. -/
def collSize (fmt : Nat) : Nat := if fmt = 0 then 2 else 4

def collOctets (c : CollSt) : Nat := c.elements * collSize c.fmt

/-- The descriptor of R286. -/
def collArg (b : Octets) : CollSt :=
  { members := fld b 0 1, rank := fld b 1 1, fmt := fld b 2 1, elements := fld b 4 4, src := fld b 8 8, dst := fld b 16 8,
    startObj := fld b 24 8, doneObj := fld b 32 8, collId := fld b 40 4, chips := memberChips b 64 (fld b 0 1) }

/-- The collective of the die with a COLL_ID: slot, partition and state. -/
def collById (s : State) (id : Nat) : Option (Nat × Nat × CollSt) :=
  (chans s).findSome? (fun q => match q.2.chan with
    | some (.coll c) => if c.collId = id then some (q.1, q.2.part, c) else none
    | _ => none)

/-- The refusals of R286 in order, with R454's after the paths. -/
def collStatus (s : State) (p : Nat) (b : Octets) (peers : List PeerReport) : Nat :=
  let c := collArg b
  let others := othersOf s c.chips
  firstBad [
    (!(membersOk b 64) || 1 < c.fmt || !(zeroAt b 3 1) || c.elements = 0 || 268435456 < c.elements || !(zeroAt b 44 20), St.outOfRange),
    (!(membersFit s b 64) || (collById s c.collId).isSome, St.configConflict),
    (spaceSize s p 0 < c.src + collOctets c || spaceSize s p 0 < c.dst + collOctets c, St.lengthExceedsBuffer),
    ((localObj s p c.startObj).isNone || (localObj s p c.doneObj).isNone, St.accessDenied),
    (others.any (fun x => !(reachable s x)), St.routeUnreachable),
    (others.any (fun x => !(peerTrusted s peers x)), St.peerUntrusted),
    (others.any (fun x => !((reportOf peers x).any (·.press))), St.capabilityMismatch),
    (1024 ≤ chanCount s 5, St.noSpace)]

def collCreateBody (peers : List PeerReport) (_sess p : Nat) (arg : Octets) (s : State) : CmdAns :=
  let st := collStatus s p arg peers
  if st != 0 then refuse s st
  else match pickSlot s with
    | none => refuse s St.noSpace
    | some slot =>
      let c := collArg arg
      let r := openChan (addPeers s (othersOf s c.chips)) slot p (.coll c)
      doneAt r.2 r.1

/-- The write of COLL_CREATE over FAP. -/
def collCreateWait : Nat → Octets → State → Nat × State := cmdWrite Key.collCreate anyRange (peerWaitBody Key.collCreate)

def execCollCreate (sess : Nat) (arg : Octets) (peers : List PeerReport) (s : State) : Host.Outcome State Fault Refusal :=
  .next (peerRow Key.collCreate (collCreateBody peers) (cmdWrite Key.collCreate anyRange (collCreateBody peers)) sess arg s)

/-- Destroys a channel of a partition that the handle names by its type, or answers STALE_HANDLE (R320, R321). -/
def destroyBody (typ : Nat) (bad : State → Nat → Bool) (_sess p : Nat) (arg : Octets) (s : State) : CmdAns :=
  let h := leNat arg
  match chanOf s h with
  | some (q, x) =>
    if q != p || chanType x != typ then refuse s St.staleHandle
    else if bad s h then refuse s St.wrongState
    else doneAt (destroyChan (dropFrames s (if typ = 5 then h else 2 ^ 32)) (hSlot h)) 0
  | none => refuse s St.staleHandle

def collDestroyWrite : Nat → Octets → State → Nat × State :=
  cmdWrite Key.collDestroy anyRange (destroyBody 5 (fun _ _ => false))

def execCollDestroy (sess : Nat) (arg : Octets) (s : State) : Host.Outcome State Fault Refusal :=
  .next (cmdRow Key.collDestroy collDestroyWrite sess arg s)

/-! ## Chunks (R287) -/

def chunkCount (c : CollSt) : Nat := (collOctets c + 4095) / 4096

def chunkLen (c : CollSt) (k : Nat) : Nat := min 4096 (collOctets c - k * 4096)

def chunkHome (c : CollSt) (k : Nat) : Nat := c.chips.getD (k % c.members) 0

/-- Elements of a chunk as FP32 words; BF16 is widened exactly (R288). -/
def chunkWords (fmt : Nat) (d : Octets) : List Word :=
  (List.range (d.length / collSize fmt)).map (fun i =>
    let n := fld d (collSize fmt * i) (collSize fmt)
    if fmt = 0 then bf16ToF32 (BitVec.ofNat 16 n) else BitVec.ofNat 32 n)

/-- The result, rounded once to FORMAT (R288, R102). -/
def resultOctets (fmt : Nat) (ws : List Word) : Octets :=
  ws.flatMap (fun w => if fmt = 0 then natLe 2 (f32ToBf16 w).toNat else natLe 4 w.toNat)

/-- The sum of one element in ascending rank order, from +0.0 (R288). -/
def pressSum (xs : List Word) : Word := xs.foldl f32Add 0

/-- Element by element over the contributions, which are in rank order. -/
def pressSums (n : Nat) (xs : List (List Word)) : List Word := (List.range n).map (fun i => pressSum (xs.map (fun x => x.getD i 0)))

/-! ## Results at a member (R287 step 5, R289) -/

def collAt (s : State) (slot : Nat) : Option (Nat × CollSt) :=
  match (s.slotAt slot).chan with
  | some (.coll c) => some ((s.slotAt slot).part, c)
  | _ => none

def setColl (s : State) (slot : Nat) (c : CollSt) : State := setChan s (handleAt s slot) (.coll c)

/-- A chunk's result is written at DST once; the last one of the invocation signals DONE_OBJ. -/
def writeResult (s : State) (slot k e : Nat) (d : Octets) : State :=
  match collAt s slot with
  | none => s
  | some (p, c) =>
    if c.broken || e != c.started || c.finished = e || c.results.contains k then s
    else
      let w := memWrite s p 0 (c.dst + k * 4096) d
      let s := if w.1 = 0 then w.2 else w.2.writeErr { (reportErr w.1 Kind.press (k % 4) p) with tag := e }
      let rs := k :: c.results
      if rs.length = chunkCount c then
        (signal (setColl s slot { c with results := [], finished := e }) p c.doneObj none).2
      else setColl s slot { c with results := rs }

/-! ## Contributions at the home (R289) -/

def pressUnit (s : State) (k : Nat) (f : PressSt → PressSt) : State :=
  { s with fab := { s.fab with press := tmod {} s.fab.press (k % 4) f } }

def homeOfChunk (c : CollSt) (k : Nat) : HomeChunk := (c.home.find? (fun h => h.chunk = k)).getD { chunk := k }

def setHome (c : CollSt) (h : HomeChunk) : CollSt := { c with home := h :: c.home.filter (fun x => x.chunk != h.chunk) }

/-- Every contribution of the invocation is held: it is summed once, sent to every member and written locally (R287). -/
def pressComplete (s : State) (slot k : Nat) : State :=
  match collAt s slot with
  | none => s
  | some (_, c) =>
    let h := homeOfChunk c k
    if h.now.length != c.members then s
    else
      let d := resultOctets c.fmt (pressSums (chunkLen c k / collSize c.fmt) (h.now.map (·.2)))
      let s := setColl s slot (setHome c { h with inv := h.inv + 1, now := h.nxt, nxt := [] })
      let s := pressUnit s k (fun u => { u with done := Word.bump u.done 1 })
      let s := (othersOf s c.chips).foldl (fun s chip => sendFrame s
        { typ := 4, op := 1, dst := chip, stream := c.collId, eseq := h.inv, offset := k * 4096, aux := c.members,
          payload := d, cls := 1, own := handleAt s slot }) s
      writeResult s slot k h.inv d

/-- A contribution: the state and whether it is acknowledged (R289). -/
def pressReceive (s : State) (slot k e rank : Nat) (ws : List Word) : State × Bool :=
  match collAt s slot with
  | none => (s, false)
  | some (_, c) =>
    let h := homeOfChunk c k
    if e < h.inv then (pressUnit s k (fun u => { u with stale := Word.bump u.stale 1 }), true)
    else if h.inv + 1 < e then (pressUnit s k (fun u => { u with ahead := Word.bump u.ahead 1 }), false)
    else
      let t := if e = h.inv then h.now else h.nxt
      if t.any (fun q => q.1 = rank) then (pressUnit s k (fun u => { u with dup := Word.bump u.dup 1 }), true)
      else
        let u := t.filter (fun q => q.1 < rank) ++ (rank, ws) :: t.filter (fun q => rank < q.1)
        let h := if e = h.inv then { h with now := u } else { h with nxt := u }
        (pressComplete (setColl s slot (setHome c h)) slot k, true)

/-! ## COLL_INVOCATION_START (R287 steps 1 to 3) -/

/-- This member's contribution of a chunk: to its home, or into the local press. SRC that cannot be read contributes nothing
and is recorded (R257). -/
def contribute (slot p e : Nat) (s : State) (k : Nat) : State :=
  match collAt s slot with
  | none => s
  | some (_, c) =>
    match memRead s p 0 (c.src + k * 4096) (chunkLen c k) with
    | .error st => s.writeErr { (reportErr st Kind.press (k % 4) p) with tag := e }
    | .ok d =>
      if chunkHome c k = ownChip s then (pressReceive s slot k e c.rank (chunkWords c.fmt d)).1
      else
        let s := setColl s slot { c with unacked := c.unacked ++ [k] }
        sendFrame s { typ := 3, op := 1, dst := chunkHome c k, stream := c.collId, eseq := e, offset := k * 4096, aux := c.rank,
                      payload := d, cls := 1, own := handleAt s slot }

def execCollInvocationStart (coll : Nat) (s : State) : Host.Outcome State Fault Refusal :=
  match chanOf s coll with
  | some (p, .coll c) =>
    let seen := ((localObj s p c.startObj).map (fun n => (s.objAt n).c.toNat)).getD 0
    if !c.broken && c.ended.isNone && c.finished = c.started && c.started < seen && running s then
      let e := c.started + 1
      let t := setColl s (hSlot coll) { c with started := e, results := [], unacked := [] }
      .next ((List.range (chunkCount c)).foldl (contribute (hSlot coll) p e) t)
    else .next s
  | _ => .next s

/-! ## PRESS, PRESS_RESULT and PRESS_ACK frames -/

def pressAck (s : State) (f : Frame) : State := sendEack s f.srcChip 3 f.stream f.eseq f.offset 0

/-- The collective of a PRESS or PRESS_RESULT frame: one of the die whose members include the source (R273, R458). -/
def collOfFrame (s : State) (f : Frame) : Option (Nat × Nat × CollSt) :=
  (collById s f.stream).filter (fun q => q.2.2.chips.contains f.srcChip && q.2.2.ended.isNone)

def refuseFrame (s : State) (f : Frame) (status : Nat) : State := sendEack s f.srcChip 2 f.stream f.eseq f.offset status

/-- The chunk at the frame's OFFSET, with the length its payload must have. -/
def chunkOfFrame (c : CollSt) (f : Frame) : Option Nat :=
  let k := f.offset / 4096
  if f.offset % 4096 = 0 && k < chunkCount c then some k else none

def execPress (f : Frame) (s : State) : Host.Outcome State Fault Refusal :=
  let r := frameArrives f 3 s
  let s := r.1
  if !r.2 then .next s
  else match collOfFrame s f with
    | none => .next (refuseFrame s f St.staleHandle)
    | some (slot, _, c) =>
      let rank := bits f.aux 7 0
      match chunkOfFrame c f with
      | some k =>
        if chunkHome c k != ownChip s then .next (refuseFrame s f St.accessUnmapped)
        else if c.chips.getD rank 0 != f.srcChip then .next (refuseFrame s f St.staleHandle)
        else if f.payload.length != chunkLen c k then .next (refuseFrame s f St.lengthMismatch)
        else
          let q := pressReceive s slot k f.eseq rank (chunkWords c.fmt f.payload)
          .next (if q.2 then pressAck q.1 f else q.1)
      | none => .next (refuseFrame s f St.accessUnmapped)

def execPressResult (f : Frame) (s : State) : Host.Outcome State Fault Refusal :=
  let r := frameArrives f 4 s
  let s := r.1
  if !r.2 then .next s
  else match collOfFrame s f with
    | none => .next (refuseFrame s f St.staleHandle)
    | some (slot, _, c) =>
      match chunkOfFrame c f with
      | some k =>
        if chunkHome c k != f.srcChip then .next (refuseFrame s f St.staleHandle)
        else if f.payload.length != chunkLen c k then .next (refuseFrame s f St.lengthMismatch)
        else if c.started < f.eseq then .next s
        else .next (pressAck (writeResult s slot k f.eseq f.payload) f)
      | none => .next (refuseFrame s f St.accessUnmapped)

/-- An acknowledged chunk is no longer retransmitted (R272, R289). -/
def execPressAck (f : Frame) (s : State) : Host.Outcome State Fault Refusal :=
  let r := frameArrives f 5 s
  let s := r.1
  if !r.2 then .next s
  else
    let hit (g : SentFrame) : Bool :=
      (g.typ = 3 || g.typ = 4) && g.dst = f.srcChip && g.stream = f.stream && g.eseq = f.eseq && g.offset = f.offset
    let s := { s with fab := { s.fab with sent := s.fab.sent.filter (fun g => !(hit g)), waitq := s.fab.waitq.filter (fun g => !(hit g)) } }
    .next (flushWaiting (match collById s f.stream with
      | some (slot, _, c) => setColl s slot { c with unacked := c.unacked.filter (fun k => k * 4096 != f.offset) }
      | none => s))

end Sys2Proof.Machine
end

