-- ==== Sys2Proof/Machine/Sync.lean ====
section
/-! DEFINITION. Sync objects: their operations by agents, frames and firings (R309–R313), waits, fences (R306), allocation (R308)
and their registers (R330). -/

namespace Sys2Proof.Machine

/-! ## Who issues an operation -/

/-- An agent whose fence is in progress performs nothing later (R306). -/
def agentFenced (s : State) (a : Agent) : Bool := s.syn.fences.any (fun f => f.agent = a)

/-- An operation of an agent of this die for a partition: on a local object, or as a SYNC frame. -/
def agentSync (s : State) (a : Agent) (part addr : Nat) (op : SyncOp) (x y : Nat) : State :=
  let by_ : SyncBy := .agent a part
  if agentFenced s a then s
  else if isLocal s addr then
    match objFor s part (addrOff addr) with
    | some n => let r := syncDo s n op; answerSync r.2.2 by_ (syncOpCode op) r.2.1 r.1
    | none => answerSync s by_ (syncOpCode op) 0 St.accessUnmapped
  else
    let r := remoteSync s by_ (some a) part addr (syncOpCode op) x y 0 false
    if r.1 = 0 then r.2 else answerSync r.2 by_ (syncOpCode op) 0 r.1

/-- The operation a SYNC request frame carries (R313). -/
def wireOp (f : Frame) : Option SyncOp :=
  let a := beNat (octs f.payload 0 8)
  let b := beNat (octs f.payload 8 8)
  match f.op with
  | 1 => some (.add a)
  | 2 => some (.cmpSwap a b)
  | 4 => some (.release a)
  | 5 => some .read
  | _ => none

/-- Whether the operation returns a response (R313). -/
def answers (op : SyncOp) : Bool :=
  match op with
  | .cmpSwap _ _ => true
  | .read => true
  | _ => false

/-- A request frame of a stream: performed on the partition's object, answered where it returns a value. -/
def applySync (f : Frame) (op : SyncOp) (part : Nat) (s : State) : Nat × State :=
  match objFor s part f.offset with
  | none => (St.accessUnmapped, s)
  | some n =>
    let r := syncDo s n op
    if r.1 != 0 then (r.1, s) else (0, if answers op then answerSync r.2.2 (.wire f) f.op r.2.1 0 else r.2.2)

/-- The group's release object that a RELEASE without a stream names: firings of a root reach its members so (R314). -/
def groupRelease (s : State) (f : Frame) : Option Nat :=
  match objIndex f.offset with
  | some n => if (chans s).any (fun q => match q.2.chan with
      | some (.group g) => g.release = n && g.chips.contains f.srcChip
      | _ => false) then some n else none
  | none => none

/-- A RELEASE on the flow of firings: idempotent, acknowledged by its own number (entry 82). -/
def flowRelease (f : Frame) (op : SyncOp) (s : State) : State :=
  match groupRelease s f with
  | none => sendEack s f.srcChip 2 f.stream f.eseq 0 St.staleHandle
  | some n =>
    let r := syncDo s n op
    if r.1 != 0 then sendEack s f.srcChip 2 0 f.eseq 0 r.1 else sendEack r.2.2 f.srcChip 1 0 ((f.eseq + 1) % 2 ^ 32) 0 0

/-- A SYNC request frame with this OP. AUX is 0 in a request. -/
def wireSync (f : Frame) (code : Nat) (s : State) : State :=
  let r := frameArrives f 2 s
  if !r.2 then r.1
  else if f.op != code || f.aux != 0 || f.payload.length != 64 then r.1.writeErr (frameErr Mech.xtvFormat 0 f 2)
  else match wireOp f with
    | none => r.1
    | some op => if f.stream = 0 && code = 4 then flowRelease f op r.1 else streamReceive f (applySync f op) r.1

/-! ## ADD, CMP_SWAP, READ -/

def execSyncAdd (by_ : SyncBy) (addr a : Nat) (s : State) : Host.Outcome State Fault Refusal :=
  match by_ with
  | .agent g p => .next (agentSync s g p addr (.add (a % 2 ^ 64)) (a % 2 ^ 64) 0)
  | .wire f => .next (wireSync f 1 s)
  | .roce _ => .next s
  | .fired => .next s

def execSyncCmpSwap (by_ : SyncBy) (addr c v : Nat) (s : State) : Host.Outcome State Fault Refusal :=
  match by_ with
  | .agent g p => .next (agentSync s g p addr (.cmpSwap (c % 2 ^ 64) (v % 2 ^ 64)) (c % 2 ^ 64) (v % 2 ^ 64))
  | .wire f => .next (wireSync f 2 s)
  | .roce _ => .next s
  | .fired => .next s

def execSyncRead (by_ : SyncBy) (addr : Nat) (s : State) : Host.Outcome State Fault Refusal :=
  match by_ with
  | .agent g p => .next (agentSync s g p addr .read 0 0)
  | .wire f => .next (wireSync f 5 s)
  | .roce _ => .next s
  | .fired => .next s

/-! ## RELEASE, and the RELEASEs of firings (R311) -/

/-- A RELEASE of a firing that fails writes a record for its object (R311). -/
def firingFails (s : State) (n status : Nat) : State :=
  s.writeErr { (reportErr status Kind.module 0 (s.objAt n).owner) with tag := n }

/-- One RELEASE of a firing arrives at a local target, or leaves for its chip. -/
def deliverFiring (s : State) (n target v : Nat) : State :=
  let owner := (s.objAt n).owner
  if isLocal s target then
    match objFor s owner (addrOff target) with
    | some m => let r := syncDo s m (.release v); if r.1 = 0 then r.2.2 else firingFails s n r.1
    | none => firingFails s n St.accessUnmapped
  else if (objIndex (addrOff target)).isNone then firingFails s n St.accessUnmapped
  else
    let r := sendSync s owner (addrChip target) 4 (addrOff target) v 0 0 0 none (some n)
    if r.1 = 0 then r.2 else firingFails r.2 n r.1

/-- The first flight with this target and next value goes on. -/
def takeFlight (target v : Nat) : List Flight → Option (Flight × List Flight)
  | [] => none
  | f :: t =>
    if f.target = target && f.value = v then
      some (f, if f.value = f.last then t else { f with value := (f.value + 1) % 2 ^ 64 } :: t)
    else (takeFlight target v t).map (fun r => (r.1, f :: r.2))

def execSyncRelease (by_ : SyncBy) (addr v : Nat) (s : State) : Host.Outcome State Fault Refusal :=
  match by_ with
  | .agent g p => .next (agentSync s g p addr (.release (v % 2 ^ 64)) (v % 2 ^ 64) 0)
  | .wire f => .next (wireSync f 4 s)
  | .roce _ => .next s
  | .fired =>
    match takeFlight addr v s.syn.flights with
    | some (f, rest) => .next (deliverFiring { s with syn := { s.syn with flights := rest } } f.obj addr v)
    | none => .next s

/-! ## WAIT (R312) -/

def timeoutOk (t : Nat) : Bool := 1 ≤ t && t ≤ 4000000

def agentWait (s : State) (a : Agent) (part addr v timeoutUs : Nat) : State :=
  let by_ : SyncBy := .agent a part
  if agentFenced s a then s
  else if !(timeoutOk timeoutUs) then answerSync s by_ 3 0 St.outOfRange
  else if isLocal s addr then
    match objFor s part (addrOff addr) with
    | some n => syncWait s by_ n v timeoutUs
    | none => answerSync s by_ 3 0 St.accessUnmapped
  else
    let r := remoteSync s by_ (some a) part addr 3 v 0 timeoutUs false
    if r.1 = 0 then r.2 else answerSync r.2 by_ 3 0 r.1

def applyWait (f : Frame) (part : Nat) (s : State) : Nat × State :=
  let t := beNat (octs f.payload 24 4)
  match objFor s part f.offset with
  | none => (St.accessUnmapped, s)
  | some n =>
    if !(timeoutOk t) then (St.outOfRange, s)
    else if (s.objAt n).broken then (St.peerLost, s)
    else (0, syncWait s (.wire f) n (beNat (octs f.payload 0 8)) t)

def execSyncWait (by_ : SyncBy) (addr v timeoutUs : Nat) (s : State) : Host.Outcome State Fault Refusal :=
  match by_ with
  | .agent g p => .next (agentWait s g p addr (v % 2 ^ 64) timeoutUs)
  | .wire f =>
    let r := frameArrives f 2 s
    .next (if !r.2 then r.1
      else if f.op != 3 || f.aux != 0 || f.payload.length != 64 then r.1.writeErr (frameErr Mech.xtvFormat 0 f 2)
      else streamReceive f (applyWait f) r.1)
  | .roce _ => .next s
  | .fired => .next s

def execSyncWaitTimeout (waiter : Nat) (s : State) : Host.Outcome State Fault Refusal :=
  match s.syn.waiters.find? (fun w => w.id = waiter) with
  | some w =>
    let s := s.until (w.since + w.timeoutUs * 1000)
    .next (answerSync { s with syn := { s.syn with waiters := s.syn.waiters.filter (fun x => x.id != waiter) } } w.by_ 3 0 St.syncTimeout)
  | none => .next s

/-! ## SYNC_RESPONSE (R313) -/

/-- The response to a request: an agent gets its result; a task's remote WAIT is satisfied, issued again after SYNC_TIMEOUT, or
fails its tasks (R312). -/
def applyResponse (f : Frame) (_part : Nat) (s : State) : Nat × State :=
  let token := wireToken f
  let result := beNat (octs f.payload 32 8)
  let status := beNat (octs f.payload 40 2)
  match s.syn.requests.find? (fun r => r.token = token && addrChip r.addr = f.srcChip && r.op = f.op) with
  | none => (0, s)
  | some r =>
    let t := { s with syn := { s.syn with requests := s.syn.requests.filter (fun q => q.token != token) } }
    if !r.task then (0, answerSync t r.by_ r.op result status)
    else if status = 0 then
      let seen := max result (tget 0 t.syn.remoteSeen r.addr)
      (0, { t with syn := { t.syn with remoteSeen := tput 0 t.syn.remoteSeen r.addr seen } })
    else if status = St.syncTimeout then
      match r.by_ with
      | .agent g p =>
        let q := remoteSync t r.by_ (some g) p r.addr 3 r.value 0 4000000 true
        (0, if q.1 = 0 then q.2 else failRequest s r q.1)
      | _ => (0, t)
    else (0, failRequest s r status)

def execSyncResponse (f : Frame) (s : State) : Host.Outcome State Fault Refusal :=
  let r := frameArrives f 2 s
  .next (if !r.2 then r.1
    else if f.aux != 2 ^ 31 || f.payload.length != 64 then r.1.writeErr (frameErr Mech.xtvFormat 0 f 2)
    else streamReceive f (applyResponse f) r.1)

/-! ## Fences (R306) -/

def startFence (s : State) (a : Agent) (scope : Nat) : State :=
  if agentFenced s a then s
  else
    let w := if scope = 3 then agentFrames s a else []
    let q := if scope = 3 then agentRdma s a else []
    { s with syn := { s.syn with fences := s.syn.fences ++ [⟨a, scope, w, q, s.time⟩] } }

/-- Only an engine issues a LOCAL fence. -/
def execFenceLocal (agent : Agent) (s : State) : Host.Outcome State Fault Refusal :=
  match agent with
  | .engine _ => .next (startFence s agent 1)
  | _ => .next s

def execFenceDie (agent : Agent) (s : State) : Host.Outcome State Fault Refusal := .next (startFence s agent 2)

def execFenceFabric (agent : Agent) (s : State) : Host.Outcome State Fault Refusal := .next (startFence s agent 3)

/-- Frames and RDMA writes a fence still waits for. -/
def fenceWaits (s : State) (f : FenceSt) : Bool :=
  f.waits.any (fun w => s.fab.sent.any (fun g => g.by_ = some f.agent && g.stream = w.1 && g.eseq = w.2)) ||
  f.qpWaits.any (fun w => match qpAt s w.1 with
    | some (_, q) => q.outstanding.contains w.2
    | none => false)

/-- The first failure of the agent's frames since its last FABRIC fence. -/
def lateOf (s : State) (a : Agent) : Nat := ((s.syn.lateStatus.find? (fun q => q.1 = a)).map (·.2)).getD 0

def execFenceComplete (agent : Agent) (s : State) : Host.Outcome State Fault Refusal :=
  match s.syn.fences.find? (fun f => f.agent = agent) with
  | none => .next s
  | some f =>
    if fenceWaits s f then .next s
    else
      let s := s.until (f.since + (if f.scope = 1 then 4 else 12))
      let st := if f.scope = 3 then lateOf s agent else 0
      let syn := { s.syn with
        fences := s.syn.fences.filter (fun g => g.agent != agent)
        lateStatus := if f.scope = 3 then s.syn.lateStatus.filter (fun q => q.1 != agent) else s.syn.lateStatus
        fenceStatus := s.syn.fenceStatus.filter (fun q => q.1 != agent) ++ [(agent, st)] }
      .next ({ s with syn := syn }.emit (.status agent st))

/-! ## SYNC_ALLOC, SYNC_FREE, SYNC_CONFIG (R308, R311) -/

/-- The lowest index from which `n` objects in a row are free. -/
def freeFrom (n : Nat) : Tab SyncObj → Nat → Nat
  | [], c => c
  | (k, o) :: t, c => if !o.alloc then freeFrom n t c else if c + n ≤ k then c else freeFrom n t (k + 1)

def countRange (off : Nat) (_ : State) (b : Octets) : Nat :=
  if 1 ≤ fld b off 4 && fld b off 4 ≤ 65536 then 0 else St.outOfRange

def syncAllocBody (_sess p : Nat) (arg : Octets) (s : State) : CmdAns :=
  let n := fld arg 0 4
  let first := freeFrom n s.syn.objs 0
  if 65536 < first + n then refuse s St.noSpace
  else doneAt ((List.range n).foldl (fun s i => s.setObj (first + i) { alloc := true, owner := p }) s) first

def syncAllocWrite : Nat → Octets → State → Nat × State := cmdWrite Key.syncAlloc (countRange 0) syncAllocBody

def execSyncAlloc (sess : Nat) (arg : Octets) (s : State) : Host.Outcome State Fault Refusal :=
  .next (cmdRow Key.syncAlloc syncAllocWrite sess arg s)

def ownsObj (s : State) (p n : Nat) : Bool := n < 65536 && (s.objAt n).alloc && (s.objAt n).owner = p

def syncFreeBody (_sess p : Nat) (arg : Octets) (s : State) : CmdAns :=
  let run := (List.range (fld arg 4 4)).map (fld arg 0 4 + ·)
  if run.any (fun n => !(ownsObj s p n)) then refuse s St.accessDenied
  else if run.any (objNamed s) then refuse s St.wrongState
  else doneAt (run.foldl freeObject s) 0

def syncFreeWrite : Nat → Octets → State → Nat × State := cmdWrite Key.syncFree (countRange 4) syncFreeBody

def execSyncFree (sess : Nat) (arg : Octets) (s : State) : Host.Outcome State Fault Refusal :=
  .next (cmdRow Key.syncFree syncFreeWrite sess arg s)

/-- ARMED, THRESHOLD, STRIDE and TARGET written together; R311 applies at once. A BROKEN object refuses it (R316). -/
def configObj (s : State) (n : Nat) (armed : Bool) (stride thr target : Nat) : State :=
  let o := s.objAt n
  objChanged (s.setObj n { o with
    armed := armed, stride := BitVec.ofNat 32 stride, thr := BitVec.ofNat 64 thr, target := BitVec.ofNat 64 target,
    rootLocal := none, unicast := [] }) n

def syncConfigRange (_ : State) (b : Octets) : Nat :=
  if fld b 0 4 ≤ 65535 && fld b 4 1 ≤ 1 && zeroAt b 5 3 && fld b 8 4 != 0 && zeroAt b 12 4 then 0 else St.outOfRange

def syncConfigBody (_sess p : Nat) (arg : Octets) (s : State) : CmdAns :=
  let n := fld arg 0 4
  if !(ownsObj s p n) then refuse s St.accessDenied
  else if (s.objAt n).broken then refuse s St.peerLost
  else doneAt (configObj s n (fld arg 4 1 = 1) (fld arg 8 4) (fld arg 16 8) (fld arg 24 8)) 0

def syncConfigWrite : Nat → Octets → State → Nat × State := cmdWrite Key.syncConfig syncConfigRange syncConfigBody

def execSyncConfig (sess : Nat) (arg : Octets) (s : State) : Host.Outcome State Fault Refusal :=
  .next (cmdRow Key.syncConfig syncConfigWrite sess arg s)

/-! ## Registers with an effect of their own (R330) -/

def syncReg (obj off : Nat) : Nat := 0x800000 + 0x40 * obj + off

def execSyncThreshHiWrite (agent : RegAgent) (obj value : Nat) (s : State) : Host.Outcome State Fault Refusal :=
  .next (regRow agent (syncReg obj 0x0C) (fun s =>
    let o := s.objAt obj
    if o.broken then s
    else objChanged (s.setObj obj { o with thr := BitVec.ofNat 64 (value % 2 ^ 32 * 2 ^ 32 + o.thrLo.toNat) }) obj) s)

def execSyncTargetHiWrite (agent : RegAgent) (obj value : Nat) (s : State) : Host.Outcome State Fault Refusal :=
  .next (regRow agent (syncReg obj 0x18) (fun s =>
    let o := s.objAt obj
    if o.broken then s
    else s.setObj obj { o with target := BitVec.ofNat 64 (value % 2 ^ 32 * 2 ^ 32 + o.targetLo.toNat) }) s)

end Sys2Proof.Machine
end

