-- ==== Sys2Proof/Machine/Chans.lean ====
section
/-! DEFINITION. Channels: sync groups (R314), streams (R323), queue pairs (R324) and task channels (R325). -/

namespace Sys2Proof.Machine

/-! ## Sync groups -/

def groupArg (b : Octets) : GroupSt :=
  { members := fld b 0 1, rank := fld b 1 1, root := fld b 2 1, mcast := bit (fld b 3 1) 0, group := fld b 4 1, arrive := fld b 8 4,
    release := fld b 12 4, chips := memberChips b 32 (fld b 0 1) }

/-- The refusals of R314, in R286's order. -/
def groupStatus (s : State) (p : Nat) (b : Octets) (peers : List PeerReport) : Nat :=
  let g := groupArg b
  let others := othersOf s g.chips
  firstBad [
    (!(membersOk b 32) || g.members ≤ g.root || 1 < fld b 3 1 || (if g.mcast then 15 < g.group else g.group != 0) ||
      !(zeroAt b 5 3) || 65535 < g.arrive || 65535 < g.release || !(zeroAt b 16 16), St.outOfRange),
    (!(membersFit s b 32), St.configConflict),
    (!(ownsObj s p g.release) || (g.rank = g.root && !(ownsObj s p g.arrive)), St.accessDenied),
    (others.any (fun x => !(reachable s x)), St.routeUnreachable),
    (others.any (fun x => !(peerTrusted s peers x)), St.peerUntrusted),
    (1024 ≤ chanCount s 4, St.noSpace)]

/-- The root arms ARRIVE: THRESHOLD and STRIDE are MEMBERS; firings release the other members and the root's own object. -/
def armRoot (s : State) (g : GroupSt) : State :=
  let o := s.objAt g.arrive
  let chip := if g.mcast then 0xFFF0 + g.group else ownChip s
  objChanged (s.setObj g.arrive { o with
    armed := true, thr := BitVec.ofNat 64 g.members, stride := BitVec.ofNat 32 g.members,
    target := BitVec.ofNat 64 (mkAddr chip (objAddr g.release)), rootLocal := some g.release,
    unicast := if g.mcast then [] else othersOf s g.chips }) g.arrive

def groupCreateBody (peers : List PeerReport) (_sess p : Nat) (arg : Octets) (s : State) : CmdAns :=
  let st := groupStatus s p arg peers
  if st != 0 then refuse s st
  else match pickSlot s with
    | none => refuse s St.noSpace
    | some slot =>
      let g := groupArg arg
      let r := openChan (addPeers s (othersOf s g.chips)) slot p (.group g)
      doneAt (if g.rank = g.root then armRoot r.2 g else r.2) r.1

/-- The write of SYNC_GROUP_CREATE over FAP. -/
def groupCreateWait : Nat → Octets → State → Nat × State :=
  cmdWrite Key.syncGroupCreate anyRange (peerWaitBody Key.syncGroupCreate)

def execSyncGroupCreate (sess : Nat) (arg : Octets) (peers : List PeerReport) (s : State) : Host.Outcome State Fault Refusal :=
  .next (peerRow Key.syncGroupCreate (groupCreateBody peers) (cmdWrite Key.syncGroupCreate anyRange (groupCreateBody peers)) sess arg s)

def groupDestroyWrite : Nat → Octets → State → Nat × State :=
  cmdWrite Key.syncGroupDestroy anyRange (destroyBody 4 (fun _ _ => false))

def execSyncGroupDestroy (sess : Nat) (arg : Octets) (s : State) : Host.Outcome State Fault Refusal :=
  .next (cmdRow Key.syncGroupDestroy groupDestroyWrite sess arg s)

/-! ## Streams -/

def streamRange (_ : State) (b : Octets) : Nat :=
  let c := fld b 2 1
  if zeroAt b 3 5 && (c = 0 || c = 2 || c = 3) then 0 else St.outOfRange

/-- The sending end: the security core draws the stream's key and hands it to the destination (R455). -/
def streamOpenBody (peer : PeerReport) (_sess p : Nat) (arg : Octets) (s : State) : CmdAns :=
  let chip := fld arg 0 2
  let st := firstBad [
    (chip = ownChip s || !(reachable s chip), St.routeUnreachable),
    (!(peerTrusted s [peer] chip), St.peerUntrusted)]
  if st != 0 then refuse s st
  else match pickSlot s, peer.handle with
    | some slot, some h =>
      let s := addPeers s [chip]
      let s := { s with sec := { s.sec with drbg := s.sec.drbg + 1 } }
      let r := openChan s slot p (.stream { sender := true, chip := chip, cls := fld arg 2 1, peer := h, keyGen := s.sec.drbg })
      doneAt r.2 r.1
    | _, _ => refuse s St.noSpace

def streamOpenWait : Nat → Octets → State → Nat × State := cmdWrite Key.streamOpen streamRange (peerWaitBody Key.streamOpen)

/-- A peer's firmware asks for the receive end of a stream to a partition of this module: the peer policy applies (R454), and a
free slot is taken. -/
def receiveEnd (s : State) (r : PeerReport) (part cls : Nat) : State :=
  match pickSlot s, r.handle with
  | some slot, some h =>
    if peerTrusted s [r] r.chip && (part = 0 || partCreated s part) && (cls = 0 || cls = 2 || cls = 3) then
      (openChan (addPeers s [r.chip]) slot part (.stream { sender := false, chip := r.chip, cls := cls, peer := h, keyGen := 0 })).2
    else s
  | _, _ => s

def execStreamOpen (by_ : StreamOpener) (s : State) : Host.Outcome State Fault Refusal :=
  match by_ with
  | .session sess arg peer =>
    .next (peerRow Key.streamOpen (streamOpenBody peer) (cmdWrite Key.streamOpen streamRange (streamOpenBody peer)) sess arg s)
  | .peer r part cls => .next (receiveEnd s r part cls)

def streamCloseWrite : Nat → Octets → State → Nat × State := cmdWrite Key.streamClose anyRange (destroyBody 3 (fun _ _ => false))

def execStreamClose (sess : Nat) (arg : Octets) (s : State) : Host.Outcome State Fault Refusal :=
  .next (cmdRow Key.streamClose streamCloseWrite sess arg s)

/-! ## Queue pairs -/

def qpRange (s : State) (b : Octets) : Nat :=
  let m := fld b 1 1
  if 20 ≤ fld b 0 1 && fld b 0 1 ≤ 23 && 1 ≤ m && m ≤ 5 && 128 * 2 ^ m ≤ cfgNat s Key.roceMtu && zeroAt b 2 2 &&
    fld b 4 4 < 2 ^ 24 && fld b 8 4 < 2 ^ 24 && fld b 12 4 < 2 ^ 24 then 0 else St.outOfRange

/-- The remote key is free; SESSION_RESULT holds it with the local QPN. -/
def qpCreateBody (sess p : Nat) (arg : Octets) (s : State) : CmdAns :=
  if portMode s (fld arg 0 1) != 2 then refuse s St.configConflict
  else if 16384 ≤ chanCount s 2 then refuse s St.noSpace
  else match pickSlot s with
    | none => refuse s St.noSpace
    | some slot =>
      let f := s.fresh
      let key := (Config.remoteKey f.1).toNat
      let q : QpSt := {
        port := fld arg 0 1, pmtu := fld arg 1 1, remoteQpn := fld arg 4 4, sqPsn := fld arg 8 4, rqPsn := fld arg 12 4
        remoteAddr := octs arg 16 16, rkey := key, lastRise := s.time }
      let r := openChan f.2 slot p (.qp q)
      doneAt (r.2.modSess sess (fun x => { x with result := natLe 4 (0x100000 + slot) ++ natLe 4 key })) r.1

def qpCreateWrite : Nat → Octets → State → Nat × State := cmdWrite Key.qpCreate qpRange qpCreateBody

def execQpCreate (sess : Nat) (arg : Octets) (s : State) : Host.Outcome State Fault Refusal :=
  .next (cmdRow Key.qpCreate qpCreateWrite sess arg s)

def qpDestroyWrite : Nat → Octets → State → Nat × State := cmdWrite Key.qpDestroy anyRange (destroyBody 2 qpBound)

def execQpDestroy (sess : Nat) (arg : Octets) (s : State) : Host.Outcome State Fault Refusal :=
  .next (cmdRow Key.qpDestroy qpDestroyWrite sess arg s)

/-! ## Task channels -/

def taskChanArg (b : Octets) : TaskChan :=
  { base := fld b 0 8, slots := fld b 8 2, vat := fld b 10 1, posted := fld b 16 8, consumed := fld b 24 8 }

def taskChanRange (_ : State) (b : Octets) : Nat :=
  let c := taskChanArg b
  if c.base % 64 = 0 && 1 ≤ c.slots && c.slots ≤ 4096 && zeroAt b 11 5 then 0 else St.outOfRange

def taskChanOpenBody (_sess p : Nat) (arg : Octets) (s : State) : CmdAns :=
  let c := taskChanArg arg
  let objs := [c.posted, c.consumed]
  let st := firstBad [
    (spaceSize s p 0 < c.base + 64 * c.slots, St.lengthExceedsBuffer),
    (objs.any (fun a => (localObj s p a).isNone), St.accessDenied),
    (!(vatPresent s c.vat), St.unitAbsent),
    (objs.any (fun a => counterOf s p a != 0), St.configConflict),
    (4096 ≤ chanCount s 6, St.noSpace)]
  if st != 0 then refuse s st
  else match pickSlot s with
    | none => refuse s St.noSpace
    | some slot => let r := openChan s slot p (.task c); doneAt r.2 r.1

def taskChanOpenWrite : Nat → Octets → State → Nat × State := cmdWrite Key.taskChanOpen taskChanRange taskChanOpenBody

def execTaskChanOpen (sess : Nat) (arg : Octets) (s : State) : Host.Outcome State Fault Refusal :=
  .next (cmdRow Key.taskChanOpen taskChanOpenWrite sess arg s)

def taskChanCloseWrite : Nat → Octets → State → Nat × State := cmdWrite Key.taskChanClose anyRange (destroyBody 6 (fun _ _ => false))

def execTaskChanClose (sess : Nat) (arg : Octets) (s : State) : Host.Outcome State Fault Refusal :=
  .next (cmdRow Key.taskChanClose taskChanCloseWrite sess arg s)

/-- The descriptor has been read: CONSUMED advances past it. -/
def descConsumed (s : State) (h p : Nat) (c : TaskChan) : State :=
  (signal (setChan s h (.task { c with read := c.read + 1 })) p c.consumed none).2

/-- A descriptor that is refused: its record (R325). -/
def descRefused (s : State) (vat p taskId status : Nat) : State :=
  s.writeErr { (reportErr status Kind.vat vat p) with tag := taskId }

def execTaskChanDescriptorRead (chan : Nat) (s : State) : Host.Outcome State Fault Refusal :=
  match chanOf s chan with
  | some (p, .task c) =>
    if vatServing s c.vat && c.read < counterOf s p c.posted then
      match memRead s p 0 (c.base + c.read % c.slots * 64) 64 with
      | .error st =>
        let t := s.modVat c.vat (fun v => { v with refused := Word.bump v.refused 1 })
        .next (descConsumed (descRefused t c.vat p 0 st) chan p c)
      | .ok d =>
        if descCheck s (.partition p) d = St.queueFull then .next s
        else
          let r := postTask s (.partition p) d
          .next (descConsumed (if r.1 = 0 then r.2 else descRefused r.2 c.vat p (taskOf d p).taskId r.1) chan p c)
    else .next s
  | _ => .next s

end Sys2Proof.Machine
end

