-- ==== Sys2Proof/Machine/Mailbox.lean ====
section
/-! DEFINITION. Mailboxes (R326–R329). -/

namespace Sys2Proof.Machine

/-- End code of an end (R329). -/
def endCode (s : State) (e : MbxEnd) : Nat :=
  match e with
  | .mgmt => 0
  | .sec => 1
  | .vat v => 2 + v
  | .session n => 15 + (s.sessAt n).cls

/-- Whether an agent is the end with a code: a PARTITION session must be of the mailbox's partition (R326). -/
def isEnd (s : State) (m code : Nat) (e : MbxEnd) : Bool :=
  endCode s e = code && match e with
    | .session n => (s.sessAt n).cls != 4 || (s.sessAt n).part = (s.mbxAt m).part
    | _ => true

/-- A session that is neither end is refused with ACCESS_DENIED (R326). -/
def mbxAdmits (s : State) (m : Nat) (e : MbxEnd) : Bool :=
  match e with
  | .session n => sessReady s n && (isEnd s m (s.mbxAt m).sender e || isEnd s m (s.mbxAt m).receiver e)
  | _ => true

/-- A write that the state does not allow: ignored, WR_ERR set (R327). -/
def mbxWrong (s : State) (m : Nat) : State := s.setMbx m { s.mbxAt m with wrErr := true }

/-- The sender may write MSG and DOORBELL in IDLE and DONE. -/
def mbxSends (s : State) (m : Nat) (e : MbxEnd) : Bool := isEnd s m (s.mbxAt m).sender e && (s.mbxAt m).state != 1

/-- Writes message words: status and state. -/
def mbxPutWords (s : State) (m : Nat) (e : MbxEnd) (ws : List (Nat × Word)) : Nat × State :=
  if !(mbxAdmits s m e) then (St.accessDenied, s)
  else if mbxSends s m e then
    (0, s.setMbx m { s.mbxAt m with msg := ws.foldl (fun t w => tput 0 t w.1 w.2) (s.mbxAt m).msg, wrErr := false })
  else (St.wrongState, mbxWrong s m)

/-- The answer to a session's access; cores read WR_ERR instead. -/
def mbxAnswer (e : MbxEnd) (k : Nat) (r : Nat × State) : State :=
  match e with
  | .session n => if sessReady r.2 n then r.2.emit (.fap n ⟨2, 0, r.1, k / 256, k % 256, 0, []⟩) else r.2
  | _ => r.2

def execMbxMsgWrite (mbx : Nat) (end_ : MbxEnd) (word value : Nat) (s : State) : Host.Outcome State Fault Refusal :=
  if 63 < mbx || 63 < word then .next s
  else .next (mbxAnswer end_ Key.mbxMsg (mbxPutWords s mbx end_ [(word, BitVec.ofNat 32 value)]))

/-- A receiver that is a core takes an interrupt. -/
def mbxToCore (b : Mbx) : Bool := b.receiver ≤ 9

/-- DOORBELL (R327, R328): status and state. It is a wake event for a receiver that is a core. -/
def mbxRing (s : State) (m : Nat) (e : MbxEnd) (len : Nat) : Nat × State :=
  if !(mbxAdmits s m e) then (St.accessDenied, s)
  else if 256 < len then (St.lengthExceedsBuffer, mbxWrong s m)
  else if mbxSends s m e then
    let b := s.mbxAt m
    let t := s.setMbx m { b with state := 1, len := len, wrErr := false, irq := mbxToCore b }
    (0, if mbxToCore b then wake (.doorbell m) t else t)
  else (St.wrongState, mbxWrong s m)

def execMbxDoorbell (mbx : Nat) (end_ : MbxEnd) (len : Nat) (s : State) : Host.Outcome State Fault Refusal :=
  if 63 < mbx then .next s else .next (mbxAnswer end_ Key.mbxDoorbell (mbxRing s mbx end_ len))

/-- The receiver of a mailbox runs: the module is in S0, and the core is neither halted nor fenced with its vat. -/
def coreRuns (s : State) (code : Nat) : Bool :=
  s.pwr.state = .s0 && s.pwr.entering = none && !(s.flt.halted.contains code) &&
    (code < 2 || (vatPresent s (code - 2) && !(vatFenced s (code - 2))))

/-- The interrupt is taken; a gated vat is powered first (R328). -/
def execMbxInterrupt (mbx : Nat) (s : State) : Host.Outcome State Fault Refusal :=
  let b := s.mbxAt mbx
  if b.irq && coreRuns s b.receiver then
    let t := if 2 ≤ b.receiver then s.modVat (b.receiver - 2) (fun v => { v with gated := false }) else s
    .next ((t.setMbx mbx { b with irq := false }).emit (.interrupt mbx b.receiver))
  else .next s

/-- The receiver, a core, writes RC in PENDING (R327). A session acts only through MBX_MSG and MBX_DOORBELL (R326). -/
def execMbxAck (mbx : Nat) (end_ : MbxEnd) (rc : Nat) (s : State) : Host.Outcome State Fault Refusal :=
  let b := s.mbxAt mbx
  if 63 < mbx then .next s
  else if end_ matches .session _ then .next (mbxAnswer end_ Key.mbxDoorbell (St.accessDenied, s))
  else if isEnd s mbx b.receiver end_ && b.state = 1 then
    .next (s.setMbx mbx { b with rc := bits rc 15 0, state := 2, wrErr := false })
  else .next (mbxWrong s mbx)

end Sys2Proof.Machine
end

