-- ==== Sys2Proof/Machine/Power.lean ====
section
/-! DEFINITION. Power states and clocks (R398–R402, R406), the power cap and the brake (R410, R411). -/

namespace Sys2Proof.Machine

/-! ## Power states -/

def stateTarget (t : Nat) : PState := if t = 1 then .s1 else if t = 2 then .s2 else if t = 3 then .s3 else .s0

def pDepth : PState → Nat
  | .s0 => 0
  | .s1 => 1
  | .s2 => 2
  | .s3 => 3
  | .s4 => 4

def targetRange (_ : State) (a : Octets) : Nat := if leNat a ≤ 3 then 0 else St.outOfRange

/-- A channel of types 1–6 is open (R399). -/
def chansOpen (s : State) : Bool := (chans s).any (fun q => q.2.chan.any (fun c => chanType c != 7))

/-- Refusals of a request for S1 to S3 (R399); in SCRAPPED no state but S0 and S4 is entered (R465). -/
def lowStatus (s : State) (t : Nat) : Nat :=
  firstBad [
    (lifecycleOf s = Lc.scrapped, St.lifecycleForbids),
    (s.pwr.entering.isSome || s.pwr.exiting || s.pwr.stop != 0, St.wrongState),
    (t < pDepth s.pwr.state, St.wrongState),
    (t = 2 && chansOpen s, St.wrongState),
    (2 ≤ t && requestsActive s, St.wrongState)]

/-- An entry begins. -/
def beginEntry (s : State) (t : PState) : State := { s with pwr := { s.pwr with entering := some t } }

def pwrStateBody (sess _p : Nat) (arg : Octets) (s : State) : CmdAns :=
  let t := leNat arg
  if t = 0 then
    (if s.pwr.hold then refuse s St.thermalHold
     else if s.pwr.state = .s0 && s.pwr.entering.isNone then doneAt s 0
     else started (wake .stateReq s))
  else if lowStatus s t != 0 then refuse s (lowStatus s t)
  else if t = pDepth s.pwr.state then doneAt s 0
  else if t = 1 then started { s with pwr := { s.pwr with waitReq := some (sess, 1) } }
  else started (beginEntry s (stateTarget t))

def pwrStateWrite : Nat → Octets → State → Nat × State := cmdWrite Key.pwrStateReq targetRange pwrStateBody

def execPwrStateReq (sess : Nat) (arg : Octets) (s : State) : Host.Outcome State Fault Refusal :=
  .next (cmdRow Key.pwrStateReq pwrStateWrite sess arg s)

/-- The module enters S1 by itself after PWR_IDLE_US of idleness (R399). -/
def execAutoS1Entry (s : State) : Host.Outcome State Fault Refusal :=
  if s.pwr.state = .s0 && s.pwr.entering.isNone && s.pwr.stop = 0 && cfgBool s Key.pwrAutoS1 && moduleIdle s &&
      lifecycleOf s != Lc.scrapped && lifecycleOf s != Lc.blank then
    .next (beginEntry (s.until (idleFrom s + cfgNat s Key.pwrIdleUs * 1000)) .s1)
  else .next s

/-- A kept wake event returns the module to S0 once the entry is complete (R402). -/
def actOnKept (s : State) : State :=
  if s.pwr.kept.isEmpty || s.pwr.hold then s else { s with pwr := { s.pwr with exiting := true } }

/-- The entry is complete: the request is done. A kept PWR_STATE_REQ 0 is done at the exit instead. -/
def entryDone (s : State) : State :=
  let t := if s.pwr.kept.contains .stateReq then s else cmdEnd s Key.pwrStateReq 0 (cmdWord 2 0 0 0)
  actOnKept { t with pwr := { t.pwr with waitReq := none } }

/-- What is entered next: the entry that began, or the S1 for which a request waits until the module is idle. -/
def enteringNow (s : State) : Option PState :=
  match s.pwr.entering with
  | some t => some t
  | none => if s.pwr.waitReq.isSome && s.pwr.state = .s0 && moduleIdle s then some .s1 else none

/-- S1 and S2 are entered once the work in flight is done (entry 86); an ordered stop enters S3 after its first steps (R418). -/
def execPowerStateEntryDone (s : State) : Host.Outcome State Fault Refusal :=
  if s.pwr.state = .s4 then .next s
  else match enteringNow s with
    | some .s1 => if workIdle s then .next (entryDone (enterS1 s)) else .next s
    | some .s2 => if workIdle s then .next (entryDone (enterS2 s)) else .next s
    | some .s3 =>
      if s.pwr.stop = 1 then (if orderedReady s then .next (orderedEnd s) else .next s)
      else .next (entryDone (enterS3 St.wrongState s))
    | _ => .next s

/-- The states that an event of R400 wakes, by the state that is left or being entered. -/
def wakes (w : Wake) (d : Nat) : Bool :=
  match w with
  | .doorbell _ => true
  | .stateReq => true
  | .frame _ => d = 1
  | .fapCommand => d = 1

def execWakeEvent (w : Wake) (s : State) : Host.Outcome State Fault Refusal :=
  let d := pDepth (s.pwr.entering.getD s.pwr.state)
  if wakes w d && !(w = .stateReq && s.pwr.hold) then .next (wake w s) else .next s

def execPowerStateExitDone (s : State) : Host.Outcome State Fault Refusal :=
  if s.pwr.exiting && !s.pwr.hold && s.pwr.state != .s4 then .next (exitToS0 s) else .next s

/-! ## Clocks (R406) -/

def clockErr : ErrRec := { (reportErr St.clockLost Kind.module 0 0) with mech := Mech.environment }

/-- The fabric reference is lost: every port goes DOWN. -/
def execRefclkLoss (s : State) : Host.Outcome State Fault Refusal :=
  if !s.pwr.refLock then .next s
  else
    let s := (List.range 24).foldl (fun s p => (List.range 4).foldl (fun s k =>
      if subCarries (s.subAt p k) then subDown s p k 1 else s) s) s
    let s := { s with pwr := { s.pwr with refLock := false } }
    let idle (q : PortSt) : PortSt := { q with subs := tmapv {} (fun x => freshSub x (if q.enable then .down else .disabled) s.time) q.subs }
    .next ({ s with fab := { s.fab with ports := tmapv {} idle s.fab.ports } } |>.writeErr clockErr)

def execRefclkRestored (s : State) : Host.Outcome State Fault Refusal :=
  if s.pwr.refLock || !(portsPowered s) then .next s
  else .next (trainAll { s with pwr := { s.pwr with refLock := true } })

/-- A running task goes back to the head of its engine's queue, to be run again from its descriptor (R378). -/
def replayTask (s : State) (n : Nat) : State :=
  match (s.engAt n).run with
  | none => s
  | some r =>
    let t := s.modEng n (fun e => { e with run := none })
    if r.task.role = 2 || r.task.role = 3 then placeCopy t n r.task
    else placeCopy (endDual t r.task.key) n { r.task with role := 0 }

/-- A core PLL loses lock in S0: passes and tasks stop, and their work will be done again (R376, R378, R406). -/
def execCorePllLockLoss (s : State) : Host.Outcome State Fault Refusal :=
  if !(running s) then .next s
  else
    let s := { s with pwr := { s.pwr with coreLock := false } }
    let s := (s.arr.filter (fun q => !q.2.products.isEmpty)).foldl (fun s q => restartProducts s q.1) s
    let s := (s.eng.eng.filter (fun q => q.2.run.isSome)).foldl (fun s q => replayTask s q.1) s
    .next (s.writeErr clockErr)

def execCorePllRelock (s : State) : Host.Outcome State Fault Refusal :=
  if s.pwr.state = .s0 && !s.pwr.coreLock then .next { s with pwr := { s.pwr with coreLock := true } } else .next s

/-! ## The cap and the brake (R410, R411) -/

/-- The comparison of every millisecond: up by 1 above PWR_CAP_W, down by 1 below 95 % of it. -/
def capStep (n watts cap : Nat) : Nat :=
  if cap < watts then min 15 (n + 1) else if 100 * watts < 95 * cap then n - 1 else n

def execPowerCapTick (inputWatts : Nat) (s : State) : Host.Outcome State Fault Refusal :=
  if s.pwr.state = .s4 then .next s
  else
    let s := s.until (s.pwr.capTick + 1000000)
    .next (throttle { s with pwr := { s.pwr with
      nPower := capStep s.pwr.nPower inputWatts (cfgNat s Key.pwrCapW), inputW := inputWatts, capTick := s.time } })

/-- PWR_BRAKE_N falls: counted and recorded in S0–S3; it applies in S0 outside a thermal stop (R402, R489). -/
def execBrakeAssert (s : State) : Host.Outcome State Fault Refusal :=
  if s.pin.brakeLow then .next s
  else
    let s := { s with pin := { s.pin with brakeLow := true } }
    if s.pwr.state = .s4 then .next s
    else
      let s := { s with pwr := { s.pwr with brakeIn := true, brakeCnt := Word.bump s.pwr.brakeCnt 1 } }
      let s := if s.pwr.state = .s0 && s.pwr.stop = 0 then applyBrake s else s
      .next (s.writeErr { (reportErr St.powerBrake Kind.module 0 0) with mech := Mech.environment })

/-- PWR_BRAKE_N rises: from now n_brake falls. -/
def execBrakeRelease (s : State) : Host.Outcome State Fault Refusal :=
  .next { s with pin := { s.pin with brakeLow := false }, pwr := { s.pwr with brakeIn := false, brakeAt := s.time } }

def execBrakeRampTick (s : State) : Host.Outcome State Fault Refusal :=
  if s.pwr.brakeIn || s.pwr.nBrake = 0 || s.pwr.state = .s4 then .next s
  else
    let s := s.until (s.pwr.brakeAt + 10000)
    .next (throttle { s with pwr := { s.pwr with nBrake := s.pwr.nBrake - 1, brakeAt := s.time } })

end Sys2Proof.Machine
end

