-- ==== Sys2Proof/Machine/Security.lean ====
section
/-! DEFINITION. The commands of the security core (chapter 15): lifecycle, partitions, debug levels, kernel packages, enrolment,
memory keys and the firmware's self-test report. -/

namespace Sys2Proof.Machine

/-! ## LC_TRANSITION (R446–R448) -/

def lcRange (_ : State) (b : Octets) : Nat := if 2 ≤ leNat b && leNat b ≤ 5 then 0 else St.outOfRange

def lcStatus (s : State) (cls to_ : Nat) : Nat :=
  let from_ := lifecycleOf s
  firstBad [
    (from_ = Lc.scrapped, St.lifecycleForbids),
    ((lcClasses from_ to_).isEmpty, St.transitionInvalid),
    (!((lcClasses from_ to_).contains cls), St.accessDenied),
    (!(lcReady s to_), St.transitionInvalid)]

/-- Entry to RETURNED, and to SCRAPPED from a state other than RETURNED, begins with the release of every partition. -/
def lcBody (sess _p : Nat) (arg : Octets) (s : State) : CmdAns :=
  let to_ := leNat arg
  let st := lcStatus s (s.sessAt sess).cls to_
  if st != 0 then refuse s st
  else if to_ = Lc.returned || (to_ = Lc.scrapped && lifecycleOf s != Lc.returned) then
    let s := { s with sec := { s.sec with lcTarget := some (to_, sess) } }
    started (((partsOf s).filter (fun p => (s.partAt p).state = 1)).foldl beginRelease s)
  else doneAt (lcBlow s to_) 0

def lcWrite : Nat → Octets → State → Nat × State := cmdWrite Key.lcTransition lcRange lcBody

def execLcTransition (sess : Nat) (arg : Octets) (s : State) : Host.Outcome State Fault Refusal :=
  .next (cmdRow Key.lcTransition lcWrite sess arg s)

/-- Once every partition is released and its memory is zeroed, the rest of the effect is done and the fuse is blown. -/
def execLcEffectDone (s : State) : Host.Outcome State Fault Refusal :=
  match s.sec.lcTarget with
  | some (to_, _) =>
    if !(partsOf s).isEmpty || !s.mem.zero.isEmpty then .next s
    else .next (lcBlow (cmdEnd (lcErase s) Key.lcTransition 0 (cmdWord 2 0 0 0)) to_)
  | none => .next s

/-! ## SEC_PART_CREATE (R449) -/

def partCreateRange (_ : State) (b : Octets) : Nat :=
  if fld b 0 2 = 0 || 255 < fld b 0 2 || !(zeroAt b 2 2) || 1 < fld b 4 4 then St.outOfRange else 0

/-- The lowest partition key slot in no use. -/
def freeKeySlot (s : State) : Option Nat := ((List.range 255).map (· + 1)).find? (fun k => (tget none s.mem.keys k).isNone)

/-- Lifecycle or debug level forbids new partitions (R449); so does a transition that is releasing them all (entry 90). -/
def createForbidden (s : State) : Bool :=
  let lc := lifecycleOf s
  lc = Lc.blank || lc = Lc.returned || lc = Lc.scrapped || 2 ≤ s.sec.debug || s.sec.lcTarget.isSome

def partCreateBody (_sess _p : Nat) (arg : Octets) (s : State) : CmdAns :=
  let p := fld arg 0 2
  let q := s.partAt p
  if createForbidden s then refuse s St.lifecycleForbids
  else if q.state = 1 then
    doneAt { s with dic := { s.dic with pend := s.dic.pend ++ [⟨scopedKey p Key.secPartCreate, .step, octs arg 4 4, s.dic.stepCmds.length⟩] } } 0
  else if q.state = 2 then refuse s St.wrongState
  else match freeKeySlot s with
    | none => refuse s St.noSpace
    | some k =>
      let s := s.setPart p { state := 1, rights := fld arg 4 4 }
      doneAt { s with
        mem := { s.mem with keys := tput none s.mem.keys k (some (p, s.mem.keyGen)), keyGen := s.mem.keyGen + 1 }
        sec := { s.sec with drbg := s.sec.drbg + 1 } } 0

def partCreateWrite : Nat → Octets → State → Nat × State := cmdWrite Key.secPartCreate partCreateRange partCreateBody

def execSecPartCreate (sess : Nat) (arg : Octets) (s : State) : Host.Outcome State Fault Refusal :=
  .next (cmdRow Key.secPartCreate partCreateWrite sess arg s)

/-! ## SEC_PART_ASSIGN (R450) and SEC_PART_RELEASE (R452) -/

def partAssignBody (sess p : Nat) (arg : Octets) (s : State) : CmdAns :=
  let st := assignStatus (plannedAssigns s) arg
  if st != 0 then refuse s st else stepPend Key.secPartAssign sess p arg s

def partAssignWrite : Nat → Octets → State → Nat × State := cmdWrite Key.secPartAssign anyRange partAssignBody

def execSecPartAssign (sess : Nat) (arg : Octets) (s : State) : Host.Outcome State Fault Refusal :=
  .next (cmdRow Key.secPartAssign partAssignWrite sess arg s)

/-- The command runs until the partition's number may be created again. -/
def partReleaseBody (_sess _p : Nat) (arg : Octets) (s : State) : CmdAns :=
  if (s.partAt (leNat arg)).state != 1 then refuse s St.wrongState else started (beginRelease s (leNat arg))

def partReleaseWrite : Nat → Octets → State → Nat × State := cmdWrite Key.secPartRelease anyRange partReleaseBody

def execSecPartRelease (sess : Nat) (arg : Octets) (s : State) : Host.Outcome State Fault Refusal :=
  .next (cmdRow Key.secPartRelease partReleaseWrite sess arg s)

/-! ## Debug levels (R460–R463) -/

/-- A read of the challenge by a session that its rights admit. -/
def execSecDebugChallenge (sess : Nat) (nonce : Octets) (s : State) : Host.Outcome State Fault Refusal :=
  let answer (st : Nat) (d : Octets) : Out :=
    .fap sess ⟨1, 0, st, Key.secDebugChallenge / 256, Key.secDebugChallenge % 256, 0, d⟩
  if !(sessReady s sess) then .next s
  else if !(admitted 3 (s.sessAt sess).cls) then .next (s.emit (answer St.accessDenied []))
  else
    let r := readChallenge s nonce
    .next (r.2.emit (answer 0 r.1))

/-- A valid token consumes the nonce and sets the level; HALT and SCAN first erase every retained image. -/
def unlockBody (signer : TokenSigner) (sess _p : Nat) (arg : Octets) (s : State) : CmdAns :=
  let st := unlockStatus s (s.sessAt sess).cls arg signer
  if st != 0 then refuse s st
  else
    let s := if 2 ≤ tokenLevel arg then eraseRetained s else s
    let s := { s with sec := { s.sec with nonce := none } }
    doneAt (setDebug s (tokenLevel arg) (s.time + fld arg 48 4 * 10 ^ 9)) 0

/-- Over FAP the command runs until the security core has verified the signature. -/
def unlockWait : Nat → Octets → State → Nat × State := cmdWrite Key.secDebugUnlock anyRange (peerWaitBody Key.secDebugUnlock)

def execSecDebugUnlock (sess : Nat) (arg : Octets) (signer : TokenSigner) (s : State) : Host.Outcome State Fault Refusal :=
  .next (peerRow Key.secDebugUnlock (unlockBody signer) (cmdWrite Key.secDebugUnlock anyRange (unlockBody signer)) sess arg s)

def debugCloseBody (_sess _p : Nat) (_ : Octets) (s : State) : CmdAns := doneAt (setDebug s 0 0) 0

def debugCloseWrite : Nat → Octets → State → Nat × State := cmdWrite Key.secDebugClose oneRange debugCloseBody

def execSecDebugClose (sess : Nat) (arg : Octets) (s : State) : Host.Outcome State Fault Refusal :=
  .next (cmdRow Key.secDebugClose debugCloseWrite sess arg s)

def execDebugExpiry (s : State) : Host.Outcome State Fault Refusal :=
  if s.pwr.state = .s4 || s.sec.debug = 0 then .next s
  else .next (setDebug (s.until s.sec.debugUntil) 0 0)

/-- Cores that HALT opens: the management core, and the control cores of present vats. -/
def debugCore (s : State) (core : Nat) : Bool :=
  2 ≤ s.sec.debug && s.pwr.state != .s4 && (core = 0 || (2 ≤ core && vatPresent s (core - 2)))

def execCoreHalt (core : Nat) (s : State) : Host.Outcome State Fault Refusal :=
  if debugCore s core && !(s.flt.halted.contains core) then .next { s with flt := { s.flt with halted := s.flt.halted ++ [core] } }
  else .next s

/-- What the core's single step does is the firmware's; that it was made is counted. -/
def execCoreSingleStep (core : Nat) (s : State) : Host.Outcome State Fault Refusal :=
  if debugCore s core && s.flt.halted.contains core then
    .next { s with flt := { s.flt with coreSteps := tput 0 s.flt.coreSteps core (tget 0 s.flt.coreSteps core + 1) } }
  else .next s

def execCoreResume (core : Nat) (s : State) : Host.Outcome State Fault Refusal :=
  if debugCore s core then .next { s with flt := { s.flt with halted := s.flt.halted.filter (· != core) } } else .next s

/-! ## Kernel packages (R443) -/

/-- The staged package, checked, pends the step boundary. -/
def pkgLoadBody (c : ImageCrypto) (sess p : Nat) (_ : Octets) (s : State) : CmdAns :=
  let b := (s.sessAt sess).pkgStage.getD []
  let st := pkgStatus s p b c
  if st != 0 then refuse s st else stepPend Key.secPkgLoad sess p (pkgOctets (pkgOf p b)) s

def pkgLoadWait : Nat → Octets → State → Nat × State := cmdWrite Key.secPkgLoad oneRange (peerWaitBody Key.secPkgLoad)

def execSecPkgLoad (sess : Nat) (arg : Octets) (crypto : ImageCrypto) (s : State) : Host.Outcome State Fault Refusal :=
  .next (peerRow Key.secPkgLoad (pkgLoadBody crypto) (cmdWrite Key.secPkgLoad oneRange (pkgLoadBody crypto)) sess arg s)

/-! ## SEC_ENROLL (R439) -/

/-- A write of rows from a row on. -/
def enrollWrite (row : Nat) (rows : List Octets) (s : State) : Nat × State :=
  let st := firstBad [
    (rows.isEmpty || rows.any (fun r => r.length != 56), St.formatMismatch),
    (64 < row + rows.length, St.lengthExceedsBuffer)]
  if st != 0 then (st, s)
  else if enrollStatus s row rows != 0 then (enrollStatus s row rows, s)
  else (0, enrollApply s row rows)

def execSecEnrollWrite (sess row : Nat) (rows : List Octets) (s : State) : Host.Outcome State Fault Refusal :=
  if !(sessReady s sess) then .next s
  else
    let r := if admitted 2 (s.sessAt sess).cls then enrollWrite row rows s else (St.accessDenied, s)
    .next (cmdAnswer Key.secEnroll sess r)

/-! ## Memory keys (R467) -/

/-- The address of the key register. -/
def keyReg : Nat := 0x8004

def execSecKeyLoad (agent : RegAgent) (slot : Nat) (s : State) : Host.Outcome State Fault Refusal :=
  .next (regRow agent keyReg (fun s => keyRegWrite s (slot % 256 + 2 ^ 8)) s)

def execSecKeyClear (agent : RegAgent) (slot : Nat) (s : State) : Host.Outcome State Fault Refusal :=
  .next (regRow agent keyReg (fun s => keyRegWrite s (slot % 256 + 2 ^ 9)) s)

/-! ## The self-test (R441, R442) -/

/-- The image of a bank. -/
def bankAt (s : State) (k : Nat) : Option FwImage := if k = 0 then s.sec.bank0 else s.sec.bank1

/-- The running firmware reports its self-test: in PROVISIONED and DEPLOYED the fuses are blown up to its SVN. -/
def execFwSelfTestDone (s : State) : Host.Outcome State Fault Refusal :=
  if s.pwr.state = .s4 || s.sec.selfTest then .next s
  else
    let svn := ((bankAt s s.sec.bank).map (·.svn)).getD 0
    let lc := lifecycleOf s
    let blows : Bool := s.fuse.rollback < svn && (lc = Lc.provisioned || lc = Lc.deployed)
    .next { s with
      sec := { s.sec with selfTest := true }
      fuse := { s.fuse with rollback := if blows then svn else s.fuse.rollback } }

end Sys2Proof.Machine
end

