-- ==== Sys2Proof/Machine/Thermal.lean ====
section
/-! DEFINITION. Thermal sensing (R412–R414), throttling (R416), the stops and the trip (R417–R421), and the vat rails (R415). -/

namespace Sys2Proof.Machine

/-! ## Sensors (R412, R413) -/

def sensorPresent (s : State) (i : Nat) : Bool := i < 288 && (256 ≤ i || vatPresent s (i / 32))

/-- Zone sensors beside a zone sensor of its vat. -/
def zoneNeighbours (i : Nat) : List Nat :=
  if 256 ≤ i then [] else (if i % 32 = 0 then [] else [i - 1]) ++ (if i % 32 = 31 then [] else [i + 1])

/-- The readings of a sample by sensor; one that the sample does not list keeps its reading. -/
def sampled (s : State) (rs : List (Nat × Int)) (i : Nat) : Int :=
  match rs.find? (fun r => r.1 = i) with
  | some r => r.2
  | none => (sensorAt s i).temp

def farApart (a b : Int) : Bool := 240 < (a - b).natAbs

/-- Healthy: within −40 to 150 °C, and not more than 15 °C from both neighbours of its vat. -/
def healthyAt (f : Nat → Int) (i : Nat) : Bool :=
  -640 ≤ f i && f i ≤ 2400 && ((zoneNeighbours i).isEmpty || (zoneNeighbours i).any (fun j => !(farApart (f i) (f j))))

def presentSensors (s : State) : List Nat := (List.range 288).filter (sensorPresent s)

/-- The hottest healthy reading and its sensor, the lowest-numbered of equals. -/
def hottest (s : State) : Option (Nat × Int) :=
  s.pwr.sensors.foldl (fun m q =>
    if !q.2.healthy then m
    else match m with
      | some x => if x.2 < q.2.temp then some (q.1, q.2.temp) else some x
      | none => some (q.1, q.2.temp)) none

/-- The arrays that a zone sensor covers. -/
def zoneArrays (i : Nat) : List Nat := (List.range 68).map (fun k => 2176 * (i / 32) + 68 * (i % 32) + k)

/-- A sensor becomes unhealthy: its record, and the fence of its zone's arrays (R413, R414, R68). -/
def sensorFails (s : State) (i : Nat) : State :=
  let s := s.writeErr { mech := Mech.environment, status := St.sensorFault, unitKind := Kind.sensor, unit := i, sensor := i }
  if 256 ≤ i then s
  else (zoneArrays i).foldl (fun s n =>
    if (s.arrAt n).fenced then s
    else fenceArray s n { mech := Mech.environment, status := St.sensorFault, sensor := i }) s

/-! ## Throttling (R416) -/

/-- ceil(T − 95) within 0–15, T in 1/16 °C. -/
def wantThermal (t : Int) : Nat := (clampI 0 15 ((t - 1520 + 15) / 16)).toNat

/-- n_thermal rises at once and falls by one step with 1 °C of hysteresis. -/
def nextThermal (n : Nat) (t : Int) : Nat :=
  if n < wantThermal t then wantThermal t
  else if n != 0 && t ≤ 16 * (95 + (n : Int) - 2) then n - 1 else n

/-! ## The sample -/

/-- The sensor's reading 200 µs before a time, as the samples kept give it. -/
def readingBefore (h : List (Nat × List (Nat × Int))) (now i : Nat) : Option Int :=
  (h.find? (fun x => x.1 + 200000 ≤ now)).bind (fun x => (x.2.find? (fun r => r.1 = i)).map (·.2))

/-- Rate of rise in 1/16 °C per ms; 0 while no sample is 200 µs old. -/
def rateOf (s : State) (i : Nat) (t : Int) : Int :=
  match readingBefore s.pwr.history s.time i with
  | some u => (t - u) * 5
  | none => 0

/-- The readings, the health of every sensor, MAX_TEMP, MAX_SENSOR, RATE and FAST_SAMPLE of a sample. -/
def takeSample (s : State) (rs : List (Nat × Int)) : State :=
  let f := sampled s rs
  let all := (presentSensors s).map (fun i => (i, f i))
  let tab : Tab Sensor := all.foldl (fun t x => tput {} t x.1 { temp := x.2, healthy := healthyAt f x.1 }) s.pwr.sensors
  let s := { s with pwr := { s.pwr with sensors := tab } }
  let s := match hottest s with
    | some (i, t) => { s with pwr := { s.pwr with
        maxTemp := t, maxSensor := i, rate := rateOf s i t, fast := s.pwr.sensors.any (fun q => q.2.healthy && 1440 ≤ q.2.temp) } }
    | none => { s with pwr := { s.pwr with fast := false } }
  { s with pwr := { s.pwr with history := keep 32 ((s.time, all) :: s.pwr.history) } }

/-- Sensors that this sample finds unhealthy and the one before did not. -/
def newlyFailed (before after : State) : List Nat :=
  (presentSensors after).filter (fun i =>
    !(sensorAt after i).healthy && ((sensorAt before i).healthy || before.pwr.history.isEmpty))

/-- Every 1 ms, every 50 µs while a healthy sensor reads 90 °C or more. -/
def execThermalSample (readings : List (Nat × Int)) (s : State) : Host.Outcome State Fault Refusal :=
  if s.pwr.state = .s4 then .next s
  else
    let s := match s.pwr.history with
      | x :: _ => s.until (x.1 + (if s.pwr.fast then 50000 else 1000000))
      | [] => s
    let t := takeSample s readings
    let u := (newlyFailed s t).foldl sensorFails t
    let u := if (hottest t).isSome then throttle { u with pwr := { u.pwr with nThermal := nextThermal u.pwr.nThermal t.pwr.maxTemp } } else u
    .next (holdOff (if (hottest t).isSome then thermalStop u t.pwr.maxTemp t.pwr.rate else u))

/-- 1.5 ms after an ordered stop began (R417). -/
def execOrderedStopTimeout (s : State) : Host.Outcome State Fault Refusal :=
  if s.pwr.stop = 1 && !s.pwr.hold && s.pwr.state != .s4 then .next (fastStop (s.until (s.pwr.stopBegan + 1500000))) else .next s

/-! ## Vat rails (R415) and urgent conversions (R425) -/

/-- An urgent conversion is asked for; with one pending the request is dropped and counted. -/
def askUrgent (s : State) : State :=
  match s.pwr.urgSince with
  | some _ => { s with pwr := { s.pwr with urgDrop := Word.bump s.pwr.urgDrop 1 } }
  | none => { s with pwr := { s.pwr with urgSince := some s.time } }

/-- A vat rail leaves its window: launches of the vat stop, and the excursion is to be confirmed. -/
def execRailExcursion (vat : Nat) (s : State) : Host.Outcome State Fault Refusal :=
  if vatPresent s vat && s.pwr.state = .s0 && !(s.vatAt vat).railOut then
    .next (askUrgent (s.modVat vat (fun t => { t with railOut := true })))
  else .next s

def execRailRecovered (vat : Nat) (s : State) : Host.Outcome State Fault Refusal :=
  .next (s.modVat vat (fun t => { t with railOut := false }))

/-- A rail's code lies outside ±3 % of the rail's nominal value. -/
def railBad (vat code : Nat) : Bool :=
  let n := Config.railNominal vat
  code * 1200 * 100 < n * 4096 * 97 || n * 4096 * 103 < code * 1200 * 100

/-- The converter that serves an urgent conversion: the lowest-numbered neither fenced nor being calibrated. -/
def urgentConv (s : State) : Option Nat :=
  (List.range 4).find? (fun c => !(tget {} s.pwr.convs c).fenced && !(tget {} s.pwr.convs c).calibrating)

/-- The request that is pending, if it came from the power manager; otherwise this request. A second one is dropped. -/
def execUrgentConversion (requester : UrgentBy) (input code : Nat) (s : State) : Host.Outcome State Fault Refusal :=
  if s.pwr.state = .s4 || (urgentConv s).isNone || 64 ≤ input || 4096 ≤ code then .next s
  else
    let mine : Bool := match requester with
      | .power v => v < 8 && input = v && s.pwr.urgSince.isSome
      | _ => s.pwr.urgSince.isNone
    if !mine then .next { s with pwr := { s.pwr with urgDrop := Word.bump s.pwr.urgDrop 1 } }
    else
      let s := s.until (s.pwr.urgSince.getD s.time + 1100)
      let s := { s with pwr := { s.pwr with
        urgSince := none, urgDone := Word.bump s.pwr.urgDone 1, lastCode := tput 0 s.pwr.lastCode input code } }
      let s := s.emit (.urgent requester code)
      match requester with
      | .power v =>
        if railBad v code then .next (s.writeErr { mech := Mech.environment, status := St.supplyFault, unitKind := Kind.vat, unit := v })
        else .next s
      | _ => .next s

end Sys2Proof.Machine
end

