-- ==== Sys2Proof/Machine/RegAccess.lean ====
section
/-! DEFINITION. Register reads with their latches (R356), and register writes (R356, R359, R360), block by block: R79, R80, R106,
R174, R175, R262, R301, R302, R329, R330, R396, R428–R430, R467. -/

namespace Sys2Proof.Machine

/-! ## Reads -/

/-- A register's words: the word read, and the words that the read latches, by offset. -/
structure RegRead where
  word : Nat
  latch : List (Nat × Nat) := []

def arrStatus (a : ArrSt) : Nat :=
  b2n a.awake + b2n a.granted * 2 + b2n (!a.products.isEmpty) * 4 + b2n a.fenced * 8 + b2n a.calActive * 16 +
    b2n a.underTest * 32 + b2n (!a.suspect.isEmpty) * 64 + b2n a.cfgErr * 128

/-- ARR_n (R79, R106); offsets 0x20–0x3C are reserved and read 0. -/
def arrRead (a : ArrSt) (off : Nat) : RegRead :=
  let w (x : Nat) : RegRead := { word := x }
  if off = 0x00 then w a.ctrl.toNat
  else if off = 0x04 then w (arrStatus a)
  else if off = 0x08 then ⟨a.passCnt.toNat % 2 ^ 32, [(0x0C, a.passCnt.toNat / 2 ^ 32)]⟩
  else if off = 0x10 then w a.skipCnt.toNat
  else if off = 0x14 then w a.splitCnt.toNat
  else if off = 0x18 then w a.tolCnt.toNat
  else if off = 0x1C then w a.lastCheck.toNat
  else if off = 0x40 then w a.perCfg.toNat
  else if off = 0x44 then w a.perOut.toNat
  else if off = 0x48 then w a.inScale.toNat
  else if off = 0x4C then w a.outScale.toNat
  else if off = 0x50 then w a.chain.toNat
  else if off = 0x54 then w a.satCnt.toNat
  else if off = 0x58 then w a.nonfinCnt.toNat
  else if off = 0x5C then w a.conflictCnt.toNat
  else w 0

/-- CC_n (R80). -/
def ccRead (a : ArrSt) (off : Nat) : RegRead :=
  let k := convKey a.ccSeg a.ccCol
  let t := tget (32, 8) a.taps k
  if off = 0x00 then { word := a.ccSeg + a.ccCol * 2 ^ 16 }
  else if off = 0x04 then
    { word := t.1 + t.2 * 2 ^ 8 + b2n (a.suspect.contains k) * 2 ^ 16 + b2n (a.failed.contains k) * 2 ^ 17 }
  else { word := a.suspect.length + a.failed.length * 2 ^ 16 }

def tapPairWord (t : TapPair) : Nat := t.delay % 64 + t.thresh % 16 * 2 ^ 8

/-- CC_VAT_v (R80). -/
def ccVatRead (v : VatSt) (off : Nat) : RegRead :=
  if off = 0x00 then { word := v.calMode * 2 }
  else if off = 0x04 then { word := v.calState + b2n v.refReject * 4 + v.calFenced % 2 ^ 16 * 2 ^ 16 }
  else if off = 0x08 then { word := tapPairWord v.ref0 }
  else if off = 0x0C then { word := tapPairWord v.ref1 }
  else { word := v.stepFs % 2 ^ 16 }

/-- VE_n (R174). -/
def veRead (e : EngSt) (off : Nat) : RegRead :=
  let w (x : Nat) : RegRead := { word := x }
  let role := (e.run.map (fun r => r.task.role)).getD 0
  if off = 0x00 then w (e.pool + b2n e.stealEn * 4 + b2n e.gateEn * 8)
  else if off = 0x04 then
    w (b2n e.awake + b2n e.run.isSome * 2 + b2n e.fenced * 4 + b2n e.underTest * 8 + role * 16 + e.queue.length * 2 ^ 8 +
      e.part * 2 ^ 16)
  else if off = 0x08 then ⟨e.tasks.toNat % 2 ^ 32, [(0x0C, e.tasks.toNat / 2 ^ 32)]⟩
  else if off = 0x10 then w e.stolenIn.toNat
  else if off = 0x14 then w e.stolenOut.toNat
  else if off = 0x18 then w e.dualRun.toNat
  else if off = 0x1C then w e.dualMismatch.toNat
  else w e.scratchCe.toNat

/-- VE_VAT_v (R175). -/
def veVatRead (s : State) (v off : Nat) : RegRead :=
  let pool (k : Nat) : Nat := ((vatEngines v).filter (fun n => (s.engAt n).pool = k)).length
  if off = 0x00 then { word := (s.vatAt v).overflow.length }
  else if off = 0x04 then { word := pool 1 + pool 2 * 2 ^ 8 }
  else { word := (s.vatAt v).refused.toNat }

/-- MEM_A_k and MEM_B_k (R262), by slice. -/
def memRegRead (s : State) (k off : Nat) : RegRead :=
  let x := s.sliceAt k
  if off = 0x00 then
    { word := b2n (slicePresent s k) + x.pstate * 2 + b2n x.trained * 8 + b2n (!x.marked.isEmpty) * 16 + b2n (noChipkill x.marked) * 32 }
  else if off = 0x04 then { word := x.ceCnt.toNat }
  else if off = 0x08 then { word := x.ueCnt.toNat }
  else if off = 0x0C then { word := b2n x.scrubEn }
  else ⟨x.lastUe % 2 ^ 32, [(0x14, x.lastUe / 2 ^ 32 % 16)]⟩

/-- STATE_k codes (R301). -/
def subCode : SubState → Nat
  | .down => 0
  | .training => 1
  | .hello => 2
  | .up => 3
  | .quarantined => 4
  | .miswired => 5
  | .doze => 6
  | .disabled => 7

/-- PORT_p (R301). -/
def portRead (s : State) (p off : Nat) : RegRead :=
  let q := s.portAt p
  let w (x : Nat) : RegRead := { word := x }
  if off = 0x00 then w (portCfgValue s p)
  else if off = 0x04 then
    w (((List.range 4).map (fun k => subCode (s.subAt p k).state * 16 ^ k)).sum + b2n (s.subAt p 0).preempt * 2 ^ 16 +
      b2n q.cfgErr * 2 ^ 17 + (s.subAt p 0).ver % 16 * 2 ^ 20)
  else if off < 0x18 then
    let x := s.subAt p ((off - 8) / 4)
    w (x.peerChip + x.peerPort % 32 * 2 ^ 16 + x.peerSub % 4 * 2 ^ 21)
  else if off = 0x18 then w q.fecCorr.toNat
  else if off = 0x1C then w q.fecUncorr.toNat
  else if off = 0x20 then w q.fcsErr.toNat
  else if off = 0x24 then w q.replays.toNat
  else if off = 0x28 then w q.preempts.toNat
  else w q.drops.toNat

/-- Collectives with chunks homed on a press unit (R302). -/
def pressActive (s : State) (u : Nat) : Nat :=
  ((chans s).filter (fun q => match q.2.chan with
    | some (.coll c) => (List.range (chunkCount c)).any (fun k => k % 4 = u && chunkHome c k = ownChip s)
    | _ => false)).length

/-- XTV_PRESS_u (R302). -/
def pressRead (s : State) (u off : Nat) : RegRead :=
  let x := tget {} s.fab.press u
  if off = 0x00 then { word := pressActive s u }
  else if off = 0x04 then { word := x.dup.toNat }
  else if off = 0x08 then { word := x.stale.toNat }
  else if off = 0x0C then { word := x.ahead.toNat }
  else { word := x.done.toNat }

/-- MBX_m (R329). LEN is write-only: what a read of it returns is not stated (entry 91). -/
def mbxRead (s : State) (m off : Nat) : RegRead :=
  let b := s.mbxAt m
  if off < 0x100 then { word := (tget 0 b.msg (off / 4)).toNat }
  else if off = 0x100 then { word := (Config.writeOnlyWord s.free).toNat }
  else if off = 0x104 then { word := b.rc }
  else if off = 0x108 then { word := b.state + b2n b.wrErr * 4 + b.len * 8 }
  else { word := b.sender + b.receiver * 32 + b.part * 2 ^ 16 }

/-- SYNC_n (R330); a LO half that waits for its HI half is pending, and the read returns the value in force (R17). -/
def syncRead (s : State) (n off : Nat) : RegRead :=
  let o := s.objAt n
  let w (x : Nat) : RegRead := { word := x }
  if off = 0x00 then ⟨o.c.toNat % 2 ^ 32, [(0x04, o.c.toNat / 2 ^ 32)]⟩
  else if off = 0x08 then w (o.thr.toNat % 2 ^ 32)
  else if off = 0x0C then w (o.thr.toNat / 2 ^ 32)
  else if off = 0x10 then w o.stride.toNat
  else if off = 0x14 then w (o.target.toNat % 2 ^ 32)
  else if off = 0x18 then w (o.target.toNat / 2 ^ 32)
  else if off = 0x1C then w (b2n o.armed + b2n o.broken * 2 + b2n o.alloc * 4 + o.owner * 2 ^ 16)
  else if off = 0x20 then ⟨o.gen.toNat % 2 ^ 32, [(0x24, o.gen.toNat / 2 ^ 32)]⟩
  else w (s.syn.waiters.filter (fun x => x.obj = n)).length

/-- The record at a ring index of ERRLOG (R370, R396): the youngest whose number has that index; none not yet written. -/
def ringRecord (s : State) (i : Nat) : Option ErrRec := s.flt.recs.find? (fun r => r.seqno % 8192 = i)

/-- ERRLOG_ (R396). -/
def errlogRead (s : State) (off : Nat) : RegRead :=
  if off = 0x00 then ⟨s.flt.count % 2 ^ 32, [(0x04, s.flt.count / 2 ^ 32)]⟩
  else if off = 0x08 then { word := s.flt.select }
  else if off = 0x0C then { word := b2n (8192 < s.flt.count) }
  else match ringRecord s s.flt.select with
    | some r => { word := fld (errOctets r) (off - 0x40) 4 }
    | none => { word := 0 }

/-- PWR_ (R428). -/
def pwrRead (s : State) (off : Nat) : RegRead :=
  let p := s.pwr
  if off = 0x00 then { word := pDepth p.state + b2n p.hold * 8 }
  else if off = 0x04 then { word := p.nEff + p.nThermal * 16 + p.nPower * 256 + p.nBrake * 4096 + b2n p.brakeIn * 2 ^ 16 }
  else if off = 0x08 then { word := p.gV + p.cap * 2 ^ 16 }
  else if off = 0x0C then { word := p.brakeCnt.toNat }
  else if off = 0x10 then { word := b2n p.spread + b2n p.refLock * 2 + b2n p.coreLock * 4 }
  else ⟨s.time % 2 ^ 32, [(0x18, s.time / 2 ^ 32 % 2 ^ 32)]⟩

/-- THM_ (R429). -/
def thmRead (s : State) (off : Nat) : RegRead :=
  if off = 0x000 then { word := toField 16 s.pwr.maxTemp + s.pwr.maxSensor * 2 ^ 16 }
  else if off = 0x004 then { word := toField 16 s.pwr.rate + b2n s.pwr.fast * 2 ^ 16 + s.pwr.stop * 2 ^ 17 }
  else
    let i := (off - 0x400) / 4
    if sensorPresent s i then { word := toField 16 (sensorAt s i).temp + b2n (sensorAt s i).healthy * 2 ^ 16 }
    else { word := 2 ^ 17 }

/-- MON_ (R430). CLR is write-only: what a read of it returns is not stated (entry 91). -/
def monRead (s : State) (off : Nat) : RegRead :=
  let mask (f : MonConv → Bool) : Nat := maskOf ((List.range 4).filter (fun k => f (s.monConv k)))
  let w (x : Nat) : RegRead := { word := x }
  if off = 0x000 then w (s.pwr.calMask * 2)
  else if off = 0x004 then
    w (s.pwr.calState + mask (·.fenced) * 16 + mask (·.suspect) * 256 + mask (·.calibrating) * 4096)
  else if off = 0x008 then w s.pwr.urgDone.toNat
  else if off = 0x00C then w s.pwr.urgDrop.toNat
  else if off < 0x30 then
    let c := s.monConv ((off - 0x10) / 8)
    w (if off % 8 = 0 then c.gain else toField 13 c.offset)
  else if off < 0x80 then
    let q := s.monSeq ((off - 0x40) / 16)
    if off % 16 = 12 then w (q.entry + b2n q.running * 32 + q.trigMiss.toNat * 2 ^ 16)
    else if off % 16 = 0 then w (seqWord q 0 + b2n ((Config.writeOnlyWord s.free).getLsbD 12) * 2 ^ 12)
    else w (seqWord q (off % 16))
  else if off < 0x300 then w (seqWord (s.monSeq ((off - 0x100) / 0x80)) (0x100 + (off - 0x100) % 0x80))
  else if off % 16 = 0 then
    let a := s.monAcc ((off - 0x400) / 16)
    ⟨a.sum % 2 ^ 32, [(off + 4, a.sum / 2 ^ 32 % 256 + a.count * 2 ^ 8), (off + 8, a.min + a.max * 2 ^ 16)]⟩
  else w 0

/-- SEC_ (R467). DEBUG_LEFT_S counts a begun second as one. -/
def secRead (s : State) (off : Nat) : RegRead :=
  if off = 0x000 then
    { word := lifecycleOf s + s.sec.debug * 8 + s.sec.bank * 32 + b2n s.sec.fallback * 64 + s.fuse.rollback % 256 * 256 }
  else if off = 0x004 then { word := s.mem.keySlot }
  else if off = 0x008 then { word := b2n (tget none s.mem.keys s.mem.keySlot).isSome * 2 }
  else { word := if s.sec.debug = 0 then 0 else (s.sec.debugUntil - s.time + 999999999) / 1000000000 }

/-- High words that show what a read latched, and MON accumulators' words behind SUM_LO (R356, R430). -/
def latchedReg (r : RegRef) : Bool :=
  match r.blk with
  | .arr => r.off = 0x0C
  | .ve => r.off = 0x0C
  | .memA => r.off = 0x14
  | .memB => r.off = 0x14
  | .errlog => r.off = 0x04
  | .pwr => r.off = 0x18
  | .sync => r.off = 0x04 || r.off = 0x24
  | .mon => 0x400 ≤ r.off && (r.off % 16 = 4 || r.off % 16 = 8)
  | _ => false

/-- The reset value of a latched word: MIN's is 0xFFF. -/
def latchReset (r : RegRef) : Nat := if r.blk = .mon && r.off % 16 = 8 then 0xFFF else 0

/-- Each accessing agent has its own latches. -/
def latchKey (a : RegAgent) (addr : Nat) : Nat :=
  (match a with
    | .mgmt => 0
    | .sec => 1
    | .vat v => 2 + v
    | .window => 10) * 2 ^ 32 + addr

def regValue (s : State) (r : RegRef) : RegRead :=
  match r.blk with
  | .mon => monRead s r.off
  | .thm => thmRead s r.off
  | .pwr => pwrRead s r.off
  | .errlog => errlogRead s r.off
  | .sec => secRead s r.off
  | .ccVat => ccVatRead (s.vatAt r.idx) r.off
  | .veVat => veVatRead s r.idx r.off
  | .memA => memRegRead s r.idx r.off
  | .memB => memRegRead s (6 + r.idx) r.off
  | .port => portRead s r.idx r.off
  | .press => pressRead s r.idx r.off
  | .mbx => mbxRead s r.idx r.off
  | .ve => veRead (s.engAt r.idx) r.off
  | .cc => ccRead (s.arrAt r.idx) r.off
  | .arr => arrRead (s.arrAt r.idx) r.off
  | .sync => syncRead s r.idx r.off

/-- A read of a register that an agent may read: the word, and the state with what it latched. -/
def regLoad (s : State) (a : RegAgent) (addr : Nat) (r : RegRef) : Word × State :=
  if latchedReg r then
    match s.dic.latches.find? (fun q => q.1 = latchKey a addr) with
    | some q => (q.2, s)
    | none => (BitVec.ofNat 32 (latchReset r), s)
  else
    let x := regValue s r
    let l := x.latch.foldl (fun (t : Tab Word) p => tput 0 (t.filter (fun q => q.1 != latchKey a (addr - r.off + p.1)))
      (latchKey a (addr - r.off + p.1)) (BitVec.ofNat 32 p.2)) s.dic.latches
    (BitVec.ofNat 32 x.word, { s with dic := { s.dic with latches := l }, free := s.free + 1 })

/-- Registers with no field but RO and reserved ones. -/
def regRo (r : RegRef) : Bool :=
  let o := r.off
  match r.blk with
  | .mon => (4 ≤ o && o < 0x10) || (0x40 ≤ o && o < 0x80 && o % 16 = 12) || 0x400 ≤ o
  | .thm => true
  | .pwr => true
  | .errlog => o != 8
  | .sec => o != 4
  | .ccVat => o = 4 || o = 0x10
  | .veVat => true
  | .memA => o != 0x0C
  | .memB => o != 0x0C
  | .port => o != 0
  | .press => true
  | .mbx => o = 0x108
  | .ve => o != 0
  | .cc => o = 8
  | .arr => (4 ≤ o && o < 0x40) || 0x54 ≤ o
  | .sync => o < 8 || 0x20 ≤ o

/-! ## Writes -/

/-- The writable bits of an array register that wait for the step boundary. -/
def arrStepMask (off w : Nat) : Nat :=
  if off = 0x00 then bits w 2 0 + bits w 14 4 * 16
  else if off = 0x40 then perCfgMask w
  else if off = 0x44 then perOutMask w
  else w % 2 ^ 32

/-- ARR_n (R79, R106): GATE_EN is in force at once, the rest pends the step boundary; CFG_ERR tells of the last write to CTRL. -/
def arrRegWrite (s : State) (n off w : Nat) : State :=
  let writable : Bool := off = 0x00 || (0x40 ≤ off && off ≤ 0x50)
  if !writable then s
  else if arrRegStatus s off w != 0 then s.modArr n (fun a => { a with cfgErr := true })
  else s.modArr n (fun a =>
    let a := if off = 0x00 then
        { a with ctrl := BitVec.ofNat 32 (a.ctrl.toNat % 2 ^ 15 + b2n (bit w 15) * 2 ^ 15), cfgErr := false }
      else a
    { a with pend := tput none a.pend off (some (BitVec.ofNat 32 (arrStepMask off w))) })

/-- CC_n (R80): SEL at once, TAP at the array's next pass. -/
def ccRegWrite (s : State) (n off w : Nat) : State :=
  if off = 0x00 then
    if 1136 ≤ bits w 26 16 then s else s.modArr n (fun a => { a with ccSeg := bits w 2 0, ccCol := bits w 26 16 })
  else if off = 0x04 then
    s.modArr n (fun a => { a with tapsPend := tput none a.tapsPend (convKey a.ccSeg a.ccCol) (some (bits w 5 0, bits w 11 8)) })
  else s

/-- CC_VAT_v (R80): the reference taps are used by the next measurement (entry 92). -/
def ccVatRegWrite (s : State) (v off w : Nat) : State :=
  if off = 0x00 then ccVatControl v w s
  else if off = 0x08 then s.modVat v (fun t => { t with ref0 := ⟨bits w 5 0, bits w 11 8⟩ })
  else if off = 0x0C then s.modVat v (fun t => { t with ref1 := ⟨bits w 5 0, bits w 11 8⟩ })
  else s

/-- VE_n_CTRL (R174): POOL pends the step boundary. -/
def veRegWrite (s : State) (n off w : Nat) : State :=
  if off != 0x00 || bits w 1 0 = 3 then s
  else s.modEng n (fun e => { e with poolPend := some (bits w 1 0), stealEn := bit w 2, gateEn := bit w 3 })

/-- PORT_p offset 0x00 (R301): a refused write sets CFG_ERR. -/
def portRegWrite (s : State) (p off w : Nat) : State :=
  if off != 0x00 then s
  else
    let r := portCfg s p (bits w 5 0)
    if r.1 = 0 then r.2.modPort p (fun q => { q with cfgErr := false }) else s.modPort p (fun q => { q with cfgErr := true })

/-- The end of a mailbox that an agent of the register space is. -/
def mbxEndOf : RegAgent → Option MbxEnd
  | .mgmt => some .mgmt
  | .sec => some .sec
  | .vat v => some (.vat v)
  | .window => none

def endCodeOk (c : Nat) : Bool := c ≤ 9 || (16 ≤ c && c ≤ 19)

/-- MBX_m (R327, R329). The vendor window is no end of a mailbox. -/
def mbxRegWrite (s : State) (a : RegAgent) (m off w : Nat) : State :=
  let word := BitVec.ofNat 32 w
  match mbxEndOf a with
  | none =>
    if off = 0x10C && endCodeOk (bits w 4 0) && endCodeOk (bits w 9 5) then
      s.setMbx m { s.mbxAt m with sender := bits w 4 0, receiver := bits w 9 5, part := bits w 31 16 }
    else if off ≤ 0x104 then mbxWrong s m else s
  | some e =>
    if off < 0x100 then (mbxPutWords s m e [(off / 4, word)]).2
    else if off = 0x100 then
      if 2 ^ 9 ≤ w % 2 ^ 32 then mbxWrong s m else (mbxRing s m e (bits w 8 0)).2
    else if off = 0x104 then
      let b := s.mbxAt m
      if isEnd s m b.receiver e && b.state = 1 then s.setMbx m { b with rc := bits w 15 0, state := 2, wrErr := false }
      else mbxWrong s m
    else if off = 0x10C && endCodeOk (bits w 4 0) && endCodeOk (bits w 9 5) then
      s.setMbx m { s.mbxAt m with sender := bits w 4 0, receiver := bits w 9 5, part := bits w 31 16 }
    else s

/-- SYNC_n (R330, R316): a BROKEN object keeps its settings. -/
def syncRegWrite (s : State) (n off w : Nat) : State :=
  let o := s.objAt n
  let word := BitVec.ofNat 32 w
  if o.broken then s
  else if off = 0x08 then s.setObj n { o with thrLo := word }
  else if off = 0x0C then
    objChanged (s.setObj n { o with thr := BitVec.ofNat 64 (w % 2 ^ 32 * 2 ^ 32 + o.thrLo.toNat) }) n
  else if off = 0x10 then (if w % 2 ^ 32 = 0 then s else s.setObj n { o with stride := word })
  else if off = 0x14 then s.setObj n { o with targetLo := word }
  else if off = 0x18 then s.setObj n { o with target := BitVec.ofNat 64 (w % 2 ^ 32 * 2 ^ 32 + o.targetLo.toNat) }
  else if off = 0x1C then objChanged (s.setObj n { o with armed := bit w 0 }) n
  else s

def memRegWrite (s : State) (k off w : Nat) : State :=
  if off = 0x0C then s.setSlice k { s.sliceAt k with scrubEn := bit w 0 } else s

/-- A write of a word that the register space performs (R359): read-only and reserved bits ignore it, a refused value leaves
the register. -/
def regStore (s : State) (a : RegAgent) (r : RegRef) (w : Nat) : State :=
  match r.blk with
  | .mon => monRegWrite s r.off w
  | .thm => s
  | .pwr => s
  | .errlog => if r.off = 8 then { s with flt := { s.flt with select := bits w 12 0 } } else s
  | .sec => if r.off = 4 then keyRegWrite s (w % 2 ^ 32) else s
  | .ccVat => ccVatRegWrite s r.idx r.off w
  | .veVat => s
  | .memA => memRegWrite s r.idx r.off w
  | .memB => memRegWrite s (6 + r.idx) r.off w
  | .port => portRegWrite s r.idx r.off w
  | .press => s
  | .mbx => mbxRegWrite s a r.idx r.off w
  | .ve => veRegWrite s r.idx r.off w
  | .cc => ccRegWrite s r.idx r.off w
  | .arr => arrRegWrite s r.idx r.off w
  | .sync => syncRegWrite s r.idx r.off w

/-! ## REGISTER_WRITE (R356, R359) -/

/-- The vendor window has rows of its own; it writes no register by this one. -/
def execRegisterWrite (agent : RegAgent) (addr width value : Nat) (s : State) : Host.Outcome State Fault Refusal :=
  if s.pwr.state = .s4 || agent = .window then .next s
  else
    let st := busStatus s agent addr width
    match locate addr with
    | none => .next (busError s agent addr st)
    | some r => .next (if st = 0 then regStore s agent r value else busError s agent addr st)

/-! ## The vendor register window (R341) -/

/-- The conditions of R341: a read of a read-only register at OBSERVE, anything else at SCAN, the SEC_ blocks never. -/
def winDenied (s : State) (addr : Nat) (write : Bool) : Bool :=
  match locate addr with
  | some r => r.blk = .sec || (if !write && regRo r then s.sec.debug = 0 else s.sec.debug != 3)
  | none => if write then s.sec.debug != 3 else s.sec.debug = 0

/-- A window read of one word. -/
def winLoad (s : State) (addr : Nat) : Except Nat (Word × State) :=
  if winDenied s addr false then .error St.accessDenied
  else
    let st := busStatus s .window addr 32
    match locate addr with
    | none => .error st
    | some r => if st = 0 then .ok (regLoad s .window addr r) else .error st

/-- A window write of one word. -/
def winStore (s : State) (addr w : Nat) : Nat × State :=
  if winDenied s addr true then (St.accessDenied, s)
  else
    let st := busStatus s .window addr 32
    match locate addr with
    | none => (st, s)
    | some r => if st = 0 then (0, regStore s .window r w) else (st, s)

/-- Successive words, up to the first fault: the octets read, and the status when the first word faults. -/
def winBulk : Nat → Nat → State → Octets × Nat × State
  | 0, _, s => ([], 0, s)
  | k + 1, addr, s =>
    match winLoad s addr with
    | .error e => ([], e, s)
    | .ok (w, t) =>
      let r := winBulk k (addr + 4) t
      (natLe 4 w.toNat ++ r.1, 0, r.2.2)

/-- A session of class VENDOR with the window's rights. -/
def winAdmits (s : State) (sess : Nat) : Bool := admitted 1 (s.sessAt sess).cls

def winAnswer (s : State) (sess op k status : Nat) (d : Octets) : State :=
  s.emit (.fap sess ⟨op, 0, status, k / 256, k % 256, 0, d⟩)

def execRegWinData (sess : Nat) (write : Option Nat) (s : State) : Host.Outcome State Fault Refusal :=
  if !(sessReady s sess) then .next s
  else match write with
    | some w =>
      let r := if winAdmits s sess then winStore s s.dic.winAddr w else (St.accessDenied, s)
      .next (winAnswer r.2 sess 2 Key.regWinData r.1 [])
    | none =>
      if !(winAdmits s sess) then .next (winAnswer s sess 1 Key.regWinData St.accessDenied [])
      else match winLoad s s.dic.winAddr with
        | .error e => .next (winAnswer s sess 1 Key.regWinData e [])
        | .ok r => .next (winAnswer r.2 sess 1 Key.regWinData 0 (natLe 4 r.1.toNat))

/-- A bulk read of `count` octets; the status is that of a fault at its first word (entry 93). -/
def execRegWinBulk (sess count : Nat) (s : State) : Host.Outcome State Fault Refusal :=
  if !(sessReady s sess) then .next s
  else if !(winAdmits s sess) then .next (winAnswer s sess 1 Key.regWinBulk St.accessDenied [])
  else if count = 0 || 1024 < count then .next (winAnswer s sess 1 Key.regWinBulk St.messageFormat [])
  else
    let r := winBulk ((count + 3) / 4) s.dic.winAddr s
    .next (winAnswer r.2.2 sess 1 Key.regWinBulk r.2.1 (r.1.take count))

end Sys2Proof.Machine
end

