-- ==== Sys2Proof/Machine/ObjRead.lean ====
section
/-! DEFINITION. The values that objects of the dictionary read as (R38, R43, R78, R107, R145, R176, R197, R213, R246, R263, R303,
R331, R337–R340, R397, R431, R468). -/

namespace Sys2Proof.Machine

/-! ## Sizes and defaults -/

/-- A session's _SELECT value of an object (R335). -/
def selectOf (s : State) (n k : Nat) : Nat :=
  match tget [] (s.sessAt n).selects k with
  | [] => cfgDefault s k
  | o => leNat o

/-- An octet string's value in force: zeros of its size by default. -/
def cfgOctets (s : State) (k size : Nat) : Octets :=
  match tget [] s.dic.vals k with
  | [] => List.replicate size 0
  | o => o

/-- TEXT of a fuse field: its stored length ends before the padding. -/
def textOf (o : Octets) : Octets := (o.reverse.dropWhile (· == 0)).reverse

/-- Derived keys and certificates, by what they are (R337, R435, R437, R468). -/
abbrev Der.idPub : Nat := 0
abbrev Der.idChain : Nat := 1
abbrev Der.provPub : Nat := 2
abbrev Der.provCert : Nat := 3
abbrev Der.akCert : Nat := 4
abbrev Der.romDigest : Nat := 5

/-- The chain up to the IK certificate. -/
def certChain (s : State) : Octets := (Config.derivedOctets Der.idChain (b2n s.fuse.ikCert)).take 8192

def provCert (s : State) : Octets := if s.fuse.pkCert then (Config.derivedOctets Der.provCert 0).take 2048 else []

/-! ## Views -/

/-- SYNC_VIEW (R331). -/
def syncView (s : State) (n p : Nat) : Except Nat Octets :=
  let o := s.objAt n
  if !o.alloc || o.owner != p then .error St.accessDenied
  else .ok (natLe 8 o.c.toNat ++ natLe 8 o.thr.toNat ++ natLe 8 o.gen.toNat ++ natLe 8 o.target.toNat ++ natLe 4 o.stride.toNat ++
    natLe 4 (b2n o.armed + b2n o.broken * 2 + 4 + o.owner * 2 ^ 16) ++
    natLe 4 (s.syn.waiters.filter (fun x => x.obj = n)).length ++ natLe 4 0)

/-- SEQ_VIEW (R197). -/
def seqView (s : State) (n p : Nat) : Except Nat Octets :=
  match seqAt s n with
  | none => .ok (List.replicate 64 0)
  | some d => if d.part = p then .ok (seqOctets n d) else .error St.accessDenied

/-- EMB_TABLE_VIEW (R213). -/
def embView (s : State) (n p : Nat) : Except Nat Octets :=
  match embTableAt s n with
  | none => .ok (List.replicate 64 0)
  | some d => if d.part = p then .ok (embOctets n d) else .error St.accessDenied

/-- MEM_REGION_VIEW (R263). -/
def regionView (s : State) (sel : Nat) : Octets :=
  match s.mem.regions.find? (fun r => r.part = bits sel 15 6 && r.tier = bits sel 5 5 && r.index = bits sel 3 0) with
  | some r => natLe 2 r.part ++ natLe 1 r.index ++ natLe 1 r.tier ++ natLe 1 r.mask ++ [0] ++ natLe 2 r.g ++ natLe 2 r.n ++
      List.replicate 6 0
  | none => List.replicate 16 0

/-- ERR_VIEW (R370, R397). -/
def errView (s : State) (n sel : Nat) : Octets :=
  let x := s.sessAt n
  let own : Bool := x.cls = 4
  let l := if own then (tget [] s.flt.partRecs x.part).map errForPart else s.flt.recs
  let count := if own then tget 0 s.flt.partCount x.part else s.flt.count
  if count ≤ sel then List.replicate 64 0
  else match l[count - 1 - sel]? with
    | some r => errOctets r
    | none => List.replicate 64 0

/-- A unit's health code as the dictionary shows it (R397). -/
def arrHealth (s : State) (n : Nat) : Nat :=
  if !(arrPresent s n) then 5
  else
    let c := (healthAt s Kind.array n).code
    if c = 0 && isSpare s n then 1 else c

def engHealth (s : State) (n : Nat) : Nat := if engPresent s n then (healthAt s Kind.engine n).code else 5

def vatHealth (s : State) (v : Nat) : Nat := if vatPresent s v then (healthAt s Kind.vat v).code else 5

/-- HEALTH_SERVICE (R395, R397, R448). -/
def healthService (s : State) : Nat :=
  b2n (!s.flt.mgmtLost) + b2n (computeAvail s && lifecycleOf s != Lc.scrapped && (boardClass s.pin.straps).isSome) * 2

/-- A row of MON_ACC (R431). -/
def accRow (a : MonAcc) : Octets := natLe 8 a.sum ++ natLe 4 a.count ++ natLe 2 a.min ++ natLe 2 a.max

/-- A row of SEC_ENROLL (R439). -/
def enrollRow (s : State) (i : Nat) : Octets :=
  match tget none s.sec.enroll i with
  | some r => natLe 1 (r.1 - 1) ++ [0] ++ natLe 2 r.2.1 ++ List.replicate 4 0 ++ padTo r.2.2 48
  | none => List.replicate 56 0

/-- A row of XTV_ROUTE: 8 path words (R279). -/
def routeRow (s : State) (chip : Nat) : Octets := (List.range 8).flatMap (fun k => natLe 4 (routeWord s chip k))

/-- A counter of R246: a PARTITION session's own, the module's sum for another. -/
def partCounter (s : State) (n : Nat) (t : Tab Nat) : Nat :=
  if (s.sessAt n).cls = 4 then tget 0 t (s.sessAt n).part else (t.map (·.2)).sum

/-- Objects a partition owns: sync objects and channels. -/
def partObjects (s : State) (p : Nat) : Nat := (s.syn.objs.filter (fun q => q.2.alloc && q.2.owner = p)).length
def partChannels (s : State) (p : Nat) : Nat := ((chans s).filter (fun q => q.2.part = p)).length

def gibOf (s : State) (p tier : Nat) : Nat := spaceSize s p tier / 2 ^ 30

/-! ## Values by index -/

/-- Identity, capabilities, topology (R38, R43, R337). -/
def readIdentity (s : State) (i b : Nat) : Octets :=
  if i = 0x1000 then
    (if b = 1 then ascii "Renzel Interconnect"
    else if b = 2 then textOf s.fuse.product
    else if b = 3 then natLe 8 s.fuse.serial.toNat
    else if b = 4 then textOf s.fuse.lot
    else if b = 5 then natLe 1 s.fuse.wafer
    else if b = 6 then natLe 1 s.fuse.dieX.toNat
    else if b = 7 then natLe 1 s.fuse.dieY.toNat
    else if b = 8 then padTo (Config.derivedOctets Der.idPub 0) 97
    else if b = 9 then certChain s
    else padTo s.fuse.mac 6)
  else if i = 0x1100 then (if b = 1 then natLe 1 s.fuse.variant else textOf s.fuse.stepping)
  else if i = 0x1101 then natLe 1 (b2n (vatPresent s (b - 1)))
  else if i = 0x1102 then natLe 2 (if vatPresent s (b - 1) then 2176 else 0)
  else if i = 0x1103 then natLe 2 (if vatPresent s (b - 1) then 128 else 0)
  else if i = 0x1104 then natLe 8 (if vatPresent s (b - 1) then 2 ^ 64 - 1 else 0)
  else if i = 0x1105 then natLe 2 64
  else if i = 0x1106 then natLe 2 (if hasCave s then 768 else 0)
  else if i = 0x1107 then (if b = 1 then natLe 4 0x00FFFFFF else natLe 1 4)
  else if i = 0x1108 then
    (if b = 1 then natLe 4 65536
    else if b = 2 then natLe 4 65536
    else if b = 3 then natLe 4 16384
    else if b = 4 then natLe 4 65536
    else if b = 5 then natLe 4 1048576
    else natLe 1 64)
  else if i = 0x1201 then
    (if b = 1 then natLe 1 s.pin.straps
    else natLe 1 ((boardClass s.pin.straps).getD (Config.invalidClass s.pin.straps % 256)))
  else padTo (s.dic.distance.flatMap (natLe 2)) 128

/-- Firmware, lifecycle, mailboxes and FAP (R331, R338). -/
def readFirmware (s : State) (n i b : Nat) : Except Nat Octets :=
  if i = 0x1800 then
    .ok (if b = 1 then natLe 4 (((bankImage s s.sec.bank).map (·.version)).getD 0)
      else if b = 2 then natLe 2 s.fuse.rollback
      else if b = 3 then natLe 1 (lifecycleOf s)
      else natLe 1 s.sec.debug)
  else if i = 0x1810 then
    let m := selectOf s n Key.mbxSelect
    let x := s.mbxAt m
    if !(mbxAdmits s m (.session n)) then .error St.accessDenied
    else if b = 2 then .ok ((List.range 64).flatMap (fun k => natLe 4 (tget 0 x.msg k).toNat))
    else .ok (natLe 8 (x.state + x.rc * 2 ^ 16))
  else
    .ok (if b = 2 then cfgOctets s Key.fapMgmtAddr 16
      else if b = 5 then natLe 1 s.dic.sessions.length
      else if b = 6 then natLe 8 s.dic.authFail.toNat
      else natLe 8 s.dic.replayDrop.toNat)

/-- Fabric, sync objects, channels and memory (R263, R303, R331). -/
def readFabric (s : State) (n p i b : Nat) : Except Nat Octets :=
  if i = 0x3000 then .ok (natLe 2 0x0201)
  else if i = 0x3001 then .ok (natLe 1 (portCfgValue s (b - 1)))
  else if i = 0x3006 then .ok (cfgOctets s (0x300600 + b) 16)
  else if i = 0x3100 then
    (if b = 5 then syncView s (selectOf s n Key.syncSelect) p
    else .ok (natLe 4 (65536 - (s.syn.objs.filter (fun q => q.2.alloc)).length)))
  else if i = 0x3103 then .ok (padTo (s.sessAt n).result 8)
  else if i = 0x3105 then .ok (natLe 4 (if b = 1 then freeSlots s else waiterPool - s.syn.waiters.length))
  else if i = 0x3800 then .ok (regionView s (selectOf s n Key.memRegionSelect))
  else if i = 0x3801 then .ok (natLe 2 (gibOf s p (b - 1)))
  else if i = 0x3803 then .ok (natLe 8 (s.sliceAt (b - 1)).ceTotal.toNat)
  else .ok (natLe 8 (s.sliceAt (b - 1)).ueTotal.toNat)

/-- Wheels, sequences, tables and serving (R145, R197, R213, R246). -/
def readServing (s : State) (n p i b : Nat) : Except Nat Octets :=
  let w := s.whlAt p
  if i = 0x4002 then .ok (if b = 1 then natLe 1 w.state else natLe 2 w.result)
  else if i = 0x4003 then
    .ok (if b = 1 then natLe 4 w.epoch
      else if b = 2 then padTo ((w.inForce.map (·.digest)).getD []) 48
      else padTo ((w.inForce.map (·.wheelId)).getD []) 16)
  else if i = 0x4007 then
    .ok (if b = 1 then natLe 4 (s.arr.foldl (fun m a => max m (a.2.age / 1000)) 0)
      else natLe 8 (s.arr.foldl (fun m a => max m a.2.programs) 0))
  else if i = 0x4010 then seqView s (selectOf s n Key.seqSelect) p
  else if i = 0x4012 then
    .ok (if b = 4 then natLe 4 (liveSeqs s p)
      else natLe 8 (tget 0 (if b = 1 then s.kv.rescale else if b = 2 then s.kv.clamp else s.kv.nonfinite) p))
  else if i = 0x4020 then embView s (selectOf s n Key.embTableSelect) p
  else if i = 0x4022 then .ok (natLe 1 (if b = 1 then (runOf s p).2 else (runOf s p).1))
  else if i = 0x4024 then
    .ok (if b = 5 then natLe 2 (liveTables s p)
      else natLe 8 (tget 0 (if b = 1 then s.emb.hits else if b = 2 then s.emb.misses else if b = 3 then s.emb.promotions
        else s.emb.demotions) p))
  else if i = 0x4030 then .ok (tget [] s.dic.vals Key.srvGroupTable)
  else .ok (if b = 1 then natLe 8 s.srv.step
    else if b = 2 then natLe 4 (partCounter s n s.srv.liveSeen)
    else if b = 3 then natLe 8 (partCounter s n s.srv.tokens)
    else if b = 4 then natLe 8 (partCounter s n s.srv.drafted)
    else if b = 5 then natLe 8 (partCounter s n s.srv.accepted)
    else natLe 4 s.srv.fraction.toNat)

/-- Power, thermal, monitor, reliability, security (R397, R431, R468). Tables read the rows an offset and count name. -/
def readModule (s : State) (n i b : Nat) : Octets :=
  if i = 0x5000 then natLe 1 (pDepth s.pwr.state)
  else if i = 0x5002 then natLe 4 (if b = 2 then s.pwr.orderedStops else s.pwr.fastStops).toNat
  else if i = 0x5003 then
    (List.range 288).flatMap (fun k =>
      natLe 2 (if sensorPresent s k && (sensorAt s k).healthy then toField 16 (sensorAt s k).temp else 0x8000))
  else if i = 0x5005 then monSeqOctets (s.monSeq (b - 1))
  else if i = 0x5006 then (List.range 128).flatMap (fun k => accRow (s.monAcc k))
  else if i = 0x6000 then
    (if b = 1 then natLe 8 (if (s.sessAt n).cls = 4 then tget 0 s.flt.partCount (s.sessAt n).part else s.flt.count)
    else errView s n (selectOf s n Key.errSelect))
  else if i = 0x6001 then padTo (s.flt.prev.flatMap errOctets) 16384
  else if i = 0x6002 then natLe 1 (if b = 1 then healthService s else vatHealth s (b - 2))
  else if i = 0x6003 then (List.range 17408).map (fun k => BitVec.ofNat 8 (arrHealth s k))
  else if i = 0x6004 then (List.range 512).map (fun k => BitVec.ofNat 8 (engHealth s k))
  else if i = 0x7000 then (if b = 1 then padTo (Config.derivedOctets Der.provPub 0) 97 else provCert s)
  else if i = 0x7001 then (List.range 64).flatMap (enrollRow s)
  else if i = 0xC000 then
    natLe 2 (if b = 1 then s.dic.telInputW else if b = 2 then toField 16 s.dic.telJunction else s.dic.telGrants)
  else []

/-- Partition telemetry as last published (R340). -/
def readTelemetry (s : State) (p b : Nat) : Octets :=
  let t := tget (0, 0, 0, 0, 0) s.dic.telPart p
  natLe 8 (if b = 1 then t.1 else if b = 2 then t.2.1 else if b = 3 then t.2.2.1 else if b = 4 then t.2.2.2.1 else t.2.2.2.2)

/-- Objects of partition p's window (R339). -/
def readWindow (s : State) (p i b : Nat) : Octets :=
  let q := s.partAt p
  if i = 0 then (if b = 1 then natLe 1 q.state else natLe 4 q.rights)
  else if i = 1 then natLe 2 (tget (0, 0) q.arrays (b - 1)).2
  else if i = 2 then natLe 8 (tget 0 q.engines (b - 1))
  else if i = 3 then natLe 4 (if b = 1 then partObjects s p else partChannels s p)
  else natLe 2 (tget 0 q.tables (b - 1))

/-- Objects whose values are kept as plain settings: RW or RWB integers that no unit mirrors. -/
def isSetting (r : ObjRow) : Bool :=
  (r.acc = 2 || r.acc = 3) && (r.typ ≤ 10) && !([0x3001, 0xF000].contains r.index) && !(r.index = 0x4022 && r.sub = 1)

/-- Objects whose names end in _SELECT: one value a session (R335). -/
def isSelect (k : Nat) : Bool :=
  [Key.mbxSelect, Key.syncSelect, Key.memRegionSelect, Key.seqSelect, Key.embTableSelect, Key.errSelect].contains k

/-- The row and window of a key: the partition and key offset of a window object (R339). -/
def windowAt (s : State) (n k : Nat) : Option (Nat × Nat) :=
  let i := k / 256
  if 0x8000 ≤ i && i < 0xC000 then
    let p := (i - 0x8000) / 0x40
    let own : Bool := (s.sessAt n).cls = 4
    if p = 0 && own then some ((s.sessAt n).part, k - 0x800000)
    else if p = 0 || (own && p != (s.sessAt n).part) then none
    else some (p, k - 0x800000 - p * 0x4000)
  else none

/-- The row of an object of a window, by offset. -/
def windowRow (k : Nat) : Option ObjRow :=
  let i := k / 256
  let b := k % 256
  match windowRows.find? (fun r => r.index = i && r.sub ≤ b && b < r.sub + r.subs) with
  | some r => some r
  | none =>
    if b = 0 && windowRows.any (fun r => r.index = i) then some ⟨i, 0, 1, 2, 1, 16, 5, 1, 0, 0, ""⟩ else none

/-- The row of the object a session names, if there is one that it may learn of (R339, R353). -/
def rowFor (s : State) (n k : Nat) : Option ObjRow :=
  if 0x8000 ≤ k / 256 && k / 256 < 0xC000 then (windowAt s n k).bind (fun x => windowRow x.2) else objRow k

/-- The highest subindex of an index (R332). -/
def highestSub (rows : List ObjRow) (i : Nat) : Nat :=
  (rows.filter (fun r => r.index = i)).foldl (fun m r => max m (r.sub + r.subs - 1)) 0

/-- The value in force of an object that a session reads, or the status its chapter states. -/
def objValue (s : State) (n : Nat) (r : ObjRow) (k : Nat) : Except Nat Octets :=
  let i := k / 256
  let b := k % 256
  let p := sessPart s n
  match windowAt s n k with
  | some (q, o) => .ok (if o % 256 = 0 then natLe 1 (highestSub windowRows (o / 256)) else readWindow s q (o / 256) (o % 256))
  | none =>
    if b = 0 && r.sub = 0 && r.typ != 14 then .ok (natLe 1 (highestSub objRows i))
    else if r.typ = 15 && k != Key.mbxDoorbell then .ok (natLe 8 (getWord s n k).toNat)
    else if isSelect k then .ok (natLe r.size (selectOf s n k))
    else if isSetting r then .ok (natLe r.size (if bit r.flags 1 then cfgP s p k else cfgNat s k))
    else if k = Key.regWinAddr then .ok (natLe 4 s.dic.winAddr)
    else if i < 0x1800 then .ok (readIdentity s i b)
    else if i < 0x2000 then readFirmware s n i b
    else if i = 0x2012 then .ok (natLe 8 (s.vatAt (b - 1)).calTime)
    else if i = 0x2021 then .ok (natLe 8 (s.vatAt (b - 1)).satTotal.toNat)
    else if i = 0x2022 then .ok (natLe 8 (s.vatAt (b - 1)).conflictTotal.toNat)
    else if i = 0x2042 then .ok (natLe 8 (s.vatAt (b - 1)).tasksTotal.toNat)
    else if i = 0x2043 then .ok (natLe 8 (s.vatAt (b - 1)).mismatchTotal.toNat)
    else if i < 0x4000 then readFabric s n p i b
    else if i < 0x5000 then readServing s n p i b
    else if i = 0xC100 then .ok (readTelemetry s p b)
    else .ok (readModule s n i b)

/-- `count` octets of an object from an offset; a table of routes is read row by row. -/
def objOctets (s : State) (n : Nat) (r : ObjRow) (k off count : Nat) : Except Nat Octets :=
  if k = Key.xtvRoute then
    .ok (octs ((List.range ((off % 32 + count + 31) / 32)).flatMap (fun j => routeRow s (off / 32 + j + 1))) (off % 32) count)
  else match objValue s n r k with
    | .error e => .error e
    | .ok v => .ok ((v.drop off).take count)

end Sys2Proof.Machine
end

