-- ==== Sys2Proof/Machine/ObjWrite.lean ====
section
/-! DEFINITION. Writes of object values (R16, R17, R44, R145, R213, R214, R246, R263, R281, R303, R331, R334, R335, R341, R431). -/

namespace Sys2Proof.Machine

/-! ## Pending values (R16, R17) -/

/-- A value waits for its boundary; the last accepted write of an object replaces the earlier ones. -/
def pendPut (s : State) (key : Nat) (pt : Point) (v : Octets) : State :=
  { s with dic := { s.dic with pend := s.dic.pend.filter (fun p => p.key != key) ++ [⟨key, pt, v, s.dic.stepCmds.length⟩] } }

def bootPut (s : State) (key : Nat) (v : Octets) : State :=
  { s with dic := { s.dic with bootPend := s.dic.bootPend.filter (fun p => p.key != key) ++ [⟨key, .boot, v, 0⟩] } }

/-- The value an object will have once its pending write has taken effect. -/
def plannedNat (s : State) (key : Nat) : Nat :=
  match s.dic.pend.find? (fun p => p.key = key) with
  | some p => leNat p.value
  | none => cfgNat s key

/-! ## Range (check 6 of R353) -/

def plainRange (k x : Nat) : Bool :=
  match cfgRanges.find? (fun d => d.1 ≤ k && k < d.1 + d.2.1) with
  | some d => d.2.2.1 ≤ x && x ≤ d.2.2.2
  | none => true

/-- XTV_WEIGHTS (R303): three weights of 1–15. -/
def weightsOk (x : Nat) : Bool :=
  bits x 31 24 = 0 && [bits x 7 0, bits x 15 8, bits x 23 16].all (fun w => 1 ≤ w && w ≤ 15)

/-- A status for a value outside the Range column of an integer object, or 0. -/
def rangeStatus (s : State) (k x : Nat) : Nat :=
  if !(plainRange k x) then St.outOfRange
  else if (k = Key.whlStoreSlots || k = Key.srvJournalGib) && x != 0 && !hasCave s then St.unitAbsent
  else
    let ok : Bool :=
      if k = Key.xtvWeights then weightsOk x
      else if Key.xtvMcast ≤ k && k < Key.xtvMcast + 16 then x < 2 ^ 20
      else if k = Key.roceMtu then [256, 512, 1024, 2048, 4096].contains x
      else if k = Key.whlReplicaHolder0 || k = Key.whlReplicaHolder1 || k = Key.srvLeadChip then x ≤ 0xFFEF
      else if k = Key.whlPartition then partCreated s x
      else if k = Key.embHotBase || k = Key.embHotSlotBytes then x % 64 = 0
      else if k = Key.srvRole then x ≤ 2
      else if k = Key.srvVocabFirst then x < plannedNat s Key.srvVocabSize
      else if k = Key.srvVocabCount then x + plannedNat s Key.srvVocabFirst ≤ plannedNat s Key.srvVocabSize || x = 0
      else if k = Key.memRegionSelect then !(bit x 4)
      else if k = Key.regWinAddr then x % 4 = 0
      else if Key.portCfg ≤ k && k < Key.portCfg + 24 then x < 64
      else true
    if ok then 0 else St.outOfRange

/-! ## Checks of the object's own chapter (check 8) -/

def anyUp (s : State) : Bool := (List.range 20).any (fun p => (s.portAt p).subs.any (fun q => subCarries q.2))

/-- The hot region that an EMB_HOT_BASE would give a partition (R202, R213). -/
def hotBaseStatus (s : State) (p x : Nat) : Nat :=
  let len := 16384 * (runOf s p).2 * cfgP s p Key.embHotSlotBytes
  let uses := s.kv.seqs.filterMap (fun q => q.2.bind (fun d => if d.part = p then some (d.base, d.regionBytes) else none)) ++
    s.emb.tables.filterMap (fun q => q.2.bind (fun d => if d.part = p && d.home = 1 then some (d.base, d.bytes) else none))
  firstBad [
    (len != 0 && spaceSize s p 0 < x + len, St.lengthExceedsBuffer),
    (uses.any (fun u => rangesMeet x len u.1 u.2), St.configConflict)]

/-- Checks of an integer object whose value is in range; `p` is the partition it refers to. -/
def ownStatus (s : State) (p k x : Nat) : Nat :=
  if k / 256 = 0x1200 then
    firstBad [(k = Key.topoSlot && x != strappedSlot s, St.slotMismatch), (anyUp s, St.configLocked)]
  else if k = Key.embDirUnits then
    firstBad [((freeUnits s p x).isNone, St.noSpace), (liveTables s p != 0, St.wrongState)]
  else if k = Key.embHotBase then hotBaseStatus s p x
  else if k = Key.embHotSlotBytes then (if liveTables s p != 0 then St.wrongState else 0)
  else if k / 256 = 0x4030 then (if s.srv.reqs.any Req.active then St.wrongState else 0)
  else if k = Key.srvPrefillReserve then (if plannedNat s Key.srvStepTokens < x then St.configConflict else 0)
  else 0

/-! ## Taking a value -/

/-- A replica holder is named (R128, R243, R391): it gets the envelopes, and journals go to it with a CHECKPOINT first. -/
def holderNamed (s : State) (i : Nat) : State :=
  let chip := holderAt s i
  let s := { s with srv := { s.srv with checkpointDue := true, jLost := lset s.srv.jLost i false } }
  if chip = 0 then s else pushAgain s chip [i]

/-- What follows a value that is in force at once. -/
def afterImm (s : State) (k : Nat) : State :=
  if k / 256 = 0x1200 then trainAll s
  else if k = Key.whlReplicaHolder0 then holderNamed s 0
  else if k = Key.whlReplicaHolder1 then holderNamed s 1
  else s

/-- An integer setting: in force at once, or pending its boundary, as its Applies column says. -/
def putSetting (s : State) (r : ObjRow) (p k : Nat) (v : Octets) : State :=
  let key := if bit r.flags 1 then scopedKey p k else k
  if r.applies = 2 then pendPut s key .step v
  else if r.applies = 3 then pendPut s key .frame v
  else if r.applies = 5 then bootPut s key v
  else afterImm (cfgPut s key v) k

/-- A write of an integer object. -/
def writeInt (s : State) (n : Nat) (r : ObjRow) (k : Nat) (v : Octets) : Nat × State :=
  let x := leNat v
  let p := sessPart s n
  let st := firstBad [(rangeStatus s k x != 0, rangeStatus s k x), (bit r.flags 1 && p = 0, St.outOfRange)]
  if st != 0 then (st, s)
  else if isSelect k then (0, s.modSess n (fun y => { y with selects := tput [] y.selects k v }))
  else if k = Key.regWinAddr then (0, { s with dic := { s.dic with winAddr := x } })
  else if k = Key.regWinData then winStore s s.dic.winAddr x
  else if Key.portCfg ≤ k && k < Key.portCfg + 24 then
    let q := k - Key.portCfg
    let a := portCfg s q x
    if a.1 = 0 then (0, a.2.modPort q (fun y => { y with cfgErr := false }))
    else (a.1, s.modPort q (fun y => { y with cfgErr := true }))
  else if ownStatus s p k x != 0 then (ownStatus s p k x, s)
  else (0, putSetting s r p k v)

/-! ## Octet strings -/

/-- Words of MBX_MSG: the sender's write of the whole message (R327, R331). -/
def msgWords (v : Octets) : List (Nat × Word) := (List.range 64).map (fun i => (i, BitVec.ofNat 32 (fld v (4 * i) 4)))

/-- A write of an octet string, whole. -/
def writeOctets (s : State) (n k : Nat) (v : Octets) : Nat × State :=
  if k = Key.mbxMsg then mbxPutWords s (selectOf s n Key.mbxSelect) (.session n) (msgWords v)
  else if k = Key.fapMgmtAddr then (0, bootPut s k v)
  else if Key.roceAddr ≤ k && k < Key.roceAddr + 4 then
    if (s.portAt (20 + (k - Key.roceAddr))).enable then (St.wrongState, s) else (0, cfgPut s k v)
  else if Key.monSeqCfg ≤ k && k < Key.monSeqCfg + 4 then
    if seqCfgStatus v != 0 then (seqCfgStatus v, s) else (0, seqCfgPut s (k - Key.monSeqCfg) v)
  else if k = Key.perTableStage then (0, s.modSess n (fun y => { y with tableStage := some v }))
  else if k = Key.fwStage then (0, s.modSess n (fun y => { y with fwStage := some v }))
  else (0, s.modSess n (fun y => { y with pkgStage := some v }))

/-! ## Tables (R352): whole rows from a row boundary on -/

/-- XTV_ROUTE rows from the entry of a chip (R279, R281); frames that waited for a path look again. -/
def writeRoutes (s : State) (row : Nat) (v : Octets) : Nat × State :=
  let chips := (List.range (v.length / 32)).map (fun j => row + j + 1)
  if chips.any (boardPeer s) then (St.configConflict, s)
  else
    let routes := (List.range (v.length / 4)).foldl
      (fun t j => tput 0 t ((row + 1) * 8 + j) (BitVec.ofNat 32 (fld v (4 * j) 4))) s.fab.routes
    (0, flushWaiting { s with fab := { s.fab with routes := routes } })

/-- SRV_GROUP_TABLE rows, onto the table as it will stand (R214, R246). -/
def writeGroup (s : State) (off : Nat) (v : Octets) : Nat × State :=
  let base := match s.dic.pend.find? (fun p => p.key = Key.srvGroupTable) with
    | some p => p.value
    | none => tget [] s.dic.vals Key.srvGroupTable
  if (List.range (v.length / 2)).any (fun i => 0xFFEF < fld v (2 * i) 2) then (St.outOfRange, s)
  else if s.srv.reqs.any Req.active then (St.wrongState, s)
  else (0, pendPut s Key.srvGroupTable .step (splice base off v))

def writeTable (s : State) (r : ObjRow) (k off : Nat) (v : Octets) : Nat × State :=
  if off % r.row != 0 || v.length % r.row != 0 then (St.formatMismatch, s)
  else if k = Key.xtvRoute then writeRoutes s (off / 32) v
  else if k = Key.secEnroll then
    enrollWrite (off / 56) ((List.range (v.length / 56)).map (fun j => octs v (56 * j) 56)) s
  else writeGroup s off v

end Sys2Proof.Machine
end

