-- ==== Sys2Proof/Machine/Firmware.lean ====
section
/-! DEFINITION. Firmware images, configuration defaults, custom tables and telemetry (R93, R107, R338, R340, R441). -/

namespace Sys2Proof.Machine

/-! ## FW_ACTIVATE (R441) -/

/-- The header fields of an image that passed, as its bank holds them. -/
def imageOf (b : Octets) : FwImage := ⟨imageSvn b, fld b 12 4, imageDigest b⟩

/-- An image that passes goes to the bank not running and is marked for the next boot. -/
def fwActivateBody (c : ImageCrypto) (sess _p : Nat) (_ : Octets) (s : State) : CmdAns :=
  let b := (s.sessAt sess).fwStage.getD []
  let st := firmwareStatus s b c
  if st != 0 then refuse s st
  else
    let img := some (imageOf b)
    let to_ := 1 - s.sec.bank
    doneAt { s with sec := { s.sec with
      bank0 := if to_ = 0 then img else s.sec.bank0, bank1 := if to_ = 0 then s.sec.bank1 else img, marked := to_ } } 0

/-- Over FAP the command runs until the security core has verified the image. -/
def fwActivateWait : Nat → Octets → State → Nat × State := cmdWrite Key.fwActivate oneRange (peerWaitBody Key.fwActivate)

def execFwActivate (sess : Nat) (arg : Octets) (crypto : ImageCrypto) (s : State) : Host.Outcome State Fault Refusal :=
  .next (peerRow Key.fwActivate (fwActivateBody crypto) (cmdWrite Key.fwActivate oneRange (fwActivateBody crypto)) sess arg s)

/-! ## CFG_DEFAULTS (R338) -/

/-- Pending BOOT values accepted before it are discarded; the rest happens at the next boot. -/
def cfgDefaultsBody (_sess _p : Nat) (_ : Octets) (s : State) : CmdAns :=
  doneAt { s with dic := { s.dic with bootPend := [], cfgDefaults := true } } 0

def cfgDefaultsWrite : Nat → Octets → State → Nat × State := cmdWrite Key.cfgDefaults oneRange cfgDefaultsBody

def execCfgDefaults (sess : Nat) (arg : Octets) (s : State) : Host.Outcome State Fault Refusal :=
  .next (cmdRow Key.cfgDefaults cfgDefaultsWrite sess arg s)

/-! ## PER_TABLE_LOAD (R93, R107) -/

def tableVat (arg : Octets) : Nat := bits (fld arg 0 4) 2 0
def tableSlot (arg : Octets) : Nat := bits (fld arg 0 4) 7 4

def tableLoadRange (_ : State) (arg : Octets) : Nat :=
  if bit (fld arg 0 4) 3 || bits (fld arg 0 4) 31 8 != 0 then St.outOfRange else 0

def tableLoadStatus (s : State) (p : Nat) (arg : Octets) : Nat :=
  firstBad [(!(vatPresent s (tableVat arg)), St.unitAbsent), (!(tableGranted s p (tableVat arg) (tableSlot arg)), St.accessDenied)]

/-- The table the session has staged now is the one that is loaded. -/
def tableLoadBody (sess p : Nat) (arg : Octets) (s : State) : CmdAns :=
  let st := tableLoadStatus s p arg
  if st != 0 then refuse s st
  else stepPend Key.perTableLoad sess p (arg ++ (s.sessAt sess).tableStage.getD []) s

def tableLoadWrite : Nat → Octets → State → Nat × State := cmdWrite Key.perTableLoad tableLoadRange tableLoadBody

def execPerTableLoad (sess : Nat) (arg : Octets) (s : State) : Host.Outcome State Fault Refusal :=
  .next (cmdRow Key.perTableLoad tableLoadWrite sess arg s)

/-- At its boundary: a table that breaks R92 is refused, and the slot keeps its contents. -/
def tableLoadApply (p : Nat) (arg : Octets) (s : State) : Nat × State :=
  let t := arg.drop 4
  let st := firstBad [(tableLoadStatus s p arg != 0, tableLoadStatus s p arg), (!(tableOk t), St.invalidTable)]
  if st != 0 then (st, s)
  else (0, s.modVat (tableVat arg) (fun v => { v with tables := tput [] v.tables (tableSlot arg) t }))

/-! ## Telemetry (R340) -/

/-- Module telemetry: input power, hottest sensor in whole °C, grants held. -/
def moduleTelemetry (s : State) : State :=
  { s with dic := { s.dic with
    telInputW := s.pwr.inputW, telJunction := s.pwr.maxTemp / 16
    telGrants := (s.vat.map (fun v => v.2.grants.length)).sum } }

/-- Partition telemetry: the counters of every created partition, stamped with local time. -/
def partTelemetry (s : State) : State :=
  let row (p : Nat) : Nat × Nat × Nat × Nat × Nat :=
    let t := tget (0, 0, 0, 0) s.dic.telRun p
    (t.1, t.2.1, t.2.2.1, t.2.2.2, s.time)
  { s with dic := { s.dic with telPart := (partsOf s).foldl (fun t p => tput (0, 0, 0, 0, 0) t p (row p)) s.dic.telPart } }

/-- The next update: local time moves on to the next multiple of 1 ms; at a multiple of 10 ms the partitions' values change. -/
def execTelemetryUpdate (s : State) : Host.Outcome State Fault Refusal :=
  if s.pwr.state = .s4 then .next s
  else
    let s := moduleTelemetry (s.until ((s.time / 1000000 + 1) * 1000000))
    .next (if s.time % 10000000 = 0 then partTelemetry s else s)

end Sys2Proof.Machine
end

