-- ==== Sys2Proof/Machine/Boundary.lean ====
section
/-! DEFINITION. Step boundaries: what applies at one, the step a lead or a member starts, and the idle boundary (R16–R19, R105,
R131, R133, R140, R164, R182, R183, R200, R215, R216, R225). -/

namespace Sys2Proof.Machine

/-! ## Appends and truncations (R182 step 1) -/

/-- The tracker names length 0 for the sequences it prefills again (R136, R245, R391). -/
def nameTruncated (s : State) : State :=
  let ks := s.srv.truncate
  { s with
    kv := { s.kv with named := ks.foldl (fun t k => tput none t k (some 0)) s.kv.named }
    srv := { s.srv with truncate := [], reqs := s.srv.reqs.map (fun q => if ks.contains q.seq then { q with named := 0 } else q) } }

/-- Lengths named since the last boundary, as a plan carries them (R215). -/
def namedList (s : State) : List (Nat × Nat) := s.kv.named.filterMap (fun q => q.2.map (fun n => (q.1, n)))

/-- Sequences that a command of this boundary truncates. -/
def cutTruncated (s : State) : State :=
  let ks := s.srv.truncate
  { s with
    kv := { s.kv with seqs := ks.foldl (fun t k => tput none t k ((tget none t k).map (fun d => { d with len := 0 }))) s.kv.seqs }
    srv := { s.srv with truncate := [], reqs := s.srv.reqs.map (fun q => if ks.contains q.seq then { q with named := 0 } else q) } }

/-! ## Pending commands and values (R16, R17, R19) -/

/-- WHL_ARM at the first boundary after it: the wheel is in HOLDING, and no new step of the partition starts (R140). -/
def armApply (p : Nat) (s : State) : Nat × State :=
  if (s.whlAt p).state = 5 then (0, s.modWhl p (fun w => { w with state := 6, held := true, holdSince := some s.time, alarmed := false }))
  else (St.wrongState, s)

/-- What a pending command does at its boundary, with its checks made again: status and state. -/
def stepCmdApply (c : StepCmd) (s : State) : Nat × State :=
  if c.obj = Key.whlArm then armApply c.part s
  else if c.obj = Key.veInbufSet then inbufApply c.part c.arg s
  else if c.obj = Key.seqEdit then seqEditApply c.part c.arg s
  else if c.obj = Key.embTableEdit then embEditApply c.part c.arg s
  else if c.obj = Key.embInvalidate then invalApply c.part c.arg s
  else if c.obj = Key.embPin then pinApply c.part c.arg s
  else if c.obj = Key.memRegionSet then memRegionApply c.arg s
  else if c.obj = Key.secPartAssign then partAssignApply c.arg s
  else if c.obj = Key.secPkgLoad then pkgLoadApply c.part c.arg s
  else if c.obj = Key.recReplace then recReplaceApply c.arg s
  else tableLoadApply c.part c.arg s

def stepCmdRun (s : State) (c : StepCmd) : State :=
  let r := stepCmdApply c s
  stepDone c r.1 r.2

/-- Invalidations, then pins, follow the edits of every kind (R200). -/
def isLater (c : StepCmd) : Bool := c.obj = Key.embInvalidate || c.obj = Key.embPin

/-- A pending value comes into force. What an embedding value needs is looked at again; without it the value is dropped. -/
def stepValue (s : State) (v : PendVal) : State :=
  let p := v.key / 2 ^ 24
  let k := v.key % 2 ^ 24
  let x := leNat v.value
  if k = Key.secPartCreate then
    s.setPart p { s.partAt p with rights := x }
  else if k = Key.embDirUnits then (if ownStatus s p k x = 0 then setUnits s p x else s)
  else if k = Key.embHotBase || k = Key.embHotSlotBytes then (if ownStatus s p k x = 0 then cfgPut s v.key v.value else s)
  else cfgPut s v.key v.value

/-- Values and commands in the order they were accepted (R19); `i` commands have gone before. -/
def applyInOrder (vs : List PendVal) : Nat → List StepCmd → State → State
  | i, [], s => (vs.filter (fun v => i ≤ v.after_)).foldl stepValue s
  | i, c :: t, s =>
    let s := (vs.filter (fun v => v.after_ = i)).foldl stepValue s
    applyInOrder vs (i + 1) t (if isLater c then s else stepCmdRun s c)

def applyPending (s : State) : State :=
  let cs := s.dic.stepCmds
  let vs := s.dic.pend.filter (fun v => v.point = .step)
  let s := { s with dic := { s.dic with stepCmds := [], pend := s.dic.pend.filter (fun v => v.point != .step) } }
  let s := applyInOrder vs 0 cs s
  let s := (cs.filter (fun c => c.obj = Key.embInvalidate)).foldl stepCmdRun s
  (cs.filter (fun c => c.obj = Key.embPin)).foldl stepCmdRun s

/-! ## Array settings (R94, R96, R97, R105, R106) -/

/-- The settings an array will have: CTRL keeps GATE_EN, which is in force at once. -/
def plannedArr (a : ArrSt) : ArrSt :=
  let at_ (off : Nat) (cur : Word) : Word := (tget none a.pend off).getD cur
  { a with
    ctrl := match tget none a.pend 0x00 with
      | some w => BitVec.ofNat 32 (w.toNat % 2 ^ 15 + b2n (bit a.ctrl.toNat 15) * 2 ^ 15)
      | none => a.ctrl
    perCfg := at_ 0x40 a.perCfg, perOut := at_ 0x44 a.perOut, inScale := at_ 0x48 a.inScale, outScale := at_ 0x4C a.outScale
    chain := at_ 0x50 a.chain, pend := [] }

def plannedAt (s : State) (n : Nat) : ArrSt := plannedArr (s.arrAt n)

/-- The array that planned settings name as the next member. -/
def nextPlanned (s : State) (n : Nat) : Option Nat :=
  let a := plannedAt s n
  if hasNext a then some (physOf s (nextVat a) (nextSlot a)) else none

def prevPlanned (s : State) (n : Nat) : Option Nat := (s.arr.find? (fun q => nextPlanned s q.1 = some n)).map (·.1)

/-- Arrays from one on along a link, up to a number. -/
def followLink (f : Nat → Option Nat) : Nat → Nat → List Nat
  | 0, _ => []
  | k + 1, n => match f n with
    | some m => m :: followLink f k m
    | none => []

/-- The planned chain through an array, head first. -/
def plannedChain (s : State) (n : Nat) : List Nat :=
  ((followLink (prevPlanned s) 255 n).reverse ++ [n] ++ followLink (nextPlanned s) 255 n).eraseDups

/-- An array of shape 5 names a table slot that holds a table and, in a partition, is granted to it (R93). -/
def tableChecked (s : State) (n : Nat) (a : ArrSt) : Bool :=
  let p := arrPart s n
  actShape a != 5 || (!(tget [] (s.vatAt (n / 2176)).tables (actTable a)).isEmpty &&
    (p = 0 || tableGranted s p (n / 2176) (actTable a)))

/-- Members of a chain with their planned settings. -/
def chainSettings (s : State) (c : List Nat) : List (Nat × ArrSt) := c.map (fun n => (n, plannedAt s n))

/-- The first failing array of a planned chain, if the chain fails: a member of its own, else the head. -/
def chainFault (s : State) (c : List Nat) : Option Nat :=
  let ms := chainSettings s c
  let p := arrPart s (c.headD 0)
  match ms.find? (fun m => !(poolOk m.2) || !(tableChecked s m.1 m.2) || arrPart s m.1 != p) with
  | some m => some m.1
  | none => if chainLimits (ms.map (fun m => (m.1 / 2176, m.2))) && chainAgrees (ms.map (·.2)) then none else c.head?

/-- The pair partner of an array in a slot. -/
def partnerOf (s : State) (n : Nat) : Option Nat := (slotOf s n).map (fun l => physOf s (n / 2176) (pairSlot l))

/-- The pair an array and its partner form, gate first, where either has a role. -/
def pairFault (s : State) (n : Nat) : Option Nat :=
  match slotOf s n with
  | none => if pairRole (plannedAt s n) = 0 then none else some n
  | some l =>
    let g := physOf s (n / 2176) (l / 2 * 2)
    let u := physOf s (n / 2176) (l / 2 * 2 + 1)
    let a := plannedAt s g
    let b := plannedAt s u
    if (pairRole a = 0 && pairRole b = 0) || (pairOk a b && arrPart s g = arrPart s u) then none else some g

/-- The arrays whose settings stand or fall with an array's: its chain as planned and in force, and its pair partner's. -/
def settingGroup (s : State) (n : Nat) : List Nat :=
  let inForce (m : Nat) : List Nat := match slotOf s m with
    | some l => chainArrays s (m / 2176) l
    | none => [m]
  let role (m : Nat) : Bool := pairRole (plannedAt s m) != 0 || pairRole (s.arrAt m) != 0
  let own := ((inForce n ++ plannedChain s n).flatMap (plannedChain s)).eraseDups
  let mates := own.filterMap (fun m => match partnerOf s m with
    | some q => if role m || role q then some q else none
    | none => none)
  (own ++ mates.flatMap (plannedChain s)).eraseDups

/-- The first failing array of a group. -/
def groupFault (s : State) (g : List Nat) : Option Nat :=
  match g.findSome? (fun n => chainFault s (plannedChain s n)) with
  | some n => some n
  | none => g.findSome? (pairFault s)

/-- A group's pending settings come into force together, or none of them does. -/
def checkGroup (s : State) (n : Nat) : State :=
  if (s.arrAt n).pend.isEmpty then s
  else
    let g := settingGroup s n
    match groupFault s g with
    | none => g.foldl (fun s m => s.modArr m plannedArr) s
    | some m =>
      let s := g.foldl (fun s m => s.modArr m (fun a => { a with pend := [] })) s
      s.writeErr (reportErr St.configConflict Kind.array m (arrPart s m))

def applySettings (s : State) : State := ((s.arr.filter (fun q => !q.2.pend.isEmpty)).map (·.1)).foldl checkGroup s

/-- Pool changes of engines (R164). -/
def applyPools (s : State) : State :=
  { s with eng := { s.eng with eng := tmapv {} (fun e => { e with pool := e.poolPend.getD e.pool, poolPend := none }) s.eng.eng } }

/-! ## The boundary -/

/-- Requests that were cancelled and have no entry end, and ended requests' sequences are released (R224, R225). -/
def trackerBoundary (s : State) : State :=
  let gone := s.srv.reqs.filter (fun q => q.cancel && q.planned.isNone && q.active)
  let s := gone.foldl (fun s q => endNow s q St.cancelled) s
  { s with srv := { s.srv with holds := s.srv.holds.filter (fun q => !(s.srv.unhold.contains q)), unhold := [] } }

/-- After the pending commands and values: settings, the directory, the tracker and the snapshots. `ks` are the sequences whose
freed blocks lose their scales. -/
def boundaryWork (ks : List Nat) (s : State) : State :=
  let s := applyPools (applySettings (cutTruncated s))
  let s := countDecay (promoteAll (finishCopies s))
  snapshotEmb (snapshotSeqs (clearSeqs (trackerBoundary s) ks))

/-- SRV_LIVE: the live requests of each partition (R246). -/
def countLive (s : State) : State :=
  let live := s.srv.reqs.filter Req.live
  { s with srv := { s.srv with
    liveSeen := live.foldl (fun t q => tput 0 t q.part (tget 0 t q.part + 1)) [] } }

/-- A step boundary: the lengths named, for the plan, and the state. -/
def stepBoundary (s : State) : List (Nat × Nat) × State :=
  let s := nameTruncated s
  let named := namedList s
  let s := applyPending (commitAppends s)
  (named ++ s.srv.truncate.map (fun k => (k, 0)), boundaryWork (s.kv.seqs.map (·.1)) s)

/-- Pool positions move on by one bay a step, and the pools are empty (R131, R133). -/
def rotatePools (s : State) : State :=
  let s := (vatsOf s).foldl (fun s v => s.modVat v (fun x => { x with rotation := x.rotation + 1 })) s
  { s with whl := { s.whl with parts := tmapv {} (fun w => { w with poolLayers := [], poolDone := [] }) s.whl.parts } }

/-- No new step starts while the module leaves S0 or stops (R400, R420). -/
def mayStart (s : State) : Bool := s.pwr.entering.isNone && s.pwr.stop = 0

/-- A lead's boundary. -/
def leadBoundary (s : State) : State :=
  let b := stepBoundary s
  if mayStart b.2 then
    let t := leadStep b.2 b.1
    countLive (if t.srv.inStep then rotatePools t else t)
  else countLive { b.2 with srv := { b.2.srv with inStep := false } }

/-- A module without a serving group: its partitions' own tasks run in its steps. -/
def loneBoundary (s : State) : State :=
  let t := (stepBoundary s).2
  if mayStart t then
    countLive (rotatePools { t with srv := { t.srv with inStep := true, fencePassed := false, table := [], step := t.srv.step + 1 } })
  else countLive { t with srv := { t.srv with inStep := false } }

/-- A member starts the step whose plan it holds for a partition, or waits (R216). -/
def memberStart (part : Nat) (s : State) : State :=
  match s.srv.plan with
  | none => s
  | some (p, plan) =>
    let w := (s.whlAt p).state
    if p != part || plan.step ≤ s.srv.step || stepInProgress s || !(running s) || !(mayStart s) then s
    else if w = 6 || w = 7 then s
    else if plan.epoch != (s.whlAt p).epoch then
      if s.srv.mismatchSaid then s
      else
        let s := s.writeErr (reportErr St.epochMismatch Kind.module 0 p)
        { s with srv := { s.srv with mismatchSaid := true } }
    else
      let s := { s with kv := { s.kv with named := plan.named.foldl (fun t n => tput none t n.1 (some n.2)) s.kv.named } }
      let t := (stepBoundary s).2
      if (t.whlAt p).held then countLive t else countLive (memberStep (rotatePools t) p plan)

/-- A lead ends its step with the commit fence of every request planned, another module once its work is done. -/
def stepEnds (s : State) : Bool :=
  if srvRole s = 1 then !(s.srv.inStep && s.srv.reqs.any (fun q => q.planned.isSome)) else !(stepInProgress s)

def execStepBoundary (s : State) : Host.Outcome State Fault Refusal :=
  if !(running s) || !(stepEnds s) then .next s
  else if srvRole s = 1 then .next (leadBoundary s)
  else if srvRole s = 2 then
    match s.srv.plan with
    | some (p, _) => .next (memberStart p s)
    | none => .next s
  else .next (loneBoundary s)

def execMemberStepStart (part : Nat) (s : State) : Host.Outcome State Fault Refusal :=
  if srvRole s = 2 then .next (memberStart part s) else .next s

/-! ## The idle boundary (R19, R183) -/

/-- Sequences that pending edits name. -/
def editedSeqs (s : State) : List Nat := (s.dic.stepCmds.filter (fun c => c.obj = Key.seqEdit)).map (fun c => editSeq c.arg)

/-- It applies what is pending, commits no append, and starts no step. -/
def execIdleStepBoundary (s : State) : Host.Outcome State Fault Refusal :=
  if !(running s) || stepInProgress s then .next s
  else
    let ks := editedSeqs s
    .next (countLive (boundaryWork ks (applyPending s)))

end Sys2Proof.Machine
end

