-- ==== Sys2Proof/Machine/Fabric.lean ====
section
/-! DEFINITION. The fabric's commands: bring-up and HELLO (R294–R296), Xatravis frames that arrive (R271–R273), link reliability
and credit (R274, R275), end-to-end delivery (R277, R278), loss and doze (R297–R300). -/

namespace Sys2Proof.Machine

/-! ## PORT_ENABLE_WRITE (R301) -/

def execPortEnableWrite (agent : RegAgent) (port value : Nat) (s : State) : Host.Outcome State Fault Refusal :=
  .next (regRow agent (0x40000 + 0x100 * port) (fun s =>
    let r := portCfg s port (bits value 5 0)
    r.2.modPort port (fun q => { q with cfgErr := r.1 != 0 })) s)

/-! ## Bring-up (R294, R296) -/

/-- Negotiation and training end; lanes that are not accepted under R75 train again. -/
def execLinkTrainingDone (port sub : Nat) (accepted : Bool) (s : State) : Host.Outcome State Fault Refusal :=
  let x := s.subAt port sub
  if x.state = .training && !x.trained then
    if accepted then .next (s.setSub port sub { x with trained := true, calOk := true })
    else .next ((s.setSub port sub { x with calOk := false }).writeErr
      { mech := Mech.calibration, unitKind := Kind.subPort, unit := port * 4 + sub })
  else .next s

/-- PCS lock and the verify procedure are behind a sub-port: HELLO on DIRECT ports, UP on the others (R294, R296). -/
def linkReady (s : State) (p k : Nat) : State :=
  if portMode s p = 0 then s.modSub p k (fun x => { x with state := .hello, lastProgress := s.time }) else goUp s p k

def execPcsLock (port sub : Nat) (s : State) : Host.Outcome State Fault Refusal :=
  let x := s.subAt port sub
  if x.state = .training && x.trained && !x.lock then
    let t := s.setSub port sub { x with lock := true }
    .next (if (s.portAt port).preemptEn then t else linkReady t port sub)
  else .next s

def execPreemptVerifyDone (port sub : Nat) (verified : Bool) (s : State) : Host.Outcome State Fault Refusal :=
  let x := s.subAt port sub
  if x.state = .training && x.lock && (s.portAt port).preemptEn then
    .next (linkReady (s.setSub port sub { x with preempt := verified }) port sub)
  else .next s

/-! ## HELLO (R294–R296) -/

/-- The fields of a HELLO payload (R294). -/
structure HelloMsg where
  chip : Nat
  pod : Nat
  board : Nat
  slot : Nat
  port : Nat
  sub : Nat
  cls : Nat
  verMin : Nat
  verMax : Nat
  caps : Nat
  credits : List Nat
  serial : Nat
  state : Nat

def helloOf (b : Octets) : HelloMsg :=
  let f (o n : Nat) : Nat := beNat (octs b o n)
  { chip := f 0 2, pod := f 2 2, board := f 4 2, slot := f 6 1, port := bits (f 7 1) 4 0, sub := bits (f 7 1) 6 5, cls := f 8 1,
    verMin := f 9 1, verMax := f 10 1, caps := f 11 1, credits := [f 12 1, f 14 2, f 16 2, f 18 2], serial := f 24 8, state := f 32 1 }

/-- 64 octets with the reserved ones zero. -/
def helloFormatOk (b : Octets) : Bool :=
  b.length = 64 && !(bit (fld b 7 1) 7) && bits (fld b 11 1) 7 3 = 0 && zeroAt b 13 1 && zeroAt b 33 31

/-- The versions of this release (R294, R303). -/
def ownVerMin : Nat := 1
def ownVerMax : Nat := 2

/-- Another UP partner, a different module, has this chip number. -/
def chipTaken (s : State) (p k : Nat) (h : HelloMsg) : Bool :=
  s.fab.ports.any (fun q => q.2.subs.any (fun x =>
    !(q.1 = p && x.1 = k) && x.2.state = .up && x.2.peerChip = h.chip && x.2.peerSerial != h.serial))

/-- Whether the partner is the one R42 wires to this port. -/
def wiredRight (s : State) (p : Nat) (h : HelloMsg) : Bool :=
  match boardClass s.pin.straps with
  | some cls => (h.slot, h.port) = boardMap cls (strappedSlot s) p
  | none => false

/-- The checks of R295 in order: the state the port takes and the status. -/
def helloCheck (s : State) (p k : Nat) (h : HelloMsg) : SubState × Nat :=
  if h.verMax < ownVerMin || ownVerMax < h.verMin then (.quarantined, St.versionMismatch)
  else if portMode s p = 0 && boardPort s p && (h.cls != (boardClass s.pin.straps).getD 0 || h.pod != cfgNat s Key.topoPod ||
      h.board != cfgNat s Key.topoBoard) then (.quarantined, St.miswired)
  else if h.chip = ownChip s || chipTaken s p k h then (.quarantined, St.configConflict)
  else if portMode s p = 0 && boardPort s p && !(wiredRight s p h) then (.miswired, St.miswired)
  else (.up, 0)

/-- A bring-up outcome's record (R295, R362): QUARANTINED is of mechanism PEER, MISWIRED of LINK. -/
def helloErr (p k : Nat) (st : SubState) (status chip : Nat) : ErrRec :=
  { linkErr p k 3 status chip with mech := if st = .quarantined then Mech.peer else Mech.link }

/-- A HELLO of a DIRECT partner. -/
def helloDirect (s : State) (p k : Nat) (h : HelloMsg) : State :=
  let x := s.subAt p k
  let c := helloCheck s p k h
  let adopt : Bool := c.1 = .miswired && cfgNat s Key.xtvMiswirePolicy = 1
  let ok : Bool := c.1 = .up || adopt
  let y := { x with
    peerChip := h.chip, peerPort := h.port, peerSub := h.sub, peerSlot := h.slot, peerSerial := h.serial, peerDoze := bit h.caps 2,
    peerVer := min ownVerMax h.verMax, peerCredits := h.credits, seen := true, passed := ok, peerReady := h.state = 1, lastRx := s.time }
  if ok then
    let s := s.setSub p k { y with state := .hello, lastProgress := if x.state = .hello && x.seen then x.lastProgress else s.time }
    let s := if adopt && !(x.passed && x.state = .hello) then s.writeErr (helloErr p k .miswired c.2 h.chip) else s
    if y.peerReady && x.txReady && x.passed then goUp s p k else s
  else
    let s := s.setSub p k { y with state := c.1, txReady := false }
    if x.state = c.1 && x.peerChip = h.chip then s else s.writeErr (helloErr p k c.1 c.2 h.chip)

/-- An end-to-end HELLO of a chip on SWITCHED paths: the checks of R295 but the slot map (R296). -/
def helloSwitched (s : State) (p k chip : Nat) (h : HelloMsg) : State :=
  let c := helloCheck s p k h
  if c.1 = .up then
    let s := foundAgain { s with fab := { s.fab with
      barred := s.fab.barred.filter (· != chip), peerVer := tput 0 s.fab.peerVer chip (min ownVerMax h.verMax) } } chip
    flushWaiting (if h.state = 0 then sendHelloTo s chip 1 else s)
  else
    let s := { s with fab := { s.fab with
      barred := if s.fab.barred.contains chip then s.fab.barred else s.fab.barred ++ [chip], peerVer := tput 0 s.fab.peerVer chip 0 } }
    s.writeErr (helloErr p k .quarantined c.2 chip)

def execHello (port sub : Nat) (srcChip : Nat) (payload : Octets) (s : State) : Host.Outcome State Fault Refusal :=
  let x := s.subAt port sub
  let h := helloOf payload
  if !(helloFormatOk payload) then
    .next (s.writeErr { mech := Mech.xtvFormat, unitKind := Kind.subPort, unit := port * 4 + sub, operation := 0x701, detailA := srcChip })
  else if portMode s port = 0 then
    if x.state = .hello || x.state = .quarantined || x.state = .miswired then .next (helloDirect s port sub h)
    else .next (if x.state = .up then s.setSub port sub { x with lastRx := s.time } else s)
  else if portMode s port = 1 && x.state = .up then .next (helloSwitched (heardFrom s port sub srcChip) port sub srcChip h)
  else .next s

/-- STATE 1 is sent once the partner's HELLO has been seen and passes. -/
def execHelloSendTimer (port sub : Nat) (s : State) : Host.Outcome State Fault Refusal :=
  let x := s.subAt port sub
  if portMode s port = 0 && (x.state = .hello || x.state = .quarantined || x.state = .miswired) then
    let ready : Bool := x.state = .hello && x.seen && x.passed
    let s := (frameStart s port).until (x.lastTx + (if x.state = .hello then 10000 else 1000000))
    let t := (s.modSub port sub (fun x => { x with txReady := ready, lastTx := s.time })).emit (.hello port sub (b2n ready))
    .next (if ready && x.peerReady then goUp t port sub else t)
  else .next s

/-- The partner does not send STATE 1 although its HELLO passes here. -/
def execHelloTimeout (port sub : Nat) (s : State) : Host.Outcome State Fault Refusal :=
  let x := s.subAt port sub
  if portMode s port = 0 && x.state = .hello && x.passed && !x.peerReady then
    let s := s.until (x.lastProgress + cfgNat s Key.xtvHelloTimeoutMs * 1000000)
    .next ((s.setSub port sub { x with state := .quarantined, txReady := false }).writeErr
      (helloErr port sub .quarantined St.peerQuarantined x.peerChip))
  else .next s

/-! ## DATA frames (R272, R273, R277) -/

/-- A write of stream data to the exported space; firmware streams reach none (R254). -/
def applyData (f : Frame) (part : Nat) (s : State) : Nat × State :=
  if part = 0 then (St.accessUnmapped, s) else expWrite s part f.offset f.payload

def execDataWrite (f : Frame) (s : State) : Host.Outcome State Fault Refusal :=
  let r := frameArrives f 1 s
  .next (if r.2 then streamReceive f (applyData f) r.1 else r.1)

def execDataReadResp (f : Frame) (s : State) : Host.Outcome State Fault Refusal :=
  let r := frameArrives f 1 s
  .next (if r.2 then streamReceive f (applyData f) r.1 else r.1)

/-- The pieces of a read response: 64 octets on an express stream, one frame on the others. -/
def respPieces (cls : Nat) (d : Octets) : List (Nat × Octets) :=
  if cls = 0 then (List.range ((d.length + 63) / 64)).map (fun i => (64 * i, (d.drop (64 * i)).take 64)) else [(0, d)]

def sendPieces (h offset eseq : Nat) : List (Nat × Octets) → State → State
  | [], s => s
  | (o, d) :: t, s => sendPieces h offset eseq t (sendStream s h 1 3 (offset + o) eseq d none none).2

/-- A READ_REQ: the data goes back on the response stream; a stale one discards it. -/
def applyRead (f : Frame) (part : Nat) (s : State) : Nat × State :=
  let n := beNat (octs f.payload 16 4)
  if part = 0 then (St.accessUnmapped, s)
  else if n = 0 || 4096 < n then (St.outOfRange, s)
  else match expRead s part f.offset n with
    | .error e => (e, s)
    | .ok d =>
      match streamToPeer s f.srcChip (beNat (octs f.payload 0 4)) with
      | none => (St.ok, s)
      | some h =>
        match chanOf s h with
        | some (_, .stream x) => (St.ok, sendPieces h (beNat (octs f.payload 8 8) % 2 ^ 48) f.eseq (respPieces x.cls d) s)
        | _ => (St.ok, s)

def execDataReadReq (f : Frame) (s : State) : Host.Outcome State Fault Refusal :=
  let r := frameArrives f 1 s
  let ok : Bool := f.payload.length = 64 && zeroAt f.payload 4 4 && zeroAt f.payload 20 44
  .next (if !r.2 then r.1
    else if ok then streamReceive f (applyRead f) r.1
    else r.1.writeErr (frameErr Mech.xtvFormat 0 f 1))

/-! ## End-to-end acknowledgements (R272, R273, R277) -/

/-- Frames acknowledged: fewer wait, a closing stream may close, and waiting frames may be sent. -/
def released (s : State) (gone : SentFrame → Bool) : State :=
  flushWaiting { s with fab := { s.fab with
    sent := s.fab.sent.filter (fun f => !(gone f)), waitq := s.fab.waitq.filter (fun f => !(gone f)) } }

/-- A closing stream is freed once nothing of it is unacknowledged (R321). -/
def closeIfDone (s : State) (h : Nat) : State :=
  match chanOf s h with
  | some (_, .stream x) => if x.closing then closeStream s (hSlot h) x else s
  | _ => s

/-- An ESEQ that an ACK acknowledges. -/
def ackCovers (f : Frame) (e : Nat) : Bool := e < f.eseq || (f.eseq < e && e ≤ f.eseq + 32 && bit f.aux (e - f.eseq - 1))

def execEackAck (f : Frame) (s : State) : Host.Outcome State Fault Refusal :=
  let r := frameArrives f 5 s
  let s := r.1
  if !r.2 then .next s
  else match chanOf s f.stream with
    | some (_, .stream x) =>
      if x.sender && x.chip = f.srcChip then
        .next (closeIfDone (released s (fun g => g.own = f.stream && ackCovers f g.eseq)) f.stream)
      else .next s
    | _ =>
      if f.stream = 0 then
        .next (released s (fun g => g.own = 0 && g.typ = 2 && g.dst = f.srcChip && (g.eseq + 1) % 2 ^ 32 = f.eseq))
      else .next s

/-- The frame a REFUSE names: the source knows the stream by its own handle or by the handle at the destination. -/
def refusedFrame (s : State) (f : Frame) : Option SentFrame :=
  s.fab.sent.find? (fun g => g.dst = f.srcChip && g.eseq = f.eseq && (g.own = f.stream || g.stream = f.stream) && g.typ != 5)

/-- A refused operation fails with the status; STALE_HANDLE ends its stream or collective (R273). -/
def execEackRefuse (f : Frame) (s : State) : Host.Outcome State Fault Refusal :=
  let r := frameArrives f 5 s
  let s := r.1
  let st := bits f.aux 15 0
  if !r.2 then .next s
  else match refusedFrame s f with
    | none => .next s
    | some g =>
      if st = St.staleHandle && g.own != 0 then .next (endChan s (hSlot g.own) st)
      else
        let t := released s (sameFrame g)
        .next (closeIfDone (match requestOf s g with
          | some q => failRequest t q st
          | none => failFrame t g st) g.own)

/-! ## LINK frames (R274, R275, R297, R300) -/

/-- A LINK frame from the partner of a DIRECT sub-port. -/
def linkFrame (s : State) (p k : Nat) (g : State → State) : State :=
  let x := s.subAt p k
  if subCarries x && portMode s p = 0 then g (heardFrom s p k x.peerChip) else s

/-- Replays the unacknowledged frames in order; after XTV_REPLAY_MAX replays without progress the port retrains (R274). -/
def replayLink (s : State) (p k : Nat) : State :=
  let x := s.subAt p k
  if x.replay.isEmpty then s
  else if cfgNat s Key.xtvReplayMax ≤ x.replayTries then subDown s p k 2
  else
    let s := (frameStart s p).setSub p k { x with replayTries := x.replayTries + 1, lastProgress := s.time, lastTx := s.time, unacked := 0 }
    let s := s.modPort p (fun q => { q with replays := Word.bump q.replays 1 })
    x.replay.foldl (fun s f =>
      s.emit (.frame f.typ f.op f.dst f.stream f.eseq f.offset f.aux (f.retries != 0) f.path f.payload)) s

def execLinkAck (port sub lack : Nat) (s : State) : Host.Outcome State Fault Refusal :=
  .next (linkFrame s port sub (fun s => linkAcked s port sub lack))

def execLinkNak (port sub lack : Nat) (s : State) : Host.Outcome State Fault Refusal :=
  .next (linkFrame s port sub (fun s => replayLink (linkAcked s port sub lack) port sub))

def execLinkCredit (port sub cls units : Nat) (s : State) : Host.Outcome State Fault Refusal :=
  .next (linkFrame s port sub (fun s => creditBack s port sub cls units))

/-- A keepalive of the link partner, or one sent end to end, which is answered with one of this module's own unless it is
itself the answer (R297). -/
def execLinkKeepalive (port sub srcChip : Nat) (s : State) : Host.Outcome State Fault Refusal :=
  let x := s.subAt port sub
  if !(subCarries x) then .next s
  else
    let s := heardFrom s port sub srcChip
    if portMode s port = 0 && srcChip = x.peerChip then .next s
    else if s.fab.kept.contains srcChip then .next { s with fab := { s.fab with kept := s.fab.kept.filter (· != srcChip) } }
    else .next (if reachable s srcChip then s.emit (.frame 6 4 srcChip 0 0 0 0 false 0 []) else s)

/-- Doze is agreed in S2 between two ends that both advertise it (R300). -/
def mayDoze (s : State) (x : SubSt) : Bool :=
  x.state = .up && x.peerDoze && (s.pwr.state = .s2 || s.pwr.entering = some .s2)

def execDozeReq (port sub : Nat) (s : State) : Host.Outcome State Fault Refusal :=
  .next (linkFrame s port sub (fun s =>
    if mayDoze s (s.subAt port sub) then
      (sendLink s port sub 6 0).modSub port sub (fun x => { x with state := .doze, dozeSent := false })
    else s))

def execDozeAck (port sub : Nat) (s : State) : Host.Outcome State Fault Refusal :=
  .next (linkFrame s port sub (fun s =>
    let x := s.subAt port sub
    if mayDoze s x && x.dozeSent then s.setSub port sub { x with state := .doze, dozeSent := false } else s))

def execLinkWake (port sub : Nat) (s : State) : Host.Outcome State Fault Refusal :=
  .next (linkFrame s port sub (fun s =>
    let x := s.subAt port sub
    if x.state = .doze then flushWaiting (s.setSub port sub { x with state := .up }) else s))

def execLinkAckTimer (port sub : Nat) (s : State) : Host.Outcome State Fault Refusal :=
  let x := s.subAt port sub
  if subCarries x && portMode s port = 0 && x.unacked != 0 then .next (sendLink s port sub 1 (lastAccepted x)) else .next s

def execLinkReplayTimeout (port sub : Nat) (s : State) : Host.Outcome State Fault Refusal :=
  let x := s.subAt port sub
  if subCarries x && portMode s port = 0 && !x.replay.isEmpty then .next (replayLink (s.until (x.lastProgress + 2000)) port sub)
  else .next s

/-! ## Loss of links and modules (R297–R299) -/

def execKeepaliveSendTimer (port sub : Nat) (s : State) : Host.Outcome State Fault Refusal :=
  let x := s.subAt port sub
  if subCarries x && portMode s port = 0 then
    .next (sendLink (s.until (x.lastTx + (if x.state = .doze then 100000 else 2000))) port sub 4 0)
  else .next s

/-- XTV_KEEPALIVE_US, or 300 µs on a dozing port, without a frame. -/
def execPortKeepaliveTimeout (port sub : Nat) (s : State) : Host.Outcome State Fault Refusal :=
  let x := s.subAt port sub
  if subCarries x && portMode s port = 0 then
    .next (subDown (s.until (x.lastRx + (if x.state = .doze then 300000 else cfgNat s Key.xtvKeepaliveUs * 1000))) port sub 1)
  else .next s

def execPcsLockLoss (port sub : Nat) (s : State) : Host.Outcome State Fault Refusal :=
  if (s.subAt port sub).lock then .next (subDown s port sub 1) else .next s

def execE2eAckTimer (stream : Nat) (s : State) : Host.Outcome State Fault Refusal :=
  match chanOf s stream with
  | some (_, .stream x) => if !x.sender && x.unacked != 0 then .next (sendAck s stream x) else .next s
  | _ => .next s

/-- The frame of a stream, a collective or the flow of firings (0) with this ESEQ that was sent longest ago. -/
def oldestSent (s : State) (own eseq : Nat) : Option SentFrame :=
  let fs := s.fab.sent.filter (fun f => f.own = own && f.eseq = eseq && f.port.isSome && !(s.fab.waitq.any (sameFrame f)))
  fs.foldl (fun m f => match m with
    | none => some f
    | some g => if f.sentAt < g.sentAt then some f else some g) none

def execE2eRetransmitTimeout (stream eseq : Nat) (s : State) : Host.Outcome State Fault Refusal :=
  match oldestSent s stream eseq with
  | none => .next s
  | some f =>
    let s := s.until (f.sentAt + cfgNat s Key.xtvE2eTimeoutUs * 1000)
    .next (if cfgNat s Key.xtvE2eRetryMax ≤ f.retries then chipIsLost s f.dst else resend s f)

/-- A chip in use: heard from, or named by a stream, collective or group (R297, R316). -/
def chipInUse (s : State) (chip : Nat) : Bool :=
  (tget none s.fab.heard chip).isSome || (chans s).any (fun q => q.2.chan.any (fun x => chanNames x chip))

/-- A DIRECT port that is UP leads to the chip: its own keepalives watch it. -/
def directUp (s : State) (chip : Nat) : Bool :=
  s.fab.ports.any (fun q => portMode s q.1 = 0 && q.2.subs.any (fun x => subCarries x.2 && x.2.peerChip = chip))

/-- Time of the chip's last frame. -/
def lastHeard (s : State) (chip : Nat) : Nat := (tget none s.fab.heard chip).getD 0

def execE2eKeepaliveTimer (chip : Nat) (s : State) : Host.Outcome State Fault Refusal :=
  if chipInUse s chip && !(chipLost s chip) && !(directUp s chip) && chip != ownChip s && reachable s chip then
    let s := s.until (lastHeard s chip + 20000)
    .next ({ s with fab := { s.fab with kept := if s.fab.kept.contains chip then s.fab.kept else s.fab.kept ++ [chip] } }.emit
      (.frame 6 4 chip 0 0 0 0 false 0 []))
  else .next s

def execPeerTimeout (chip : Nat) (s : State) : Host.Outcome State Fault Refusal :=
  if chipInUse s chip && !(chipLost s chip) && !(directUp s chip) && chip != ownChip s && chip != 0 then
    .next (chipIsLost (s.until (lastHeard s chip + cfgNat s Key.xtvPeerTimeoutUs * 1000)) chip)
  else .next s

/-! ## FRAME_CHECK_DROP (R273) -/

/-- TYPE and OP that R272 defines. -/
def typeOpDefined (t o : Nat) : Bool :=
  1 ≤ o && o ≤ (match t with
    | 1 => 3
    | 2 => 5
    | 3 => 1
    | 4 => 1
    | 5 => 3
    | 6 => 7
    | 7 => 1
    | _ => 0)

/-- Frames of the express class by TYPE; a DATA frame's class is its stream's. -/
def expressType (t : Nat) : Bool := t = 2 || t = 5 || t = 6 || t = 7

/-- VER is 1 in a HELLO, the version in effect in every other frame (R271). -/
def verGood (s : State) (r : RawFrame) : Bool := if r.typ = 7 then r.frame.ver = 1 else verOk s r.frame

/-- Dropped with its record, counted as accepted for link sequencing where the frame is link-reliable (R273 check 3). -/
def formatDrop (s : State) (r : RawFrame) : State :=
  let t := if 1 ≤ r.typ && r.typ ≤ 5 then (linkReceive r.frame s).1 else s
  t.writeErr (frameErr Mech.xtvFormat 0 r.frame r.typ)

/-- One NAK per gap on a DIRECT port (R273 check 1, R274). -/
def fcsDrop (s : State) (p k : Nat) : State :=
  let s := s.modPort p (fun q => { q with fcsErr := Word.bump q.fcsErr 1 })
  let x := s.subAt p k
  if portMode s p = 0 && subCarries x && !x.naked then
    sendLink (s.setSub p k { x with naked := true }) p k 2 (lastAccepted x)
  else s

/-- The checks of R273 that fail before a frame is decoded; one that passes them all is no drop. -/
def execFrameCheckDrop (port sub : Nat) (raw : RawFrame) (s : State) : Host.Outcome State Fault Refusal :=
  let r := { raw with frame := { raw.frame with port := port, sub := sub } }
  let bad (t : State) : State := dropFrame t port
  if !(s.subAt port sub).lock then .next s
  else if !r.fcsOk then .next (fcsDrop s port sub)
  else if r.etherType != 0x88B5 || r.vid != cfgNat s Key.xtvVlan then .next (bad s)
  else if !(verGood s r) || !(typeOpDefined r.typ r.frame.op) || !r.reservedZero then .next (formatDrop s r)
  else if 4096 < r.lengthField || r.frameOctets != frameBytes r.lengthField || (expressType r.typ && 128 < r.frameOctets) then
    .next ((bad s).writeErr { frameErr Mech.report St.lengthExceedsBuffer r.frame r.typ with detailA := 0, detailB := 0 })
  else if r.frame.dstChip != ownChip s && !(inGroup s r.frame.dstChip) then .next s
  else if !r.crcOk then
    let t := if 1 ≤ r.typ && r.typ ≤ 5 then linkReceive r.frame s else (s, true)
    .next (if t.2 then t.1.writeErr (frameErr Mech.xtvE2eCrc 0 r.frame r.typ) else t.1)
  else .next s

end Sys2Proof.Machine
end

