-- ==== Sys2Proof/Machine/Fap.lean ====
section
/-! DEFINITION. The Foerlu Access Protocol: datagrams, requests and their checks (R336, R344–R354). -/

namespace Sys2Proof.Machine

/-! ## Datagrams (R344, R347, R348) -/

/-- The management service answers: the module is in S0–S3 and its management core runs. -/
def fapServed (s : State) : Bool :=
  s.flt.mgmtReset.isNone && !s.flt.mgmtLost && !(s.flt.halted.contains 0) && s.pwr.state != .s4 && lifecycleOf s != Lc.blank

/-- Changes a session that is still open. -/
def sessUpd (s : State) (n : Nat) (f : Session → Session) : State := if sessOpen s n then s.modSess n f else s

/-- A SEQ above the highest accepted, or within the 64 below it and not accepted yet. -/
def seqFresh (x : Session) (q : Nat) : Bool := x.seqNext ≤ q || (x.seqNext ≤ q + 65 && !(x.seqSeen.contains q))

/-- A message of the session is accepted; FAP_IDLE_S restarts. -/
def seqAccept (t q : Nat) (x : Session) : Session :=
  let next := max x.seqNext (q + 1)
  { x with seqNext := next, seqSeen := (q :: x.seqSeen).filter (fun y => next ≤ y + 65), rxCount := x.rxCount + 1
           lastMsg := t, authFails := 0 }

/-- 2³² messages in either direction end a session. -/
def sessLimit (s : State) (n : Nat) : State :=
  let x := s.sessAt n
  if 2 ^ 32 ≤ x.rxCount || 2 ^ 32 ≤ x.txSeq then endSession s n else s

/-- A datagram that fails the tag check or names an unknown session. -/
def authFailed (s : State) (n : Nat) : State :=
  let s := { s with dic := { s.dic with authFail := DWord.bump s.dic.authFail 1 } }
  if !(sessOpen s n) then s
  else
    let f := (s.sessAt n).authFails + 1
    if 16 ≤ f then endSession s n else s.modSess n (fun x => { x with authFails := f })

def replayed (s : State) : State := { s with dic := { s.dic with replayDrop := DWord.bump s.dic.replayDrop 1 } }

def execFapDatagramDrop (d : BadDatagram) (s : State) : Host.Outcome State Fault Refusal :=
  if !(fapServed s) || !d.headerOk then .next s
  else if !(sessReady s d.sess) || !d.tagOk then .next (authFailed s d.sess)
  else if !(seqFresh (s.sessAt d.sess) d.seq) then .next (replayed s)
  else if d.innerOctets < 20 then .next (sessLimit (s.modSess d.sess (seqAccept s.time d.seq)) d.sess)
  else .next s

/-! ## Responses (R350, R354) -/

def respOf (m : FapMsg) (status : Nat) (d : Octets) : FapResp := ⟨m.op, m.tag, status, m.index, m.sub, m.offset, d⟩

/-- A response goes out with the module's own SEQ. -/
def fapSend (s : State) (n : Nat) (r : FapResp) : State :=
  sessUpd (s.emit (.fap n r)) n (fun x => { x with txSeq := x.txSeq + 1 })

/-- The responses to the last 32 TAGs are kept. -/
def fapKeep (s : State) (n : Nat) (r : FapResp) : State :=
  sessUpd s n (fun x => { x with kept := ((r.tag, r) :: x.kept).take 32 })

abbrev Op.read : Nat := 1
abbrev Op.write : Nat := 2
abbrev Op.describe : Nat := 3
abbrev Op.next : Nat := 4
abbrev Op.keepalive : Nat := 5
abbrev Op.close : Nat := 6

/-- Check 1 of R353. -/
def formatOk (m : FapMsg) : Bool :=
  m.status = 0 && m.rsv = 0 && m.count ≤ 1024 && (m.flags = 0 || (m.flags = 2 && m.op = Op.write)) &&
  (if m.op = Op.write then 1 ≤ m.count && m.data.length = m.count
   else if m.op = Op.read then 1 ≤ m.count && m.data.isEmpty
   else if m.op = Op.describe || m.op = Op.next then m.offset = 0 && m.count = 0 && m.data.isEmpty
   else (m.op = Op.keepalive || m.op = Op.close) && m.offset = 0 && m.count = 0 && m.data.isEmpty && m.index = 0 && m.sub = 0)

/-- The object key of a request. -/
def fapKey (m : FapMsg) : Nat := m.index % 65536 * 256 + m.sub % 256

/-- A request of one OP arrives: the session and SEQ checks, the kept TAGs, check 1, and then what the OP does. A row whose
message carries another defined OP describes no event. -/
def fapRun (op : Nat) (perform : Nat → FapMsg → State → FapResp × State) (n q : Nat) (m : FapMsg) (s : State) : State :=
  if !(fapServed s) || (1 ≤ m.op && m.op ≤ 6 && m.op != op) then s
  else if !(sessReady s n) then authFailed s n
  else if !(seqFresh (s.sessAt n) q) then replayed s
  else
    let s := s.modSess n (seqAccept s.time q)
    match (s.sessAt n).kept.find? (fun e => e.1 = m.tag) with
    | some e => sessLimit (fapSend s n e.2) n
    | none =>
      let a := if formatOk m then perform n m s else (respOf m St.messageFormat [], s)
      sessLimit (fapSend (fapKeep a.2 n a.1) n a.1) n

/-! ## READ -/

/-- A value that is read and written whole (R351). -/
def wholeValue (r : ObjRow) : Bool := r.typ != 11 && r.typ != 14 && !(bit r.flags 2)

/-- The size of what a READ addresses: a COMMAND reads as its word. -/
def readSize (r : ObjRow) : Nat := if r.typ = 15 then 8 else r.size

/-- The first register a read of the vendor window reaches. -/
def winReadDenied (s : State) (k off : Nat) : Bool :=
  (k = Key.regWinData && winDenied s s.dic.winAddr false) ||
  (k = Key.regWinBulk && winDenied s (s.dic.winAddr + off / 4 * 4) false)

/-- The octets a READ that passed its checks returns, with the effects of reading. -/
def readOctets (s : State) (n : Nat) (r : ObjRow) (k off count : Nat) : Nat × Octets × State :=
  if k = Key.secDebugChallenge then
    let a := readChallenge s (Config.drbgNonce s.sec.drbg)
    (0, a.1, a.2)
  else if k = Key.regWinData then
    match winLoad s s.dic.winAddr with
    | .error e => (e, [], s)
    | .ok a => (0, natLe 4 a.1.toNat, a.2)
  else if k = Key.regWinBulk then
    let a := winBulk ((off % 4 + count + 3) / 4) (s.dic.winAddr + off / 4 * 4) s
    (a.2.1, (a.1.drop (off % 4)).take count, a.2.2)
  else match objOctets s n r k off count with
    | .error e => (e, [], s)
    | .ok d => (0, d, s)

/-- Checks 2–5 of a READ. -/
def readStatus (s : State) (n k off count : Nat) : Nat :=
  match rowFor s n k with
  | none => St.objectUnknown
  | some r => firstBad [
      (!(admitted r.rights (s.sessAt n).cls) || winReadDenied s k off, St.accessDenied),
      (r.acc = 4, St.writeOnly),
      (readSize r < off + count, St.lengthExceedsBuffer),
      (wholeValue r && count != readSize r, St.lengthMismatch)]

def fapRead (n : Nat) (m : FapMsg) (s : State) : FapResp × State :=
  let k := fapKey m
  let st := readStatus s n k m.offset m.count
  if st != 0 then (respOf m st [], s)
  else match rowFor s n k with
    | none => (respOf m St.objectUnknown [], s)
    | some r =>
      let a := readOctets s n r k m.offset m.count
      (respOf m a.1 a.2.1, a.2.2)

def execFapRead (sess seq : Nat) (m : FapMsg) (s : State) : Host.Outcome State Fault Refusal :=
  .next (fapRun Op.read fapRead sess seq m s)

/-! ## Commands over FAP (R342, R343) -/

/-- MBX_DOORBELL: a length for the mailbox the session has selected (R327, R331). -/
def doorbellWrite (n : Nat) (arg : Octets) (s : State) : Nat × State :=
  if 2 < arg.length then (St.lengthExceedsBuffer, s)
  else if arg.length != 2 then (St.lengthMismatch, s)
  else mbxRing s (selectOf s n Key.mbxSelect) (.session n) (leNat arg)

/-- The command objects and what a write of each does. -/
def fapCommands : List (Nat × (Nat → Octets → State → Nat × State)) :=
  [(Key.fwActivate, fwActivateWait), (Key.cfgDefaults, cfgDefaultsWrite), (Key.mbxDoorbell, doorbellWrite),
   (Key.arrCalStart, arrCalWrite), (Key.perTableLoad, tableLoadWrite), (Key.veInbufSet, veInbufWrite),
   (Key.collCreate, collCreateWait), (Key.collDestroy, collDestroyWrite), (Key.syncAlloc, syncAllocWrite),
   (Key.syncFree, syncFreeWrite), (Key.syncConfig, syncConfigWrite), (Key.syncGroupCreate, groupCreateWait),
   (Key.syncGroupDestroy, groupDestroyWrite), (Key.streamOpen, streamOpenWait), (Key.streamClose, streamCloseWrite),
   (Key.qpCreate, qpCreateWrite), (Key.qpDestroy, qpDestroyWrite), (Key.taskChanOpen, taskChanOpenWrite),
   (Key.taskChanClose, taskChanCloseWrite), (Key.memRegionSet, memRegionWrite)] ++
  [(Key.whlStage, whlStageWrite), (Key.whlVerify, whlVerifyWrite), (Key.whlPlace, whlPlaceWrite), (Key.whlArm, whlArmWrite),
   (Key.whlCancel, whlCancelWrite), (Key.openWrite, openWriteWrite), (Key.seqEdit, seqEditWrite),
   (Key.embTableEdit, embTableEditWrite), (Key.embInvalidate, embInvalidateWrite), (Key.embPin, embPinWrite),
   (Key.reqChanOpen, reqOpenWrite), (Key.reqChanClose, reqCloseWrite), (Key.pwrStateReq, pwrStateWrite),
   (Key.monCalStart, monCalWrite), (Key.monClear, monClearWrite), (Key.healthFence, healthFenceWrite),
   (Key.healthReadmit, healthReadmitWrite), (Key.healthClear, healthClearWrite), (Key.recAdopt, recAdoptWait),
   (Key.recReplace, recReplaceWrite), (Key.recRebind, recRebindWrite)] ++
  [(Key.secPartCreate, partCreateWrite), (Key.secPartAssign, partAssignWrite), (Key.secPartRelease, partReleaseWrite),
   (Key.lcTransition, lcWrite), (Key.secDebugUnlock, unlockWait), (Key.secDebugClose, debugCloseWrite),
   (Key.secPkgLoad, pkgLoadWait)]

def fapCommand (k n : Nat) (arg : Octets) (s : State) : Nat × State :=
  match fapCommands.find? (fun c => c.1 = k) with
  | some c => c.2 n arg s
  | none => (St.objectUnknown, s)

/-! ## WRITE (R352, R353) -/

/-- A value that is never written in part: TEXT, OCTETS and COMMAND. -/
def segmented (r : ObjRow) : Bool := r.typ = 11 || r.typ = 12 || r.typ = 15

/-- The octets held for an object, and the offset its next segment must carry. -/
def heldFor (x : Session) (k : Nat) : Option (Nat × Octets) :=
  match x.held with
  | some h => if h.1 = k then some h.2 else none
  | none => none

def holdSet (s : State) (n : Nat) (h : Option (Nat × Nat × Octets)) : State := sessUpd s n (fun x => { x with held := h })

/-- An OWNER session names only partitions of its rows in WHL_PARTITION (R145, R439). -/
def ownerDenied (s : State) (n k : Nat) (d : Octets) : Bool :=
  let x := s.sessAt n
  k = Key.whlPartition && x.cls = 3 &&
    !(s.sec.enroll.any (fun e => e.2.any (fun r => r.1 = 3 && r.2.1 = leNat d && r.2.2 = x.digest)))

/-- Checks 3 and 4 of a WRITE. -/
def writeDenied (s : State) (n : Nat) (r : ObjRow) (k : Nat) (d : Octets) : Nat :=
  firstBad [
    (!(admitted r.rights (s.sessAt n).cls) || (k = Key.regWinData && winDenied s s.dic.winAddr true) || ownerDenied s n k d,
      St.accessDenied),
    (r.acc = 1, St.readOnly)]

/-- A whole value of TEXT, OCTETS or COMMAND. -/
def writeWhole (s : State) (n : Nat) (r : ObjRow) (k : Nat) (v : Octets) : Nat × State :=
  if r.typ = 15 then fapCommand k n v s
  else if !(bit r.flags 2) && v.length != r.size then (St.lengthMismatch, s)
  else writeOctets s n k v

/-- A WRITE that names an object it may write: segments, then the value or the rows. -/
def writeObject (s : State) (n : Nat) (r : ObjRow) (k off : Nat) (d : Octets) (more : Bool) : Nat × State :=
  let held := heldFor (s.sessAt n) k
  let h := held.getD (0, [])
  let clear (t : State) : State := if held.isSome && !more then holdSet t n none else t
  if off != h.1 && (held.isSome || segmented r) then (St.messageFormat, if held.isSome then holdSet s n none else s)
  else if r.size < off + d.length then (St.lengthExceedsBuffer, clear s)
  else if r.typ = 14 then
    let a := writeTable s r k off d
    if a.1 = 0 && more then (0, holdSet a.2 n (some (k, off + d.length, []))) else (a.1, clear a.2)
  else if !(segmented r) && d.length != r.size then (St.lengthMismatch, clear s)
  else if more then (0, holdSet s n (some (k, off + d.length, h.2 ++ d)))
  else if segmented r then writeWhole (clear s) n r k (h.2 ++ d)
  else writeInt (clear s) n r k d

def fapWrite (n : Nat) (m : FapMsg) (s : State) : FapResp × State :=
  let k := fapKey m
  let more := bit m.flags 1
  match rowFor s n k with
  | none => (respOf m St.objectUnknown [], s)
  | some r =>
    let s := if more && (heldFor (s.sessAt n) k).isNone then holdSet s n none else s
    let st := writeDenied s n r k m.data
    let a := if st != 0 then (st, s) else writeObject s n r k m.offset m.data more
    (respOf m a.1 [], a.2)

def execFapWrite (sess seq : Nat) (m : FapMsg) (s : State) : Host.Outcome State Fault Refusal :=
  .next (fapRun Op.write fapWrite sess seq m s)

/-! ## DESCRIBE (R336) -/

/-- MIN and MAX of an encoding: integer types only. -/
def encMin (r : ObjRow) : Nat := if 6 ≤ r.typ && r.typ ≤ 9 then 2 ^ 64 - 2 ^ (8 * r.size - 1) else 0

def encMax (r : ObjRow) : Nat :=
  if r.typ = 1 then 1
  else if 2 ≤ r.typ && r.typ ≤ 5 then 2 ^ (8 * r.size) - 1
  else if 6 ≤ r.typ && r.typ ≤ 9 then 2 ^ (8 * r.size - 1) - 1
  else 0

/-- The 64 octets of an object's description. -/
def describe (r : ObjRow) : Octets :=
  natLe 1 r.typ ++ natLe 1 r.acc ++ natLe 1 r.rights ++ natLe 1 r.applies ++ natLe 1 r.flags ++ List.replicate 3 0 ++
  natLe 4 r.size ++ natLe 4 r.row ++ natLe 8 (encMin r) ++ natLe 8 (encMax r) ++ padTo (ascii r.name) 32

def fapDescribe (n : Nat) (m : FapMsg) (s : State) : FapResp × State :=
  match rowFor s n (fapKey m) with
  | none => (respOf m St.objectUnknown [], s)
  | some r =>
    if admitted r.rights (s.sessAt n).cls then (respOf m 0 (describe r), s) else (respOf m St.accessDenied [], s)

def execFapDescribe (sess seq : Nat) (m : FapMsg) (s : State) : Host.Outcome State Fault Refusal :=
  .next (fapRun Op.describe fapDescribe sess seq m s)

/-! ## NEXT (R351) -/

/-- The first key at or after `k` that a row gives a class: its index's subindex 00, then the row's own objects. -/
def nextInRow (k base cls : Nat) (r : ObjRow) : Option Nat :=
  let first := base + r.index * 256
  let lo := max k (first + r.sub)
  if k ≤ first && r.sub != 0 then some first
  else if admitted r.rights cls && lo < first + r.sub + r.subs then some lo
  else none

def leastOf (l : List Nat) : Option Nat :=
  l.foldl (fun m x => match m with | some y => some (min x y) | none => some x) none

/-- The windows that can hold the next object: for a PARTITION session its own under both its names (R339). -/
def nextWindows (x : Session) (k : Nat) : List Nat :=
  if x.cls = 4 then [0, x.part]
  else
    let p := (k - 0x800000) / 0x4000
    [p, p + 1].filter (fun q => 1 ≤ q && q ≤ 255)

/-- The first object at or after a key that a session may reach. -/
def nextObject (x : Session) (k : Nat) : Option Nat :=
  leastOf (objRows.filterMap (nextInRow k 0 x.cls) ++
    (nextWindows x k).flatMap (fun p => windowRows.filterMap (nextInRow k (0x800000 + p * 0x4000) x.cls)))

def fapNext (n : Nat) (m : FapMsg) (s : State) : FapResp × State :=
  match nextObject (s.sessAt n) (fapKey m) with
  | none => (respOf m St.objectUnknown [], s)
  | some k => ((⟨m.op, m.tag, 0, k / 256, k % 256, m.offset, []⟩ : FapResp), s)

def execFapNext (sess seq : Nat) (m : FapMsg) (s : State) : Host.Outcome State Fault Refusal :=
  .next (fapRun Op.next fapNext sess seq m s)

/-! ## KEEPALIVE, CLOSE and the idle timer (R349, R351) -/

def fapKeepalive (_ : Nat) (m : FapMsg) (s : State) : FapResp × State := (respOf m 0 [], s)

def execFapKeepalive (sess seq : Nat) (m : FapMsg) (s : State) : Host.Outcome State Fault Refusal :=
  .next (fapRun Op.keepalive fapKeepalive sess seq m s)

def fapClose (n : Nat) (m : FapMsg) (s : State) : FapResp × State := (respOf m 0 [], endSession s n)

def execFapClose (sess seq : Nat) (m : FapMsg) (s : State) : Host.Outcome State Fault Refusal :=
  .next (fapRun Op.close fapClose sess seq m s)

def execFapSessionIdleTimeout (sess : Nat) (s : State) : Host.Outcome State Fault Refusal :=
  if !(sessOpen s sess) then .next s
  else .next (endSession (s.until ((s.sessAt sess).lastMsg + cfgNat s Key.fapIdleS * 10 ^ 9)) sess)

/-! ## The management port (R344) -/

/-- ARP, neighbour discovery and echo requests are answered; every other frame is dropped. -/
def execMgmtPortArpNdIcmp (k : MgmtFrame) (s : State) : Host.Outcome State Fault Refusal :=
  if !(fapServed s) || k = .other then .next s else .next (s.emit (.mgmtReply k))

end Sys2Proof.Machine
end

