-- ==== Sys2Proof/Machine/Kernels.lean ====
section
/-! DEFINITION. The kernels GEMM (R172), NORM (R173), OPEN_QUANT (R119) and those of kernel packages (R153). -/

namespace Sys2Proof.Machine

/-! ## GEMM (R172) -/

structure GemmArg where
  a : Nat
  b : Nat
  c : Nat
  m : Nat
  n : Nat
  k : Nat
  inFmt : Nat
  outFmt : Nat
  sa : Word
  sb : Word
  lda : Nat
  ldb : Nat
  ldc : Nat
  rsv : Bool

def gemmArg (b : Octets) : GemmArg :=
  { a := fld b 0 8, b := fld b 8 8, c := fld b 16 8, m := fld b 24 4, n := fld b 28 4, k := fld b 32 4, inFmt := fld b 36 1,
    outFmt := fld b 37 1, sa := BitVec.ofNat 32 (fld b 40 4), sb := BitVec.ofNat 32 (fld b 44 4), lda := fld b 48 4,
    ldb := fld b 52 4, ldc := fld b 56 4, rsv := zeroAt b 38 2 && zeroAt b 60 4 }

/-- Octets of an element by IN_FMT (FP8, BF16, INT8) and by OUT_FMT (FP32, BF16, FP8, INT32). -/
def gemmIn (f : Nat) : Nat := if f = 1 then 2 else 1

def gemmOut (f : Nat) : Nat := if f = 1 then 2 else if f = 2 then 1 else 4

/-- The refusals of GEMM, in the order of its table; ranges first (R172). -/
def gemmStatus (s : State) (p : Nat) (g : GemmArg) : Nat :=
  let fmtOk : Bool := g.inFmt ≤ 2 && g.outFmt ≤ 3
  let past (off rows stride cols e : Nat) : Bool := pastSpace s p off (((rows - 1) * stride + cols) * e)
  firstBad [
    (!g.rsv || g.m = 0 || 65536 < g.m || g.n = 0 || 65536 < g.n || g.k = 0 || 262144 < g.k, St.outOfRange),
    (fmtOk && (past g.a g.m g.lda g.k (gemmIn g.inFmt) || past g.b g.k g.ldb g.n (gemmIn g.inFmt) ||
      past g.c g.m g.ldc g.n (gemmOut g.outFmt)), St.lengthExceedsBuffer),
    (g.lda < g.k || g.ldb < g.n || g.ldc < g.n, St.lengthMismatch),
    (!fmtOk || (g.outFmt = 3 && g.inFmt != 2) || !(f32PosNormal g.sa) || !(f32PosNormal g.sb), St.formatMismatch)]

/-- An element of a floating operand. -/
def gemmElem (fmt : Nat) (b : Octets) (i : Nat) : Word :=
  if fmt = 0 then fp8ToF32 (b.getD i 0) else bf16ToF32 (BitVec.ofNat 16 (fld b (2 * i) 2))

/-- An integer times a scale, rounded once. -/
def scaleInt (v : Int) (w : Word) : Word := fvRound (fvMul (.fin (v < 0) v.natAbs 0) (f32Dec w))

/-- A value in an output format: FP32, BF16 or FP8. -/
def gemmWr (fmt off : Nat) (w : Word) : Wr :=
  if fmt = 0 then ⟨off, 1, natLe 4 w.toNat⟩
  else if fmt = 1 then ⟨off, 2, natLe 2 (f32ToBf16 w).toNat⟩
  else ⟨off, 0, [(f32ToFp8 w).1]⟩

/-- One element of C from a row of A and the rows of B. -/
def gemmCell (g : GemmArg) (arow : Octets) (brows : List Octets) (off j : Nat) : Wr :=
  if g.inFmt = 2 then
    let acc := (dotI8 ((List.range g.k).map (fun x => (arow.getD x 0).toInt)) (brows.map (fun r => (r.getD j 0).toInt))).1
    if g.outFmt = 3 then ⟨off, 0, natLe 4 (toField 32 acc)⟩
    else gemmWr g.outFmt off (f32Mul (scaleInt acc g.sa) g.sb)
  else
    let acc := dotF32 (if g.inFmt = 0 then 32 else 16) ((List.range g.k).map (gemmElem g.inFmt arow))
      (brows.map (fun r => gemmElem g.inFmt r j))
    gemmWr g.outFmt off (f32Mul (f32Mul acc g.sa) g.sb)

def gemm (s : State) (x : Running) : KRes :=
  kres s (do
    let t := x.task
    let b ← argBlock s t 64
    let g := gemmArg b
    let st := gemmStatus s t.part g
    if st != 0 then throw st
    let e := gemmIn g.inFmt
    let arows ← readRows s t.part g.a (g.lda * e) (g.k * e) g.m
    let brows ← readRows s t.part g.b (g.ldb * e) (g.n * e) g.k
    let w := arows.zipIdx.flatMap (fun r => (List.range g.n).map (fun j =>
      gemmCell g r.1 brows (g.c + (r.2 * g.ldc + j) * gemmOut g.outFmt) j))
    pure { writes := w, st := s })

def execGemm (engine busyNs : Nat) (upset : Option EngineUpset) (s : State) : Host.Outcome State Fault Refusal :=
  .next (runKernel (· = 0x0040) gemm engine busyNs upset s)

/-! ## NORM (R173) -/

structure NormArg where
  x : Nat
  y : Nat
  gamma : Nat
  beta : Nat
  rows : Nat
  width : Nat
  mode : Nat
  inFmt : Nat
  outFmt : Nat
  rsv : Bool
  eps : Word

def normArg (b : Octets) : NormArg :=
  { x := fld b 0 8, y := fld b 8 8, gamma := fld b 16 8, beta := fld b 24 8, rows := fld b 32 4, width := fld b 36 4,
    mode := fld b 40 1, inFmt := fld b 41 1, outFmt := fld b 42 1, rsv := zeroAt b 43 1, eps := BitVec.ofNat 32 (fld b 44 4) }

def normStatus (s : State) (p : Nat) (a : NormArg) : Nat :=
  firstBad [
    (!a.rsv || a.rows = 0 || 65536 < a.rows || a.width = 0 || 65536 < a.width || 1 < a.mode, St.outOfRange),
    (1 < a.inFmt || 1 < a.outFmt || !(f32Finite a.eps) || f32Ord a.eps < 0, St.formatMismatch),
    (pastSpace s p a.x (a.rows * a.width * elemBytes a.inFmt) || pastSpace s p a.y (a.rows * a.width * elemBytes a.outFmt) ||
      pastSpace s p a.gamma (2 * a.width) || (a.mode = 1 && pastSpace s p a.beta (2 * a.width)), St.lengthExceedsBuffer)]

/-- One row normalised (R173); every operation rounds. -/
def normRow (mode : Nat) (inv eps : Word) (gs bs xs : List Word) : List Word :=
  let ds := if mode = 1 then (let mu := f32Mul (laneSum xs) inv; xs.map (fun x => f32Sub x mu)) else xs
  let ms := f32Mul (laneSum (ds.map (fun d => f32Mul d d))) inv
  let r := f32Rsqrt (f32Add ms eps)
  let ys := (ds.zip gs).map (fun c => f32Mul (f32Mul c.1 r) c.2)
  if mode = 1 then (ys.zip bs).map (fun c => f32Add c.1 c.2) else ys

def norm (s : State) (x : Running) : KRes :=
  kres s (do
    let t := x.task
    let b ← argBlock s t 48
    let a := normArg b
    let st := normStatus s t.part a
    if st != 0 then throw st
    let e := elemBytes a.inFmt
    let xs ← readRows s t.part a.x (a.width * e) (a.width * e) a.rows
    let gb ← memRead s t.part 0 a.gamma (2 * a.width)
    let bb ← if a.mode = 1 then memRead s t.part 0 a.beta (2 * a.width) else pure []
    let gs := (List.range a.width).map (elemAt 0 gb)
    let bs := (List.range a.width).map (elemAt 0 bb)
    let inv := f32Div 0x3F800000 (f32OfNat a.width)
    let w := xs.zipIdx.flatMap (fun r =>
      (normRow a.mode inv a.eps gs bs ((List.range a.width).map (elemAt a.inFmt r.1))).zipIdx.map (fun y =>
        wrElem a.outFmt (a.y + (r.2 * a.width + y.2) * elemBytes a.outFmt) y.1))
    pure { writes := w, st := s })

def execNorm (engine busyNs : Nat) (upset : Option EngineUpset) (s : State) : Host.Outcome State Fault Refusal :=
  .next (runKernel (· = 0x0041) norm engine busyNs upset s)

/-! ## OPEN_QUANT (R119) -/

/-- The argument block is an open write descriptor (R118); the quantised layer joins the pending wheel. -/
def openQuant (s : State) (r : Running) : KRes :=
  let t := r.task
  let w := s.whlAt t.part
  if t.argLen != 64 then kfail s St.lengthMismatch
  else if w.state != 4 then kfail s St.wrongState
  else match w.pending with
    | none => kfail s St.wrongState
    | some base =>
      match openBuild s t.part base t.argPtr with
      | .error st => kfail s st
      | .ok x => { st := s.setWhl t.part { w with pending := some x } }

def execOpenQuant (engine busyNs : Nat) (upset : Option EngineUpset) (s : State) : Host.Outcome State Fault Refusal :=
  .next (runKernel (· = 0x0030) openQuant engine busyNs upset s)

/-! ## PACKAGE_KERNEL (R153) -/

def packageKernel (s : State) (x : Running) : KRes :=
  kres s (do
    let t := x.task
    let b ← memRead s t.part 0 t.argPtr t.argLen
    let d := ((pkgFor s t.part t.opcode).map (·.digest)).getD []
    let r := Config.packageRun d t.opcode b s.mem.bytes
    pure { status := r.2, writes := r.1.map (fun w => ⟨w.1, 0, w.2⟩), st := s })

/-- Package opcodes, and those that firmware posts for itself: no other command ends their tasks. -/
def execPackageKernel (engine busyNs : Nat) (upset : Option EngineUpset) (s : State) : Host.Outcome State Fault Refusal :=
  .next (runKernel (fun op => 0x4000 ≤ op || firmwareOp op) packageKernel engine busyNs upset s)

end Sys2Proof.Machine
end

