-- ==== Sys2Proof/Machine/Roce.lean ====
section
/-! DEFINITION. RoCEv2 as responder and requester (R291–R293, R307), priority flow control and congestion. -/

namespace Sys2Proof.Machine

/-! ## The responder -/

/-- Codes of a NAK (PRESUMED, the InfiniBand transport's): sequence error, invalid request, remote access error. -/
abbrev Nak.sequence : Nat := 0
abbrev Nak.access : Nat := 2

/-- A queue pair whose port is UP and that is not in error. -/
def qpLive (s : State) (h : Nat) : Option (Nat × QpSt) :=
  (qpAt s h).filter (fun q => !q.2.error && (s.portAt q.2.port).subs.any (fun x => x.2.state = .up))

/-- A congestion notification packet for a CE-marked packet, at most one per 50 µs (R293). -/
def noteCe (s : State) (h : Nat) (q : QpSt) (ce : Bool) : State :=
  if ce && (match q.lastCnp with
    | some t => t + 50000 ≤ s.time
    | none => true) then (setChan s h (.qp { q with lastCnp := some s.time })).emit (.cnp h)
  else s

/-- PMTU in octets (R324). -/
def pmtuOctets (m : Nat) : Nat := 128 * 2 ^ m

/-- Packets of a message or response of n octets. -/
def packets (q : QpSt) (n : Nat) : Nat := max 1 ((n + pmtuOctets q.pmtu - 1) / pmtuOctets q.pmtu)

/-- A request in packet sequence order (R307): `n` packets of sequence numbers; `f` performs it and answers with the data of its
acknowledgement or a NAK code. A repeated request is acknowledged again, one past a gap is refused as out of sequence. -/
def responder (s : State) (h psn n : Nat) (ce : Bool) (f : Nat → QpSt → State → Except Nat Octets × State) : State :=
  match qpLive s h with
  | none => s
  | some (p, q) =>
    let s := noteCe (heardOn s q.port) h q ce
    if psn = q.rqPsn then
      let r := f p q s
      let t := match qpAt r.2 h with
        | some (_, y) => setChan r.2 h (.qp { y with rqPsn := (psn + n) % 2 ^ 24 })
        | none => r.2
      match r.1 with
      | .ok d => t.emit (.roceAck h ((psn + n + 2 ^ 24 - 1) % 2 ^ 24) d)
      | .error c => t.emit (.roceNak h psn c)
    else if (q.rqPsn + 2 ^ 24 - psn) % 2 ^ 24 < 2 ^ 23 then s.emit (.roceAck h psn [])
    else s.emit (.roceNak h q.rqPsn Nak.sequence)
where
  /-- The port has received a frame. -/
  heardOn (s : State) (p : Nat) : State := s.modPort p (fun q => { q with subs := q.subs.map (fun x => (x.1, { x.2 with lastRx := s.time })) })

/-- Packets of a request: those its queue pair's path MTU cuts it into. -/
def packetsOf (s : State) (h n : Nat) : Nat := ((qpAt s h).map (fun q => packets q.2 n)).getD 1

/-- A SEND is received and acknowledged; nothing on the module consumes it (entry 81). -/
def execRoceSend (qp psn : Nat) (data : Octets) (ce : Bool) (s : State) : Host.Outcome State Fault Refusal :=
  .next (responder s qp psn (packetsOf s qp data.length) ce (fun _ _ s => (.ok [], s)))

/-- The partition whose staging channel a remote key names (R137). -/
def stagingOf (s : State) (p rkey : Nat) : Bool :=
  match chanOf s rkey with
  | some (q, .staging _) => q = p
  | _ => false

/-- A write to the staged envelope at an octet offset. -/
def stageWrite (s : State) (p addr : Nat) (d : Octets) : Except Nat Octets × State :=
  match (s.whlAt p).staged with
  | some (n, slot, l) =>
    if n < addr + d.length then (.error Nak.access, s)
    else (.ok [], s.modWhl p (fun w => { w with staged := some (n, slot, putBytes l ((List.range d.length).map (addr + ·)) d) }))
  | none => (.error Nak.access, s)

def rdmaApply (addr rkey : Nat) (d : Octets) (p : Nat) (q : QpSt) (s : State) : Except Nat Octets × State :=
  if stagingOf s p rkey then stageWrite s p addr d
  else if rkey != q.rkey then (.error Nak.access, s)
  else if d.isEmpty then (.ok [], s)
  else
    let r := expWrite s p addr d
    if r.1 = 0 then (.ok [], r.2) else (.error Nak.access, s)

def execRoceWrite (qp psn addr rkey : Nat) (data : Octets) (_imm : Option Nat) (ce : Bool) (s : State) :
    Host.Outcome State Fault Refusal :=
  .next (responder s qp psn (packetsOf s qp data.length) ce (rdmaApply addr rkey data))

/-- A READ: memory of the exported space, or the counter of a sync object at the start of its slot (R254, R309). -/
def rdmaRead (addr rkey len : Nat) (p : Nat) (q : QpSt) (s : State) : Except Nat Octets × State :=
  if rkey != q.rkey then (.error Nak.access, s)
  else match expAt s addr with
    | .sync _ =>
      match objFor s p addr with
      | some n => if len = 8 && !(s.objAt n).broken then (.ok (natLe 8 (s.objAt n).c.toNat), s) else (.error Nak.access, s)
      | none => (.error Nak.access, s)
    | _ =>
      match expRead s p addr len with
      | .ok d => (.ok d, s)
      | .error _ => (.error Nak.access, s)

def execRoceRead (qp psn addr rkey len : Nat) (ce : Bool) (s : State) : Host.Outcome State Fault Refusal :=
  .next (responder s qp psn (packetsOf s qp len) ce (rdmaRead addr rkey len))

/-- An atomic on an aligned counter of the partition's sync objects (R292); the old value is its response. -/
def roceAtomic (addr rkey : Nat) (op : SyncOp) (p : Nat) (q : QpSt) (s : State) : Except Nat Octets × State :=
  if rkey != q.rkey || addr % 8 != 0 then (.error Nak.access, s)
  else match objFor s p addr with
    | none => (.error Nak.access, s)
    | some n =>
      let r := syncDo s n op
      if r.1 = 0 then (.ok (natLe 8 r.2.1), r.2.2) else (.error Nak.access, s)

def execRoceFetchAdd (qp psn addr rkey a : Nat) (ce : Bool) (s : State) : Host.Outcome State Fault Refusal :=
  .next (responder s qp psn 1 ce (roceAtomic addr rkey (.add a)))

def execRoceCmpSwap (qp psn addr rkey c v : Nat) (ce : Bool) (s : State) : Host.Outcome State Fault Refusal :=
  .next (responder s qp psn 1 ce (roceAtomic addr rkey (.cmpSwap c v)))

/-! ## Congestion and flow control (R293) -/

/-- The rate is cut to 7/8, at most once per 50 µs. -/
def execRoceCnp (qp : Nat) (s : State) : Host.Outcome State Fault Refusal :=
  match qpLive s qp with
  | some (_, q) =>
    let due : Bool := match q.lastCut with
      | some t => t + 50000 ≤ s.time
      | none => true
    .next (setChan s qp (.qp { q with
      lastRise := s.time, rate := if due then q.rate * 7 / 8 else q.rate, lastCut := if due then some s.time else q.lastCut }))
  | none => .next s

/-- 55 µs after the last notification or rise, the rate rises by 1 % of the port rate, up to the port rate. -/
def execRoceRateRecovery (qp : Nat) (s : State) : Host.Outcome State Fault Refusal :=
  match qpAt s qp with
  | some (_, q) =>
    if q.rate = 1000000 || q.error then .next s
    else
      let s := s.until (q.lastRise + 55000)
      .next (setChan s qp (.qp { q with rate := min 1000000 (q.rate + 10000), lastRise := s.time }))
  | none => .next s

/-- PFC is obeyed on every priority of SWITCHED and ROCE ports (R276, R293). -/
def execPfcFrame (port sub priority : Nat) (pause : Bool) (s : State) : Host.Outcome State Fault Refusal :=
  let x := s.subAt port sub
  if portMode s port = 0 || x.state != .up || 7 < priority then .next s
  else
    let l := x.paused.filter (· != priority)
    let s := s.setSub port sub { x with lastRx := s.time, paused := if pause then l ++ [priority] else l }
    .next (if pause then s else flushWaiting s)

/-! ## The requester -/

/-- PSNs up to and including one are acknowledged. -/
def psnUpTo (psn x : Nat) : Bool := (psn + 2 ^ 24 - x) % 2 ^ 24 < 2 ^ 23

/-- Answers to this module's own requests: a sequence error has them sent again, any other NAK is a transport error (R222). -/
def execRoceAcknowledge (qp : Nat) (ack : RoceAck) (s : State) : Host.Outcome State Fault Refusal :=
  match qpLive s qp with
  | none => .next s
  | some (_, q) =>
    match ack with
    | .ack psn => .next (setChan s qp (.qp { q with outstanding := q.outstanding.filter (fun x => !(psnUpTo psn x)) }))
    | .response psn _ => .next (setChan s qp (.qp { q with outstanding := q.outstanding.filter (fun x => !(psnUpTo psn x)) }))
    | .nak psn code =>
      if code = Nak.sequence then
        .next (setChan s qp (.qp { q with outstanding := q.outstanding.filter (fun x => !(psnUpTo ((psn + 2 ^ 24 - 1) % 2 ^ 24) x)) }))
      else .next (qpFails s qp)

end Sys2Proof.Machine
end

