-- ==== Sys2Proof/Machine/Sample.lean ====
section
/-! DEFINITION. The sampling kernels SAMPLE and SPEC_VERIFY (R229–R232, R236). -/

namespace Sys2Proof.Machine

/-! ## Random numbers (R231) -/

/-- One round of Philox-4x32. -/
def philoxRound (k0 k1 : Nat) (c : Nat × Nat × Nat × Nat) : Nat × Nat × Nat × Nat :=
  let p0 := 0xD2511F53 * c.1
  let p1 := 0xCD9E8D57 * c.2.2.1
  ((p1 / 2 ^ 32).xor (c.2.1.xor k0), p1 % 2 ^ 32, (p0 / 2 ^ 32).xor (c.2.2.2.xor k1), p0 % 2 ^ 32)

def philoxRounds : Nat → Nat → Nat → Nat × Nat × Nat × Nat → Nat × Nat × Nat × Nat
  | 0, _, _, c => c
  | n + 1, k0, k1, c => philoxRounds n ((k0 + 0x9E3779B9) % 2 ^ 32) ((k1 + 0xBB67AE85) % 2 ^ 32) (philoxRound k0 k1 c)

/-- rand(SEED, i, k): the top 24 bits of the first output word, times 2^-24. -/
def rand (seed i k : Nat) : Word :=
  f32Round false ((philoxRounds 10 (seed % 2 ^ 32) (seed / 2 ^ 32 % 2 ^ 32) (i % 2 ^ 32, k, 0, 0)).1 / 2 ^ 8) (-24)

/-! ## The argument block and row parameters (R229) -/

structure SampleArg where
  phase : Nat
  fmt : Nat
  rows : Nat
  first : Nat
  count : Nat
  parts : Nat
  src : Nat
  params : Nat
  draft : Nat
  out : Nat
  rsv : Bool

def sampleArg (b : Octets) : SampleArg :=
  { phase := fld b 0 1, fmt := fld b 1 1, rows := fld b 2 2, first := fld b 4 4, count := fld b 8 4, parts := fld b 12 4,
    src := fld b 16 8, params := fld b 24 8, draft := fld b 32 8, out := fld b 40 8, rsv := zeroAt b 48 16 }

structure RowParam where
  temp : Word
  topP : Word
  topK : Nat
  drafts : Nat
  index : Nat
  seed : Nat
  mainRow : Nat
  draftRow : Nat
  rsv : Bool

def rowParam (b : Octets) : RowParam :=
  { temp := BitVec.ofNat 32 (fld b 0 4), topP := BitVec.ofNat 32 (fld b 4 4), topK := fld b 8 2, drafts := fld b 10 1,
    index := fld b 12 4, seed := fld b 16 8, mainRow := fld b 24 4, draftRow := fld b 28 4, rsv := zeroAt b 11 1 }

/-- Octets of a partial and of a result record. -/
def recordLen : Nat := 8256

def greedy (r : RowParam) : Bool := f32Ord r.temp = 0

/-- The row parameters, in range. -/
def readParams (s : State) (t : Task) (a : SampleArg) (ok : RowParam → Bool) : Except Nat (List RowParam) := do
  if pastSpace s t.part a.params (32 * a.rows) then throw St.lengthExceedsBuffer
  let bs ← readRows s t.part a.params 32 32 a.rows
  let ps := bs.map rowParam
  if ps.any (fun r => r.topK = 0 || 1024 < r.topK || !r.rsv || !(ok r)) then throw St.outOfRange
  pure ps

/-! ## Order and records (R229, R230) -/

abbrev Cand := Nat × Word

/-- Z′ descending, then token ascending. -/
def candBefore (x y : Cand) : Bool := f32Ord y.2 < f32Ord x.2 || (f32Ord x.2 = f32Ord y.2 && x.1 < y.1)

def insertCand (x : Cand) : List Cand → List Cand
  | [] => [x]
  | y :: t => if candBefore y x then y :: insertCand x t else x :: y :: t

/-- The first k candidates in order. -/
def firstCands (k : Nat) (l : List Cand) : List Cand := l.foldl (fun t x => (insertCand x t).take k) []

/-- Token and value pairs as values written, with their padding. -/
def pairWrs (at_ : Nat) (l : List Cand) : List Wr :=
  l.zipIdx.flatMap (fun x => [⟨at_ + 8 * x.2, 0, natLe 4 x.1.1⟩, ⟨at_ + 8 * x.2 + 4, 1, natLe 4 x.1.2.toNat⟩]) ++
  [⟨at_ + 8 * l.length, 0, List.replicate (recordLen - 16 - 8 * l.length) 0⟩]

/-- Pairs of a record as read. -/
def pairsAt (b : Octets) (at_ n : Nat) : List Cand :=
  (List.range n).map (fun i => (fld b (at_ + 8 * i) 4, BitVec.ofNat 32 (fld b (at_ + 8 * i + 4) 4)))

/-- A partial. -/
def partialWrs (at_ : Nat) (m z : Word) (c : List Cand) : List Wr :=
  [⟨at_, 1, natLe 4 m.toNat⟩, ⟨at_ + 4, 1, natLe 4 z.toNat⟩, ⟨at_ + 8, 0, natLe 4 c.length ++ natLe 4 0⟩] ++ pairWrs (at_ + 16) c

/-- A result record. -/
def resultWrs (at_ token : Nat) (kept : List Cand) : List Wr :=
  [⟨at_, 0, natLe 4 token ++ natLe 2 kept.length ++ natLe 2 0⟩] ++ pairWrs (at_ + 8) kept ++ [⟨at_ + recordLen - 8, 0, natLe 8 0⟩]

/-! ## SAMPLE PHASE 1: the shard of one module -/

/-- One row of a shard. A row with a NaN or infinite logit gives a partial whose M and Z are NaN and which has no
candidates (DESIGN CHOICE: R232 gives the effect, not the encoding). -/
def shardRow (a : SampleArg) (r : RowParam) (at_ : Nat) (zs : List Word) : List Wr :=
  if zs.any (fun z => !(f32Finite z)) then partialWrs at_ f32Nan f32Nan []
  else
    let inv := if greedy r then 0x3F800000 else f32Div 0x3F800000 r.temp
    let ys := zs.map (fun z => f32Mul z inv)
    let m := (ys.drop 1).foldl f32Max (ys.headD 0)
    let z := treeSum (ys.map (fun y => f32ExpFn (f32Sub y m)))
    partialWrs at_ m z (firstCands r.topK (ys.zipIdx.map (fun y => (a.first + y.2, y.1))))

def sampleShard (s : State) (t : Task) (a : SampleArg) (ps : List RowParam) : Except Nat KRes := do
  let w := elemBytes a.fmt
  let bs ← readRows s t.part a.src (a.count * w) (a.count * w) a.rows
  let rows := (ps.zip bs).zipIdx
  pure { st := s, writes := rows.flatMap (fun x =>
    shardRow a x.1.1 (a.out + recordLen * x.2) ((List.range a.count).map (elemAt a.fmt x.1.2))) }

/-! ## SAMPLE PHASE 2: the merge on the lead -/

/-- Partials folded as R196 folds. -/
def mergeMZ (x y : Word × Word) : Word × Word :=
  let top := f32Max x.1 y.1
  let l := if f32Lt x.1 top then f32Mul x.2 (f32ExpFn (f32Sub x.1 top)) else x.2
  let b := if f32Lt y.1 top then f32ExpFn (f32Sub y.1 top) else 0x3F800000
  (top, f32Add l (f32Mul y.2 b))

/-- The shortest prefix whose running sum reaches a bound; all when none does. -/
def prefixTo (bound : Word) : Word → List Cand → List Cand
  | _, [] => []
  | sum, x :: t => let n := f32Add sum x.2; if f32Le bound n then [x] else x :: prefixTo bound n t

def sumOf (l : List Cand) : Word :=
  match l with
  | [] => 0
  | x :: t => t.foldl (fun a y => f32Add a y.2) x.2

/-- The first token whose running sum exceeds u; the last if none does. -/
def drawFrom (u : Word) : Word → List Cand → Nat → Nat
  | _, [], last => last
  | sum, x :: t, _ => let n := f32Add sum x.2; if f32Lt u n then x.1 else drawFrom u n t x.1

/-- Values made to sum to one, and a draw from them (R230). -/
def normalise (l : List Cand) : List Cand :=
  let inv := f32Recip (sumOf l)
  l.map (fun x => (x.1, f32Mul x.2 inv))

/-- The kept candidates and the token of a row (R230); none for a row that produces no token (R232). -/
def sampleRow (r : RowParam) (ps : List (Word × Word × List Cand)) : Option (Nat × List Cand) :=
  match ps with
  | [] => none
  | p :: t =>
    let mz := t.foldl (fun x y => mergeMZ x (y.1, y.2.1)) (p.1, p.2.1)
    if ps.any (fun x => f32IsNan x.1 || f32IsNan x.2.1) then none
    else
      let c := firstCands r.topK (ps.flatMap (·.2.2))
      match c with
      | [] => none
      | x :: _ =>
        if greedy r then some (x.1, [(x.1, 0x3F800000)])
        else
          let rz := f32Recip mz.2
          let probs := c.map (fun y => (y.1, f32Mul (f32ExpFn (f32Sub y.2 mz.1)) rz))
          let kept := normalise (prefixTo r.topP 0 probs)
          some (drawFrom (rand r.seed r.index 0) 0 kept 0, kept)

def readPartial (b : Octets) : Word × Word × List Cand :=
  (BitVec.ofNat 32 (fld b 0 4), BitVec.ofNat 32 (fld b 4 4), pairsAt b 16 (min 1024 (fld b 8 4)))

def sampleMerge (s : State) (t : Task) (a : SampleArg) (ps : List RowParam) : Except Nat KRes := do
  let bs ← readRows s t.part a.src recordLen recordLen (a.rows * a.parts)
  let xs := bs.map readPartial
  pure { st := s, writes := ps.zipIdx.flatMap (fun r =>
    match sampleRow r.1 ((xs.drop (r.2 * a.parts)).take a.parts) with
    | some (tok, kept) => resultWrs (a.out + recordLen * r.2) tok kept
    | none => []) }

/-- Ranges of the block (R229). -/
def sampleRange (a : SampleArg) : Bool :=
  !a.rsv || a.rows = 0 || 16384 < a.rows || a.draft != 0 ||
  (if a.phase = 1 then 1 < a.fmt || a.count = 0 || 4194304 < a.count || a.parts != 0
   else a.phase != 2 || a.fmt != 0 || a.parts = 0 || 1024 < a.parts)

def sample (s : State) (x : Running) : KRes :=
  kres s (do
    let t := x.task
    let b ← argBlock s t 64
    let a := sampleArg b
    if sampleRange a then throw St.outOfRange
    let src := if a.phase = 1 then a.rows * a.count * elemBytes a.fmt else a.rows * a.parts * recordLen
    if pastSpace s t.part a.src src || pastSpace s t.part a.out (a.rows * recordLen) then throw St.lengthExceedsBuffer
    let ps ← readParams s t a (fun r => r.drafts = 0 && r.mainRow = 0 && r.draftRow = 0)
    if a.phase = 1 then sampleShard s t a ps else sampleMerge s t a ps)

def execSample (engine busyNs : Nat) (upset : Option EngineUpset) (s : State) : Host.Outcome State Fault Refusal :=
  .next (runKernel (· = 0x0020) sample engine busyNs upset s)

/-! ## SPEC_VERIFY (R236) -/

/-- A result record as read: the token and the kept probabilities. -/
def readResult (b : Octets) : Nat × List Cand := (fld b 0 4, pairsAt b 8 (min 1024 (fld b 4 2)))

/-- The probability of a token, 0 when it is not kept. -/
def probOf (l : List Cand) (tok : Nat) : Word :=
  match l.find? (fun x => x.1 = tok) with
  | some x => x.2
  | none => 0

/-- The drafted tokens accepted: the first j at which a draft fails. -/
def accepted (r : RowParam) (main draft : List (Nat × List Cand)) : Nat → Nat → Nat
  | 0, j => j
  | n + 1, j =>
    let m := main.getD j (0, [])
    let d := draft.getD j (0, [])
    let ok : Bool := if greedy r then m.1 = d.1
      else f32Lt (f32Mul (rand r.seed (r.index + j) 2) (probOf d.2 d.1)) (probOf m.2 d.1)
    if ok then accepted r main draft n (j + 1) else j

/-- The tokens of a verify entry and how many drafts it accepts. -/
def verifyRow (r : RowParam) (main draft : List (Nat × List Cand)) : Nat × List Nat :=
  let a := accepted r main draft r.drafts 0
  let m := main.getD a (0, [])
  let t := if a = r.drafts || greedy r then m.1
    else
      let q := (draft.getD a (0, [])).2
      let l := m.2.map (fun x => (x.1, f32Max 0 (f32Sub x.2 (probOf q x.1))))
      if f32Ord (sumOf l) = 0 then m.1 else drawFrom (rand r.seed (r.index + a) 3) 0 (normalise l) 0
  (a, ((draft.take a).map (·.1)) ++ [t])

def outcomeOctets (o : Nat × List Nat) : Octets :=
  padTo (natLe 1 o.1 ++ natLe 1 o.2.length ++ natLe 2 0 ++ o.2.flatMap (natLe 4)) 128

def specVerify (s : State) (x : Running) : KRes :=
  kres s (do
    let t := x.task
    let b ← argBlock s t 64
    let a := sampleArg b
    if !a.rsv || a.phase != 0 || a.fmt != 0 || a.parts != 0 || a.rows = 0 || 16384 < a.rows then throw St.outOfRange
    if pastSpace s t.part a.out (128 * a.rows) then throw St.lengthExceedsBuffer
    let ps ← readParams s t a (fun r => r.drafts ≤ 15)
    let os ← ps.mapM (fun r => do
      let m := a.src + recordLen * r.mainRow
      let d := a.draft + recordLen * r.draftRow
      if pastSpace s t.part m (recordLen * (r.drafts + 1)) || pastSpace s t.part d (recordLen * r.drafts) then
        throw St.lengthExceedsBuffer
      let ms ← readRows s t.part m recordLen recordLen (r.drafts + 1)
      let ds ← readRows s t.part d recordLen recordLen r.drafts
      pure (verifyRow r (ms.map readResult) (ds.map readResult)))
    pure { st := s, writes := os.zipIdx.map (fun o => ⟨a.out + 128 * o.2, 0, outcomeOctets o.1⟩) })

def execSpecVerify (engine busyNs : Nat) (upset : Option EngineUpset) (s : State) : Host.Outcome State Fault Refusal :=
  .next (runKernel (· = 0x0021) specVerify engine busyNs upset s)

end Sys2Proof.Machine
end

