-- ==== Sys2Proof/Machine/Spdm.lean ====
section
/-! DEFINITION. SPDM sessions, certificates and measurements (R346, R348, R349, R437, R438, R444, R445). -/

namespace Sys2Proof.Machine

/-! ## Sessions (R346, R438) -/

/-- SPDM error and response codes, of DSP0274. -/
abbrev Spdm.invalidRequest : Nat := 0x01
abbrev Spdm.sessionLimitExceeded : Nat := 0x0A
abbrev Spdm.certificate : Nat := 0x02
abbrev Spdm.measurements : Nat := 0x60
abbrev Spdm.finishRsp : Nat := 0x65
abbrev Spdm.keyUpdateAck : Nat := 0x69
abbrev Spdm.endSessionAck : Nat := 0x6C

/-- The first SEC_ENROLL row, in row order, with a key digest. -/
def enrolledAs (s : State) (key : Octets) : Option (Nat × Nat × Nat × Octets) :=
  (s.sec.enroll.findSome? (fun e => match e.2 with
    | some r => if r.2.2 = key then some (e.1, r) else none
    | none => none))

/-- The session a requester's chain gives it: VENDOR from Renzel's root, else the row of the first certificate that has one. -/
def sessionFor (s : State) (renzelRoot : Bool) (keys : List Octets) : Option Session :=
  if renzelRoot then some { cls := 1, part := 0, row := none, digest := [], lastMsg := s.time }
  else match keys.findSome? (enrolledAs s) with
    | some (i, c, p, d) => some { cls := c, part := if c = 4 then p else 0, row := some i, digest := d, lastMsg := s.time }
    | none => none

def execSpdmKeyExchange (renzelRoot : Bool) (keyDigests : List Octets) (s : State) : Host.Outcome State Fault Refusal :=
  if !(fapServed s) then .next s
  else if 64 ≤ s.dic.sessions.length then .next (s.emit (.spdmError Spdm.sessionLimitExceeded))
  else match sessionFor s renzelRoot keyDigests with
    | none =>
      .next ((s.writeErr (reportErr St.notEnrolled Kind.module 0 0)).emit (.spdmError Spdm.invalidRequest))
    | some x =>
      let n := s.dic.nextSess
      let s := { s with dic := { s.dic with nextSess := n + 1 } }
      .next ((s.setSess n x).emit (.spdmKeyExchange n))

/-- FINISH completes the set-up of a session. -/
def execSpdmFinish (sess : Nat) (s : State) : Host.Outcome State Fault Refusal :=
  if !(fapServed s) || !(sessOpen s sess) || (s.sessAt sess).ready then .next s
  else .next ((s.modSess sess (fun x => { x with ready := true, lastMsg := s.time })).emit (.spdmAnswer sess Spdm.finishRsp []))

def execSpdmEndSession (sess : Nat) (s : State) : Host.Outcome State Fault Refusal :=
  if !(fapServed s) || !(sessReady s sess) then .next s
  else .next ((endSession s sess).emit (.spdmAnswer sess Spdm.endSessionAck []))

/-- New keys; the message limit of R348 counts on. -/
def execSpdmKeyUpdate (sess : Nat) (s : State) : Host.Outcome State Fault Refusal :=
  if !(fapServed s) || !(sessReady s sess) then .next s
  else .next ((s.modSess sess (fun x => { x with keyGen := x.keyGen + 1, lastMsg := s.time })).emit
    (.spdmAnswer sess Spdm.keyUpdateAck []))

/-! ## Measurements (R444, R445) -/

/-- Rows in index order. -/
def rowInsert (r : ObjRow) : List ObjRow → List ObjRow
  | [] => [r]
  | q :: t => if r.index * 256 + r.sub ≤ q.index * 256 + q.sub then r :: q :: t else q :: rowInsert r t

/-- The persistent OPERATOR values of R335, as rows in index order. -/
def persistentRows : List ObjRow :=
  (objRows.filter (fun r => (r.acc = 2 || r.acc = 3) && r.typ != 14 && bit r.rights 1)).foldr rowInsert []

/-- A persistent object's value in force; a scoped one's for every created partition, ascending. -/
def persistentValue (s : State) (r : ObjRow) (k : Nat) : Octets :=
  if isSelect k then []
  else if isSetting r then
    if bit r.flags 1 then (partsOf s).flatMap (fun p => natLe r.size (cfgP s p k)) else natLe r.size (cfgNat s k)
  else match objValue s 0 r k with
    | .ok v => v
    | .error _ => []

def persistentOctets (s : State) : Octets :=
  persistentRows.flatMap (fun r => (List.range r.subs).flatMap (fun j => persistentValue s r (r.index * 256 + r.sub + j)))

/-- The partitions a session's blocks 6 and 7 list. -/
def measuredParts (s : State) (n : Nat) : List Nat :=
  let x := s.sessAt n
  if x.cls = 4 then (partsOf s).filter (fun p => p = x.part)
  else if x.cls = 3 then
    (partsOf s).filter (fun p => s.sec.enroll.any (fun e => e.2.any (fun r => r.1 = 3 && r.2.1 = p && r.2.2 = x.digest)))
  else partsOf s

/-- A measurement block: index, value type, length and value. -/
def measBlock (index typ : Nat) (v : Octets) : Octets := natLe 1 index ++ natLe 1 typ ++ natLe 2 v.length ++ v

def wheelRow (s : State) (p : Nat) : Octets :=
  let w := s.whlAt p
  natLe 2 p ++ natLe 1 w.state ++ [0] ++ natLe 4 w.epoch ++ padTo ((w.inForce.map (·.wheelId)).getD []) 16 ++
    padTo ((w.inForce.map (·.digest)).getD []) 48

def packageRow (k : Pkg) : Octets := natLe 2 k.part ++ List.replicate 6 0 ++ padTo k.digest 48

/-- The seven blocks, as a session may see them. -/
def measurements (s : State) (n : Nat) : Octets :=
  let img := bankImage s s.sec.bank
  let parts := measuredParts s n
  measBlock 1 0 (padTo (Config.derivedOctets Der.romDigest 0) 48) ++
  measBlock 2 1 (padTo ((img.map (·.digest)).getD []) 48) ++
  measBlock 3 0x81 (natLe 4 ((img.map (·.version)).getD 0) ++ natLe 4 ((img.map (·.svn)).getD 0) ++ natLe 2 s.fuse.rollback) ++
  measBlock 4 0x83 (natLe 1 (lifecycleOf s) ++ natLe 1 s.sec.debug ++ natLe 1 (b2n s.sec.fallback)) ++
  measBlock 5 0x83 (padTo (Config.sha384 ((List.range 64).flatMap (enrollRow s) ++ persistentOctets s)) 48) ++
  measBlock 6 0x83 (parts.flatMap (wheelRow s)) ++
  measBlock 7 0x83 ((s.eng.pkgs.filter (fun k => parts.contains k.part)).flatMap packageRow)

/-- The report and its signature by AK over the requester's nonce. Outside a session nothing answers. -/
def execSpdmGetMeasurements (sess : Nat) (nonce : Octets) (s : State) : Host.Outcome State Fault Refusal :=
  if !(fapServed s) || !(sessReady s sess) then .next s
  else
    let b := measurements s sess
    .next ((s.modSess sess (fun x => { x with lastMsg := s.time })).emit
      (.spdmAnswer sess Spdm.measurements (b ++ padTo (Config.akSign s.sec.akGen (b ++ nonce)) 96)))

/-- ID_CERT_CHAIN and the current AK certificate (R437). -/
def execSpdmGetCertificate (sess : Nat) (s : State) : Host.Outcome State Fault Refusal :=
  if !(fapServed s) then .next s
  else .next (s.emit (.spdmAnswer sess Spdm.certificate (certChain s ++ Config.derivedOctets Der.akCert s.sec.akGen)))

end Sys2Proof.Machine
end

