-- ==== Sys2Proof/Machine/Dispatch.lean ====
section
/-! DEFINITION. The dispatch: one arm per command of the opcode table, each a direct call of its meaning. -/

namespace Sys2Proof.Machine

def exec (i : Instr) (s : State) : Host.Outcome State Fault Refusal :=
  match i with
  | .stepBoundary => Sys2Proof.Machine.execStepBoundary s
  | .idleStepBoundary => Sys2Proof.Machine.execIdleStepBoundary s
  | .registerWrite agent addr width value => Sys2Proof.Machine.execRegisterWrite agent addr width value s
  | .fapRead sess seq m => Sys2Proof.Machine.execFapRead sess seq m s
  | .fapWrite sess seq m => Sys2Proof.Machine.execFapWrite sess seq m s
  | .fapDescribe sess seq m => Sys2Proof.Machine.execFapDescribe sess seq m s
  | .fapNext sess seq m => Sys2Proof.Machine.execFapNext sess seq m s
  | .fapKeepalive sess seq m => Sys2Proof.Machine.execFapKeepalive sess seq m s
  | .fapClose sess seq m => Sys2Proof.Machine.execFapClose sess seq m s
  | .fapSessionIdleTimeout sess => Sys2Proof.Machine.execFapSessionIdleTimeout sess s
  | .spdmKeyExchange renzelRoot keyDigests => Sys2Proof.Machine.execSpdmKeyExchange renzelRoot keyDigests s
  | .spdmFinish sess => Sys2Proof.Machine.execSpdmFinish sess s
  | .spdmEndSession sess => Sys2Proof.Machine.execSpdmEndSession sess s
  | .spdmKeyUpdate sess => Sys2Proof.Machine.execSpdmKeyUpdate sess s
  | .spdmGetMeasurements sess nonce => Sys2Proof.Machine.execSpdmGetMeasurements sess nonce s
  | .arrayInputRecord sender vat slot record poisoned => Sys2Proof.Machine.execArrayInputRecord sender vat slot record poisoned s
  | .arrayWake array => Sys2Proof.Machine.execArrayWake array s
  | .passGrant vat => Sys2Proof.Machine.execPassGrant vat s
  | .arrayPassLaunch array => Sys2Proof.Machine.execArrayPassLaunch array s
  | .split array => Sys2Proof.Machine.execSplit array s
  | .passCountsReady array reports residueFail => Sys2Proof.Machine.execPassCountsReady array reports residueFail s
  | .chainPartialSum array => Sys2Proof.Machine.execChainPartialSum array s
  | .pairJoin array => Sys2Proof.Machine.execPairJoin array s
  | .outputRelease array => Sys2Proof.Machine.execOutputRelease array s
  | .arrayIdleGate array => Sys2Proof.Machine.execArrayIdleGate array s
  | .arrCalStart sess arg => Sys2Proof.Machine.execArrCalStart sess arg s
  | .ccVatStart agent vat value => Sys2Proof.Machine.execCcVatStart agent vat value s
  | .converterCalResult array segment column runs => Sys2Proof.Machine.execConverterCalResult array segment column runs s
  | .refLineCalResult vat line taps => Sys2Proof.Machine.execRefLineCalResult vat line taps s
  | .calRunDone vat stepFs => Sys2Proof.Machine.execCalRunDone vat stepFs s
  | .driftCalibration array => Sys2Proof.Machine.execDriftCalibration array s
  | .perTableLoad sess arg => Sys2Proof.Machine.execPerTableLoad sess arg s
  | .whlStage sess arg => Sys2Proof.Machine.execWhlStage sess arg s
  | .whlVerify sess arg crypto => Sys2Proof.Machine.execWhlVerify sess arg crypto s
  | .whlPlace sess arg => Sys2Proof.Machine.execWhlPlace sess arg s
  | .whlArm sess arg => Sys2Proof.Machine.execWhlArm sess arg s
  | .whlCancel sess arg => Sys2Proof.Machine.execWhlCancel sess arg s
  | .openWrite sess arg => Sys2Proof.Machine.execOpenWrite sess arg s
  | .replicaStore chip part epoch envelope => Sys2Proof.Machine.execReplicaStore chip part epoch envelope s
  | .replicaPushAck part holder status => Sys2Proof.Machine.execReplicaPushAck part holder status s
  | .replicaFetchDone part envelope crypto => Sys2Proof.Machine.execReplicaFetchDone part envelope crypto s
  | .programRow array verified => Sys2Proof.Machine.execProgramRow array verified s
  | .arrayProgramDone array raisedTest => Sys2Proof.Machine.execArrayProgramDone array raisedTest s
  | .swapArrive part => Sys2Proof.Machine.execSwapArrive part s
  | .swapDecision part value => Sys2Proof.Machine.execSwapDecision part value s
  | .swapHoldAlarm part => Sys2Proof.Machine.execSwapHoldAlarm part s
  | .rewriteDone part => Sys2Proof.Machine.execRewriteDone part s
  | .rewriteRollbackDone part => Sys2Proof.Machine.execRewriteRollbackDone part s
  | .overflowLayerLoad part layer => Sys2Proof.Machine.execOverflowLayerLoad part layer s
  | .retentionAgeTick array tempC milliHours => Sys2Proof.Machine.execRetentionAgeTick array tempC milliHours s
  | .taskPost poster desc => Sys2Proof.Machine.execTaskPost poster desc s
  | .taskStart engine dual => Sys2Proof.Machine.execTaskStart engine dual s
  | .engineWake engine => Sys2Proof.Machine.execEngineWake engine s
  | .engineIdleGate engine => Sys2Proof.Machine.execEngineIdleGate engine s
  | .stealSearch engine => Sys2Proof.Machine.execStealSearch engine s
  | .stealClaim victim thieves => Sys2Proof.Machine.execStealClaim victim thieves s
  | .dualCompare taskKey => Sys2Proof.Machine.execDualCompare taskKey s
  | .veInbufSet sess arg => Sys2Proof.Machine.execVeInbufSet sess arg s
  | .inbufRecordArrival sender part buffer record => Sys2Proof.Machine.execInbufRecordArrival sender part buffer record s
  | .inbufRecordWrite buffer => Sys2Proof.Machine.execInbufRecordWrite buffer s
  | .gemm engine busyNs upset => Sys2Proof.Machine.execGemm engine busyNs upset s
  | .norm engine busyNs upset => Sys2Proof.Machine.execNorm engine busyNs upset s
  | .attnDecode engine busyNs upset => Sys2Proof.Machine.execAttnDecode engine busyNs upset s
  | .attnPrefill engine busyNs upset => Sys2Proof.Machine.execAttnPrefill engine busyNs upset s
  | .kvAppend engine busyNs upset => Sys2Proof.Machine.execKvAppend engine busyNs upset s
  | .gatherPool engine busyNs upset => Sys2Proof.Machine.execGatherPool engine busyNs upset s
  | .sample engine busyNs upset => Sys2Proof.Machine.execSample engine busyNs upset s
  | .specVerify engine busyNs upset => Sys2Proof.Machine.execSpecVerify engine busyNs upset s
  | .openQuant engine busyNs upset => Sys2Proof.Machine.execOpenQuant engine busyNs upset s
  | .packageKernel engine busyNs upset => Sys2Proof.Machine.execPackageKernel engine busyNs upset s
  | .seqEdit sess arg => Sys2Proof.Machine.execSeqEdit sess arg s
  | .embTableEdit sess arg => Sys2Proof.Machine.execEmbTableEdit sess arg s
  | .embInvalidate sess arg => Sys2Proof.Machine.execEmbInvalidate sess arg s
  | .embPin sess arg => Sys2Proof.Machine.execEmbPin sess arg s
  | .hotRowCopy dirSet way => Sys2Proof.Machine.execHotRowCopy dirSet way s
  | .hotRowCopyDone dirSet way => Sys2Proof.Machine.execHotRowCopyDone dirSet way s
  | .directoryDecay part => Sys2Proof.Machine.execDirectoryDecay part s
  | .planReceive part plan => Sys2Proof.Machine.execPlanReceive part plan s
  | .memberStepStart part => Sys2Proof.Machine.execMemberStepStart part s
  | .seqInvalidReport part seq chip => Sys2Proof.Machine.execSeqInvalidReport part seq chip s
  | .reqChanOpen sess arg => Sys2Proof.Machine.execReqChanOpen sess arg s
  | .reqChanClose sess arg => Sys2Proof.Machine.execReqChanClose sess arg s
  | .submit chan => Sys2Proof.Machine.execSubmit chan s
  | .cancel chan => Sys2Proof.Machine.execCancel chan s
  | .qpTransportError qp => Sys2Proof.Machine.execQpTransportError qp s
  | .draftMessage part seq drafts => Sys2Proof.Machine.execDraftMessage part seq drafts s
  | .commitFence vat outcomes => Sys2Proof.Machine.execCommitFence vat outcomes s
  | .journalRecord lead record => Sys2Proof.Machine.execJournalRecord lead record s
  | .journalAck holder seqno status => Sys2Proof.Machine.execJournalAck holder seqno status s
  | .completionRecordWrite chan => Sys2Proof.Machine.execCompletionRecordWrite chan s
  | .memRegionSet sess arg => Sys2Proof.Machine.execMemRegionSet sess arg s
  | .patrolScrub slice line err => Sys2Proof.Machine.execPatrolScrub slice line err s
  | .memoryZeroDone job => Sys2Proof.Machine.execMemoryZeroDone job s
  | .replicaLostNotice chip => Sys2Proof.Machine.execReplicaLostNotice chip s
  | .portEnableWrite agent port value => Sys2Proof.Machine.execPortEnableWrite agent port value s
  | .linkTrainingDone port sub accepted => Sys2Proof.Machine.execLinkTrainingDone port sub accepted s
  | .pcsLock port sub => Sys2Proof.Machine.execPcsLock port sub s
  | .preemptVerifyDone port sub verified => Sys2Proof.Machine.execPreemptVerifyDone port sub verified s
  | .hello port sub srcChip payload => Sys2Proof.Machine.execHello port sub srcChip payload s
  | .helloSendTimer port sub => Sys2Proof.Machine.execHelloSendTimer port sub s
  | .helloTimeout port sub => Sys2Proof.Machine.execHelloTimeout port sub s
  | .dataWrite f => Sys2Proof.Machine.execDataWrite f s
  | .dataReadReq f => Sys2Proof.Machine.execDataReadReq f s
  | .dataReadResp f => Sys2Proof.Machine.execDataReadResp f s
  | .syncAdd by_ addr a => Sys2Proof.Machine.execSyncAdd by_ addr a s
  | .syncCmpSwap by_ addr c v => Sys2Proof.Machine.execSyncCmpSwap by_ addr c v s
  | .syncRelease by_ addr v => Sys2Proof.Machine.execSyncRelease by_ addr v s
  | .syncRead by_ addr => Sys2Proof.Machine.execSyncRead by_ addr s
  | .syncWait by_ addr v timeoutUs => Sys2Proof.Machine.execSyncWait by_ addr v timeoutUs s
  | .syncWaitTimeout waiter => Sys2Proof.Machine.execSyncWaitTimeout waiter s
  | .syncResponse f => Sys2Proof.Machine.execSyncResponse f s
  | .press f => Sys2Proof.Machine.execPress f s
  | .pressResult f => Sys2Proof.Machine.execPressResult f s
  | .pressAck f => Sys2Proof.Machine.execPressAck f s
  | .eackAck f => Sys2Proof.Machine.execEackAck f s
  | .eackRefuse f => Sys2Proof.Machine.execEackRefuse f s
  | .linkAck port sub lack => Sys2Proof.Machine.execLinkAck port sub lack s
  | .linkNak port sub lack => Sys2Proof.Machine.execLinkNak port sub lack s
  | .linkCredit port sub cls units => Sys2Proof.Machine.execLinkCredit port sub cls units s
  | .linkKeepalive port sub srcChip => Sys2Proof.Machine.execLinkKeepalive port sub srcChip s
  | .dozeReq port sub => Sys2Proof.Machine.execDozeReq port sub s
  | .dozeAck port sub => Sys2Proof.Machine.execDozeAck port sub s
  | .linkWake port sub => Sys2Proof.Machine.execLinkWake port sub s
  | .linkAckTimer port sub => Sys2Proof.Machine.execLinkAckTimer port sub s
  | .linkReplayTimeout port sub => Sys2Proof.Machine.execLinkReplayTimeout port sub s
  | .keepaliveSendTimer port sub => Sys2Proof.Machine.execKeepaliveSendTimer port sub s
  | .portKeepaliveTimeout port sub => Sys2Proof.Machine.execPortKeepaliveTimeout port sub s
  | .pcsLockLoss port sub => Sys2Proof.Machine.execPcsLockLoss port sub s
  | .e2eAckTimer stream => Sys2Proof.Machine.execE2eAckTimer stream s
  | .e2eRetransmitTimeout stream eseq => Sys2Proof.Machine.execE2eRetransmitTimeout stream eseq s
  | .e2eKeepaliveTimer chip => Sys2Proof.Machine.execE2eKeepaliveTimer chip s
  | .peerTimeout chip => Sys2Proof.Machine.execPeerTimeout chip s
  | .collCreate sess arg peers => Sys2Proof.Machine.execCollCreate sess arg peers s
  | .collDestroy sess arg => Sys2Proof.Machine.execCollDestroy sess arg s
  | .collInvocationStart coll => Sys2Proof.Machine.execCollInvocationStart coll s
  | .roceSend qp psn data ce => Sys2Proof.Machine.execRoceSend qp psn data ce s
  | .roceWrite qp psn addr rkey data imm ce => Sys2Proof.Machine.execRoceWrite qp psn addr rkey data imm ce s
  | .roceRead qp psn addr rkey len ce => Sys2Proof.Machine.execRoceRead qp psn addr rkey len ce s
  | .roceFetchAdd qp psn addr rkey a ce => Sys2Proof.Machine.execRoceFetchAdd qp psn addr rkey a ce s
  | .roceCmpSwap qp psn addr rkey c v ce => Sys2Proof.Machine.execRoceCmpSwap qp psn addr rkey c v ce s
  | .roceCnp qp => Sys2Proof.Machine.execRoceCnp qp s
  | .roceRateRecovery qp => Sys2Proof.Machine.execRoceRateRecovery qp s
  | .pfcFrame port sub priority pause => Sys2Proof.Machine.execPfcFrame port sub priority pause s
  | .fenceLocal agent => Sys2Proof.Machine.execFenceLocal agent s
  | .fenceDie agent => Sys2Proof.Machine.execFenceDie agent s
  | .fenceFabric agent => Sys2Proof.Machine.execFenceFabric agent s
  | .fenceComplete agent => Sys2Proof.Machine.execFenceComplete agent s
  | .syncAlloc sess arg => Sys2Proof.Machine.execSyncAlloc sess arg s
  | .syncFree sess arg => Sys2Proof.Machine.execSyncFree sess arg s
  | .syncConfig sess arg => Sys2Proof.Machine.execSyncConfig sess arg s
  | .syncThreshHiWrite agent obj value => Sys2Proof.Machine.execSyncThreshHiWrite agent obj value s
  | .syncTargetHiWrite agent obj value => Sys2Proof.Machine.execSyncTargetHiWrite agent obj value s
  | .syncGroupCreate sess arg peers => Sys2Proof.Machine.execSyncGroupCreate sess arg peers s
  | .syncGroupDestroy sess arg => Sys2Proof.Machine.execSyncGroupDestroy sess arg s
  | .streamOpen by_ => Sys2Proof.Machine.execStreamOpen by_ s
  | .streamClose sess arg => Sys2Proof.Machine.execStreamClose sess arg s
  | .qpCreate sess arg => Sys2Proof.Machine.execQpCreate sess arg s
  | .qpDestroy sess arg => Sys2Proof.Machine.execQpDestroy sess arg s
  | .taskChanOpen sess arg => Sys2Proof.Machine.execTaskChanOpen sess arg s
  | .taskChanClose sess arg => Sys2Proof.Machine.execTaskChanClose sess arg s
  | .taskChanDescriptorRead chan => Sys2Proof.Machine.execTaskChanDescriptorRead chan s
  | .mbxMsgWrite mbx end_ word value => Sys2Proof.Machine.execMbxMsgWrite mbx end_ word value s
  | .mbxDoorbell mbx end_ len => Sys2Proof.Machine.execMbxDoorbell mbx end_ len s
  | .mbxInterrupt mbx => Sys2Proof.Machine.execMbxInterrupt mbx s
  | .mbxAck mbx end_ rc => Sys2Proof.Machine.execMbxAck mbx end_ rc s
  | .cfgDefaults sess arg => Sys2Proof.Machine.execCfgDefaults sess arg s
  | .fwActivate sess arg crypto => Sys2Proof.Machine.execFwActivate sess arg crypto s
  | .regWinData sess write => Sys2Proof.Machine.execRegWinData sess write s
  | .regWinBulk sess count => Sys2Proof.Machine.execRegWinBulk sess count s
  | .vatHeartbeat vat => Sys2Proof.Machine.execVatHeartbeat vat s
  | .vatWatchdog vat => Sys2Proof.Machine.execVatWatchdog vat s
  | .vatFenceGate vat => Sys2Proof.Machine.execVatFenceGate vat s
  | .mgmtCoreReset => Sys2Proof.Machine.execMgmtCoreReset s
  | .mgmtCoreResetDone => Sys2Proof.Machine.execMgmtCoreResetDone s
  | .mgmtRecoveryTimeout => Sys2Proof.Machine.execMgmtRecoveryTimeout s
  | .errorRecordPersist => Sys2Proof.Machine.execErrorRecordPersist s
  | .brineSliceStart u => Sys2Proof.Machine.execBrineSliceStart u s
  | .brineSliceDone u result => Sys2Proof.Machine.execBrineSliceDone u result s
  | .healthFence sess arg => Sys2Proof.Machine.execHealthFence sess arg s
  | .healthReadmit sess arg => Sys2Proof.Machine.execHealthReadmit sess arg s
  | .healthClear sess arg => Sys2Proof.Machine.execHealthClear sess arg s
  | .recAdopt sess arg fetch => Sys2Proof.Machine.execRecAdopt sess arg fetch s
  | .recReplace sess arg => Sys2Proof.Machine.execRecReplace sess arg s
  | .recRebind sess arg => Sys2Proof.Machine.execRecRebind sess arg s
  | .rebindTimeout oldChip oldHandle => Sys2Proof.Machine.execRebindTimeout oldChip oldHandle s
  | .pwrStateReq sess arg => Sys2Proof.Machine.execPwrStateReq sess arg s
  | .autoS1Entry => Sys2Proof.Machine.execAutoS1Entry s
  | .powerStateEntryDone => Sys2Proof.Machine.execPowerStateEntryDone s
  | .wakeEvent w => Sys2Proof.Machine.execWakeEvent w s
  | .powerStateExitDone => Sys2Proof.Machine.execPowerStateExitDone s
  | .refclkLoss => Sys2Proof.Machine.execRefclkLoss s
  | .refclkRestored => Sys2Proof.Machine.execRefclkRestored s
  | .corePllLockLoss => Sys2Proof.Machine.execCorePllLockLoss s
  | .corePllRelock => Sys2Proof.Machine.execCorePllRelock s
  | .powerCapTick inputWatts => Sys2Proof.Machine.execPowerCapTick inputWatts s
  | .brakeAssert => Sys2Proof.Machine.execBrakeAssert s
  | .brakeRelease => Sys2Proof.Machine.execBrakeRelease s
  | .brakeRampTick => Sys2Proof.Machine.execBrakeRampTick s
  | .thermalSample readings => Sys2Proof.Machine.execThermalSample readings s
  | .orderedStopTimeout => Sys2Proof.Machine.execOrderedStopTimeout s
  | .thermalTrip sensor => Sys2Proof.Machine.execThermalTrip sensor s
  | .railExcursion vat => Sys2Proof.Machine.execRailExcursion vat s
  | .railRecovered vat => Sys2Proof.Machine.execRailRecovered vat s
  | .urgentConversion requester input code => Sys2Proof.Machine.execUrgentConversion requester input code s
  | .monTimerTrigger seq => Sys2Proof.Machine.execMonTimerTrigger seq s
  | .monVrSync controller => Sys2Proof.Machine.execMonVrSync controller s
  | .monConversionDone seq raw => Sys2Proof.Machine.execMonConversionDone seq raw s
  | .monCalStart by_ => Sys2Proof.Machine.execMonCalStart by_ s
  | .monCalDone converter runs => Sys2Proof.Machine.execMonCalDone converter runs s
  | .monClear by_ => Sys2Proof.Machine.execMonClear by_ s
  | .lcTransition sess arg => Sys2Proof.Machine.execLcTransition sess arg s
  | .lcEffectDone => Sys2Proof.Machine.execLcEffectDone s
  | .secPartCreate sess arg => Sys2Proof.Machine.execSecPartCreate sess arg s
  | .secPartAssign sess arg => Sys2Proof.Machine.execSecPartAssign sess arg s
  | .secPartRelease sess arg => Sys2Proof.Machine.execSecPartRelease sess arg s
  | .secDebugChallenge sess nonce => Sys2Proof.Machine.execSecDebugChallenge sess nonce s
  | .secDebugUnlock sess arg signer => Sys2Proof.Machine.execSecDebugUnlock sess arg signer s
  | .secDebugClose sess arg => Sys2Proof.Machine.execSecDebugClose sess arg s
  | .debugExpiry => Sys2Proof.Machine.execDebugExpiry s
  | .coreHalt core => Sys2Proof.Machine.execCoreHalt core s
  | .coreSingleStep core => Sys2Proof.Machine.execCoreSingleStep core s
  | .coreResume core => Sys2Proof.Machine.execCoreResume core s
  | .secPkgLoad sess arg crypto => Sys2Proof.Machine.execSecPkgLoad sess arg crypto s
  | .secEnrollWrite sess row rows => Sys2Proof.Machine.execSecEnrollWrite sess row rows s
  | .secKeyLoad agent slot => Sys2Proof.Machine.execSecKeyLoad agent slot s
  | .secKeyClear agent slot => Sys2Proof.Machine.execSecKeyClear agent slot s
  | .fwSelfTestDone => Sys2Proof.Machine.execFwSelfTestDone s
  | .fwSelfTestTimeout => Sys2Proof.Machine.execFwSelfTestTimeout s
  | .powerUp straps check => Sys2Proof.Machine.execPowerUp straps check s
  | .supplyLoss overvoltage => Sys2Proof.Machine.execSupplyLoss overvoltage s
  | .resetAssert => Sys2Proof.Machine.execResetAssert s
  | .resetRelease straps check => Sys2Proof.Machine.execResetRelease straps check s
  | .jtagIdcode => Sys2Proof.Machine.execJtagIdcode s
  | .jtagBypass => Sys2Proof.Machine.execJtagBypass s
  | .jtagSamplePreload => Sys2Proof.Machine.execJtagSamplePreload s
  | .jtagExtest => Sys2Proof.Machine.execJtagExtest s
  | .jtagFuseProgram f => Sys2Proof.Machine.execJtagFuseProgram f s
  | .jtagTapReset => Sys2Proof.Machine.execJtagTapReset s
  | .frameCheckDrop port sub raw => Sys2Proof.Machine.execFrameCheckDrop port sub raw s
  | .fapDatagramDrop d => Sys2Proof.Machine.execFapDatagramDrop d s
  | .mgmtPortArpNdIcmp k => Sys2Proof.Machine.execMgmtPortArpNdIcmp k s
  | .spdmGetCertificate sess => Sys2Proof.Machine.execSpdmGetCertificate sess s
  | .roceAcknowledge qp ack => Sys2Proof.Machine.execRoceAcknowledge qp ack s
  | .idleCalibrationSlice array cut => Sys2Proof.Machine.execIdleCalibrationSlice array cut s
  | .envelopeVerifyDone part crypto => Sys2Proof.Machine.execEnvelopeVerifyDone part crypto s
  | .slotIdChange straps => Sys2Proof.Machine.execSlotIdChange straps s
  | .thermTripLatchClear => Sys2Proof.Machine.execThermTripLatchClear s
  | .overvoltageLockoutRelease straps check => Sys2Proof.Machine.execOvervoltageLockoutRelease straps check s
  | .telemetryUpdate => Sys2Proof.Machine.execTelemetryUpdate s

end Sys2Proof.Machine
end

