-- ==== Sys2Proof/Machine/Pins.lean ====
section
/-! DEFINITION. The sideband outputs, as levels that follow from the state (R395, R482–R484, R486). -/

namespace Sys2Proof.Machine

/-- The conditions of a running module that assert MOD_FAULT_N: a service unavailable, invalid straps, THERMAL_HOLD. -/
def faultCause (s : State) : Bool :=
  s.pwr.hold || !(computeAvail s) || s.flt.mgmtLost || (boardClass s.pin.straps).isNone

/-- MOD_FAULT_N: low in S4 (unpowered, in reset, after a cut) and while a cause lasts. -/
def modFaultN (s : State) : Bool := !(s.pwr.state = .s4 || faultCause s)

/-- MOD_HEARTBEAT runs. -/
def modHeartbeat (s : State) : Bool := s.pin.heartbeat

/-- THERM_TRIP_N: low while the latch of the hard cut stands. -/
def thermTripN (s : State) : Bool := !s.pin.tripLatch

/-- MOD_PRESENT_N: a module that is there ties it low. -/
def modPresentN (_ : State) : Bool := false

end Sys2Proof.Machine
end

