-- ==== Sys2Proof/Safety.lean ====
section
/-! DEFINITION. What counts as a safe run of the module: the memory's canonical form, the fuses that only ever gain bits
(R432, R446), the messages that are never taken back, and the debug level of a scrapped module (R448). -/

namespace Sys2Proof.Machine

/-- The canonical form of a bank of memory bytes: addresses strictly rising, no byte equal to what an unlisted address
reads as. -/
abbrev Memory.wf (m : List Host.Cell) : Bool := twf (0 : Byte) m

/-- The lifecycle fuse of SCRAPPED is blown (R432). -/
def scrapBlown (s : State) : Bool := s.fuse.lifecycleBits.getLsbD 4

/-- No debug level above NONE in SCRAPPED (R448). -/
def scrappedClosed (s : State) : Prop := scrapBlown s = true → s.sec.debug = 0

/-- Lifecycle and rollback fuses are one-way: each fuse that is blown in `s` is blown in `t` (R432). -/
def fusesOneWay (s t : State) : Prop :=
  s.fuse.lifecycleBits &&& t.fuse.lifecycleBits = s.fuse.lifecycleBits ∧ s.fuse.rollback ≤ t.fuse.rollback

/-- The identity fuses and the provisioning secret are the same in both (R432). -/
def sameIdentity (s t : State) : Prop :=
  t.fuse.variant = s.fuse.variant ∧ t.fuse.stepping = s.fuse.stepping ∧ t.fuse.lot = s.fuse.lot ∧
  t.fuse.wafer = s.fuse.wafer ∧ t.fuse.dieX = s.fuse.dieX ∧ t.fuse.dieY = s.fuse.dieY ∧ t.fuse.serial = s.fuse.serial ∧
  t.fuse.mac = s.fuse.mac ∧ t.fuse.product = s.fuse.product ∧ t.fuse.uds = s.fuse.uds

/-- What the module has sent stays sent: the list of messages only grows. -/
def sentKept (s t : State) : Prop := ∃ l, t.out = l ++ s.out

/-! ## Commands that store nothing -/

/-- Commands whose effect stays in one unit: schedulers and clocks of engines and arrays, heartbeats, the management core's reset,
debug of the cores, measurement rails, fences, mailboxes and the test access port. -/
def staysLocal : Instr → Bool
  | .engineWake _ | .engineIdleGate _ | .stealSearch _ | .arrayIdleGate _ => true
  | .vatHeartbeat _ | .mgmtCoreReset | .mgmtCoreResetDone | .errorRecordPersist => true
  | .coreHalt _ | .coreSingleStep _ | .coreResume _ => true
  | .corePllRelock | .brakeRelease | .wakeEvent _ | .railExcursion _ | .railRecovered _ => true
  | .fenceLocal _ | .fenceDie _ | .fenceFabric _ | .fenceComplete _ => true
  | .mbxMsgWrite _ _ _ _ | .mbxDoorbell _ _ _ | .mbxInterrupt _ | .mbxAck _ _ _ => true
  | .planReceive _ _ | .seqInvalidReport _ _ _ | .linkTrainingDone _ _ _ => true
  | .jtagIdcode | .jtagBypass | .jtagSamplePreload | .jtagExtest | .jtagTapReset | .slotIdChange _ => true
  | _ => false

/-! ## The gate of a command object (R335–R338, R347) -/

/-- A session may run a command object now: it is established, the module is in S0, the object's rights admit the session's
class, the argument has the object's size, and no run of the object goes on in its scope. -/
def cmdReady (s : State) (sess k : Nat) (arg : Octets) : Bool :=
  sessReady s sess && s.pwr.state == .s0 && (objRow k).any (fun r =>
    admitted r.rights (s.sessAt sess).cls && arg.length == r.size && !(cmdRunning s k (cmdScope s r sess)))

/-- What an admitted command leaves: the state of its body, the command among those running where it goes on, its status word
in the session, and the answer of the write. -/
def cmdDone (s : State) (sess k : Nat) (a : CmdAns) : State :=
  let scope := (objRow k).elim 0 (fun r => cmdScope s r sess)
  cmdAnswer k sess (a.status, setWord (if a.running then cmdBegin a.st k scope sess else a.st) sess k a.word)

/-- No answer of a peer is awaited for this object and session. -/
def peersQuiet (s : State) (sess k : Nat) : Bool := (s.dic.waitPeers.find? (fun q => q.1 = k && q.2.1 = sess)).isNone

/-! ## The gate of a FAP request (R344–R353) -/

/-- A request is performed: the service answers, the session is established, SEQ is fresh, the message is well formed and no
response to its TAG is kept. -/
def fapOpen (s : State) (n q : Nat) (m : FapMsg) : Bool :=
  fapServed s && sessReady s n && seqFresh (s.sessAt n) q && formatOk m &&
    ((s.sessAt n).kept.find? (fun e => e.1 = m.tag)).isNone

/-- What a performed request leaves: its response kept under its TAG and sent, and the session's message limits (R348). -/
def fapDone (n : Nat) (a : FapResp × State) : State := sessLimit (fapSend (fapKeep a.2 n a.1) n a.1) n

/-! ## A kernel's run (R151–R153) -/

/-- The state on which a kernel's result is computed: the engine's busy time counted and its scratch holding the task. -/
def kernelBase (s : State) (n busyNs : Nat) (x : Running) : State :=
  (addBusy s x.task.part (s.engAt n).pool busyNs).modEng n (fun e => { e with scratch := some x.task.key })

/-- What a run without an upset leaves: the kernel's writes in memory, its records sent, the task complete. -/
def kernelDone (n : Nat) (x : Running) (r : KRes) : State := taskRan (kwrite r.st x.task.part r.writes).2 n x.task r r.writes

/-- A kernel's result stands: it refuses nothing and each of its writes is stored. -/
def kernelStands (x : Running) (r : KRes) : Bool := r.status == 0 && (kwrite r.st x.task.part r.writes).1 == 0

/-! ## A RoCEv2 request (R291, R292) -/

/-- What a performed request of a queue pair leaves: the next PSN expected after its packets, and the acknowledgement or the NAK
of its result. -/
def roceDone (h psn n : Nat) (r : Except Nat Octets × State) : State :=
  let t := match qpAt r.2 h with
    | some (_, y) => setChan r.2 h (.qp { y with rqPsn := (psn + n) % 2 ^ 24 })
    | none => r.2
  match r.1 with
  | .ok d => t.emit (.roceAck h ((psn + n + 2 ^ 24 - 1) % 2 ^ 24) d)
  | .error c => t.emit (.roceNak h psn c)

/-! ## An array's product (R49, R50, R56) -/

/-- The weight of output `o` in row `i`: its slices in two's complement (R49). -/
def storedWeight (a : ArrSt) (i o : Nat) : Int :=
  ((List.range (slicesOf (wFmt a))).map (fun k =>
    if (tget 0 a.rows i).testBit (o * slicesOf (wFmt a) + k) then (if k + 1 = slicesOf (wFmt a) then -(2 ^ k) else 2 ^ k : Int)
    else 0)).sum

/-- The exact sum of x_i × w_io over rows 0 to ROWS_USED − 1 (R56). -/
def productOf (a : ArrSt) (q : List Int) (o : Nat) : Int :=
  ((List.range (rowsUsed a)).map (fun i => q.getD i 0 * storedWeight a i o)).sum

/-- The true counts of every segment for one pass, or one half of it. -/
def truePass (a : ArrSt) (q : List Int) (p half : Nat) : List (List Nat) := (List.range 8).map (trueCounts a q p half)

end Sys2Proof.Machine
end

