-- ==== Sys2Proof/Certificates/Slice0/Obligations.lean ====
section
/-! DEFINITION. The statements for the provers: what each command does, what every step keeps, and the rules of the specification
that they formalise. A completion clause gives the whole next state, so that it is its own frame. -/

section
open Sys2Proof Sys2Proof.Machine

/-! ## The queue and the clock -/

/-- With command `c` at the front of the queue, the step is `exec c` on the state with the queue's rest. -/
def Obligations.StepRunsFrontCommand : Prop :=
  ∀ (c : Instr) (cs : List Instr) (s : State), s.pending = c :: cs → step s = exec c { s with pending := cs }

/-- With no command waiting, the step is one nanosecond of the clock in every powered state and nothing in S4: the model's own
choice of what an empty queue does (entry 10). -/
def Obligations.StepOnEmptyQueueTicks : Prop :=
  ∀ s : State, s.pending = [] →
    (s.pwr.state = .s4 → step s = .next s) ∧
    (s.pwr.state ≠ .s4 → step s = .next { s with time := (s.time + 1) % 2 ^ 64, powered := s.powered + 1 })

/-! ## Reset -/

/-- The shipped condition of R496, as `State.reset` holds it: PROVISIONED with both certificates, DEBUG_LEVEL NONE, no partition
and no enrolment row, every array erased, one release image in both banks, no coordinate written. -/
def Obligations.ResetIsTheShippedCondition : Prop :=
  lifecycleOf State.reset = Lc.provisioned ∧ State.reset.fuse.ikCert = true ∧ State.reset.fuse.pkCert = true ∧
  State.reset.sec.debug = 0 ∧
  (∀ p, partCreated State.reset p = false) ∧ (∀ i, tget none State.reset.sec.enroll i = none) ∧
  (∀ n row, tget 0 (State.reset.arrAt n).rows row = 0) ∧
  State.reset.sec.bank0 = State.reset.sec.bank1 ∧ State.reset.sec.bank0.isSome = true ∧
  (∀ k, k ≠ Key.topoSlot → cfgNat State.reset k = cfgDefault State.reset k)

/-- The invariants that every step keeps hold of the machine at reset. -/
def Obligations.ResetMeetsTheInvariants : Prop :=
  Memory.wf State.reset.mem.bytes = true ∧ scrappedClosed State.reset ∧ State.reset.pending = [] ∧ State.reset.pwr.state = .s4

/-! ## What every step keeps -/

/-- Every command, in every state, answers a next state; it leaves the queue alone, takes back no message that was sent and
never lowers the powered time. -/
def Obligations.EveryCommandAnswersAndTakesNothingBack : Prop :=
  ∀ (c : Instr) (s : State), ∃ t, exec c s = .next t ∧ t.pending = s.pending ∧ sentKept s t ∧ s.powered ≤ t.powered

/-- The memory's bytes keep their canonical form through every step. -/
def Obligations.StepKeepsMemoryCanonical : Prop :=
  ∀ s t : State, Memory.wf s.mem.bytes = true → step s = .next t → Memory.wf t.mem.bytes = true

/-- Once SCRAPPED is blown, no step brings a debug level above NONE. -/
def Obligations.StepKeepsScrappedClosed : Prop :=
  ∀ s t : State, scrappedClosed s → step s = .next t → scrappedClosed t

/-- No step clears a lifecycle or rollback fuse, and none changes the identity fuses and the secret of a module that has left
BLANK. -/
def Obligations.StepKeepsFuses : Prop :=
  ∀ s t : State, step s = .next t →
    fusesOneWay s t ∧ (s.fuse.lifecycleBits ≠ 0 → sameIdentity s t ∧ t.fuse.lifecycleBits ≠ 0)

/-! ## Memory -/

/-- An access at or beyond the end of a space fails with ACCESS_UNMAPPED and touches no memory (R251). -/
def Obligations.AccessPastTheSpaceIsUnmapped : Prop :=
  ∀ (s : State) (part tier off n : Nat) (d : Octets), spaceSize s part tier < off + n → d.length = n →
    memRead s part tier off n = .error St.accessUnmapped ∧ memWrite s part tier off d = (St.accessUnmapped, s)

/-- A write that does not cover the whole of a poisoned line it touches is refused with MEM_POISONED and changes nothing; a read
that touches a poisoned line answers MEM_POISONED. -/
def Obligations.PoisonedLineStopsPartialWritesAndReads : Prop :=
  ∀ (s : State) (part tier off : Nat) (d : Octets) (l line : Nat) (whole : Bool),
    off + d.length ≤ spaceSize s part tier → (l, whole) ∈ linesOf off d.length →
    lineOf s part tier l = some line → linePoisoned s line = true →
    (whole = false → memWrite s part tier off d = (St.memPoisoned, s)) ∧
    memRead s part tier off d.length = .error St.memPoisoned

/-- A write stores to the bytes of its own offsets and to no other byte of any partition; a write of one octet to an unpoisoned
line is what a read of it then gives. -/
def Obligations.WritesStoreTheirOwnBytes : Prop :=
  (∀ (s : State) (part tier off : Nat) (d : Octets) (k : Nat),
    k ∉ spaceKeys s part tier off d.length → memByte (memWrite s part tier off d).2 k = memByte s k) ∧
  (∀ (s : State) (part tier off key : Nat) (b : Byte), Memory.wf s.mem.bytes = true → off + 1 ≤ spaceSize s part tier →
    spaceKey s part tier off = some key → linePoisoned s (lineKey key) = false →
    (∀ l, lineOf s part tier (off / 64 * 64) = some l → linePoisoned s l = false) →
    (memWrite s part tier off [b]).1 = St.ok ∧ memByte (memWrite s part tier off [b]).2 key = b ∧
    memRead (memWrite s part tier off [b]).2 part tier off 1 = .ok [b])

/-- The frame of the commands whose effect stays in one unit: every byte of memory, the poison, the regions and the keys, every
setting, every wheel, sequence and table, the fuses and the security state are as before. -/
def Obligations.LocalCommandsStoreNothing : Prop :=
  ∀ (s t : State) (c : Instr), staysLocal c = true → exec c s = .next t →
    t.mem = s.mem ∧ (∀ k, memByte t k = memByte s k) ∧ t.dic.vals = s.dic.vals ∧ t.whl = s.whl ∧ t.kv = s.kv ∧ t.emb = s.emb ∧
    t.fuse = s.fuse ∧ t.sec = s.sec

/-! ## The Foerlu Access Protocol (chapter 12) -/

/-- An accepted request of each OP is performed on the session that has taken its SEQ, and its response is kept and sent:
READ of a held value, WRITE of a session's _SELECT and of an integer in range, DESCRIBE, NEXT, KEEPALIVE, and CLOSE, which ends
the session. -/
def Obligations.FapRequestsComplete : Prop :=
  ∀ (s : State) (n q : Nat) (m : FapMsg), fapOpen s n q m = true →
    let u := s.modSess n (seqAccept s.time q)
    let k := fapKey m
    (m.op = Op.read → k ≠ Key.secDebugChallenge → k ≠ Key.regWinData → k ≠ Key.regWinBulk →
      ∀ r d, rowFor u n k = some r → readStatus u n k m.offset m.count = 0 → objOctets u n r k m.offset m.count = .ok d →
        exec (.fapRead n q m) s = .next (fapDone n (respOf m 0 d, u))) ∧
    (m.op = Op.write → m.flags = 0 → m.offset = 0 → (u.sessAt n).held = none →
      ∀ r, rowFor u n k = some r → r.typ ≠ 14 → segmented r = false → m.data.length = r.size →
        writeDenied u n r k m.data = 0 → rangeStatus u k (leNat m.data) = 0 →
        (isSelect k = true → bit r.flags 1 = false → exec (.fapWrite n q m) s =
          .next (fapDone n (respOf m 0 [], u.modSess n (fun y => { y with selects := tput [] y.selects k m.data })))) ∧
        ((writeInt u n r k m.data).1 = 0 →
          exec (.fapWrite n q m) s = .next (fapDone n (respOf m 0 [], (writeInt u n r k m.data).2)))) ∧
    (m.op = Op.describe → ∀ r, rowFor u n k = some r → admitted r.rights (u.sessAt n).cls = true →
      exec (.fapDescribe n q m) s = .next (fapDone n (respOf m 0 (describe r), u))) ∧
    (m.op = Op.next → ∀ k', nextObject (u.sessAt n) k = some k' →
      exec (.fapNext n q m) s = .next (fapDone n (⟨m.op, m.tag, 0, k' / 256, k' % 256, m.offset, []⟩, u))) ∧
    (m.op = Op.keepalive → exec (.fapKeepalive n q m) s = .next (fapDone n (respOf m 0 [], u))) ∧
    (m.op = Op.close → exec (.fapClose n q m) s = .next (fapDone n (respOf m 0 [], endSession u n)))

/-- A request that names an unknown session, or whose SEQ was accepted before, is dropped without a response and counted; a
request whose TAG has a kept response gets that response again and changes nothing but the session's own counts. -/
def Obligations.FapDropsAndRepeats : Prop :=
  ∀ (s : State) (n q : Nat) (m : FapMsg), fapServed s = true → m.op = Op.read →
    (sessReady s n = false → exec (.fapRead n q m) s = .next (authFailed s n)) ∧
    (sessReady s n = true → seqFresh (s.sessAt n) q = false → exec (.fapRead n q m) s = .next (replayed s)) ∧
    (sessReady s n = true → seqFresh (s.sessAt n) q = true →
      ∀ r, (s.sessAt n).kept.find? (fun e => e.1 = m.tag) = some (m.tag, r) →
        let u := s.modSess n (seqAccept s.time q)
        exec (.fapRead n q m) s = .next (sessLimit (fapSend u n r) n)) ∧
    (∀ d : BadDatagram, d.headerOk = true → sessReady s d.sess = false ∨ d.tagOk = false →
      exec (.fapDatagramDrop d) s = .next (authFailed s d.sess)) ∧
    (∀ d : BadDatagram, d.headerOk = true → sessReady s d.sess = true → d.tagOk = true → seqFresh (s.sessAt d.sess) d.seq = false →
      exec (.fapDatagramDrop d) s = .next (replayed s))

/-- The sixteenth consecutive authentication failure of a session ends it; each is counted in FAP_AUTH_FAIL, and nothing else of
the module changes. -/
def Obligations.SixteenAuthFailuresEndASession : Prop :=
  ∀ (s : State) (n : Nat), sessOpen s n = true →
    let c := { s with dic := { s.dic with authFail := s.dic.authFail + 1 } }
    (15 ≤ (s.sessAt n).authFails → authFailed s n = endSession c n ∧ sessOpen (authFailed s n) n = false) ∧
    ((s.sessAt n).authFails < 15 →
      authFailed s n = c.modSess n (fun x => { x with authFails := (s.sessAt n).authFails + 1 }))

/-- The session commands complete: key exchange opens the next session, FINISH establishes it, KEY_UPDATE raises its key
generation, END_SESSION and the idle timer end it, and the certificate and measurement requests are answered. -/
def Obligations.SessionCommandsComplete : Prop :=
  ∀ (s : State) (n : Nat),
    (∀ r ks x, fapServed s = true → s.dic.sessions.length < 64 → sessionFor s r ks = some x →
      exec (.spdmKeyExchange r ks) s = .next ((({ s with dic := { s.dic with nextSess := s.dic.nextSess + 1 } } : State).setSess
        s.dic.nextSess x).emit (.spdmKeyExchange s.dic.nextSess))) ∧
    (fapServed s = true → sessOpen s n = true → (s.sessAt n).ready = false →
      exec (.spdmFinish n) s = .next ((s.setSess n { s.sessAt n with ready := true, lastMsg := s.time }).emit
        (.spdmAnswer n Spdm.finishRsp []))) ∧
    (fapServed s = true → sessReady s n = true →
      exec (.spdmKeyUpdate n) s = .next ((s.setSess n { s.sessAt n with
        keyGen := (s.sessAt n).keyGen + 1, lastMsg := s.time }).emit (.spdmAnswer n Spdm.keyUpdateAck [])) ∧
      exec (.spdmEndSession n) s = .next ((endSession s n).emit (.spdmAnswer n Spdm.endSessionAck [])) ∧
      (∀ nonce, exec (.spdmGetMeasurements n nonce) s = .next ((s.setSess n { s.sessAt n with lastMsg := s.time }).emit
        (.spdmAnswer n Spdm.measurements (measurements s n ++
          padTo (Config.akSign s.sec.akGen (measurements s n ++ nonce)) 96))))) ∧
    (fapServed s = true → exec (.spdmGetCertificate n) s =
      .next (s.emit (.spdmAnswer n Spdm.certificate (certChain s ++ Config.derivedOctets Der.akCert s.sec.akGen)))) ∧
    (sessOpen s n = true → (s.sessAt n).lastMsg + cfgNat s Key.fapIdleS * 10 ^ 9 ≤ s.time →
      exec (.fapSessionIdleTimeout n) s = .next (endSession s n)) ∧
    (∀ k, fapServed s = true → k ≠ MgmtFrame.other → exec (.mgmtPortArpNdIcmp k) s = .next (s.emit (.mgmtReply k)))

/-! ## Command objects and registers (chapter 12) -/

/-- The gate of a command object, for every object and body: each failing check answers its own status, and until the body runs
nothing of the module changes but the answer and, where no run of the scope goes on, the session's command word in STATE 3. -/
def Obligations.CommandGateRefuses : Prop :=
  ∀ (k : Nat) (r : ObjRow) (range : State → Octets → Nat) (body : Nat → Nat → Octets → State → CmdAns)
    (sess : Nat) (arg : Octets) (s : State), objRow k = some r → sessReady s sess = true →
    let row := cmdRow k (cmdWrite k range body) sess arg s
    let busy := cmdRunning s k (cmdScope s r sess)
    let refused (st : Nat) : State := cmdAnswer k sess (st, setWord s sess k (cmdWord 3 st 0 0))
    (admitted r.rights (s.sessAt sess).cls = false → row = cmdAnswer k sess (St.accessDenied, s)) ∧
    (admitted r.rights (s.sessAt sess).cls = true →
      (busy = false → r.size < arg.length → row = refused St.lengthExceedsBuffer) ∧
      (busy = false → arg.length < r.size → row = refused St.lengthMismatch) ∧
      (busy = false → arg.length = r.size → range s arg ≠ 0 → row = refused (range s arg)) ∧
      (busy = true → ∃ st, st ≠ 0 ∧ row = cmdAnswer k sess (st, s)) ∧
      (busy = false → arg.length = r.size → range s arg = 0 → bit r.flags 3 = false →
        s.pwr.state = .s2 ∨ s.pwr.state = .s3 → row = refused St.wrongState))

/-- A write while the instance of its scope is running is refused with COMMAND_BUSY and leaves the module, the writer's command
word with it, as it was. -/
def Obligations.RunningCommandIsBusy : Prop :=
  ∀ (k : Nat) (r : ObjRow) (range : State → Octets → Nat) (body : Nat → Nat → Octets → State → CmdAns)
    (sess : Nat) (arg : Octets) (s : State), objRow k = some r → sessReady s sess = true →
    admitted r.rights (s.sessAt sess).cls = true → arg.length = r.size → range s arg = 0 →
    cmdRunning s k (cmdScope s r sess) = true →
    cmdRow k (cmdWrite k range body) sess arg s = cmdAnswer k sess (St.commandBusy, s) ∧
    getWord (cmdRow k (cmdWrite k range body) sess arg s) sess k = getWord s sess k

/-- The blocks of the register space lie at the bases and strides of the table of R357. -/
def Obligations.RegisterBlocksLieAtTheirBases : Prop :=
  ∀ b ∈ ([(.mon, 0x1000, 0x1000, 1), (.thm, 0x2000, 0x1000, 1), (.pwr, 0x3000, 0x1000, 1), (.errlog, 0x4000, 0x4000, 1),
      (.sec, 0x8000, 0x8000, 1), (.ccVat, 0x20000, 0x100, 8), (.veVat, 0x21000, 0x100, 8), (.memA, 0x30000, 0x100, 6),
      (.memB, 0x30800, 0x100, 2), (.port, 0x40000, 0x100, 24), (.press, 0x42000, 0x100, 4), (.mbx, 0x50000, 0x200, 64),
      (.ve, 0x100000, 0x40, 512), (.cc, 0x200000, 0x20, 17408), (.arr, 0x400000, 0x80, 17408), (.sync, 0x800000, 0x40, 65536)]
      : List (Blk × Nat × Nat × Nat)),
    ∀ i off, i < b.2.2.2 → off < b.2.2.1 → locate (b.2.1 + i * b.2.2.1 + off) = some ⟨b.1, i, off⟩

/-- Register writes that the bus lets through: an error-log selector, a scrubber enable, an engine's control, an array's buffered
settings, a sync object's stride, and the blocks whose registers are all read-only, which keep their values. One that the bus
refuses answers the agent with a bus error and touches no register. -/
def Obligations.RegisterWriteCompletes : Prop :=
  (∀ (s : State) (agent : RegAgent) (addr value : Nat), s.pwr.state ≠ .s4 → agent ≠ .window → busStatus s agent addr 32 = 0 →
    (addr = 0x4008 → exec (.registerWrite agent addr 32 value) s =
      .next { s with flt := { s.flt with select := bits value 12 0 } }) ∧
    (∀ k, k < 6 → addr = 0x30000 + 0x100 * k + 0x0C → exec (.registerWrite agent addr 32 value) s =
      .next (s.setSlice k { s.sliceAt k with scrubEn := bit value 0 })) ∧
    (∀ n, n < 512 → addr = 0x100000 + 0x40 * n → bits value 1 0 ≠ 3 → exec (.registerWrite agent addr 32 value) s =
      .next (s.setEng n { s.engAt n with poolPend := some (bits value 1 0), stealEn := bit value 2, gateEn := bit value 3 })) ∧
    (∀ n off, n < 17408 → 0x40 ≤ off → off ≤ 0x50 → addr = 0x400000 + 0x80 * n + off → arrRegStatus s off value = 0 →
      exec (.registerWrite agent addr 32 value) s =
        .next (s.setArr n { s.arrAt n with
          pend := tput none (s.arrAt n).pend off (some (BitVec.ofNat 32 (arrStepMask off value))) })) ∧
    (∀ n, n < 65536 → addr = 0x800000 + 0x40 * n + 0x10 → (s.objAt n).broken = false → value % 2 ^ 32 ≠ 0 →
      exec (.registerWrite agent addr 32 value) s =
        .next (s.setObj n { s.objAt n with stride := BitVec.ofNat 32 value })) ∧
    ((0x2000 ≤ addr ∧ addr < 0x4000) ∨ (0x21000 ≤ addr ∧ addr < 0x21800) ∨ (0x42000 ≤ addr ∧ addr < 0x42400) →
      exec (.registerWrite agent addr 32 value) s = .next s)) ∧
  (∀ (s : State) (agent : RegAgent) (addr width value : Nat), s.pwr.state ≠ .s4 → agent ≠ .window →
    busStatus s agent addr width ≠ 0 →
    exec (.registerWrite agent addr width value) s = .next (s.emit (.busError agent addr (busStatus s agent addr width))))

/-- The vendor's register window: the SEC_ blocks are never reached and every write wants DEBUG_LEVEL SCAN; where the window
admits the access, one word is read or written, and the bulk read returns the words up to its count.
CFG_DEFAULTS discards the pending BOOT values and marks the persistent values for their defaults; the telemetry update moves
on to the next millisecond and samples the module's values, and the partitions' at multiples of 10 ms. -/
def Obligations.WindowDefaultsAndTelemetryComplete : Prop :=
  (∀ (s : State) (sess : Nat), sessReady s sess = true →
    (∀ w r, locate s.dic.winAddr = some r → (r.blk = .sec ∨ s.sec.debug ≠ 3) →
      exec (.regWinData sess (some w)) s = .next (winAnswer s sess 2 Key.regWinData St.accessDenied [])) ∧
    (winAdmits s sess = false → ∀ w count,
      exec (.regWinData sess w) s = .next (winAnswer s sess (if w.isSome then 2 else 1) Key.regWinData St.accessDenied []) ∧
      exec (.regWinBulk sess count) s = .next (winAnswer s sess 1 Key.regWinBulk St.accessDenied [])) ∧
    (winAdmits s sess = true → busStatus s .window s.dic.winAddr 32 = 0 → ∀ r, locate s.dic.winAddr = some r →
      r.blk ≠ .sec → s.sec.debug = 3 →
      (∀ w, exec (.regWinData sess (some w)) s =
        .next (winAnswer (regStore s .window r w) sess 2 Key.regWinData 0 [])) ∧
      exec (.regWinData sess none) s = .next (winAnswer (regLoad s .window s.dic.winAddr r).2 sess 1 Key.regWinData 0
        (natLe 4 (regLoad s .window s.dic.winAddr r).1.toNat)) ∧
      (∀ count, 1 ≤ count → count ≤ 4 → exec (.regWinBulk sess count) s =
        .next (winAnswer (regLoad s .window s.dic.winAddr r).2 sess 1 Key.regWinBulk 0
          ((natLe 4 (regLoad s .window s.dic.winAddr r).1.toNat).take count))))) ∧
  (∀ (s : State) (sess : Nat) (arg : Octets), cmdReady s sess Key.cfgDefaults arg = true → leNat arg = 1 →
    exec (.cfgDefaults sess arg) s =
      .next (cmdDone s sess Key.cfgDefaults (doneAt { s with dic := { s.dic with bootPend := [], cfgDefaults := true } } 0))) ∧
  (∀ (s : State) (t : Nat), s.pwr.state ≠ .s4 → t = (s.time / 1000000 + 1) * 1000000 →
    let m : State := { s.until t with dic := { s.dic with
      telInputW := s.pwr.inputW, telJunction := s.pwr.maxTemp / 16, telGrants := (s.vat.map (fun v => v.2.grants.length)).sum } }
    m.time = t ∧
    (t % 10000000 ≠ 0 → exec .telemetryUpdate s = .next m) ∧
    (t % 10000000 = 0 → exec .telemetryUpdate s = .next (partTelemetry m)))

/-! ## Arrays (chapters 2 and 3) -/

/-- The slots of a vat at first boot: slot l is held by local physical array (l / 16) × 17 + (l mod 16), which holds no other slot,
and local physical array b × 17 + 16 is the spare of bay b. -/
def Obligations.SlotsAndSparesAtFirstBoot : Prop :=
  ∀ v, v < 8 → vatPresent State.reset v = true →
    (∀ l, l < 2048 → physOf State.reset v l = v * 2176 + ((l / 16) * 17 + l % 16) ∧
      slotOf State.reset (v * 2176 + ((l / 16) * 17 + l % 16)) = some l) ∧
    (∀ b, b < 128 → isSpare State.reset (v * 2176 + (b * 17 + 16)) = true)

/-- An array computes its product exactly (R56): if every count equals its true value, then once the planes that are not skipped
are folded, in whatever order their passes came, each accumulator is the sum of x_i × w_io; from any counts reported, it is the
weighted sum of the counts of its columns; and the two half-counts of a split are together the counts of its plane. -/
def Obligations.ArrayComputesItsProduct : Prop :=
  ∀ (a : ArrSt) (q : List Int) (n o : Nat), rowsUsed a ≤ 1024 → o < n → o < outputsOf (wFmt a) →
    (∀ x ∈ q, -(2 ^ (planesOf a - 1)) ≤ x ∧ x < 2 ^ (planesOf a - 1)) →
    (∀ ps : List Nat, ps.Perm (livePlanes a q) →
      (ps.foldl (fun acc p => fold a p (truePass a q p 0) acc) (List.replicate n 0)).getD o 0 = productOf a q o) ∧
    (∀ (ps : List Nat) (c : Nat → List (List Nat)),
      (ps.foldl (fun acc p => fold a p (c p) acc) (List.replicate n 0)).getD o 0 =
        (ps.map (fun p => (if p + 1 = planesOf a then -(2 ^ p) else 2 ^ p : Int) *
          ((List.range (slicesOf (wFmt a))).map (fun k => (if k + 1 = slicesOf (wFmt a) then -(2 ^ k) else 2 ^ k : Int) *
            (((c p).map (fun g => g.getD (o * slicesOf (wFmt a) + k) 0)).sum : Nat))).sum)).sum) ∧
    (∀ p, addCounts (truePass a q p 1) (truePass a q p 2) = truePass a q p 0)

/-- An input record that passes the checks of R83 is taken by the array of its slot; one that fails the first of them is
refused to its sender with that status, and where the slot's array is in a chain its place is kept by a void product. -/
def Obligations.InputRecordCompletes : Prop :=
  ∀ (s : State) (sender : Agent) (vat slot : Nat) (record : Octets), s.pwr.state = .s0 →
    let n := physOf s vat slot
    (vatPresent s vat = true → slot < 2048 → vatFenced s vat = false → (s.vatAt vat).noTarget.contains slot = false →
      (s.vatAt vat).remaps.any (fun r => r.slot = slot) = false →
      (recordCheck (s.arrAt n) (slotNamed s vat slot) record = 0 →
        exec (.arrayInputRecord sender vat slot record false) s =
          .next (enqueueRecord s n ⟨sender, record, s.time, false, false⟩) ∧
        exec (.arrayInputRecord sender vat slot record true) s =
          .next (refuseRecord s n ⟨sender, record, s.time, true, false⟩ St.memPoisoned false)) ∧
      (recordCheck (s.arrAt n) (slotNamed s vat slot) record ≠ 0 →
        exec (.arrayInputRecord sender vat slot record false) s = .next (refuseRecord s n ⟨sender, record, s.time, false, false⟩
          (recordCheck (s.arrAt n) (slotNamed s vat slot) record) false))) ∧
    (vatPresent s vat = false ∨ 2048 ≤ slot →
      exec (.arrayInputRecord sender vat slot record false) s = .next (s.emit (.status sender St.unitAbsent)))

/-- Waking, granting, launching and splitting, each under its own conditions and no earlier than its rule lets it. -/
def Obligations.PassesLaunch : Prop :=
  ∀ (s : State) (n : Nat), running s = true →
    (∀ t, (s.arrAt n).waking = some t → (s.arrAt n).fenced = false → vatFenced s (n / 2176) = false → t + 40 ≤ s.time →
      exec (.arrayWake n) s =
        .next (acceptWaiting (s.setArr n { s.arrAt n with awake := true, waking := none, idleSince := s.time }) n)) ∧
    (∀ v l, (s.vatAt v).asking = n :: l → n / 2176 = v → vatFenced s v = false → (s.vatAt v).grants.length < s.pwr.gV →
      exec (.passGrant v) s = .next (acceptWaiting (giveGrant s n) n) ∧
      (giveGrant s n).vat = tput {} s.vat v { s.vatAt v with grants := n :: (s.vatAt v).grants, asking := l.filter (· != n) }) ∧
    (∀ i b p, planeReady (s.arrAt n) = some (i, b) → canLaunch s n = true → (s.arrAt n).products[i]? = some p →
      p.acceptedAt + 2 ≤ s.time → ((s.arrAt n).lastLaunch.map (· + 1)).getD 0 ≤ s.time →
      exec (.arrayPassLaunch n) s = .next (State.tel (s.setArr n { s.arrAt n with
        taps := (s.arrAt n).tapsPend.foldl (fun m q => tput (32, 8) m q.1 (q.2.getD (32, 8))) (s.arrAt n).taps, tapsPend := []
        products := lset (s.arrAt n).products i { p with
          todo := p.todo.tail, inFlight := p.inFlight ++ [⟨b, false, s.time⟩], lastLaunch := s.time }
        lastLaunch := some s.time, passCnt := (s.arrAt n).passCnt + 1 }) (arrPart s n) 0 1 0 0)) ∧
    (∀ i b t p, splitReady (s.arrAt n) = some (i, b, t) → canLaunch s n = true → (s.arrAt n).products[i]? = some p →
      p.voids.find? (fun v => v.1 = b) = some (b, t) → max (p.acceptedAt + 2) (t + 4) ≤ s.time →
      ((s.arrAt n).lastLaunch.map (· + 1)).getD 0 ≤ s.time →
      exec (.split n) s = .next (State.tel (s.setArr n { s.arrAt n with
        taps := (s.arrAt n).tapsPend.foldl (fun m q => tput (32, 8) m q.1 (q.2.getD (32, 8))) (s.arrAt n).taps, tapsPend := []
        products := lset (s.arrAt n).products i { p with
          voids := p.voids.filter (· != (b, t)), split := true
          inFlight := p.inFlight ++ [⟨b, true, s.time⟩], lastLaunch := s.time }
        lastLaunch := some s.time, passCnt := (s.arrAt n).passCnt + 1, splitCnt := (s.arrAt n).splitCnt + 1 })
        (arrPart s n) 0 1 0 0))

/-- The counts of a pass: a full pass with no overrange and no raised check is folded into its product; an overrange voids it
for its split; a check column beyond tolerance and a residue failure fence the array with the record of their mechanism. -/
def Obligations.PassCountsComplete : Prop :=
  ∀ (s : State) (n i : Nat) (p : Product) (b : Pass) (reports : List ConvReport),
    oldestInFlight (s.arrAt n) = some (i, p, b) → (s.arrAt n).fenced = false → running s = true → b.launch + 4 ≤ s.time →
    let a := s.arrAt n
    (∀ e f, exec (.passCountsReady n reports (some (e, f))) s =
      .next (fenceArray s n { checkErr s n Mech.residue p.tag 0 b.plane 0 0 0 with detailA := e * 256 + f, detailB := 0 })) ∧
    (b.split = false →
      let rs := passReports a p.q b.plane 0 reports
      let c := evaluate (cfgNat s Key.tolRepeatPasses) b.plane 0 a (countsOf rs)
      (∀ x, firstOver rs = some x → exec (.passCountsReady n reports none) s =
        .next (s.setArr n { a with products := lset a.products i { p with
          inFlight := p.inFlight.tail, voids := p.voids ++ [(b.plane, b.launch)] } })) ∧
      (firstOver rs = none → c.raised = none → exec (.passCountsReady n reports none) s =
        .next (folded s n i a p b c (countsOf rs) 0)) ∧
      (firstOver rs = none → ∀ m, c.raised = some m → exec (.passCountsReady n reports none) s =
        .next (fenceArray (s.setArr n c.arr) n (checkErr s n Mech.checkColumn p.tag 0 b.plane m.1 m.2.1 m.2.2))))

/-- A partial sum is added and passed on, two members of a pair are joined, the oldest product is released as its record, and an
idle array's clock is gated. -/
def Obligations.ProductsCompose : Prop :=
  ∀ (s : State) (n : Nat),
    (∀ r rest i p, (s.arrAt n).inbox = r :: rest → firstUnchained (s.arrAt n).products = some (i, p) →
      hasPrev (s.arrAt n) = true → p.final = true → (s.arrAt n).fenced = false →
      let at_ := max (ownReady p) (r.at_ + hopTime (s.arrAt n) (prevMember s n) n)
      let q := addPartial p r at_
      at_ ≤ s.time → exec (.chainPartialSum n) s = .next (forwardTo (s.setArr n { s.arrAt n with
        inbox := rest, products := lset (s.arrAt n).products i { p with chained := some q, forwarded := true } }) n q)) ∧
    (∀ p r d, (s.arrAt n).products.head? = some p → p.chained = some r → hasNext (s.arrAt n) = false →
      pairRole (s.arrAt n) = 0 → (s.arrAt n).stuck = none → (s.arrAt n).fenced = false → running s = true →
      r.at_ + releaseDelay (s.arrAt n) ≤ s.time → recordOf s n p r = some d →
      exec (.outputRelease n) s = .next (afterRelease ((countRecord s n d.2.1 d.2.2.1 d.2.2.2).emit
        (.record (destOf s n).1 (destOf s n).2.1 (destOf s n).2.2 d.1)) n)) ∧
    (∀ i g u cg cu, (s.arrAt n).products.findIdx? (fun p => p.joined.isNone) = some i → (s.arrAt n).products[i]? = some g →
      (s.arrAt (physOf s (vatSlot s n).1 (pairSlot (vatSlot s n).2))).products[i]? = some u →
      g.chained = some cg → u.chained = some cu → pairRole (s.arrAt n) = 1 → hasNext (s.arrAt n) = false →
      pairReason cg cu ≠ 0 →
      exec (.pairJoin n) s = .next (s.setArr n { s.arrAt n with products := lset (s.arrAt n).products i { g with
        joined := some (pairReason cg cu, [],
          cg.nonfinite || cu.nonfinite || (shape (s.arrAt n) (s.vatAt (vatSlot s n).1) g.sx cg.sums).2 ||
            (shape (s.arrAt (physOf s (vatSlot s n).1 (pairSlot (vatSlot s n).2))) (s.vatAt (vatSlot s n).1) u.sx cu.sums).2 ||
            ((((shape (s.arrAt n) (s.vatAt (vatSlot s n).1) g.sx cg.sums).1.zip
              (shape (s.arrAt (physOf s (vatSlot s n).1 (pairSlot (vatSlot s n).2))) (s.vatAt (vatSlot s n).1) u.sx
                cu.sums).1).map (fun z => (f32Mul z.1 z.2, ovf [z.1, z.2] (f32Mul z.1 z.2)))).any (·.2)),
          cg.sat || cu.sat, cg.split || cu.split, cg.tol || cu.tol)
        chained := some { cg with at_ := max cg.at_ cu.at_ } } })) ∧
    ((s.arrAt n).awake = true → gateEn (s.arrAt n) = true → (s.arrAt n).products = [] → (s.arrAt n).waiting = [] →
      (s.arrAt n).prog = none → (s.arrAt n).underTest = false → (s.arrAt n).calActive = false → (s.arrAt n).stuck = none →
      (s.arrAt n).idleSince + cfgNat s Key.arrIdleHoldNs ≤ s.time →
      exec (.arrayIdleGate n) s = .next (s.setArr n { s.arrAt n with awake := false }))

/-- Calibration: the module command and the vat register start a run, converters' results that agree are accepted as the
converter's next taps, a reference line's result within its step is taken, a finished FULL run is complete, a drifted array is
due, and an idle slice begins and ends. -/
def Obligations.CalibrationCompletes : Prop :=
  ∀ (s : State),
    (∀ sess arg, cmdReady s sess Key.arrCalStart arg = true → calArgStatus s arg = 0 →
      (bitsOf (bits (leNat arg) 7 0) 8).any (vatFenced s) = false →
      (bitsOf (bits (leNat arg) 7 0) 8).any (fun v => (s.vatAt v).calState = 1) = false → bit (leNat arg) 8 = true →
      exec (.arrCalStart sess arg) s = .next (cmdDone s sess Key.arrCalStart (started
        ((bitsOf (bits (leNat arg) 7 0) 8).foldl (fun s v => startCal s v 1 true)
          ((vatsOf s).foldl (fun s v => s.modVat v (fun t => { t with calCmd := false })) s))))) ∧
    (∀ agent v value, busStatus s agent (0x20000 + v * 0x100) 32 = 0 →
      let t := s.modVat v (fun t => { t with calMode := b2n (bit value 1) })
      (bit value 0 = false → exec (.ccVatStart agent v value) s = .next t) ∧
      (bit value 0 = true → bit value 1 = true → (t.vatAt v).calState ≠ 1 → vatFenced t v = false →
        exec (.ccVatStart agent v value) s = .next (startCal t v 1 false))) ∧
    (∀ n segment column a b, arrPresent s n = true → segment < 8 → column < 1136 → measuring s n = true →
      (tapsAgree a b = true → exec (.converterCalResult n segment column [a, b]) s =
        .next (acceptTaps s n (convKey segment column) b)) ∧
      (tapsAgree a b = false → exec (.converterCalResult n segment column [a, b]) s =
        .next (s.setArr n { s.arrAt n with
          suspect := convKey segment column :: (s.arrAt n).suspect.filter (· != convKey segment column) }))) ∧
    (∀ v taps, vatPresent s v = true → (s.vatAt v).calState = 1 →
      (refAccepted (s.vatAt v).ref0 taps = true →
        exec (.refLineCalResult v 0 taps) s = .next (s.setVat v { s.vatAt v with ref0 := taps })) ∧
      (refAccepted (s.vatAt v).ref1 taps = true →
        exec (.refLineCalResult v 1 taps) s = .next (s.setVat v { s.vatAt v with ref1 := taps }))) ∧
    (∀ v fs, vatPresent s v = true → (s.vatAt v).calState = 1 → (s.vatAt v).calMode = 1 → (s.vatAt v).calCmd = false →
      (listedIn s v).any (fun n => (s.arrAt n).calDue && !(s.arrAt n).fenced) = false →
      exec (.calRunDone v fs) s = .next (s.setVat v { s.vatAt v with calState := 2, stepFs := fs % 2 ^ 16 })) ∧
    (∀ n, arrPresent s n = true → (s.arrAt n).calDue = false → drifted s n = true →
      exec (.driftCalibration n) s = .next (s.setArr n { s.arrAt n with calDue := true, driftTol := 0, driftChecks := 0 })) ∧
    (∀ n, arrPresent s n = true → running s = true →
      ((s.arrAt n).calActive = true →
        exec (.idleCalibrationSlice n false) s = .next (acceptWaiting (s.setArr n { s.arrAt n with
          calActive := false, calDue := false, calTemp := some (arrTemp s n) }) n) ∧
        exec (.idleCalibrationSlice n true) s = .next (acceptWaiting (s.setArr n { s.arrAt n with
          calActive := false, tapsPend := [] }) n)) ∧
      ((s.arrAt n).calActive = false → (s.arrAt n).calDue = true → (s.arrAt n).underTest = false → arrIdle20 s n = true →
        testedIn s (n / 2176) < 136 → (s.arrAt n).idleSince + 20000 ≤ s.time → ∀ cut,
        exec (.idleCalibrationSlice n cut) s = .next (s.setArr n { s.arrAt n with calActive := true }))) ∧
    (∀ sess arg, cmdReady s sess Key.perTableLoad arg = true → tableLoadRange s arg = 0 →
      tableLoadStatus s (sessPart s sess) arg = 0 →
      exec (.perTableLoad sess arg) s = .next (cmdDone s sess Key.perTableLoad (started { s with dic := { s.dic with
        stepCmds := s.dic.stepCmds ++
          [⟨sess, sessPart s sess, Key.perTableLoad, arg ++ (s.sessAt sess).tableStage.getD []⟩] } })))

/-! ## Wheels (chapter 4) -/

/-- Staging, verifying, placing, arming and cancelling: each command in the wheel states its row admits. -/
def Obligations.WheelCommandsComplete : Prop :=
  ∀ (s : State) (sess : Nat) (arg : Octets), let p := sessPart s sess
    p ≠ 0 →
    (cmdReady s sess Key.whlStage arg = true → (s.whlAt p).state = 0 → chanCount s 7 < 16 → ∀ slot, pickSlot s = some slot →
      (hasCave s = false → exec (.whlStage sess arg) s = .next (cmdDone s sess Key.whlStage
        (doneAt ((openChan s slot p (.staging p)).2.modWhl p (fun w => { w with state := 1, staged := some (leNat arg, slot, []) }))
          (openChan s slot p (.staging p)).1))) ∧
      (∀ k, hasCave s = true → freeCave s = some k →
        let t := setCave s k (.pending p)
        exec (.whlStage sess arg) s = .next (cmdDone s sess Key.whlStage
          (doneAt ((openChan t slot p (.staging p)).2.modWhl p (fun w => { w with state := 1, staged := some (leNat arg, slot, []) }))
            (openChan t slot p (.staging p)).1)))) ∧
    (∀ crypto, cmdReady s sess Key.whlVerify arg = true → leNat arg = 1 → (s.whlAt p).state = 1 →
      exec (.whlVerify sess arg crypto) s = .next (cmdDone s sess Key.whlVerify
        (if (verified s p crypto).1 = 0 then doneAt (verified s p crypto).2 0
         else refuse (verified s p crypto).2 (verified s p crypto).1))) ∧
    (cmdReady s sess Key.whlPlace arg = true → (s.whlAt p).state = 2 → ∀ n, (s.whlAt p).pending = some n →
      (leNat arg = 1 → exec (.whlPlace sess arg) s = .next (cmdDone s sess Key.whlPlace
        (doneAt (s.setWhl p { s.whlAt p with state := 4, mode := 1 })
          ((changedImages (s.whlAt p)).filter (fun a => !(alreadyHolds s n.digest (physOf s a.vat a.slot) a))).length))) ∧
      (leNat arg = 0 → ∀ ts, placeAll s p n.digest (changedImages (s.whlAt p)) = some ts →
        let r := programAll s p n.digest (targetsOf n ts (changedImages (s.whlAt p)))
        exec (.whlPlace sess arg) s = .next (cmdDone s sess Key.whlPlace (doneAt (r.2.modWhl p (fun w => { w with
          state := if r.1.isEmpty then 4 else 3, mode := 0, targets := ts, toReady := r.1 })) r.1.length)))) ∧
    (cmdReady s sess Key.whlArm arg = true → (s.whlAt p).state = 4 → armStatus s p (armingOf arg) = 0 →
      exec (.whlArm sess arg) s = .next (cmdDone s sess Key.whlArm (stepPend Key.whlArm sess p arg
        (s.modWhl p (fun w => { w with state := 5, arming := some (armingOf arg), paused := w.mode = 1, arrived := false }))))) ∧
    (cmdReady s sess Key.whlCancel arg = true → leNat arg = 1 → [1, 2, 3, 4].contains (s.whlAt p).state = true →
      exec (.whlCancel sess arg) s = .next (cmdDone s sess Key.whlCancel
        (doneAt (if (s.whlAt p).verifying then cmdEnd (dropPending s p) Key.whlVerify 0 (cmdWord 2 St.cancelled 0 0)
          else dropPending s p) 0))) ∧
    (cmdReady s sess Key.openWrite arg = true → bit (s.partAt p).rights 0 = true →
      (s.whlAt p).state = 0 ∨ (s.whlAt p).state = 4 → ∀ base n t, openBase (s.whlAt p) = some base →
      openBuild s p base (leNat arg) = .ok n → openCave s p = some t →
      exec (.openWrite sess arg) s = .next (cmdDone s sess Key.openWrite (doneAt (t.setWhl p { s.whlAt p with
        state := 4, pending := some n, mode := if (s.whlAt p).state = 4 then (s.whlAt p).mode else 1 }) 0)))

/-- Replicas and envelopes: what a holder stores and answers, what an acknowledgement records, what the end of a fetch and of a
verification does. -/
def Obligations.ReplicasComplete : Prop :=
  ∀ (s : State) (part : Nat),
    (∀ chip epoch envelope k, s.pwr.state = .s0 ∨ s.pwr.state = .s1 → envelope ≠ [] → hasCave s = true →
      replicaSlot s chip part = some k → s.whl.heldFor.contains chip = true →
      let t := setCave s k (.replica chip part epoch s.whl.order envelope)
      exec (.replicaStore chip part epoch envelope) s =
        .next (({ t with whl := { t.whl with order := s.whl.order + 1 } } : State).emit (.replicaAck chip part 0))) ∧
    (∀ chip epoch envelope, s.pwr.state = .s0 ∨ s.pwr.state = .s1 → envelope ≠ [] → hasCave s = false →
      exec (.replicaStore chip part epoch envelope) s = .next (s.emit (.replicaAck chip part St.noSpace))) ∧
    (∀ holder status, holder < (s.whlAt part).acks.length → (holders s).getD holder 0 ≠ 0 →
      exec (.replicaPushAck part holder status) s = .next (s.setWhl part { s.whlAt part with
        acks := lset (s.whlAt part).acks holder (some status)
        result := if status = 0 then (s.whlAt part).result else status })) ∧
    (∀ n e crypto, running s = true → (s.whlAt part).state = 9 → (s.whlAt part).pending = some n →
      exec (.replicaFetchDone part none crypto) s = .next (replicaGone s part) ∧
      exec (.replicaFetchDone part (some e) crypto) s = .next (if fetched s part e crypto n.digest then
        startRewrite (((openCave s part).getD s).modWhl part (fun w => { w with pendEnvelope := some e })) part
        else replicaGone s part)) ∧
    (∀ crypto, (s.whlAt part).verifying = true → (s.whlAt part).state = 1 →
      exec (.envelopeVerifyDone part crypto) s = .next (cmdEnd (verified s part crypto).2 Key.whlVerify 0
        (cmdWord (if (verified s part crypto).1 = 0 then 2 else 3) (verified s part crypto).1 0 0)))

/-- Programming an array: a verified row is written and the next one follows, a row that fails is tried four times and then
fails the array, and a programmed array that passes its check vectors is ready with the image. An overflow layer is written into
the reload pool between the step's products, and an array's retention age grows by the weighted time. -/
def Obligations.ProgrammingCompletes : Prop :=
  (∀ (s : State) (n row tries p : Nat) (img : ArrImg), (s.arrAt n).prog = some (row, tries, img, p) → running s = true →
    (s.arrAt n).granted = true → (s.arrAt n).fenced = false → vatFenced s (n / 2176) = false →
    (row < 1024 → (row ≠ 0 ∨ bayBusy s n = false) →
      exec (.programRow n true) s = .next (s.setArr n { s.arrAt n with
        rows := tput 0 (s.arrAt n).rows row (tget 0 img.rows row), prog := some (row + 1, 0, img, p) }) ∧
      (tries < 3 → exec (.programRow n false) s = .next (s.setArr n { s.arrAt n with prog := some (row, tries + 1, img, p) })) ∧
      (3 ≤ tries → exec (.programRow n false) s = .next (programFailed s n p img Mech.programVerify row))) ∧
    (row = 1024 →
      let u (k : Nat) : State := s.setArr n { s.arrAt n with passCnt := (s.arrAt n).passCnt + BitVec.ofNat 64 k }
      exec (.arrayProgramDone n none) s = .next (nowReady (returnIfDone (imageIn (u 16) n p img) n) n p) ∧
      (∀ t, t < 16 → exec (.arrayProgramDone n (some t)) s =
        .next (programFailed (u (t + 1)) n p img Mech.programCheck t)))) ∧
  (∀ (s : State),
    (∀ part layer w y, (s.whlAt part).inForce = some w → w.layers.find? (fun z => z.layer = layer && z.kind = 2) = some y →
      s.srv.inStep = true → running s = true → (s.whlAt part).poolDone.contains layer = false → caveHas s (.active part) = true →
      (layersOut s part w y).all (layerIdle s part w) = true →
      exec (.overflowLayerLoad part layer) s = .next ((writeLayer s part w y).modWhl part (fun x => { x with
        poolLayers := (s.whlAt part).poolLayers.filter (fun k => !((layersOut s part w y).any (fun z => z.layer = k))) ++ [layer]
        poolDone := x.poolDone ++ [layer] }))) ∧
    (∀ n tempC milliHours, arrPresent s n = true → s.pwr.state ≠ .s4 →
      exec (.retentionAgeTick n tempC milliHours) s =
        .next (s.setArr n { s.arrAt n with age := (s.arrAt n).age + ageWeighted tempC milliHours }) ∧
      (tempC ≤ 85 → ageWeighted tempC milliHours = milliHours)))

/-- The swap protocol: arrivals are signalled once the module's own stores are out, the decision flips, rewrites, aborts or rolls
back, a stalled hold raises its alarm, and the end of a rewrite or of its rollback is signalled or ends the swap. -/
def Obligations.SwapCompletes : Prop :=
  ∀ (s : State) (part : Nat) (a : Arming), (s.whlAt part).arming = some a → running s = true →
    ((s.whlAt part).state = 6 → (s.whlAt part).arrived = false → mgmtFenced s = true →
      exec (.swapArrive part) s = .next (arriveAt s part a.arrive)) ∧
    ((s.whlAt part).state = 6 → (s.whlAt part).arrived = true →
      (decisionIs s part a.decision 1 = true → exec (.swapDecision part 1) s =
        .next (if (s.whlAt part).mode = 1 then startRewrite s part else flip s part)) ∧
      (decisionIs s part a.decision 2 = true → exec (.swapDecision part 2) s = .next (swapAborted s part))) ∧
    ((s.whlAt part).state = 8 → (s.whlAt part).arrived = true → (s.whlAt part).rollback = false →
      (decisionIs s part a.doneDecision 1 = true → exec (.swapDecision part 1) s = .next (flip s part)) ∧
      (decisionIs s part a.doneDecision 2 = true → exec (.swapDecision part 2) s = .next (rollBack s part true))) ∧
    (∀ t, (s.whlAt part).holdSince = some t → (s.whlAt part).state = 6 ∨ (s.whlAt part).state = 8 →
      (s.whlAt part).alarmed = false → t + cfgP s part Key.swapHoldAlarmMs * 1000000 ≤ s.time →
      exec (.swapHoldAlarm part) s = .next ((s.setWhl part { s.whlAt part with alarmed := true }).writeErr
        (reportErr St.swapStalled Kind.module 0 part))) ∧
    ((s.whlAt part).state = 8 → (s.whlAt part).toReady = [] → (s.whlAt part).arrived = false →
      ((s.whlAt part).rollback = false → exec (.rewriteDone part) s = .next (arriveAt s part a.doneArrive)) ∧
      ((s.whlAt part).rollback = true → (s.whlAt part).abortSeen = true →
        exec (.rewriteRollbackDone part) s = .next (swapAborted s part)) ∧
      ((s.whlAt part).rollback = true → (s.whlAt part).abortSeen = false →
        exec (.rewriteRollbackDone part) s =
          .next (arriveAt (s.setWhl part { s.whlAt part with result := St.aborted }) part a.doneArrive)))

/-! ## Vector engines (chapter 5) -/

/-- A posted descriptor that passes the checks of R154 is queued and answered with success; one that fails is refused with the
first failing check's status, counted, and queued nowhere. -/
def Obligations.TaskPostCompletes : Prop :=
  ∀ (s : State) (poster : Poster) (desc : Octets), s.pwr.state = .s0 → desc.length = 64 →
    (∀ n, descCheck s poster desc = 0 →
      placeFor s (posterPart poster) (descTarget desc) (taskOf desc (posterPart poster)).pool = some n →
      exec (.taskPost poster desc) s = .next ((queueTask s n (taskOf desc (posterPart poster))).emit
        (.status (posterAgent poster desc) St.ok))) ∧
    (descCheck s poster desc ≠ 0 →
      let v := targetVat (descTarget desc)
      exec (.taskPost poster desc) s = .next ((s.setVat v { s.vatAt v with refused := (s.vatAt v).refused + 1 }).emit
        (.status (posterAgent poster desc) (descCheck s poster desc))))

/-- An engine takes and starts its next task, wakes for work, gates its clock when idle, looks for a victim and takes the task it
claimed. -/
def Obligations.EnginesSchedule : Prop :=
  ∀ (s : State) (n : Nat),
    (∀ o t dual, nextTask s n = some (o, t) → engineReady s n = true → (t.role ≠ 0 ∨ selected s n dual = false) →
      exec (.taskStart n dual) s = .next (startTask (takeTask s n o t) n t)) ∧
    (∀ o t dual, nextTask s n = some (o, t) → engineReady s n = true → t.role = 0 → selected s n dual = true →
      dualEligible s t = true → (copyEngine s (n / 64) t [n]).isSome = true →
      exec (.taskStart n dual) s = .next (startPrimary (takeTask s n o t) n t)) ∧
    (running s = true → engPresent s n = true → (s.engAt n).awake = false → (s.engAt n).fenced = false →
      vatFenced s (n / 64) = false → (s.engAt n).queue ≠ [] →
      exec (.engineWake n) s = .next (s.setEng n { s.engAt n with awake := true })) ∧
    ((s.engAt n).awake = true → (s.engAt n).gateEn = true → (s.engAt n).queue = [] → (s.engAt n).run = none →
      (s.engAt n).underTest = false → (s.engAt n).idleSince + cfgNat s Key.veIdleHoldNs ≤ s.time →
      exec (.engineIdleGate n) s = .next (s.setEng n { s.engAt n with awake := false, claim := none, tried := [] })) ∧
    (engineReady s n = true → (s.engAt n).stealEn = true → (s.engAt n).claim = none → nextTask s n = none →
      ∀ v, chooseVictim s n = some v → exec (.stealSearch n) s = .next (s.setEng n { s.engAt n with claim := some v })) ∧
    (∀ v t, (s.engAt n).claim = some v → engineReady s n = true → claimed s n v = some t →
      exec (.stealClaim v [n]) s = .next ((takeFrom s v t).modEng n (fun e => { e with
        queue := t :: e.queue, stolenIn := e.stolenIn + 1, claim := none, tried := [] })))

/-- The comparison of a dual execution: equal signatures complete the task, a first mismatch places the third copy, and the
third signature decides which engine is fenced, or all three where it matches neither. -/
def Obligations.DualCompareCompletes : Prop :=
  ∀ (s : State) (k a b x : Nat) (d : DualSt), dualOf s k = some d → d.sig1 = some a → d.sig2 = some b → d.secondary = some x →
    (a = b → exec (.dualCompare k) s =
      .next (dualDone (bothEngines s d (fun e => { e with dualRun := e.dualRun + 1 })) d)) ∧
    (a ≠ b → d.thirdPlaced = false →
      let c := { d with thirdPlaced := true }
      let t := (bothEngines s d (fun e => { e with dualMismatch := e.dualMismatch + 1 })).modVat (d.primary / 64)
        (fun v => { v with mismatchTotal := v.mismatchTotal + 1 })
      exec (.dualCompare k) s = .next (placeThird (setDual t c) c)) ∧
    (a ≠ b → d.thirdPlaced = true → ∀ c y, d.sig3 = some c → d.third = some y →
      (c = a → exec (.dualCompare k) s = .next (fenceEngine (dualDone s d) x (dualErr d d.primary b))) ∧
      (c = b → exec (.dualCompare k) s = .next (fenceEngine (dualDone s d) d.primary (dualErr d x a))) ∧
      (c ≠ a → c ≠ b → exec (.dualCompare k) s = .next (fenceEngine (fenceEngine (fenceEngine
        (failTask (forget s d) d.primary St.dualUnresolved d.task) d.primary (dualErr d x a)) x (dualErr d d.primary b)) y
        (dualErr d d.primary c))))

/-- Input buffers: the command waits for its boundary, an arriving record is written to a free slot, one that finds no slot
waits at its array, and the waiting record is written when a slot is free. -/
def Obligations.InputBuffersComplete : Prop :=
  ∀ (s : State),
    (∀ sess arg, cmdReady s sess Key.veInbufSet arg = true → inbufStatus s (sessPart s sess) arg = 0 →
      exec (.veInbufSet sess arg) s =
        .next (cmdDone s sess Key.veInbufSet (stepPend Key.veInbufSet sess (sessPart s sess) arg s))) ∧
    (∀ sender part b x record, s.pwr.state = .s0 → vatPresent s (b / 512) = true → inbufOf s part b = some x →
      (pad64 record).length ≤ x.slotBytes →
      (x.w < x.r + x.slots → exec (.inbufRecordArrival sender part b record) s = .next (putRecord s b x record)) ∧
      (∀ n, x.r + x.slots ≤ x.w → sender = .array n → (s.arrAt n).stuck = none →
        exec (.inbufRecordArrival sender part b record) s =
          .next (s.setArr n { s.arrAt n with stuck := some (part, b, record) }))) ∧
    (∀ sender part b x record, s.pwr.state = .s0 → vatPresent s (b / 512) = true → inbufOf s part b = some x →
      x.slotBytes < (pad64 record).length →
      exec (.inbufRecordArrival sender part b record) s =
        .next (s.writeErr (reportErr St.lengthExceedsBuffer Kind.vat (b / 512) part))) ∧
    (∀ n a part b x record, s.arr = [(n, a)] → a.stuck = some (part, b, record) → inbufOf s part b = some x →
      x.w < x.r + x.slots →
      let t := putRecord s b x record
      exec (.inbufRecordWrite b) s = .next (acceptWaiting (t.setArr n { t.arrAt n with stuck := none }) n))

/-- Every kernel: an engine that runs a task of its opcode and whose result stands stores the kernel's writes and completes the
task; the computation is the kernel's own function of the task and the memory. A package's result is the free value that the
package's own code stands for (entry 69), so its task completes or fails as that value says. A residue failure and an
uncorrectable scratch error fence the engine and leave no result of the kernel. -/
def Obligations.KernelsComplete : Prop :=
  (∀ (s : State) (n busyNs : Nat) (x : Running), (s.engAt n).run = some x → running s = true → (s.engAt n).fenced = false →
    x.task.role = 0 →
    let u := kernelBase s n busyNs x
    (x.task.opcode = 0x0040 → kernelStands x (gemm u x) = true →
      exec (.gemm n busyNs none) s = .next (kernelDone n x (gemm u x))) ∧
    (x.task.opcode = 0x0041 → kernelStands x (norm u x) = true →
      exec (.norm n busyNs none) s = .next (kernelDone n x (norm u x))) ∧
    (x.task.opcode = 0x0001 → kernelStands x (attention 16 u x) = true →
      exec (.attnDecode n busyNs none) s = .next (kernelDone n x (attention 16 u x))) ∧
    (x.task.opcode = 0x0002 → kernelStands x (attention 4096 u x) = true →
      exec (.attnPrefill n busyNs none) s = .next (kernelDone n x (attention 4096 u x))) ∧
    (x.task.opcode = 0x0003 → appendBefore s n = false → kernelStands x (kvAppend u x) = true →
      exec (.kvAppend n busyNs none) s = .next (kernelDone n x (kvAppend u x))) ∧
    (x.task.opcode = 0x0010 → kernelStands x (gatherPool u x) = true →
      exec (.gatherPool n busyNs none) s = .next (kernelDone n x (gatherPool u x))) ∧
    (x.task.opcode = 0x0020 → kernelStands x (sample u x) = true →
      exec (.sample n busyNs none) s = .next (kernelDone n x (sample u x))) ∧
    (x.task.opcode = 0x0021 → kernelStands x (specVerify u x) = true →
      exec (.specVerify n busyNs none) s = .next (kernelDone n x (specVerify u x))) ∧
    (x.task.opcode = 0x0030 → kernelStands x (openQuant u x) = true →
      exec (.openQuant n busyNs none) s = .next (kernelDone n x (openQuant u x))) ∧
    (firmwareOp x.task.opcode = true ∨ 0x4000 ≤ x.task.opcode →
      let r := packageKernel u x
      let w := kwrite r.st x.task.part r.writes
      exec (.packageKernel n busyNs none) s = .next (if w.1 != 0 then taskFails w.2 n w.1 x.task
        else if r.status != 0 then taskFails w.2 n r.status x.task else taskRan w.2 n x.task r r.writes))) ∧
  (∀ (s : State) (n busyNs : Nat) (x : Running), (s.engAt n).run = some x → running s = true → (s.engAt n).fenced = false →
    x.task.opcode = 0x0040 →
    (∀ e f, exec (.gemm n busyNs (some (.residue e f))) s = .next (fenceEngine s n
      { mech := Mech.residue, operation := x.task.opcode, tag := x.task.taskId, detailA := e * 256 + f })) ∧
    (∀ o, exec (.gemm n busyNs (some (.scratchUe o))) s = .next (fenceEngine s n
      { mech := Mech.scratchEcc, operation := x.task.opcode, tag := x.task.taskId, detailA := o })))

/-! ## Sequences and embedding tables (chapters 6 and 7) -/

/-- The sequence and table commands wait for their boundary once they are admitted, a hot row's copy begins and ends, and the
directory's ages and counts decay. -/
def Obligations.SequencesAndTablesComplete : Prop :=
  ∀ (s : State),
    (∀ sess arg, let p := sessPart s sess
      (cmdReady s sess Key.seqEdit arg = true → seqEditRange s arg = 0 → editStatus s (plannedSeqs s) p arg = 0 →
        exec (.seqEdit sess arg) s = .next (cmdDone s sess Key.seqEdit (stepPend Key.seqEdit sess p arg s))) ∧
      (cmdReady s sess Key.embTableEdit arg = true → embEditRange s arg = 0 → embEditStatus s (plannedTables s) p arg = 0 →
        exec (.embTableEdit sess arg) s = .next (cmdDone s sess Key.embTableEdit (stepPend Key.embTableEdit sess p arg s))) ∧
      (cmdReady s sess Key.embInvalidate arg = true → invalStatus (plannedTables s) p arg = 0 →
        exec (.embInvalidate sess arg) s = .next (cmdDone s sess Key.embInvalidate (stepPend Key.embInvalidate sess p arg s))) ∧
      (cmdReady s sess Key.embPin arg = true → pinRange s arg = 0 → pinStatus s (plannedTables s) p arg = 0 →
        exec (.embPin sess arg) s = .next (cmdDone s sess Key.embPin (stepPend Key.embPin sess p arg s)))) ∧
    (∀ set way e, dirAt s (dirKey set way) = some e → e.valid = false → running s = true →
      (e.copy = 0 → gatherBefore s e.since = false →
        exec (.hotRowCopy set way) s = .next { s with emb := { s.emb with
          dir := tput none s.emb.dir (dirKey set way) (some { e with copy := 1 }) } }) ∧
      (e.copy = 1 → ∀ d b, embTableAt s e.table = some d → memRead s e.part 1 (d.base + e.row * d.stride) d.stride = .ok b →
        (memWrite s e.part 0 (hotSlot s e.part set way) b).1 = 0 →
        exec (.hotRowCopyDone set way) s = .next (setDir (memWrite s e.part 0 (hotSlot s e.part set way) b).2 (dirKey set way)
          (some { e with copy := 2 })))) ∧
    (∀ part, cfgP s part Key.embDecaySteps ≤ tget 0 s.emb.decay part → (runOf s part).2 ≠ 0 →
      exec (.directoryDecay part) s = .next { s with emb := { s.emb with
        decay := tput 0 s.emb.decay part 0
        sketch := s.emb.sketch.foldl (fun t q => tput 0 t q.1 (if q.1 / 262144 = part then q.2 / 2 else q.2)) []
        dir := s.emb.dir.map (fun q => (q.1, q.2.map (fun e => if e.part = part then { e with age := e.age - 1 } else e))) } })

/-! ## Serving (chapter 8) -/

/-- Request channels: a create that every condition admits takes a slot and answers its handle; a close retires a channel with no
active request; completion records leave as one-sided writes; a queue pair's transport error takes its channels down. -/
def Obligations.RequestChannelsComplete : Prop :=
  ∀ (s : State),
    (∀ sess arg slot, cmdReady s sess Key.reqChanOpen arg = true → reqOpenStatus s (sessPart s sess) arg = 0 →
      pickSlot s = some slot →
      (bit (fld arg 57 1) 0 = false →
        let r := openChan s slot (sessPart s sess) (.req (reqChanArg arg))
        exec (.reqChanOpen sess arg) s = .next (cmdDone s sess Key.reqChanOpen (doneAt r.2 r.1))) ∧
      (bit (fld arg 57 1) 0 = true →
        let v := (argmin (homeLoad s) ((vatsOf s).filter (fun v => !(vatFenced s v)))).getD (reqChanArg arg).vat
        let r := openChan s slot (sessPart s sess) (.req { reqChanArg arg with vat := v })
        exec (.reqChanOpen sess arg) s = .next (cmdDone s sess Key.reqChanOpen (doneAt r.2 r.1)))) ∧
    (∀ sess arg c, cmdReady s sess Key.reqChanClose arg = true → reqChanAt s (leNat arg) = some (sessPart s sess, c) →
      s.srv.reqs.any (fun r => r.chan = leNat arg && r.active) = false →
      exec (.reqChanClose sess arg) s =
        .next (cmdDone s sess Key.reqChanClose (doneAt (closeReqChan s (hSlot (leNat arg))) 0))) ∧
    (∀ chan, vatServing s (homeOf s chan) = true → exec (.completionRecordWrite chan) s = .next (flushChannel s chan)) ∧
    (∀ qp p q, qpAt s qp = some (p, q) → exec (.qpTransportError qp) s =
      let t := setChan s qp (.qp { q with error := true, outstanding := [] })
      .next (((chans t).filter (fun x => match x.2.chan with
        | some (.req c) => c.qp = qp && !c.dead
        | _ => false)).foldl (fun s x => killChannel s (handleAt s x.1)) t))

/-- The next entry of a request channel: a SUBMIT entry whose format is right and whose REQ_ID is new is taken; one of the wrong
format, or of a REQ_ID in use, is refused with its status and retired; a CANCEL entry is retired and ends its request; an entry
that cannot be read is refused with the read's status. -/
def Obligations.RequestEntriesComplete : Prop :=
  ∀ (s : State) (chan p k : Nat) (c : ReqChan),
    (∀ e, nextEntry s chan = some (p, c, k, .error e) →
      exec (.submit chan) s = .next (refuseEntry (entryRead s chan c) chan k e 0 0)) ∧
    (∀ b, nextEntry s chan = some (p, c, k, .ok b) →
      let t := forgetEnded (entryRead s chan c) chan
      let id := fld b 8 8
      (fld b 0 1 = 1 → submitFormatOk b (stopBlock t p b) = true → t.srv.reqs.any (fun q => q.chan = chan && q.reqId = id) = false →
        exec (.submit chan) s = .next (submit t (reqOf p chan k b (stopBlock t p b)) b (stopBlock t p b))) ∧
      (fld b 0 1 ≠ 2 → (fld b 0 1 ≠ 1 ∨ submitFormatOk b (stopBlock t p b) = false) →
        exec (.submit chan) s = .next (refuseEntry t chan k St.formatMismatch (fld b 0 1) id)) ∧
      (fld b 0 1 = 1 → submitFormatOk b (stopBlock t p b) = true → t.srv.reqs.any (fun q => q.chan = chan && q.reqId = id) = true →
        exec (.submit chan) s = .next (refuseEntry t chan k St.configConflict 1 id)) ∧
      (fld b 0 1 = 2 → zeroAt b 1 7 = true → zeroAt b 16 112 = true →
        exec (.cancel chan) s = .next (resolveCancel (retire t chan k) chan id)) ∧
      (fld b 0 1 = 2 → (zeroAt b 1 7 && zeroAt b 16 112) = false →
        exec (.cancel chan) s = .next (refuseEntry t chan k St.formatMismatch 2 id)))

/-- Batch steps: a boundary of the lead, of a member with a plan and of a module alone, an idle boundary, a received plan, a
member's start, a member's report of an invalid sequence, the drafts of a step and its commit fence. -/
def Obligations.BatchStepsComplete : Prop :=
  ∀ (s : State),
    (running s = true → stepEnds s = true →
      (srvRole s = 1 → exec .stepBoundary s = .next (leadBoundary s)) ∧
      (∀ p plan, srvRole s = 2 → s.srv.plan = some (p, plan) → exec .stepBoundary s = .next (memberStart p s)) ∧
      (srvRole s = 0 → exec .stepBoundary s = .next (loneBoundary s))) ∧
    (running s = true → stepInProgress s = false →
      exec .idleStepBoundary s = .next (countLive (boundaryWork (editedSeqs s) (applyPending s)))) ∧
    (∀ part plan, srvRole s = 2 → running s = true → s.srv.step < plan.step → s.srv.inStep = false →
      exec (.planReceive part plan) s = .next { s with srv := { s.srv with plan := some (part, plan), mismatchSaid := false } }) ∧
    (∀ part plan, srvRole s = 2 → s.srv.plan = some (part, plan) → s.srv.step < plan.step → stepInProgress s = false →
      running s = true → mayStart s = true → (s.whlAt part).state ≠ 6 → (s.whlAt part).state ≠ 7 →
      (plan.epoch ≠ (s.whlAt part).epoch → s.srv.mismatchSaid = false →
        let t := s.writeErr (reportErr St.epochMismatch Kind.module 0 part)
        exec (.memberStepStart part) s = .next { t with srv := { t.srv with mismatchSaid := true } }) ∧
      (plan.epoch = (s.whlAt part).epoch → ∀ t,
        t = (stepBoundary { s with kv := { s.kv with
          named := plan.named.foldl (fun t n => tput none t n.1 (some n.2)) s.kv.named } }).2 →
        (t.whlAt part).held = false →
        exec (.memberStepStart part) s = .next (countLive (memberStep (rotatePools t) part plan)))) ∧
    (∀ part seq chip, srvRole s = 1 → (otherMembers s).contains chip = true →
      exec (.seqInvalidReport part seq chip) s = .next { s with srv := { s.srv with reqs := s.srv.reqs.map (fun q =>
        if q.part = part && q.seq = seq && q.live && q.failStatus = 0 then { q with failStatus := St.seqInvalid } else q) } }) ∧
    (∀ part seq drafts, s.srv.inStep = true → running s = true →
      (s.srv.table.find? (fun e => e.seq = seq && e.kind = 2 && e.qlen = drafts.length + 1)).isSome = true →
      (seqAt s seq).any (fun d => d.part = part) = true → (tget [] s.srv.drafts seq).isEmpty = true →
      let t := { s with srv := { s.srv with drafts := tput [] s.srv.drafts seq drafts } }
      (srvRole s = 1 → exec (.draftMessage part seq drafts) s =
        .next ((otherMembers s).foldl (fun s c => s.emit (.drafts c seq drafts)) t)) ∧
      (srvRole s = 2 → exec (.draftMessage part seq drafts) s = .next t)) ∧
    (∀ vat outcomes x xs, s.srv.inStep = true → vatServing s vat = true → fenceReqs s vat = x :: xs →
      (x :: xs).all (fenceReady s outcomes) = true →
      exec (.commitFence vat outcomes) s = .next (afterFence (commitFence s (x :: xs) outcomes)))

/-! ## The journal and memory (chapters 8 and 9) -/

/-- The journal and the memory's own commands: a peer's record is kept in its ring and acknowledged, or refused with NO_SPACE; a
holder's acknowledgement counts, or reports the holder lost; a replica's loss pushes the envelopes again; a region is set at the
next boundary; a line is scrubbed; memory is zeroed. -/
def Obligations.JournalAndMemoryComplete : Prop :=
  ∀ (s : State),
    (∀ lead record, s.pwr.state = .s0 ∨ s.pwr.state = .s1 →
      (record ≠ [] → record.length ≤ ringShare s → (s.srv.rings.any (fun r => r.1 = lead) = true ∨ s.srv.rings.length < 8) →
        exec (.journalRecord lead record) s = .next (({ s with
          srv := { s.srv with rings := tput [] s.srv.rings lead (fitRing (ringShare s) (tget [] s.srv.rings lead ++ [record])) },
          whl := { s.whl with heldFor := if s.whl.heldFor.contains lead then s.whl.heldFor else s.whl.heldFor ++ [lead] } }).emit
            (.journalAck lead (fld record 8 8) St.ok))) ∧
      (ringShare s < record.length →
        exec (.journalRecord lead record) s = .next (s.emit (.journalAck lead (fld record 8 8) St.noSpace)))) ∧
    (∀ holder seqno, holder < 2 → holderAt s holder ≠ 0 → seqno < s.srv.jNext →
      exec (.journalAck holder seqno 0) s = .next { s with srv := { s.srv with
        jAck := lset s.srv.jAck holder (max seqno (s.srv.jAck.getD holder 0)) } } ∧
      (∀ status, status ≠ 0 → s.srv.jLost.getD holder true = false →
        exec (.journalAck holder seqno status) s =
          .next (({ s with srv := { s.srv with jLost := lset s.srv.jLost holder true } }).writeErr
            (reportErr status Kind.chip (holderAt s holder) 0)))) ∧
    (∀ chip, chip ≠ 0 → holderAt s 0 = chip → holderAt s 1 ≠ chip →
      let t := pushAgain s chip [0]
      exec (.replicaLostNotice chip) s =
        .next { t with srv := { t.srv with checkpointDue := true, jLost := lset t.srv.jLost 0 false } }) ∧
    (∀ sess arg, cmdReady s sess Key.memRegionSet arg = true → regionStatus s (plannedRegions s) arg = 0 →
      exec (.memRegionSet sess arg) s =
        .next (cmdDone s sess Key.memRegionSet (stepPend Key.memRegionSet sess (sessPart s sess) arg s))) ∧
    (∀ slice line, slicePresent s slice = true → (s.sliceAt slice).scrubEn = true → (s.sliceAt slice).pstate ≠ 3 →
      (s.pwr.state = .s0 ∨ s.pwr.state = .s1) → line = (s.sliceAt slice).scrubAt →
      exec (.patrolScrub slice line none) s = .next (s.setSlice slice
        (if line + 1 = sliceLines slice then { s.sliceAt slice with scrubAt := 0, corrected := [] }
          else { s.sliceAt slice with scrubAt := line + 1 }))) ∧
    (∀ job j, s.mem.zero.find? (fun j => j.job = job) = some j →
      let t := zeroKeys s (fun k => j.regions.any (fun r => inRegion r k))
      let u := { t with mem := { t.mem with zero := t.mem.zero.filter (fun x => x.job != job) } }
      exec (.memoryZeroDone job) s = .next (if j.clearKey then partGone u j.part else u))

/-! ## Ports and links (chapter 10) -/

/-- A port's sub-port comes up: PORT_ENABLE is written, training ends, the lock and the verify procedure pass, a good HELLO is
taken, HELLOs are sent in their period and time out; it goes down when its lock or its keepalives are lost. -/
def Obligations.PortsComeUp : Prop :=
  ∀ (s : State) (port sub : Nat), let x := s.subAt port sub
    (∀ agent value, busStatus s agent (0x40000 + 0x100 * port) 32 = 0 →
      exec (.portEnableWrite agent port value) s =
        .next ((portCfg s port (bits value 5 0)).2.modPort port (fun q => { q with
          cfgErr := (portCfg s port (bits value 5 0)).1 != 0 }))) ∧
    (x.state = .training → x.trained = false →
      exec (.linkTrainingDone port sub true) s = .next (s.setSub port sub { x with trained := true, calOk := true }) ∧
      exec (.linkTrainingDone port sub false) s = .next ((s.setSub port sub { x with calOk := false }).writeErr
        { mech := Mech.calibration, unitKind := Kind.subPort, unit := port * 4 + sub })) ∧
    (x.state = .training → x.trained = true → x.lock = false →
      ((s.portAt port).preemptEn = true → exec (.pcsLock port sub) s = .next (s.setSub port sub { x with lock := true })) ∧
      ((s.portAt port).preemptEn = false →
        exec (.pcsLock port sub) s = .next (linkReady (s.setSub port sub { x with lock := true }) port sub))) ∧
    (∀ verified, x.state = .training → x.lock = true → (s.portAt port).preemptEn = true →
      exec (.preemptVerifyDone port sub verified) s =
        .next (linkReady (s.setSub port sub { x with preempt := verified }) port sub)) ∧
    (∀ chip payload, helloFormatOk payload = true →
      (portMode s port = 0 → x.state = .hello ∨ x.state = .quarantined ∨ x.state = .miswired →
        exec (.hello port sub chip payload) s = .next (helloDirect s port sub (helloOf payload))) ∧
      (portMode s port = 0 → x.state = .up →
        exec (.hello port sub chip payload) s = .next (s.setSub port sub { x with lastRx := s.time })) ∧
      (portMode s port = 1 → x.state = .up →
        exec (.hello port sub chip payload) s = .next (helloSwitched (heardFrom s port sub chip) port sub chip (helloOf payload)))) ∧
    (∀ chip payload, helloFormatOk payload = false → exec (.hello port sub chip payload) s = .next (s.writeErr
      { mech := Mech.xtvFormat, unitKind := Kind.subPort, unit := port * 4 + sub, operation := 0x701, detailA := chip })) ∧
    (portMode s port = 0 → x.state = .hello →
      let t := frameStart s port
      let ready := x.seen && x.passed
      x.lastTx + 10000 ≤ t.time → (ready && x.peerReady) = false →
      exec (.helloSendTimer port sub) s =
        .next ((t.modSub port sub (fun y => { y with txReady := ready, lastTx := t.time })).emit (.hello port sub (b2n ready)))) ∧
    (portMode s port = 0 → x.state = .hello → x.passed = true → x.peerReady = false →
      x.lastProgress + cfgNat s Key.xtvHelloTimeoutMs * 1000000 ≤ s.time →
      exec (.helloTimeout port sub) s = .next ((s.setSub port sub { x with state := .quarantined, txReady := false }).writeErr
        (helloErr port sub .quarantined St.peerQuarantined x.peerChip))) ∧
    (x.lock = true → exec (.pcsLockLoss port sub) s = .next (subDown s port sub 1)) ∧
    (portMode s port = 0 →
      (x.state = .doze → x.lastRx + 300000 ≤ s.time → exec (.portKeepaliveTimeout port sub) s = .next (subDown s port sub 1)) ∧
      (x.state = .up → x.lastRx + cfgNat s Key.xtvKeepaliveUs * 1000 ≤ s.time →
        exec (.portKeepaliveTimeout port sub) s = .next (subDown s port sub 1)))

/-- The frames of one link, between partners: acknowledgement, NAK, credit, keepalive, doze and wake, the timers that send them,
the replay of what is not acknowledged, the pause of a priority, and the drop of a frame whose check fails. -/
def Obligations.LinkFramesComplete : Prop :=
  ∀ (s : State) (port sub : Nat), let x := s.subAt port sub
    let h := heardFrom s port sub x.peerChip
    (subCarries x = true → portMode s port = 0 →
      (∀ lack, exec (.linkAck port sub lack) s = .next (linkAcked h port sub lack)) ∧
      (∀ lack, exec (.linkNak port sub lack) s = .next (replayLink (linkAcked h port sub lack) port sub)) ∧
      (∀ cls units, exec (.linkCredit port sub cls units) s = .next (creditBack h port sub cls units)) ∧
      (portMode h port = 0 → exec (.linkKeepalive port sub x.peerChip) s = .next h) ∧
      (mayDoze h (h.subAt port sub) = true → exec (.dozeReq port sub) s =
        .next ((sendLink h port sub 6 0).modSub port sub (fun x => { x with state := .doze, dozeSent := false }))) ∧
      (mayDoze h (h.subAt port sub) = true → (h.subAt port sub).dozeSent = true → exec (.dozeAck port sub) s =
        .next (h.setSub port sub { h.subAt port sub with state := .doze, dozeSent := false })) ∧
      ((h.subAt port sub).state = .doze → exec (.linkWake port sub) s =
        .next (flushWaiting (h.setSub port sub { h.subAt port sub with state := .up }))) ∧
      (x.unacked ≠ 0 → exec (.linkAckTimer port sub) s = .next (sendLink s port sub 1 (lastAccepted x))) ∧
      (x.replay ≠ [] → x.lastProgress + 2000 ≤ s.time → exec (.linkReplayTimeout port sub) s = .next (replayLink s port sub)) ∧
      (x.lastTx + (if x.state = .doze then 100000 else 2000) ≤ s.time →
        exec (.keepaliveSendTimer port sub) s = .next (sendLink s port sub 4 0))) ∧
    (∀ priority, portMode s port ≠ 0 → x.state = .up → priority < 8 →
      let l := x.paused.filter (· != priority)
      exec (.pfcFrame port sub priority true) s =
        .next (s.setSub port sub { x with lastRx := s.time, paused := l ++ [priority] }) ∧
      exec (.pfcFrame port sub priority false) s =
        .next (flushWaiting (s.setSub port sub { x with lastRx := s.time, paused := l }))) ∧
    (∀ raw, x.lock = true → raw.fcsOk = false → exec (.frameCheckDrop port sub raw) s = .next (fcsDrop s port sub)) ∧
    (∀ raw, x.lock = true → raw.fcsOk = true → (raw.etherType ≠ 0x88B5 ∨ raw.vid ≠ cfgNat s Key.xtvVlan) →
      exec (.frameCheckDrop port sub raw) s = .next (dropFrame s port))

/-! ## Frames, streams and paths (chapter 10) -/

/-- A frame that its link accepts and that is for this module is delivered to its stream: an unknown stream answers STALE_HANDLE,
a repeated ESEQ is acknowledged again and not applied, one past the window of 4096 is dropped, any other is marked, applied once
and acknowledged. -/
def Obligations.StreamAppliesAFrameOnce : Prop :=
  ∀ (s t : State) (f : Frame), frameArrives f 1 s = (t, true) →
    (rxStreamOf t f = none →
      exec (.dataWrite f) s = .next (sendEack t f.srcChip 2 f.stream f.eseq 0 St.staleHandle)) ∧
    (∀ part x, rxStreamOf t f = some (part, x) →
      (f.eseq < x.expect ∨ x.got.contains f.eseq = true → exec (.dataWrite f) s = .next (sendAck t f.stream x)) ∧
      (x.got.contains f.eseq = false → x.expect + 4096 ≤ f.eseq → exec (.dataWrite f) s = .next t) ∧
      (x.got.contains f.eseq = false → x.expect ≤ f.eseq → f.eseq < x.expect + 4096 → ∀ r y p,
        r = applyData f part (setChan t f.stream (.stream (gotEseq x f.eseq))) → chanOf r.2 f.stream = some (p, .stream y) →
        (r.1 ≠ 0 → exec (.dataWrite f) s = .next (sendEack r.2 f.srcChip 2 y.peer f.eseq 0 r.1)) ∧
        (r.1 = 0 → 16 ≤ y.unacked + 1 → exec (.dataWrite f) s = .next (sendAck r.2 f.stream y)) ∧
        (r.1 = 0 → y.unacked + 1 < 16 →
          exec (.dataWrite f) s = .next (setChan r.2 f.stream (.stream { y with unacked := y.unacked + 1 })))))

/-- The other frames that are for this module: a read request and the responses go to their stream, an acknowledgement releases
what it covers, a refusal ends the stream or fails the request, a contributed chunk is taken at its home and a reduced chunk is
written, and each is acknowledged. -/
def Obligations.FramesDeliver : Prop :=
  ∀ (s t : State) (f : Frame),
    (frameArrives f 1 s = (t, true) →
      exec (.dataReadResp f) s = .next (streamReceive f (applyData f) t) ∧
      (f.payload.length = 64 → zeroAt f.payload 4 4 = true → zeroAt f.payload 20 44 = true →
        exec (.dataReadReq f) s = .next (streamReceive f (applyRead f) t))) ∧
    (frameArrives f 2 s = (t, true) → f.aux = 2 ^ 31 → f.payload.length = 64 →
      exec (.syncResponse f) s = .next (streamReceive f (applyResponse f) t)) ∧
    (frameArrives f 4 s = (t, true) → ∀ slot p c k, collOfFrame t f = some (slot, p, c) → chunkOfFrame c f = some k →
      chunkHome c k = f.srcChip → f.payload.length = chunkLen c k →
      (f.eseq ≤ c.started → exec (.pressResult f) s = .next (pressAck (writeResult t slot k f.eseq f.payload) f)) ∧
      (c.started < f.eseq → exec (.pressResult f) s = .next t)) ∧
    (frameArrives f 3 s = (t, true) → ∀ slot p c k, collOfFrame t f = some (slot, p, c) → chunkOfFrame c f = some k →
      chunkHome c k = ownChip t → c.chips.getD (bits f.aux 7 0) 0 = f.srcChip → f.payload.length = chunkLen c k →
      ∀ q, q = pressReceive t slot k f.eseq (bits f.aux 7 0) (chunkWords c.fmt f.payload) →
      (q.2 = true → exec (.press f) s = .next (pressAck q.1 f)) ∧ (q.2 = false → exec (.press f) s = .next q.1)) ∧
    (frameArrives f 5 s = (t, true) →
      (∀ slot p c, collById t f.stream = some (slot, p, c) →
        let hit (g : SentFrame) : Bool :=
          (g.typ = 3 || g.typ = 4) && g.dst = f.srcChip && g.stream = f.stream && g.eseq = f.eseq && g.offset = f.offset
        let u := { t with fab := { t.fab with
          sent := t.fab.sent.filter (fun g => !(hit g)), waitq := t.fab.waitq.filter (fun g => !(hit g)) } }
        exec (.pressAck f) s =
          .next (flushWaiting (setColl u slot { c with unacked := c.unacked.filter (fun k => k * 4096 != f.offset) }))) ∧
      (∀ p x, chanOf t f.stream = some (p, .stream x) → x.sender = true → x.chip = f.srcChip →
        exec (.eackAck f) s = .next (closeIfDone (released t (fun g => g.own = f.stream && ackCovers f g.eseq)) f.stream)) ∧
      (∀ g, refusedFrame t f = some g →
        (bits f.aux 15 0 = St.staleHandle → g.own ≠ 0 →
          exec (.eackRefuse f) s = .next (endChan t (hSlot g.own) St.staleHandle)) ∧
        (bits f.aux 15 0 ≠ St.staleHandle → ∀ u, u = released t (sameFrame g) →
          (requestOf t g = none →
            exec (.eackRefuse f) s = .next (closeIfDone (failFrame u g (bits f.aux 15 0)) g.own)) ∧
          (∀ q, requestOf t g = some q →
            exec (.eackRefuse f) s = .next (closeIfDone (failRequest u q (bits f.aux 15 0)) g.own)))))

/-- The end-to-end timers: a stream's acknowledgement, the retransmission of its oldest frame until the chip counts as lost, the
keepalive to a chip without a direct link and the timeout that loses it. -/
def Obligations.PathTimersComplete : Prop :=
  ∀ (s : State),
    (∀ h p x, chanOf s h = some (p, .stream x) → x.sender = false → x.unacked ≠ 0 →
      exec (.e2eAckTimer h) s = .next (sendAck s h x)) ∧
    (∀ h q f, oldestSent s h q = some f → f.sentAt + cfgNat s Key.xtvE2eTimeoutUs * 1000 ≤ s.time →
      (cfgNat s Key.xtvE2eRetryMax ≤ f.retries → exec (.e2eRetransmitTimeout h q) s = .next (chipIsLost s f.dst)) ∧
      (f.retries < cfgNat s Key.xtvE2eRetryMax → exec (.e2eRetransmitTimeout h q) s = .next (resend s f))) ∧
    (∀ chip, chipInUse s chip = true → chipLost s chip = false → directUp s chip = false → chip ≠ ownChip s →
      (reachable s chip = true → lastHeard s chip + 20000 ≤ s.time →
        exec (.e2eKeepaliveTimer chip) s = .next (({ s with fab := { s.fab with
          kept := if s.fab.kept.contains chip then s.fab.kept else s.fab.kept ++ [chip] } }).emit
            (.frame 6 4 chip 0 0 0 0 false 0 []))) ∧
      (chip ≠ 0 → lastHeard s chip + cfgNat s Key.xtvPeerTimeoutUs * 1000 ≤ s.time →
        exec (.peerTimeout chip) s = .next (chipIsLost s chip)))

/-! ## RoCEv2 (chapter 10) -/

/-- A RoCEv2 request of a live queue pair at the PSN expected is performed and answered: SEND, WRITE, READ, FETCH_ADD and
CMP_SWAP. One that was performed before is acknowledged again and not performed; one after a gap is answered with a sequence NAK.
Congestion cuts and restores the rate, and an acknowledgement releases what is outstanding. -/
def Obligations.RoceCompletes : Prop :=
  ∀ (s : State) (qp p : Nat) (q : QpSt), qpLive s qp = some (p, q) →
    (∀ psn ce b, b = noteCe (responder.heardOn s q.port) qp q ce →
      (psn = q.rqPsn →
        (∀ data, exec (.roceSend qp psn data ce) s = .next (roceDone qp psn (packetsOf s qp data.length) (.ok [], b))) ∧
        (∀ addr rkey data imm, exec (.roceWrite qp psn addr rkey data imm ce) s =
          .next (roceDone qp psn (packetsOf s qp data.length) (rdmaApply addr rkey data p q b))) ∧
        (∀ addr rkey len, exec (.roceRead qp psn addr rkey len ce) s =
          .next (roceDone qp psn (packetsOf s qp len) (rdmaRead addr rkey len p q b))) ∧
        (∀ addr rkey a, exec (.roceFetchAdd qp psn addr rkey a ce) s =
          .next (roceDone qp psn 1 (roceAtomic addr rkey (.add a) p q b))) ∧
        (∀ addr rkey c v, exec (.roceCmpSwap qp psn addr rkey c v ce) s =
          .next (roceDone qp psn 1 (roceAtomic addr rkey (.cmpSwap c v) p q b)))) ∧
      (∀ data, psn ≠ q.rqPsn → (q.rqPsn + 2 ^ 24 - psn) % 2 ^ 24 < 2 ^ 23 →
        exec (.roceSend qp psn data ce) s = .next (b.emit (.roceAck qp psn []))) ∧
      (∀ data, psn ≠ q.rqPsn → 2 ^ 23 ≤ (q.rqPsn + 2 ^ 24 - psn) % 2 ^ 24 →
        exec (.roceSend qp psn data ce) s = .next (b.emit (.roceNak qp q.rqPsn Nak.sequence)))) ∧
    (q.lastCut = none → exec (.roceCnp qp) s =
      .next (setChan s qp (.qp { q with lastRise := s.time, rate := q.rate * 7 / 8, lastCut := some s.time }))) ∧
    (∀ psn, exec (.roceAcknowledge qp (.ack psn)) s =
      .next (setChan s qp (.qp { q with outstanding := q.outstanding.filter (fun x => !(psnUpTo psn x)) }))) ∧
    (∀ psn code, code ≠ Nak.sequence → exec (.roceAcknowledge qp (.nak psn code)) s = .next (qpFails s qp)) ∧
    (q.rate ≠ 1000000 → q.lastRise + 55000 ≤ s.time → exec (.roceRateRecovery qp) s =
      .next (setChan s qp (.qp { q with rate := min 1000000 (q.rate + 10000), lastRise := s.time })))

/-! ## Ordering, sync objects and mailboxes (chapter 11) -/

/-- The operations on an allocated object of the agent's partition, and what each leaves in the counter C and answers: ADD, CMP_SWAP,
RELEASE, READ; WAIT answers at once when C has reached its value, and takes a waiter entry otherwise, which its timeout ends with
SYNC_TIMEOUT. The same operations that a frame carries go to its stream. Fences: one of each scope begins and takes what it waits
for, and completes when nothing it waits for is outstanding, with the status of a FABRIC fence's frames. -/
def Obligations.SyncOperationsComplete : Prop :=
  (∀ (s : State),
    (∀ (g : Agent) (p addr n : Nat), agentFenced s g = false → isLocal s addr = true → objFor s p (addrOff addr) = some n →
      (s.objAt n).broken = false →
      let o := s.objAt n
      let me := SyncBy.agent g p
      (∀ a, 0 < a → a < 2 ^ 64 → exec (.syncAdd me addr a) s =
        .next (answerSync (objChanged (s.setObj n { o with c := o.c + BitVec.ofNat 64 a }) n) me 1 o.c.toNat St.ok)) ∧
      (∀ v, o.c.toNat < v → v < 2 ^ 64 →
        exec (.syncCmpSwap me addr o.c.toNat v) s =
          .next (answerSync (objChanged (s.setObj n { o with c := BitVec.ofNat 64 v }) n) me 2 o.c.toNat St.ok)) ∧
      (∀ c v, c < 2 ^ 64 → c ≠ o.c.toNat →
        exec (.syncCmpSwap me addr c v) s = .next (answerSync (s.setObj n o) me 2 o.c.toNat St.ok)) ∧
      (∀ v, v < 2 ^ 64 →
        (o.c.toNat < v → exec (.syncRelease me addr v) s =
          .next (answerSync (objChanged (s.setObj n { o with c := BitVec.ofNat 64 v }) n) me 4 0 St.ok)) ∧
        (v ≤ o.c.toNat → exec (.syncRelease me addr v) s = .next (answerSync (s.setObj n o) me 4 0 St.ok))) ∧
      exec (.syncRead me addr) s = .next (answerSync (s.setObj n o) me 5 o.c.toNat St.ok) ∧
      (∀ v t, 1 ≤ t → t ≤ 4000000 → v < 2 ^ 64 →
        (v ≤ o.c.toNat → exec (.syncWait me addr v t) s = .next (answerSync s me 3 o.c.toNat St.ok)) ∧
        (o.c.toNat < v → s.syn.waiters.length < waiterPool → exec (.syncWait me addr v t) s =
          .next { s with syn := { s.syn with
            waiters := s.syn.waiters ++ [⟨s.syn.nextWaiter, n, v, me, s.time, t⟩], nextWaiter := s.syn.nextWaiter + 1 } }))) ∧
    (∀ id w, s.syn.waiters.find? (fun w => w.id = id) = some w → w.since + w.timeoutUs * 1000 ≤ s.time →
      exec (.syncWaitTimeout id) s = .next (answerSync { s with syn := { s.syn with
        waiters := s.syn.waiters.filter (fun x => x.id != id) } } w.by_ 3 0 St.syncTimeout)) ∧
    (∀ f t addr, frameArrives f 2 s = (t, true) → f.aux = 0 → f.payload.length = 64 →
      (f.op = 1 → exec (.syncAdd (.wire f) addr 0) s =
        .next (streamReceive f (applySync f (.add (beNat (octs f.payload 0 8)))) t)) ∧
      (f.op = 5 → exec (.syncRead (.wire f) addr) s = .next (streamReceive f (applySync f .read) t)) ∧
      (f.op = 3 → exec (.syncWait (.wire f) addr 0 0) s = .next (streamReceive f (applyWait f) t)))) ∧
  (∀ (s : State) (a : Agent),
    (agentFenced s a = false →
      (∀ n, a = .engine n → exec (.fenceLocal a) s =
        .next { s with syn := { s.syn with fences := s.syn.fences ++ [⟨a, 1, [], [], s.time⟩] } }) ∧
      exec (.fenceDie a) s = .next { s with syn := { s.syn with fences := s.syn.fences ++ [⟨a, 2, [], [], s.time⟩] } } ∧
      exec (.fenceFabric a) s =
        .next { s with syn := { s.syn with fences := s.syn.fences ++ [⟨a, 3, agentFrames s a, agentRdma s a, s.time⟩] } }) ∧
    (∀ f, s.syn.fences.find? (fun f => f.agent = a) = some f → fenceWaits s f = false →
      (f.scope = 2 → f.since + 12 ≤ s.time → exec (.fenceComplete a) s = .next (({ s with syn := { s.syn with
        fences := s.syn.fences.filter (fun g => g.agent != a),
        fenceStatus := s.syn.fenceStatus.filter (fun q : Agent × Nat => q.1 != a) ++ [(a, St.ok)] } }).emit (.status a St.ok))) ∧
      (f.scope = 3 → f.since + 12 ≤ s.time → exec (.fenceComplete a) s = .next (({ s with syn := { s.syn with
        fences := s.syn.fences.filter (fun g => g.agent != a),
        lateStatus := s.syn.lateStatus.filter (fun q : Agent × Nat => q.1 != a),
        fenceStatus := s.syn.fenceStatus.filter (fun q : Agent × Nat => q.1 != a) ++ [(a, lateOf s a)] } }).emit (.status a (lateOf s a))))))

/-- Sync objects: a run of free objects is allocated to the partition, freed and configured; the high half of THRESHOLD and of
TARGET writes the whole of it. Mailboxes: the words, the doorbell, its interrupt and the acknowledgement. -/
def Obligations.SyncObjectsAndMailboxesComplete : Prop :=
  ∀ (s : State),
    (∀ sess arg, let p := sessPart s sess
      let n := fld arg 0 4
      (cmdReady s sess Key.syncAlloc arg = true → countRange 0 s arg = 0 → freeFrom n s.syn.objs 0 + n ≤ 65536 →
        let first := freeFrom n s.syn.objs 0
        exec (.syncAlloc sess arg) s = .next (cmdDone s sess Key.syncAlloc
          (doneAt ((List.range n).foldl (fun s i => s.setObj (first + i) { alloc := true, owner := p }) s) first))) ∧
      (cmdReady s sess Key.syncFree arg = true → countRange 4 s arg = 0 →
        let run := (List.range (fld arg 4 4)).map (n + ·)
        run.any (fun n => !(ownsObj s p n)) = false → run.any (objNamed s) = false →
        exec (.syncFree sess arg) s = .next (cmdDone s sess Key.syncFree (doneAt (run.foldl freeObject s) 0))) ∧
      (cmdReady s sess Key.syncConfig arg = true → syncConfigRange s arg = 0 → ownsObj s p n = true → (s.objAt n).broken = false →
        exec (.syncConfig sess arg) s = .next (cmdDone s sess Key.syncConfig
          (doneAt (configObj s n (fld arg 4 1 = 1) (fld arg 8 4) (fld arg 16 8) (fld arg 24 8)) 0)))) ∧
    (∀ agent obj value, (s.objAt obj).broken = false → value < 2 ^ 32 →
      let o := s.objAt obj
      (busStatus s agent (syncReg obj 0x0C) 32 = 0 → exec (.syncThreshHiWrite agent obj value) s =
        .next (objChanged (s.setObj obj { o with thr := BitVec.ofNat 64 (value * 2 ^ 32 + o.thrLo.toNat) }) obj)) ∧
      (busStatus s agent (syncReg obj 0x18) 32 = 0 → exec (.syncTargetHiWrite agent obj value) s =
        .next (s.setObj obj { o with target := BitVec.ofNat 64 (value * 2 ^ 32 + o.targetLo.toNat) }))) ∧
    (∀ m e, m < 64 → let b := s.mbxAt m
      (mbxAdmits s m e = true → isEnd s m b.sender e = true → b.state ≠ 1 →
        (∀ w value, w < 64 → exec (.mbxMsgWrite m e w value) s = .next (mbxAnswer e Key.mbxMsg (St.ok,
          s.setMbx m { b with msg := tput 0 b.msg w (BitVec.ofNat 32 value), wrErr := false }))) ∧
        (∀ len, len ≤ 256 → (b.receiver ≤ 9 → exec (.mbxDoorbell m e len) s = .next (mbxAnswer e Key.mbxDoorbell (St.ok,
            wake (.doorbell m) (s.setMbx m { b with state := 1, len := len, wrErr := false, irq := true })))) ∧
          (9 < b.receiver → exec (.mbxDoorbell m e len) s = .next (mbxAnswer e Key.mbxDoorbell (St.ok,
            s.setMbx m { b with state := 1, len := len, wrErr := false, irq := false })))) ∧
        (∀ len, 256 < len → exec (.mbxDoorbell m e len) s =
          .next (mbxAnswer e Key.mbxDoorbell (St.lengthExceedsBuffer, mbxWrong s m)))) ∧
      ((∀ n, e ≠ .session n) → isEnd s m b.receiver e = true → b.state = 1 → ∀ rc, exec (.mbxAck m e rc) s =
        .next (s.setMbx m { b with rc := bits rc 15 0, state := 2, wrErr := false })) ∧
      ((∀ n, e ≠ .session n) → isEnd s m b.receiver e = true → b.state ≠ 1 → ∀ rc, exec (.mbxAck m e rc) s =
        .next (mbxWrong s m))) ∧
    (∀ m, let b := s.mbxAt m
      b.irq = true → coreRuns s b.receiver = true →
      (b.receiver < 2 → exec (.mbxInterrupt m) s = .next ((s.setMbx m { b with irq := false }).emit (.interrupt m b.receiver))) ∧
      (2 ≤ b.receiver → exec (.mbxInterrupt m) s = .next
        (((s.modVat (b.receiver - 2) (fun v => { v with gated := false })).setMbx m { b with irq := false }).emit
          (.interrupt m b.receiver))))

/-! ## Channels (chapters 10 and 11) -/

/-- The channel objects: each create whose conditions hold takes a slot of the common pool and answers the handle; each destroy of
a channel of its type that the partition owns frees it. Creates that name other chips are those with no peers' answer awaited. -/
def Obligations.ChannelObjectsComplete : Prop :=
  ∀ (s : State) (sess : Nat) (arg : Octets), let p := sessPart s sess
    (∀ slot, pickSlot s = some slot →
      (∀ peers, peersQuiet s sess Key.collCreate = true → cmdReady s sess Key.collCreate arg = true → collStatus s p arg peers = 0 →
        let r := openChan (addPeers s (othersOf s (collArg arg).chips)) slot p (.coll (collArg arg))
        exec (.collCreate sess arg peers) s = .next (cmdDone s sess Key.collCreate (doneAt r.2 r.1))) ∧
      (∀ peers, peersQuiet s sess Key.syncGroupCreate = true → cmdReady s sess Key.syncGroupCreate arg = true →
        groupStatus s p arg peers = 0 →
        let g := groupArg arg
        let r := openChan (addPeers s (othersOf s g.chips)) slot p (.group g)
        (g.rank = g.root → exec (.syncGroupCreate sess arg peers) s =
          .next (cmdDone s sess Key.syncGroupCreate (doneAt (armRoot r.2 g) r.1))) ∧
        (g.rank ≠ g.root → exec (.syncGroupCreate sess arg peers) s =
          .next (cmdDone s sess Key.syncGroupCreate (doneAt r.2 r.1)))) ∧
      (∀ peer h, peersQuiet s sess Key.streamOpen = true → cmdReady s sess Key.streamOpen arg = true → streamRange s arg = 0 →
        fld arg 0 2 ≠ ownChip s → reachable s (fld arg 0 2) = true → peerTrusted s [peer] (fld arg 0 2) = true →
        peer.handle = some h →
        let t := addPeers s [fld arg 0 2]
        let u := { t with sec := { t.sec with drbg := t.sec.drbg + 1 } }
        let r := openChan u slot p
          (.stream { sender := true, chip := fld arg 0 2, cls := fld arg 2 1, peer := h, keyGen := u.sec.drbg })
        exec (.streamOpen (.session sess arg peer)) s = .next (cmdDone s sess Key.streamOpen (doneAt r.2 r.1))) ∧
      (cmdReady s sess Key.qpCreate arg = true → qpRange s arg = 0 → portMode s (fld arg 0 1) = 2 → chanCount s 2 < 16384 →
        let key := (Config.remoteKey s.fresh.1).toNat
        let r := openChan s.fresh.2 slot p (.qp {
          port := fld arg 0 1, pmtu := fld arg 1 1, remoteQpn := fld arg 4 4, sqPsn := fld arg 8 4, rqPsn := fld arg 12 4
          remoteAddr := octs arg 16 16, rkey := key, lastRise := s.time })
        exec (.qpCreate sess arg) s = .next (cmdDone s sess Key.qpCreate
          (doneAt (r.2.modSess sess (fun x => { x with result := natLe 4 (0x100000 + slot) ++ natLe 4 key })) r.1))) ∧
      (cmdReady s sess Key.taskChanOpen arg = true → taskChanRange s arg = 0 →
        let c := taskChanArg arg
        c.base + 64 * c.slots ≤ spaceSize s p 0 → (localObj s p c.posted).isSome = true → (localObj s p c.consumed).isSome = true →
        vatPresent s c.vat = true → counterOf s p c.posted = 0 → counterOf s p c.consumed = 0 → chanCount s 6 < 4096 →
        let r := openChan s slot p (.task c)
        exec (.taskChanOpen sess arg) s = .next (cmdDone s sess Key.taskChanOpen (doneAt r.2 r.1)))) ∧
    (∀ x, let h := leNat arg
      chanOf s h = some (p, x) →
      (chanType x = 5 → cmdReady s sess Key.collDestroy arg = true → exec (.collDestroy sess arg) s =
        .next (cmdDone s sess Key.collDestroy (doneAt (destroyChan (dropFrames s h) (hSlot h)) 0))) ∧
      (∀ t, t = destroyChan (dropFrames s (2 ^ 32)) (hSlot h) →
        (chanType x = 4 → cmdReady s sess Key.syncGroupDestroy arg = true → exec (.syncGroupDestroy sess arg) s =
          .next (cmdDone s sess Key.syncGroupDestroy (doneAt t 0))) ∧
        (chanType x = 3 → cmdReady s sess Key.streamClose arg = true → exec (.streamClose sess arg) s =
          .next (cmdDone s sess Key.streamClose (doneAt t 0))) ∧
        (chanType x = 2 → qpBound s h = false → cmdReady s sess Key.qpDestroy arg = true → exec (.qpDestroy sess arg) s =
          .next (cmdDone s sess Key.qpDestroy (doneAt t 0))) ∧
        (chanType x = 6 → cmdReady s sess Key.taskChanClose arg = true → exec (.taskChanClose sess arg) s =
          .next (cmdDone s sess Key.taskChanClose (doneAt t 0)))))

/-- What runs over channels: a peer's stream opens its receiving end, a task channel's next descriptor is read and posted, and a
collective's next invocation starts and contributes each of its chunks. -/
def Obligations.ChannelEventsComplete : Prop :=
  ∀ (s : State),
    (∀ (r : PeerReport) part cls slot h, pickSlot s = some slot → r.handle = some h → peerTrusted s [r] r.chip = true →
      (part = 0 ∨ partCreated s part = true) → (cls = 0 ∨ cls = 2 ∨ cls = 3) →
      exec (.streamOpen (.peer r part cls)) s = .next (openChan (addPeers s [r.chip]) slot part
        (.stream { sender := false, chip := r.chip, cls := cls, peer := h, keyGen := 0 })).2) ∧
    (∀ chan p c, chanOf s chan = some (p, .task c) → vatServing s c.vat = true → c.read < counterOf s p c.posted →
      (∀ d, memRead s p 0 (c.base + c.read % c.slots * 64) 64 = .ok d → descCheck s (.partition p) d ≠ St.queueFull →
        ∀ t, t = (postTask s (.partition p) d).2 →
        ((postTask s (.partition p) d).1 = 0 → exec (.taskChanDescriptorRead chan) s = .next (descConsumed t chan p c)) ∧
        ((postTask s (.partition p) d).1 ≠ 0 → exec (.taskChanDescriptorRead chan) s =
          .next (descConsumed (descRefused t c.vat p (taskOf d p).taskId (postTask s (.partition p) d).1) chan p c))) ∧
      (∀ e, memRead s p 0 (c.base + c.read % c.slots * 64) 64 = .error e →
        let t := s.modVat c.vat (fun v => { v with refused := v.refused + 1 })
        exec (.taskChanDescriptorRead chan) s = .next (descConsumed (descRefused t c.vat p 0 e) chan p c))) ∧
    (∀ coll p c n, chanOf s coll = some (p, .coll c) → localObj s p c.startObj = some n → c.started < (s.objAt n).c.toNat →
      c.broken = false → c.ended = none → c.finished = c.started → running s = true →
      let t := setColl s (hSlot coll) { c with started := c.started + 1, results := [], unacked := [] }
      exec (.collInvocationStart coll) s =
        .next ((List.range (chunkCount c)).foldl (contribute (hSlot coll) p (c.started + 1)) t))

/-! ## Errors, health and takeover (chapters 13 and 16) -/

/-- The watch over the cores and the units: heartbeats and the watchdog's fence, the gating of a fenced vat, the management core's
reset, its completion and its loss, the store of error records, BRINE slices and what their results do, and the health commands. -/
def Obligations.HealthCompletes : Prop :=
  ∀ (s : State),
    (∀ v, vatCoreRuns s v = true →
      exec (.vatHeartbeat v) s = .next (s.setVat v { s.vatAt v with missed := 0, lastBeat := s.time }) ∧
      ((s.vatAt v).lastBeat + 200000 ≤ s.time → exec (.vatWatchdog v) s = .next (fenceVat
        (s.setVat v { s.vatAt v with missed := 2 }) v { mech := Mech.watchdog, detailA := 2 }))) ∧
    (∀ v t, (s.vatAt v).fenced = some t → (s.vatAt v).gated = false → t + 50000 ≤ s.time →
      ∀ g, g = s.setVat v { s.vatAt v with gated := true } →
      exec (.vatFenceGate v) s = .next ((vatEngines v).foldl (fun s n => s.modEng n (fun e => { e with awake := false }))
        ((g.arr.filter (fun q => q.1 / 2176 = v)).foldl
          (fun s q => s.modArr q.1 (fun a => { a with awake := false, waking := none })) g))) ∧
    (s.pwr.state ≠ .s4 → s.flt.mgmtReset = none → exec .mgmtCoreReset s =
      .next { s with dic := { s.dic with sessions := [] }, flt := { s.flt with mgmtReset := some s.time } }) ∧
    (∀ t, s.flt.mgmtReset = some t →
      (s.flt.mgmtLost = false → exec .mgmtCoreResetDone s = .next { s with flt := { s.flt with mgmtReset := none } }) ∧
      (t + 200000000 ≤ s.time → exec .mgmtRecoveryTimeout s =
        .next { s with flt := { s.flt with mgmtLost := true }, pin := { s.pin with heartbeat := false } })) ∧
    (∀ r t, s.flt.toStore = r :: t → exec .errorRecordPersist s =
      .next { s with flt := { s.flt with toStore := t, store := (r :: s.flt.store).take 256 } }) ∧
    (cfgBool s Key.brineEn = true → running s = true →
      (∀ n, exec (.brineSliceStart (.array n)) s = .next (arrayBrine s n)) ∧
      (∀ n, exec (.brineSliceStart (.engine n)) s = .next (engineBrine s n))) ∧
    (∀ u, sliceRuns s u = true →
      exec (.brineSliceDone u .interrupted) s = .next (sliceEnds s u) ∧
      exec (.brineSliceDone u .passed) s = .next (slicePassed (sliceEnds s u) u) ∧
      (∀ test, exec (.brineSliceDone u (.failed test)) s = .next (sliceFailed (sliceEnds s u) u test))) ∧
    (∀ sess arg u, unitOf arg = some u → unitPresent s u = true → unitRange s arg = 0 →
      (cmdReady s sess Key.healthFence arg = true →
        let r : ErrRec := { mech := Mech.report, status := St.unitFenced }
        (∀ n, u = .array n → exec (.healthFence sess arg) s = .next (cmdDone s sess Key.healthFence (doneAt (fenceArray s n r) 0))) ∧
        (∀ n, u = .engine n →
          exec (.healthFence sess arg) s = .next (cmdDone s sess Key.healthFence (doneAt (fenceEngine s n r) 0))) ∧
        (∀ v, u = .vat v → exec (.healthFence sess arg) s = .next (cmdDone s sess Key.healthFence (doneAt (fenceVat s v r) 0)))) ∧
      (cmdReady s sess Key.healthReadmit arg = true → healthCode s u = 2 →
        exec (.healthReadmit sess arg) s = .next (cmdDone s sess Key.healthReadmit (doneAt (startReadmit s u) 0))) ∧
      (cmdReady s sess Key.healthClear arg = true → healthCode s u = 4 →
        exec (.healthClear sess arg) s = .next (cmdDone s sess Key.healthClear (doneAt (setCode s u 2 0) 0))))

/-- Takeover: a standby adopts a lost module's partition from an envelope that verifies, a member is replaced at the next boundary,
a request is rebound to its new channel, and one that no one rebinds is dropped and journaled as lost. -/
def Obligations.TakeoverCompletes : Prop :=
  ∀ (s : State),
    (∀ sess arg fetch e, peersQuiet s sess Key.recAdopt = true → cmdReady s sess Key.recAdopt arg = true → adoptRange s arg = 0 →
      adoptStatus s (fld arg 2 2) = 0 → fetch.envelope = some e →
      ∀ a, a = adoptWith s (fld arg 2 2) (fld arg 0 2) (fld arg 4 4) (fld arg 12 1) e fetch → a.status = 0 →
      exec (.recAdopt sess arg fetch) s = .next (cmdDone s sess Key.recAdopt a)) ∧
    (∀ sess arg, cmdReady s sess Key.recReplace arg = true → replaceRange s arg = 0 → replaceStatus s arg = 0 →
      exec (.recReplace sess arg) s =
        .next (cmdDone s sess Key.recReplace (stepPend Key.recReplace sess (sessPart s sess) arg (memberLost s)))) ∧
    (∀ sess arg c, let p := sessPart s sess
      let h := fld arg 8 4
      let hit (a : Nat × Nat × JournalReq) : Bool := a.1 = fld arg 0 2 && a.2.1 = fld arg 4 4
      let mine := (s.srv.adopted.filter hit).map (·.2.2)
      cmdReady s sess Key.recRebind arg = true → rebindRange s arg = 0 → reqChanAt s h = some (p, c) → mine ≠ [] →
      s.srv.adoptPart = p → s.srv.adoptDone.isSome = true →
      ∀ t u v, t = { s with srv := { s.srv with adopted := s.srv.adopted.filter (fun a => !(hit a)) } } →
        u = mine.zipIdx.foldl (rebindOne p h) t → v = addRec u h ⟨rebindDoneRecord mine.length, 0, none, batchNow u h, 3⟩ →
        exec (.recRebind sess arg) s = .next (cmdDone s sess Key.recRebind (doneAt (flushChannel
          { v with srv := { v.srv with order := v.srv.order + mine.length, checkpointDue := true } } h) 0))) ∧
    (∀ chip handle t, let hit (a : Nat × Nat × JournalReq) : Bool := a.1 = chip && a.2.1 = handle
      s.srv.adoptDone = some t → s.srv.adopted.any hit = true → t + cfgNat s Key.recRebindS * 1000000000 ≤ s.time →
      exec (.rebindTimeout chip handle) s =
        .next (((s.srv.adopted.filter (fun a => hit a && a.2.2.ended.isNone)).map (·.2.2)).foldl (fun s j =>
          (journalWrite s 3 (octs j.entry 8 8 ++ natLe 2 St.moduleLost ++ natLe 1 0 ++ List.replicate 5 0)).2)
          { s with srv := { s.srv with adopted := s.srv.adopted.filter (fun a => !(hit a)) } }))

/-! ## Power states, throttling and measurement (chapter 14) -/

/-- Power states: a request to wake or to enter a lower state, the automatic entry, its completion, a wake event and the exit; the
loss and the return of the two clocks. -/
def Obligations.PowerStatesComplete : Prop :=
  ∀ (s : State),
    (∀ sess arg, cmdReady s sess Key.pwrStateReq arg = true → targetRange s arg = 0 →
      (leNat arg = 0 → s.pwr.hold = false → s.pwr.entering = none →
        exec (.pwrStateReq sess arg) s = .next (cmdDone s sess Key.pwrStateReq (doneAt s 0))) ∧
      (leNat arg = 0 → s.pwr.hold = false → s.pwr.entering ≠ none →
        exec (.pwrStateReq sess arg) s = .next (cmdDone s sess Key.pwrStateReq (started (wake .stateReq s)))) ∧
      (leNat arg = 1 → lowStatus s 1 = 0 → exec (.pwrStateReq sess arg) s = .next (cmdDone s sess Key.pwrStateReq
        (started { s with pwr := { s.pwr with waitReq := some (sess, 1) } }))) ∧
      (1 < leNat arg → lowStatus s (leNat arg) = 0 → exec (.pwrStateReq sess arg) s = .next (cmdDone s sess Key.pwrStateReq
        (started { s with pwr := { s.pwr with entering := some (stateTarget (leNat arg)) } })))) ∧
    (s.pwr.state = .s0 → s.pwr.entering = none → s.pwr.stop = 0 → cfgBool s Key.pwrAutoS1 = true → moduleIdle s = true →
      lifecycleOf s ≠ Lc.scrapped → lifecycleOf s ≠ Lc.blank → idleFrom s + cfgNat s Key.pwrIdleUs * 1000 ≤ s.time →
      exec .autoS1Entry s = .next { s with pwr := { s.pwr with entering := some .s1 } }) ∧
    (s.pwr.state ≠ .s4 →
      (s.pwr.entering = some .s1 → workIdle s = true → exec .powerStateEntryDone s = .next (entryDone (enterS1 s))) ∧
      (s.pwr.entering = some .s2 → workIdle s = true → exec .powerStateEntryDone s = .next (entryDone (enterS2 s))) ∧
      (s.pwr.entering = some .s3 → s.pwr.stop ≠ 1 →
        exec .powerStateEntryDone s = .next (entryDone (enterS3 St.wrongState s))) ∧
      (s.pwr.entering = some .s3 → s.pwr.stop = 1 → orderedReady s = true →
        exec .powerStateEntryDone s = .next (orderedEnd s))) ∧
    (∀ w, wakes w (pDepth (s.pwr.entering.getD s.pwr.state)) = true → (w = .stateReq → s.pwr.hold = false) →
      exec (.wakeEvent w) s = .next (wake w s)) ∧
    (s.pwr.exiting = true → s.pwr.hold = false → s.pwr.state ≠ .s4 → exec .powerStateExitDone s = .next (exitToS0 s)) ∧
    (s.pwr.refLock = true → ∀ t, t = (List.range 24).foldl (fun s p => (List.range 4).foldl (fun s k =>
        if subCarries (s.subAt p k) then subDown s p k 1 else s) s) s →
      exec .refclkLoss s = .next (({ t with
        pwr := { t.pwr with refLock := false },
        fab := { t.fab with ports := tmapv {} (fun q => { q with
          subs := tmapv {} (fun x => freshSub x (if q.enable then .down else .disabled) t.time) q.subs }) t.fab.ports } } : State).writeErr
            clockErr)) ∧
    (s.pwr.refLock = false → portsPowered s = true →
      exec .refclkRestored s = .next (trainAll { s with pwr := { s.pwr with refLock := true } })) ∧
    (running s = true → ∀ t u, t = { s with pwr := { s.pwr with coreLock := false } } →
      u = (t.arr.filter (fun q => !q.2.products.isEmpty)).foldl (fun s q => restartProducts s q.1) t →
      exec .corePllLockLoss s =
        .next (((u.eng.eng.filter (fun q => q.2.run.isSome)).foldl (fun s q => replayTask s q.1) u).writeErr clockErr)) ∧
    (s.pwr.state = .s0 → s.pwr.coreLock = false →
      exec .corePllRelock s = .next { s with pwr := { s.pwr with coreLock := true } })

/-- The thermal step of R416, T in sixteenths of a degree: the step called for is the least n of 0 to 15 with T ≤ 95 + n, or 15;
n_thermal rises to it at once, falls by one where T ≤ 95 + n_thermal − 2, and otherwise stays. -/
def Obligations.ThermalStepFollowsTheHottestReading : Prop :=
  ∀ (t : Int),
    (∀ k, k ≤ 15 → (wantThermal t ≤ k ↔ k = 15 ∨ t ≤ 16 * (95 + (k : Int)))) ∧
    (∀ n, n ≤ 15 → nextThermal n t ≤ 15 ∧
      (n < wantThermal t → nextThermal n t = wantThermal t) ∧
      (n ≠ 0 → t ≤ 16 * (95 + (n : Int) - 2) → nextThermal n t = n - 1) ∧
      (wantThermal t ≤ n → (n = 0 ∨ 16 * (95 + (n : Int) - 2) < t) → nextThermal n t = n)) ∧
    (wantThermal t = 0 ↔ t ≤ 16 * 95) ∧ (16 * 110 ≤ t → wantThermal t = 15) ∧
    (∀ s i, hottest s = some (i, t) → (∃ q ∈ s.pwr.sensors, q.2.healthy = true ∧ q.2.temp = t) ∧
      ∀ q ∈ s.pwr.sensors, q.2.healthy = true → q.2.temp ≤ t) ∧
    (∀ s i readings, s.pwr.state ≠ .s4 → (∀ x ∈ s.pwr.history.head?, x.1 + (if s.pwr.fast then 50000 else 1000000) ≤ s.time) →
      ∀ m u, m = takeSample s readings → u = (newlyFailed s m).foldl sensorFails m → hottest m = some (i, t) →
      exec (.thermalSample readings) s = .next (holdOff (thermalStop (throttle { u with
        pwr := { u.pwr with nThermal := nextThermal u.pwr.nThermal t } }) t m.pwr.rate)))

/-- Throttling and temperature: the cap's tick, the brake and its ramp, a thermal sample with no healthy reading, the
ordered stop's timeout and the trip. -/
def Obligations.ThrottlingCompletes : Prop :=
  ∀ (s : State), s.pwr.state ≠ .s4 →
    (∀ w, s.pwr.capTick + 1000000 ≤ s.time → exec (.powerCapTick w) s = .next (throttle { s with pwr := { s.pwr with
      nPower := capStep s.pwr.nPower w (cfgNat s Key.pwrCapW), inputW := w, capTick := s.time } })) ∧
    (s.pin.brakeLow = false → s.pwr.stop = 0 →
      ∀ t, t = { s with pin := { s.pin with brakeLow := true },
                        pwr := { s.pwr with brakeIn := true, brakeCnt := Word.bump s.pwr.brakeCnt 1 } } →
      exec .brakeAssert s = .next ((if s.pwr.state = .s0 then applyBrake t else t).writeErr
        { (reportErr St.powerBrake Kind.module 0 0) with mech := Mech.environment })) ∧
    exec .brakeRelease s =
      .next { s with pin := { s.pin with brakeLow := false }, pwr := { s.pwr with brakeIn := false, brakeAt := s.time } } ∧
    (s.pwr.brakeIn = false → s.pwr.nBrake ≠ 0 → s.pwr.brakeAt + 10000 ≤ s.time →
      exec .brakeRampTick s =
        .next (throttle { s with pwr := { s.pwr with nBrake := s.pwr.nBrake - 1, brakeAt := s.time } })) ∧
    (∀ readings, (∀ x ∈ s.pwr.history.head?, x.1 + (if s.pwr.fast then 50000 else 1000000) ≤ s.time) →
      ∀ t u, t = takeSample s readings → u = (newlyFailed s t).foldl sensorFails t →
      hottest t = none → exec (.thermalSample readings) s = .next (holdOff u)) ∧
    (s.pwr.stop = 1 → s.pwr.hold = false → s.pwr.stopBegan + 1500000 ≤ s.time →
      exec .orderedStopTimeout s = .next (fastStop s)) ∧
    (∀ i, i < 288 → ∀ t, t = powerOff { s with pwr := { s.pwr with tripFlag := some (some i) }, flt := { s.flt with toStore := [] } } →
      exec (.thermalTrip (some i)) s = .next { t with pin := { t.pin with tripLatch := true } })

/-- Rails and the measurement converters: an excursion asks for an urgent conversion and the conversion answers it; a sequencer is
triggered by its timer and by a regulator, converts, is calibrated and cleared. -/
def Obligations.MeasurementCompletes : Prop :=
  ∀ (s : State),
    (∀ v, vatPresent s v = true → s.pwr.state = .s0 → (s.vatAt v).railOut = false →
      exec (.railExcursion v) s = .next (askUrgent (s.setVat v { s.vatAt v with railOut := true }))) ∧
    (∀ v, exec (.railRecovered v) s = .next (s.setVat v { s.vatAt v with railOut := false })) ∧
    (∀ v code, s.pwr.state ≠ .s4 → (urgentConv s).isSome = true → v < 8 → code < 4096 → ∀ d, s.pwr.urgSince = some d →
      d + 1100 ≤ s.time →
      ∀ t, t = ({ s with pwr := { s.pwr with
        urgSince := none, urgDone := Word.bump s.pwr.urgDone 1, lastCode := tput 0 s.pwr.lastCode v code } }).emit
          (.urgent (.power v) code) →
      exec (.urgentConversion (.power v) v code) s = .next (if railBad v code then t.writeErr
        { mech := Mech.environment, status := St.supplyFault, unitKind := Kind.vat, unit := v } else t)) ∧
    (∀ k, k < 4 → s.pwr.state ≠ .s4 → convReady s k = true → let q := s.monSeq k
      (q.en = true → q.trig = 0 → q.trigAt + q.period * 1000 ≤ s.time →
        exec (.monTimerTrigger k) s = .next (trigger (s.setMonSeq k { q with trigAt := s.time }) k)) ∧
      (∀ raw, q.running = true → raw < 4096 → q.entryAt + 1000 ≤ s.time →
        let i := tget 0 q.inputs q.entry
        let n := 32 * k + q.entry
        ∀ t, t = s.setMonAcc n (accumulate (s.monAcc n) (codeOf s k i raw)) →
        exec (.monConversionDone k raw) s = .next (entryEnds { t with pwr := { t.pwr with
          lastCode := tput 0 t.pwr.lastCode i (codeOf s k i raw) } } k))) ∧
    (∀ c, c < 12 → s.pwr.state ≠ .s4 → exec (.monVrSync c) s = .next ((List.range 4).foldl (fun t k =>
      if monRuns t && (t.monSeq k).en && (t.monSeq k).trig = 1 && (t.monSeq k).vrSel = c && convReady t k then
        trigger (t.until (s.time + (t.monSeq k).delay * 10)) k else t) s)) ∧
    (∀ sess arg, cmdReady s sess Key.monCalStart arg = true → maskRange s arg = 0 → s.pwr.calState ≠ 1 → leNat arg ≠ 0 →
      exec (.monCalStart (.session sess arg)) s = .next (cmdDone s sess Key.monCalStart (started (startMonCal s (leNat arg))))) ∧
    (∀ agent i v, busStatus s agent 0x1000 32 = 0 →
      exec (.monCalStart (.register agent i v)) s = .next (monRegWrite s 0 v)) ∧
    (∀ c rest a b, s.pwr.calTodo = c :: rest → s.pwr.calState = 1 →
      (tapsAgree a b = true → exec (.monCalDone c [a, b]) s = .next (calAccept s c rest (s.monConv c) b)) ∧
      (tapsAgree a b = false → exec (.monCalDone c [a, b]) s = .next (s.setMonConv c { s.monConv c with suspect := true }))) ∧
    (∀ sess arg, cmdReady s sess Key.monClear arg = true → maskRange s arg = 0 → leNat arg ≠ 0 →
      ∀ t, t = (bitsOf (leNat arg) 4).foldl seqClear s →
      exec (.monClear (.session sess arg)) s = .next (cmdDone s sess Key.monClear (started
        { t with pwr := { t.pwr with clearWait := leNat arg } }))) ∧
    (∀ agent i v, i < 4 → busStatus s agent (0x1040 + 16 * i) 32 = 0 →
      exec (.monClear (.register agent i v)) s = .next (monRegWrite s (0x40 + 16 * i) v))

/-! ## Security and firmware (chapter 15) -/

/-- Lifecycle, partitions, debugging, packages, keys and enrolment: each command whose conditions hold has its effect. -/
def Obligations.SecurityCompletes : Prop :=
  ∀ (s : State),
    (∀ sess arg, cmdReady s sess Key.lcTransition arg = true → lcRange s arg = 0 → lcStatus s (s.sessAt sess).cls (leNat arg) = 0 →
      ((leNat arg = Lc.returned ∨ (leNat arg = Lc.scrapped ∧ lifecycleOf s ≠ Lc.returned)) →
        ∀ t, t = { s with sec := { s.sec with lcTarget := some (leNat arg, sess) } } →
        exec (.lcTransition sess arg) s = .next (cmdDone s sess Key.lcTransition
          (started (((partsOf t).filter (fun p => (t.partAt p).state = 1)).foldl beginRelease t)))) ∧
      (leNat arg ≠ Lc.returned → (leNat arg ≠ Lc.scrapped ∨ lifecycleOf s = Lc.returned) →
        exec (.lcTransition sess arg) s = .next (cmdDone s sess Key.lcTransition (doneAt (lcBlow s (leNat arg)) 0)))) ∧
    (∀ to_ n, s.sec.lcTarget = some (to_, n) → partsOf s = [] → s.mem.zero = [] →
      exec .lcEffectDone s = .next (lcBlow (cmdEnd (lcErase s) Key.lcTransition 0 (cmdWord 2 0 0 0)) to_)) ∧
    (∀ sess arg k, cmdReady s sess Key.secPartCreate arg = true → partCreateRange s arg = 0 → createForbidden s = false →
      (s.partAt (fld arg 0 2)).state = 0 → freeKeySlot s = some k →
      ∀ t, t = s.setPart (fld arg 0 2) { state := 1, rights := fld arg 4 4 } →
      exec (.secPartCreate sess arg) s = .next (cmdDone s sess Key.secPartCreate (doneAt { t with
        mem := { t.mem with keys := tput none t.mem.keys k (some (fld arg 0 2, t.mem.keyGen)), keyGen := t.mem.keyGen + 1 }
        sec := { t.sec with drbg := t.sec.drbg + 1 } } 0))) ∧
    (∀ sess arg, cmdReady s sess Key.secPartAssign arg = true → assignStatus (plannedAssigns s) arg = 0 →
      exec (.secPartAssign sess arg) s =
        .next (cmdDone s sess Key.secPartAssign (stepPend Key.secPartAssign sess (sessPart s sess) arg s))) ∧
    (∀ sess arg, cmdReady s sess Key.secPartRelease arg = true → (s.partAt (leNat arg)).state = 1 →
      exec (.secPartRelease sess arg) s = .next (cmdDone s sess Key.secPartRelease (started (beginRelease s (leNat arg))))) ∧
    (∀ sess arg signer, peersQuiet s sess Key.secDebugUnlock = true → cmdReady s sess Key.secDebugUnlock arg = true →
      unlockStatus s (s.sessAt sess).cls arg signer = 0 →
      ∀ t, t = (if 2 ≤ tokenLevel arg then eraseRetained s else s) →
      exec (.secDebugUnlock sess arg signer) s = .next (cmdDone s sess Key.secDebugUnlock (doneAt (setDebug
        { t with sec := { t.sec with nonce := none } } (tokenLevel arg) (t.time + fld arg 48 4 * 10 ^ 9)) 0))) ∧
    (∀ sess nonce, sessReady s sess = true → admitted 3 (s.sessAt sess).cls = true →
      exec (.secDebugChallenge sess nonce) s = .next (({ s with sec := { s.sec with
        nonce := some (padTo nonce 32, s.time), drbg := s.sec.drbg + 1 } } : State).emit
          (.fap sess ⟨1, 0, 0, Key.secDebugChallenge / 256, Key.secDebugChallenge % 256, 0, challengeOctets s nonce⟩))) ∧
    (∀ sess arg, cmdReady s sess Key.secDebugClose arg = true → leNat arg = 1 →
      exec (.secDebugClose sess arg) s = .next (cmdDone s sess Key.secDebugClose (doneAt (setDebug s 0 0) 0))) ∧
    (s.pwr.state ≠ .s4 → s.sec.debug ≠ 0 → s.sec.debugUntil ≤ s.time → exec .debugExpiry s = .next (setDebug s 0 0)) ∧
    (∀ core, debugCore s core = true →
      (s.flt.halted.contains core = false →
        exec (.coreHalt core) s = .next { s with flt := { s.flt with halted := s.flt.halted ++ [core] } }) ∧
      (s.flt.halted.contains core = true → exec (.coreSingleStep core) s = .next { s with flt := { s.flt with
        coreSteps := tput 0 s.flt.coreSteps core (tget 0 s.flt.coreSteps core + 1) } }) ∧
      exec (.coreResume core) s = .next { s with flt := { s.flt with halted := s.flt.halted.filter (· != core) } }) ∧
    (∀ sess arg crypto, let b := (s.sessAt sess).pkgStage.getD []
      peersQuiet s sess Key.secPkgLoad = true → cmdReady s sess Key.secPkgLoad arg = true → leNat arg = 1 →
      pkgStatus s (sessPart s sess) b crypto = 0 →
      exec (.secPkgLoad sess arg crypto) s = .next (cmdDone s sess Key.secPkgLoad
        (stepPend Key.secPkgLoad sess (sessPart s sess) (pkgOctets (pkgOf (sessPart s sess) b)) s))) ∧
    (∀ sess row rows, sessReady s sess = true → (s.sessAt sess).cls = 2 → rows ≠ [] → (∀ r ∈ rows, r.length = 56) →
      row + rows.length ≤ 64 → enrollStatus s row rows = 0 →
      exec (.secEnrollWrite sess row rows) s = .next (cmdAnswer Key.secEnroll sess (St.ok, enrollApply s row rows))) ∧
    (∀ agent slot, busStatus s agent keyReg 32 = 0 → slot < 256 →
      exec (.secKeyLoad agent slot) s = .next (loadKey { s with mem := { s.mem with keySlot := slot } } slot) ∧
      exec (.secKeyClear agent slot) s = .next (clearKey { s with mem := { s.mem with keySlot := slot } } slot))

/-! ## Firmware, boot and pins (chapters 15 and 16) -/

/-- A staged release is activated in the other bank, its self-test raises the rollback fuse, and a self-test that does not end falls
back to the other bank.
The supply, the reset pin, the latches, the straps and the test access port. -/
def Obligations.FirmwareBootAndPinsComplete : Prop :=
  (∀ (s : State),
    (∀ sess arg crypto, let b := (s.sessAt sess).fwStage.getD []
      peersQuiet s sess Key.fwActivate = true → cmdReady s sess Key.fwActivate arg = true → leNat arg = 1 →
      firmwareStatus s b crypto = 0 →
      (s.sec.bank = 0 → exec (.fwActivate sess arg crypto) s = .next (cmdDone s sess Key.fwActivate
        (doneAt { s with sec := { s.sec with bank1 := some (imageOf b), marked := 1 } } 0))) ∧
      (s.sec.bank = 1 → exec (.fwActivate sess arg crypto) s = .next (cmdDone s sess Key.fwActivate
        (doneAt { s with sec := { s.sec with bank0 := some (imageOf b), marked := 0 } } 0)))) ∧
    (s.pwr.state ≠ .s4 → s.sec.selfTest = false → ∀ svn, svn = ((bankAt s s.sec.bank).map (·.svn)).getD 0 →
      (s.fuse.rollback < svn → lifecycleOf s = Lc.provisioned ∨ lifecycleOf s = Lc.deployed → exec .fwSelfTestDone s =
        .next { s with sec := { s.sec with selfTest := true }, fuse := { s.fuse with rollback := svn } }) ∧
      (svn ≤ s.fuse.rollback → exec .fwSelfTestDone s = .next { s with sec := { s.sec with selfTest := true } })) ∧
    (s.pwr.state ≠ .s4 → s.sec.selfTest = false → s.sec.fallback = false → 30 * 10 ^ 9 ≤ s.time →
      bankStatus s (bankImage s (1 - s.sec.bank)) 0 = 0 →
      exec .fwSelfTestTimeout s = .next (bootBank (powerOff (copyRecords s.fresh.2)) (1 - s.sec.bank) true
        (Config.openStatus s.fresh.1) (trainedSlices s) (trainedPorts s) s.dic.distance))) ∧
  (∀ (s : State),
    (∀ straps check, s.pin.input = false →
      exec (.powerUp straps check) s = .next (bootIfFree { s with pin := { s.pin with input := true } } straps check)) ∧
    (∀ ov, s.pin.input = true → s.pin.overvolt = false →
      (s.pwr.state = .s4 → exec (.supplyLoss ov) s =
        .next { s with pin := { s.pin with input := ov, overvolt := ov } }) ∧
      (s.pwr.state ≠ .s4 → ∀ t, t = powerOff (copyRecords s) → exec (.supplyLoss ov) s =
        .next { t with pin := { t.pin with input := ov, overvolt := ov } })) ∧
    (s.pwr.state = .s4 → exec .resetAssert s = .next { s with pin := { s.pin with reset := true } }) ∧
    (s.pwr.state ≠ .s4 → ∀ t, t = powerOff (copyRecords s) →
      exec .resetAssert s = .next { t with pin := { t.pin with reset := true } }) ∧
    (∀ straps check, s.pin.reset = true →
      exec (.resetRelease straps check) s = .next (bootIfFree { s with pin := { s.pin with reset := false } } straps check)) ∧
    (∀ straps check, s.pin.overvolt = true → exec (.overvoltageLockoutRelease straps check) s =
      .next (bootIfFree { s with pin := { s.pin with overvolt := false } } straps check)) ∧
    (s.pwr.state = .s4 → exec .thermTripLatchClear s =
      .next { s with pin := { s.pin with tripLatch := false, input := false, overvolt := false } }) ∧
    (∀ straps, exec (.slotIdChange straps) s = .next { s with pin := { s.pin with strapPins := straps % 64 } }) ∧
    (s.pwr.state ≠ .s4 →
      exec .jtagIdcode s =
        .next (({ s with pin := { s.pin with tap := some .idcode } } : State).emit (.jtag (steppingNumber s.fuse.stepping % 16 * 2 ^ 28 +
          0xD160 * 2 ^ 12 + 0x2AF * 2 + 1))) ∧
      exec .jtagBypass s = .next { s with pin := { s.pin with tap := some .bypass } } ∧
      (boundaryAllowed s = true →
        exec .jtagSamplePreload s = .next { s with pin := { s.pin with tap := some .samplePreload } } ∧
        exec .jtagExtest s = .next { s with pin := { s.pin with tap := some .extest } }) ∧
      (boundaryAllowed s = false →
        exec .jtagSamplePreload s = .next { s with pin := { s.pin with tap := some .bypass } } ∧
        exec .jtagExtest s = .next { s with pin := { s.pin with tap := some .bypass } }) ∧
      (∀ f, lifecycleOf s = Lc.blank → exec (.jtagFuseProgram f) s = .next (lcBlow { s with
        pin := { s.pin with tap := some .fuse }
        fuse := { s.fuse with
          lot := padTo f.lot 8, wafer := f.wafer % 256, dieX := BitVec.ofInt 8 f.dieX, dieY := BitVec.ofInt 8 f.dieY
          serial := BitVec.ofNat 64 f.serial, mac := padTo f.mac 6, product := padTo f.product 16, uds := padTo f.uds 32 } }
        Lc.vendorTest)) ∧
      (∀ f, lifecycleOf s ≠ Lc.blank → exec (.jtagFuseProgram f) s = .next { s with pin := { s.pin with tap := some .bypass } })) ∧
    exec .jtagTapReset s = .next { s with pin := { s.pin with tap := none } })

end
end

