-- ==== Sys2Proof/Laws/Array.lean ====
section
/-! SUPPORT. What the evaluation of a pass's check columns raises, and that equal counts raise nothing. -/

namespace Sys2Proof.Machine

theorem takeTolerated_raised (l : List (Nat × Nat × Int)) (passes plane kind : Nat) (c : CheckOut) :
    (l.foldl (takeTolerated passes plane kind) c).raised = c.raised := by
  induction l generalizing c with
  | nil => rfl
  | cons m l ih => rw [List.foldl_cons, ih]; rfl

/-- The evaluation raises the first mismatch that is not tolerated. -/
theorem evaluate_raised (passes plane kind : Nat) (a : ArrSt) (counts : List (List Nat)) :
    (evaluate passes plane kind a counts).raised = ((mismatches counts).filter (fun m => !(tolerated m.2.2))).head? := by
  unfold evaluate
  rw [takeTolerated_raised]

theorem mismatch_zero (n q : Nat) : mismatch (List.replicate n 0) q = 0 := by
  have h : ∀ i, (List.replicate n 0).getD i 0 = 0 := by
    intro i
    rw [List.getD_eq_getElem?_getD, List.getElem?_replicate]
    split <;> rfl
  simp only [mismatch, h, List.drop_replicate, List.take_replicate, Nat.mul_zero, Nat.add_zero, List.sum_replicate_nat]
  decide

/-- Counts of zero everywhere mismatch nowhere. -/
theorem mismatches_zero (n : Nat) : mismatches (List.replicate 8 (List.replicate n 0)) = [] := by
  simp [mismatches, mismatch_zero, List.replicate, List.zipIdx]

end Sys2Proof.Machine
end

