-- ==== Sys2Proof/Laws/Bits.lean ====
section
/-! SUPPORT. Laws of the sparse banks: what a read after a write gives, and that writes and removals keep the canonical form. -/

namespace Sys2Proof.Machine

variable {α : Type} [DecidableEq α] {d : α}

/-- The canonical form, said of the whole list: keys rise strictly and no value is the default. -/
theorem twf_iff (t : Tab α) : twf d t = true ↔ t.Pairwise (fun a b => a.1 < b.1) ∧ ∀ q ∈ t, q.2 ≠ d := by
  induction t with
  | nil => simp [twf]
  | cons q t ih =>
    obtain ⟨k, v⟩ := q
    cases t with
    | nil => simp [twf]
    | cons r t =>
      obtain ⟨k', v'⟩ := r
      rw [show twf d ((k, v) :: (k', v') :: t) = (v != d && k < k' && twf d ((k', v') :: t)) from rfl]
      simp only [Bool.and_eq_true, bne_iff_ne, decide_eq_true_eq, ih, List.pairwise_cons, List.mem_cons, forall_eq_or_imp]
      constructor
      · rintro ⟨⟨h₁, h₂⟩, ⟨h₃, h₄⟩, h₅, h₆⟩
        exact ⟨⟨⟨h₂, fun a ha => Nat.lt_trans h₂ (h₃ a ha)⟩, h₃, h₄⟩, h₁, h₅, h₆⟩
      · rintro ⟨⟨⟨h₂, _⟩, h₃, h₄⟩, h₁, h₅, h₆⟩
        exact ⟨⟨h₁, h₂⟩, ⟨h₃, h₄⟩, h₅, h₆⟩

omit [DecidableEq α] in
theorem tget_notin (t : Tab α) (i : Nat) (h : ∀ q ∈ t, q.1 ≠ i) : tget d t i = d := by
  induction t with
  | nil => rfl
  | cons q t ih =>
    obtain ⟨k, v⟩ := q
    have hk : k ≠ i := h (k, v) (by simp)
    simp only [tget, if_neg hk]
    exact ih (fun q hq => h q (by simp [hq]))

/-- A write puts nothing at keys that neither it nor the bank has. -/
theorem tput_keys (t : Tab α) (i : Nat) (v : α) : ∀ q ∈ tput d t i v, q.1 = i ∨ ∃ r ∈ t, r.1 = q.1 := by
  induction t with
  | nil => intro q hq; simp only [tput] at hq; split at hq <;> simp_all
  | cons r t ih =>
    obtain ⟨k, w⟩ := r
    intro q hq
    simp only [tput] at hq
    split at hq
    · split at hq
      · exact .inr ⟨q, hq, rfl⟩
      · rcases List.mem_cons.1 hq with rfl | hq
        · exact .inl rfl
        · exact .inr ⟨q, hq, rfl⟩
    · split at hq
      · split at hq
        · exact .inr ⟨q, List.mem_cons_of_mem _ hq, rfl⟩
        · rcases List.mem_cons.1 hq with rfl | hq
          · exact .inl rfl
          · exact .inr ⟨q, List.mem_cons_of_mem _ hq, rfl⟩
      · rcases List.mem_cons.1 hq with rfl | hq
        · exact .inr ⟨(k, w), by simp, rfl⟩
        · rcases ih q hq with h | ⟨r, hr, h⟩
          · exact .inl h
          · exact .inr ⟨r, List.mem_cons_of_mem _ hr, h⟩

/-- A write keeps the canonical form. -/
theorem twf_tput (t : Tab α) (i : Nat) (v : α) (h : twf d t = true) : twf d (tput d t i v) = true := by
  induction t with
  | nil => simp only [tput]; split <;> simp_all [twf]
  | cons r t ih =>
    obtain ⟨k, w⟩ := r
    rw [twf_iff] at h
    obtain ⟨hp, hd⟩ := h
    rw [List.pairwise_cons] at hp
    have ht : twf d t = true := (twf_iff t).2 ⟨hp.2, fun q hq => hd q (by simp [hq])⟩
    have hw : w ≠ d := hd (k, w) (by simp)
    have whole : twf d ((k, w) :: t) = true := (twf_iff _).2 ⟨List.pairwise_cons.2 hp, hd⟩
    simp only [tput]
    split
    · split
      · exact whole
      · rw [twf_iff] at whole ⊢
        refine ⟨List.pairwise_cons.2 ⟨fun q hq => ?_, whole.1⟩, fun q hq => ?_⟩
        · rcases List.mem_cons.1 hq with rfl | hq
          · assumption
          · exact Nat.lt_trans ‹i < k› (hp.1 q hq)
        · rcases List.mem_cons.1 hq with rfl | hq
          · assumption
          · exact whole.2 q hq
    · split
      · subst_vars
        split
        · exact ht
        · rw [twf_iff] at ht ⊢
          refine ⟨List.pairwise_cons.2 ⟨fun q hq => hp.1 q hq, ht.1⟩, fun q hq => ?_⟩
          rcases List.mem_cons.1 hq with rfl | hq
          · assumption
          · exact ht.2 q hq
      · have hx := (twf_iff _).1 (ih ht)
        rw [twf_iff]
        refine ⟨List.pairwise_cons.2 ⟨fun q hq => ?_, hx.1⟩, fun q hq => ?_⟩
        · rcases tput_keys t i v q hq with e | ⟨r, hr, e⟩
          · simp only [e]; omega
          · rw [← e]; exact hp.1 r hr
        · rcases List.mem_cons.1 hq with rfl | hq
          · exact hw
          · exact hx.2 q hq

/-- Removing entries keeps the canonical form. -/
theorem twf_filter (t : Tab α) (p : Nat × α → Bool) (h : twf d t = true) : twf d (t.filter p) = true := by
  rw [twf_iff] at h ⊢
  exact ⟨h.1.filter p, fun q hq => h.2 q (List.mem_filter.1 hq).1⟩

/-- A read after a write at the same key gives what was written. -/
theorem tget_tput_same (t : Tab α) (i : Nat) (v : α) (h : twf d t = true) : tget d (tput d t i v) i = v := by
  induction t with
  | nil => simp only [tput]; split <;> simp_all [tget]
  | cons r t ih =>
    obtain ⟨k, w⟩ := r
    rw [twf_iff] at h
    obtain ⟨hp, hd⟩ := h
    rw [List.pairwise_cons] at hp
    have ht : twf d t = true := (twf_iff t).2 ⟨hp.2, fun q hq => hd q (by simp [hq])⟩
    simp only [tput]
    split
    · split
      · subst_vars
        refine tget_notin _ _ (fun q hq => ?_)
        rcases List.mem_cons.1 hq with rfl | hq
        · simp only; omega
        · have := hp.1 q hq; simp only at this; omega
      · simp [tget]
    · split
      · subst_vars
        split
        · subst_vars
          refine tget_notin _ _ (fun q hq => ?_)
          have := hp.1 q hq; simp only at this; omega
        · simp [tget]
      · rw [tget, if_neg (by omega)]
        exact ih ht

/-- A write leaves every other key as it is. -/
theorem tget_tput_ne (t : Tab α) (i j : Nat) (v : α) (hij : j ≠ i) : tget d (tput d t i v) j = tget d t j := by
  induction t with
  | nil => simp only [tput]; split <;> simp [tget, Ne.symm hij]
  | cons r t ih =>
    obtain ⟨k, w⟩ := r
    simp only [tput]
    split
    · split
      · rfl
      · simp [tget, Ne.symm hij]
    · split
      · subst_vars
        split <;> simp [tget, Ne.symm hij]
      · simp only [tget]
        split
        · rfl
        · exact ih

/-- A read after a change of one entry. -/
theorem tget_tput (t : Tab α) (i j : Nat) (v : α) (h : twf d t = true) :
    tget d (tput d t i v) j = if j = i then v else tget d t j := by
  split
  · subst_vars; exact tget_tput_same t _ v h
  · exact tget_tput_ne t i j v ‹_›

/-- A value that is not the default reads back whatever the form of the bank. -/
theorem tget_tput_of_ne (t : Tab α) (i : Nat) (v : α) (hv : v ≠ d) : tget d (tput d t i v) i = v := by
  induction t with
  | nil => simp [tput, tget, hv]
  | cons q t ih =>
    obtain ⟨k, w⟩ := q
    simp only [tput, if_neg hv]
    split
    · simp [tget]
    · split
      · simp [tget]
      · have : ¬ k = i := fun h => ‹¬ i = k› h.symm
        rw [tget, if_neg this, ih]

end Sys2Proof.Machine
end

