-- ==== Sys2Proof/Laws/Command.lean ====
section
/-! SUPPORT. The path of a command object's write, said once: an admitted command answers with what its body gives. -/

namespace Sys2Proof.Machine

/-- A ready session's write within the object's range runs the body. -/
theorem cmdRow_ready {k : Nat} {range : State → Octets → Nat} {body : Nat → Nat → Octets → State → CmdAns}
    {sess : Nat} {arg : Octets} {s : State} (h : cmdReady s sess k arg = true) (hr : range s arg = 0) :
    cmdRow k (cmdWrite k range body) sess arg s = cmdDone s sess k (body sess (sessPart s sess) arg s) := by
  unfold cmdReady at h
  simp only [Bool.and_eq_true, beq_iff_eq] at h
  obtain ⟨⟨h₁, h₂⟩, h₃⟩ := h
  cases ho : objRow k with
  | none => rw [ho] at h₃; simp at h₃
  | some r =>
    rw [ho] at h₃
    simp only [Option.any_some, Bool.and_eq_true, beq_iff_eq, Bool.not_eq_true'] at h₃
    obtain ⟨⟨h₄, h₅⟩, h₆⟩ := h₃
    simp [cmdRow, h₁, cmdWrite, ho, h₄, h₅, hr, h₆, h₂, cmdDone, Option.elim]

/-- With no peers' answer awaited, a row that carries peers' answers is a command row. -/
theorem peerRow_ready {k : Nat} {range : State → Octets → Nat} {body : Nat → Nat → Octets → State → CmdAns}
    {sess : Nat} {arg : Octets} {s : State} (hq : peersQuiet s sess k = true) (h : cmdReady s sess k arg = true)
    (hr : range s arg = 0) :
    peerRow k body (cmdWrite k range body) sess arg s = cmdDone s sess k (body sess (sessPart s sess) arg s) := by
  unfold peersQuiet at hq
  simp only [Option.isNone_iff_eq_none] at hq
  simp only [peerRow, hq]
  exact cmdRow_ready h hr

end Sys2Proof.Machine
end

