-- ==== Sys2Proof/Laws/Keeps.lean ====
section
/-! SUPPORT. `Keeps s t`: what every change of the state that a command makes keeps. It is reflexive and transitive, and the
laws of the shared operations say that each of them makes such a change. -/

namespace Sys2Proof.Machine

/-- What every change keeps: the queue, the memory's canonical form, the fuses, the debug level of a scrapped module, what was
sent and the powered time. -/
structure Keeps (s t : State) : Prop where
  pending : t.pending = s.pending
  mem : Memory.wf s.mem.bytes = true → Memory.wf t.mem.bytes = true
  oneWay : fusesOneWay s t
  identity : s.fuse.lifecycleBits ≠ 0 → sameIdentity s t
  closed : scrappedClosed s → scrappedClosed t
  sent : sentKept s t
  powered : s.powered ≤ t.powered

theorem Keeps.refl (s : State) : Keeps s s :=
  ⟨rfl, id, ⟨by simp, Nat.le_refl _⟩, fun _ => ⟨rfl, rfl, rfl, rfl, rfl, rfl, rfl, rfl, rfl, rfl⟩, id, ⟨[], rfl⟩, Nat.le_refl _⟩

theorem bits_kept {a b : BitVec 5} (h : a &&& b = a) (hz : a ≠ 0) : b ≠ 0 := by
  rintro rfl
  exact hz (by simpa using h.symm)

theorem Keeps.trans {s t u : State} (a : Keeps s t) (b : Keeps t u) : Keeps s u where
  pending := b.pending.trans a.pending
  mem h := b.mem (a.mem h)
  oneWay := by
    refine ⟨?_, Nat.le_trans a.oneWay.2 b.oneWay.2⟩
    have h₁ := a.oneWay.1
    have h₂ := b.oneWay.1
    calc s.fuse.lifecycleBits &&& u.fuse.lifecycleBits
        = (s.fuse.lifecycleBits &&& t.fuse.lifecycleBits) &&& u.fuse.lifecycleBits := by rw [h₁]
      _ = s.fuse.lifecycleBits &&& (t.fuse.lifecycleBits &&& u.fuse.lifecycleBits) := BitVec.and_assoc _ _ _
      _ = s.fuse.lifecycleBits := by rw [h₂, h₁]
  identity h := by
    have x := a.identity h
    have y := b.identity (bits_kept a.oneWay.1 h)
    exact ⟨y.1.trans x.1, y.2.1.trans x.2.1, y.2.2.1.trans x.2.2.1, y.2.2.2.1.trans x.2.2.2.1,
      y.2.2.2.2.1.trans x.2.2.2.2.1, y.2.2.2.2.2.1.trans x.2.2.2.2.2.1, y.2.2.2.2.2.2.1.trans x.2.2.2.2.2.2.1,
      y.2.2.2.2.2.2.2.1.trans x.2.2.2.2.2.2.2.1, y.2.2.2.2.2.2.2.2.1.trans x.2.2.2.2.2.2.2.2.1,
      y.2.2.2.2.2.2.2.2.2.trans x.2.2.2.2.2.2.2.2.2⟩
  closed h := b.closed (a.closed h)
  sent := by
    obtain ⟨l, h⟩ := a.sent
    obtain ⟨m, k⟩ := b.sent
    exact ⟨m ++ l, by rw [k, h, List.append_assoc]⟩
  powered := Nat.le_trans a.powered b.powered

/-- A change of the memory, of the debug level, of what was sent or of the powered time keeps when it keeps those. -/
theorem Keeps.of_debug {s t : State} (hp : t.pending = s.pending)
    (hm : Memory.wf s.mem.bytes = true → Memory.wf t.mem.bytes = true) (hf : t.fuse = s.fuse)
    (hd : scrapBlown s = true → s.sec.debug = 0 → t.sec.debug = 0) (ho : sentKept s t) (hw : s.powered ≤ t.powered) :
    Keeps s t where
  pending := hp
  mem := hm
  oneWay := by unfold fusesOneWay; rw [hf]; exact ⟨by simp, Nat.le_refl _⟩
  identity _ := by unfold sameIdentity; rw [hf]; exact ⟨rfl, rfl, rfl, rfl, rfl, rfl, rfl, rfl, rfl, rfl⟩
  closed h hb := by
    have hs : scrapBlown s = true := by unfold scrapBlown at *; rw [← hf]; exact hb
    exact hd hs (h hs)
  sent := ho
  powered := hw

theorem Keeps.of_eq {s t : State} (hp : t.pending = s.pending) (hm : Memory.wf s.mem.bytes = true → Memory.wf t.mem.bytes = true)
    (hf : t.fuse = s.fuse) (hd : t.sec.debug = s.sec.debug) (ho : sentKept s t) (hw : s.powered ≤ t.powered) : Keeps s t :=
  .of_debug hp hm hf (fun _ h => hd.trans h) ho hw

/-- A change of any other field keeps. -/
theorem Keeps.mk_rest {s₀ s : State} (h : Keeps s₀ s) {dic arr vat eng whl kv emb srv fab syn flt pwr pin time free} :
    Keeps s₀ ⟨s.fuse, dic, arr, vat, eng, whl, kv, emb, srv, s.mem, fab, syn, flt, pwr, s.sec, pin, time, s.powered, free,
      s.out, s.pending⟩ :=
  ⟨h.pending, h.mem, h.oneWay, h.identity, h.closed, h.sent, h.powered⟩

theorem Keeps.mk_mem {s₀ s : State} (h : Keeps s₀ s) {dic arr vat eng whl kv emb srv regions poison garbled rewritten slices
    keys keyGen keySlot zero nextJob fab syn flt pwr pin time free} :
    Keeps s₀ ⟨s.fuse, dic, arr, vat, eng, whl, kv, emb, srv,
      ⟨s.mem.bytes, regions, poison, garbled, rewritten, slices, keys, keyGen, keySlot, zero, nextJob⟩, fab, syn, flt, pwr,
      s.sec, pin, time, s.powered, free, s.out, s.pending⟩ :=
  ⟨h.pending, h.mem, h.oneWay, h.identity, h.closed, h.sent, h.powered⟩

theorem Keeps.mk_sec {s₀ s : State} (h : Keeps s₀ s) {dic arr vat eng whl kv emb srv fab syn flt pwr parts enroll debugUntil
    nonce akGen lcTarget bank0 bank1 bank marked fallback selfTest drbg pin time free} :
    Keeps s₀ ⟨s.fuse, dic, arr, vat, eng, whl, kv, emb, srv, s.mem, fab, syn, flt, pwr,
      ⟨parts, enroll, s.sec.debug, debugUntil, nonce, akGen, lcTarget, bank0, bank1, bank, marked, fallback, selfTest, drbg⟩,
      pin, time, s.powered, free, s.out, s.pending⟩ :=
  ⟨h.pending, h.mem, h.oneWay, h.identity, h.closed, h.sent, h.powered⟩

theorem Keeps.mk_mem_sec {s₀ s : State} (h : Keeps s₀ s) {dic arr vat eng whl kv emb srv regions poison garbled rewritten
    slices keys keyGen keySlot zero nextJob fab syn flt pwr parts enroll debugUntil nonce akGen lcTarget bank0 bank1 bank
    marked fallback selfTest drbg pin time free} :
    Keeps s₀ ⟨s.fuse, dic, arr, vat, eng, whl, kv, emb, srv,
      ⟨s.mem.bytes, regions, poison, garbled, rewritten, slices, keys, keyGen, keySlot, zero, nextJob⟩, fab, syn, flt, pwr,
      ⟨parts, enroll, s.sec.debug, debugUntil, nonce, akGen, lcTarget, bank0, bank1, bank, marked, fallback, selfTest, drbg⟩,
      pin, time, s.powered, free, s.out, s.pending⟩ :=
  ⟨h.pending, h.mem, h.oneWay, h.identity, h.closed, h.sent, h.powered⟩

theorem Keeps.ite {s₀ a b : State} {c : Prop} [Decidable c] (ha : c → Keeps s₀ a) (hb : ¬c → Keeps s₀ b) :
    Keeps s₀ (if c then a else b) := by
  split
  · exact ha ‹_›
  · exact hb ‹_›

theorem Keeps.ite_snd {α : Type} {s₀ : State} {a b : α × State} {c : Prop} [Decidable c] (ha : c → Keeps s₀ a.2)
    (hb : ¬c → Keeps s₀ b.2) : Keeps s₀ (if c then a else b).2 := by
  split
  · exact ha ‹_›
  · exact hb ‹_›

theorem Keeps.ite_fst {α : Type} {s₀ : State} {a b : State × α} {c : Prop} [Decidable c] (ha : c → Keeps s₀ a.1)
    (hb : ¬c → Keeps s₀ b.1) : Keeps s₀ (if c then a else b).1 := by
  split
  · exact ha ‹_›
  · exact hb ‹_›

theorem Keeps.ite_st {s₀ : State} {a b : CmdAns} {c : Prop} [Decidable c] (ha : c → Keeps s₀ a.st)
    (hb : ¬c → Keeps s₀ b.st) : Keeps s₀ (if c then a else b).st := by
  split
  · exact ha ‹_›
  · exact hb ‹_›

theorem Keeps.foldl {α : Type} {s₀ : State} {f : State → α → State} {s : State} {l : List α}
    (hf : ∀ s x, Keeps s₀ s → Keeps s₀ (f s x)) (h : Keeps s₀ s) : Keeps s₀ (l.foldl f s) := by
  induction l generalizing s with
  | nil => exact h
  | cons x l ih => exact ih (hf s x h)

theorem Keeps.foldl_snd {α β : Type} {s₀ : State} {f : β × State → α → β × State} {a : β × State} {l : List α}
    (hf : ∀ a x, Keeps s₀ a.2 → Keeps s₀ (f a x).2) (h : Keeps s₀ a.2) : Keeps s₀ (l.foldl f a).2 := by
  induction l generalizing a with
  | nil => exact h
  | cons x l ih => exact ih (hf a x h)

/-- An outcome keeps when its next state does. -/
structure KeepsO (s₀ : State) (o : Host.Outcome State Fault Refusal) : Prop where
  keeps : ∀ t, o = .next t → Keeps s₀ t

theorem KeepsO.next {s₀ t : State} (h : Keeps s₀ t) : KeepsO s₀ (.next t) := by
  constructor
  intro u hu
  cases hu
  exact h

theorem KeepsO.ite {s₀ : State} {a b : Host.Outcome State Fault Refusal} {c : Prop} [Decidable c] (ha : c → KeepsO s₀ a)
    (hb : ¬c → KeepsO s₀ b) : KeepsO s₀ (if c then a else b) := by
  split
  · exact ha ‹_›
  · exact hb ‹_›

end Sys2Proof.Machine
end

