-- ==== Sys2Proof/Laws/KeepsOps.lean ====
section
/-! SUPPORT. Each operation of Machine/Ops.lean makes a change that `Keeps`. -/

namespace Sys2Proof.Machine

theorem State.setArr_keeps {s₀ : State} (s : State) (n : Nat) (a : ArrSt) (hk : Keeps s₀ s) : Keeps s₀ (State.setArr s n a) := by
  unfold State.setArr
  try dsimp only
  repeat' first
    | with_reducible first
      | assumption
      | intro _
    | (with_reducible first | apply Keeps.mk_rest | apply Keeps.mk_mem | apply Keeps.mk_sec | apply Keeps.mk_mem_sec) <;> first
      | with_reducible first
        | assumption
    | dsimp only

theorem State.modArr_keeps {s₀ : State} (s : State) (n : Nat) (f : ArrSt → ArrSt) (hk : Keeps s₀ s) : Keeps s₀ (State.modArr s n f) := by
  unfold State.modArr
  try dsimp only
  repeat' first
    | with_reducible first
      | assumption
      | intro _
      | apply State.setArr_keeps
    | dsimp only

theorem State.setVat_keeps {s₀ : State} (s : State) (v : Nat) (a : VatSt) (hk : Keeps s₀ s) : Keeps s₀ (State.setVat s v a) := by
  unfold State.setVat
  try dsimp only
  repeat' first
    | with_reducible first
      | assumption
      | intro _
    | (with_reducible first | apply Keeps.mk_rest | apply Keeps.mk_mem | apply Keeps.mk_sec | apply Keeps.mk_mem_sec) <;> first
      | with_reducible first
        | assumption
    | dsimp only

theorem State.modVat_keeps {s₀ : State} (s : State) (v : Nat) (f : VatSt → VatSt) (hk : Keeps s₀ s) : Keeps s₀ (State.modVat s v f) := by
  unfold State.modVat
  try dsimp only
  repeat' first
    | with_reducible first
      | assumption
      | intro _
      | apply State.setVat_keeps
    | dsimp only

theorem State.setEng_keeps {s₀ : State} (s : State) (n : Nat) (e : EngSt) (hk : Keeps s₀ s) : Keeps s₀ (State.setEng s n e) := by
  unfold State.setEng
  try dsimp only
  repeat' first
    | with_reducible first
      | assumption
      | intro _
    | (with_reducible first | apply Keeps.mk_rest | apply Keeps.mk_mem | apply Keeps.mk_sec | apply Keeps.mk_mem_sec) <;> first
      | with_reducible first
        | assumption
    | dsimp only

theorem State.modEng_keeps {s₀ : State} (s : State) (n : Nat) (f : EngSt → EngSt) (hk : Keeps s₀ s) : Keeps s₀ (State.modEng s n f) := by
  unfold State.modEng
  try dsimp only
  repeat' first
    | with_reducible first
      | assumption
      | intro _
      | apply State.setEng_keeps
    | dsimp only

theorem State.setPart_keeps {s₀ : State} (s : State) (p : Nat) (a : PartSt) (hk : Keeps s₀ s) : Keeps s₀ (State.setPart s p a) := by
  unfold State.setPart
  try dsimp only
  repeat' first
    | with_reducible first
      | assumption
      | intro _
    | (with_reducible first | apply Keeps.mk_rest | apply Keeps.mk_mem | apply Keeps.mk_sec | apply Keeps.mk_mem_sec) <;> first
      | with_reducible first
        | assumption
    | dsimp only

theorem State.setWhl_keeps {s₀ : State} (s : State) (p : Nat) (w : WhlSt) (hk : Keeps s₀ s) : Keeps s₀ (State.setWhl s p w) := by
  unfold State.setWhl
  try dsimp only
  repeat' first
    | with_reducible first
      | assumption
      | intro _
    | (with_reducible first | apply Keeps.mk_rest | apply Keeps.mk_mem | apply Keeps.mk_sec | apply Keeps.mk_mem_sec) <;> first
      | with_reducible first
        | assumption
    | dsimp only

theorem State.modWhl_keeps {s₀ : State} (s : State) (p : Nat) (f : WhlSt → WhlSt) (hk : Keeps s₀ s) : Keeps s₀ (State.modWhl s p f) := by
  unfold State.modWhl
  try dsimp only
  repeat' first
    | with_reducible first
      | assumption
      | intro _
      | apply State.setWhl_keeps
    | dsimp only

theorem State.setSlice_keeps {s₀ : State} (s : State) (k : Nat) (a : SliceSt) (hk : Keeps s₀ s) : Keeps s₀ (State.setSlice s k a) := by
  unfold State.setSlice
  try dsimp only
  repeat' first
    | with_reducible first
      | assumption
      | intro _
    | (with_reducible first | apply Keeps.mk_rest | apply Keeps.mk_mem | apply Keeps.mk_sec | apply Keeps.mk_mem_sec) <;> first
      | with_reducible first
        | assumption
    | dsimp only

theorem State.setObj_keeps {s₀ : State} (s : State) (n : Nat) (o : SyncObj) (hk : Keeps s₀ s) : Keeps s₀ (State.setObj s n o) := by
  unfold State.setObj
  try dsimp only
  repeat' first
    | with_reducible first
      | assumption
      | intro _
    | (with_reducible first | apply Keeps.mk_rest | apply Keeps.mk_mem | apply Keeps.mk_sec | apply Keeps.mk_mem_sec) <;> first
      | with_reducible first
        | assumption
    | dsimp only

theorem State.setSlot_keeps {s₀ : State} (s : State) (n : Nat) (c : ChanSlot) (hk : Keeps s₀ s) : Keeps s₀ (State.setSlot s n c) := by
  unfold State.setSlot
  try dsimp only
  repeat' first
    | with_reducible first
      | assumption
      | intro _
    | (with_reducible first | apply Keeps.mk_rest | apply Keeps.mk_mem | apply Keeps.mk_sec | apply Keeps.mk_mem_sec) <;> first
      | with_reducible first
        | assumption
    | dsimp only

theorem State.setMbx_keeps {s₀ : State} (s : State) (n : Nat) (m : Mbx) (hk : Keeps s₀ s) : Keeps s₀ (State.setMbx s n m) := by
  unfold State.setMbx
  try dsimp only
  repeat' first
    | with_reducible first
      | assumption
      | intro _
    | (with_reducible first | apply Keeps.mk_rest | apply Keeps.mk_mem | apply Keeps.mk_sec | apply Keeps.mk_mem_sec) <;> first
      | with_reducible first
        | assumption
    | dsimp only

theorem State.setPort_keeps {s₀ : State} (s : State) (p : Nat) (a : PortSt) (hk : Keeps s₀ s) : Keeps s₀ (State.setPort s p a) := by
  unfold State.setPort
  try dsimp only
  repeat' first
    | with_reducible first
      | assumption
      | intro _
    | (with_reducible first | apply Keeps.mk_rest | apply Keeps.mk_mem | apply Keeps.mk_sec | apply Keeps.mk_mem_sec) <;> first
      | with_reducible first
        | assumption
    | dsimp only

theorem State.modPort_keeps {s₀ : State} (s : State) (p : Nat) (f : PortSt → PortSt) (hk : Keeps s₀ s) : Keeps s₀ (State.modPort s p f) := by
  unfold State.modPort
  try dsimp only
  repeat' first
    | with_reducible first
      | assumption
      | intro _
      | apply State.setPort_keeps
    | dsimp only

theorem State.setSub_keeps {s₀ : State} (s : State) (p k : Nat) (a : SubSt) (hk : Keeps s₀ s) : Keeps s₀ (State.setSub s p k a) := by
  unfold State.setSub
  try dsimp only
  repeat' first
    | with_reducible first
      | assumption
      | intro _
      | apply State.modPort_keeps
    | (with_reducible first | apply Keeps.mk_rest | apply Keeps.mk_mem | apply Keeps.mk_sec | apply Keeps.mk_mem_sec) <;> first
      | with_reducible first
        | assumption
        | apply State.modPort_keeps
    | dsimp only

theorem State.modSub_keeps {s₀ : State} (s : State) (p k : Nat) (f : SubSt → SubSt) (hk : Keeps s₀ s) : Keeps s₀ (State.modSub s p k f) := by
  unfold State.modSub
  try dsimp only
  repeat' first
    | with_reducible first
      | assumption
      | intro _
      | apply State.setSub_keeps
    | dsimp only

theorem State.setSess_keeps {s₀ : State} (s : State) (n : Nat) (a : Session) (hk : Keeps s₀ s) : Keeps s₀ (State.setSess s n a) := by
  unfold State.setSess
  try dsimp only
  repeat' first
    | with_reducible first
      | assumption
      | intro _
    | (with_reducible first | apply Keeps.mk_rest | apply Keeps.mk_mem | apply Keeps.mk_sec | apply Keeps.mk_mem_sec) <;> first
      | with_reducible first
        | assumption
    | dsimp only

theorem State.modSess_keeps {s₀ : State} (s : State) (n : Nat) (f : Session → Session) (hk : Keeps s₀ s) : Keeps s₀ (State.modSess s n f) := by
  unfold State.modSess
  try dsimp only
  repeat' first
    | with_reducible first
      | assumption
      | intro _
      | apply State.setSess_keeps
    | dsimp only

theorem State.emit_keeps {s₀ s : State} (o : Out) (h : Keeps s₀ s) : Keeps s₀ (s.emit o) :=
  h.trans (.of_eq rfl id rfl rfl ⟨[o], rfl⟩ (Nat.le_refl _))

theorem State.emits_keeps {s₀ s : State} (l : List Out) (h : Keeps s₀ s) : Keeps s₀ (s.emits l) :=
  h.trans (.of_eq rfl id rfl rfl ⟨l.reverse, rfl⟩ (Nat.le_refl _))

theorem State.fresh_keeps {s₀ : State} (s : State) (hk : Keeps s₀ s) : Keeps s₀ (State.fresh s).2 := by
  unfold State.fresh
  try dsimp only
  repeat' first
    | with_reducible first
      | assumption
      | intro _
    | (with_reducible first | apply Keeps.mk_rest | apply Keeps.mk_mem | apply Keeps.mk_sec | apply Keeps.mk_mem_sec) <;> first
      | with_reducible first
        | assumption
    | dsimp only

theorem State.tel_keeps {s₀ : State} (s : State) (p tokens passes ns bytes : Nat) (hk : Keeps s₀ s) : Keeps s₀ (State.tel s p tokens passes ns bytes) := by
  unfold State.tel
  try dsimp only
  repeat' first
    | with_reducible first
      | assumption
      | intro _
      | refine Keeps.ite ?_ ?_
      | refine Keeps.ite_snd ?_ ?_
      | apply Keeps.ite_fst
    | (with_reducible first | apply Keeps.mk_rest | apply Keeps.mk_mem | apply Keeps.mk_sec | apply Keeps.mk_mem_sec) <;> first
      | with_reducible first
        | assumption
        | refine Keeps.ite ?_ ?_
      | split
    | split
    | dsimp only

/-- A list of byte writes keeps the canonical form. -/
theorem putBytes_wf (m : Tab Byte) (ks : List Nat) (b : Octets) (h : Memory.wf m = true) :
    Memory.wf (putBytes m ks b) = true := by
  induction ks generalizing m b with
  | nil => cases b <;> exact h
  | cons k ks ih =>
    cases b with
    | nil => exact h
    | cons x b => exact ih _ _ (twf_tput _ _ _ h)

theorem memWrite_keeps {s₀ s : State} (part tier off : Nat) (d : Octets) (h : Keeps s₀ s) :
    Keeps s₀ (memWrite s part tier off d).2 := by
  unfold memWrite
  dsimp only
  refine Keeps.ite_snd (fun _ => h) (fun _ => Keeps.ite_snd (fun _ => h) (fun _ => State.tel_keeps _ _ _ _ _ _ ?_))
  exact h.trans (.of_eq rfl (fun hm => putBytes_wf _ _ _ hm) rfl rfl ⟨[], rfl⟩ (Nat.le_refl _))

theorem expWrite_keeps {s₀ : State} (s : State) (part off : Nat) (d : Octets) (hk : Keeps s₀ s) : Keeps s₀ (expWrite s part off d).2 := by
  unfold expWrite
  try dsimp only
  repeat' first
    | with_reducible first
      | assumption
      | intro _
      | apply memWrite_keeps
      | refine Keeps.ite ?_ ?_
      | refine Keeps.ite_snd ?_ ?_
    | split
    | dsimp only

theorem zeroKeys_keeps {s₀ s : State} (p : Nat → Bool) (h : Keeps s₀ s) : Keeps s₀ (zeroKeys s p) :=
  h.trans (.of_eq rfl (fun hm => twf_filter _ _ hm) rfl rfl ⟨[], rfl⟩ (Nat.le_refl _))

theorem setHealth_keeps {s₀ : State} (s : State) (kind unit : Nat) (h : HealthSt) (hk : Keeps s₀ s) : Keeps s₀ (setHealth s kind unit h) := by
  unfold setHealth
  try dsimp only
  repeat' first
    | with_reducible first
      | assumption
      | intro _
      | refine Keeps.ite ?_ ?_
    | (with_reducible first | apply Keeps.mk_rest | apply Keeps.mk_mem | apply Keeps.mk_sec | apply Keeps.mk_mem_sec) <;> first
      | with_reducible first
        | assumption
        | refine Keeps.ite ?_ ?_
      | split
    | split
    | dsimp only

theorem State.writeErr_keeps {s₀ : State} (s : State) (r : ErrRec) (hk : Keeps s₀ s) : Keeps s₀ (State.writeErr s r) := by
  unfold State.writeErr
  try dsimp only
  repeat' first
    | with_reducible first
      | assumption
      | intro _
      | apply State.emit_keeps
      | refine Keeps.ite ?_ ?_
      | refine Keeps.ite_st ?_ ?_
    | (with_reducible first | apply Keeps.mk_rest | apply Keeps.mk_mem | apply Keeps.mk_sec | apply Keeps.mk_mem_sec) <;> first
      | with_reducible first
        | assumption
        | apply State.emit_keeps
        | refine Keeps.ite ?_ ?_
      | split
    | split
    | dsimp only

theorem tick_keeps {s₀ s : State} (h : Keeps s₀ s) : Keeps s₀ (tick s) := by
  unfold tick
  refine Keeps.ite (fun _ => h) (fun _ => h.trans (.of_eq rfl id rfl rfl ⟨[], rfl⟩ (Nat.le_succ _)))

theorem State.until_keeps {s₀ s : State} (t : Nat) (h : Keeps s₀ s) : Keeps s₀ (s.until t) := by
  unfold State.until
  refine Keeps.ite (fun _ => h.trans (.of_eq rfl id rfl rfl ⟨[], rfl⟩ (Nat.le_add_right _ _))) (fun _ => h)

end Sys2Proof.Machine
end

