-- ==== Sys2Proof/Laws/KeepsDict.lean ====
section
/-! SUPPORT. Each operation of Machine/Dict.lean makes a change that `Keeps`. -/

namespace Sys2Proof.Machine

theorem cfgPut_keeps {s₀ : State} (s : State) (k : Nat) (v : Octets) (hk : Keeps s₀ s) : Keeps s₀ (cfgPut s k v) := by
  unfold cfgPut
  try dsimp only
  repeat' first
    | with_reducible first
      | assumption
      | intro _
    | (with_reducible first | apply Keeps.mk_rest | apply Keeps.mk_mem | apply Keeps.mk_sec | apply Keeps.mk_mem_sec) <;> first
      | with_reducible first
        | assumption
    | dsimp only

theorem endSession_keeps {s₀ : State} (s : State) (n : Nat) (hk : Keeps s₀ s) : Keeps s₀ (endSession s n) := by
  unfold endSession
  try dsimp only
  repeat' first
    | with_reducible first
      | assumption
      | intro _
    | (with_reducible first | apply Keeps.mk_rest | apply Keeps.mk_mem | apply Keeps.mk_sec | apply Keeps.mk_mem_sec) <;> first
      | with_reducible first
        | assumption
    | dsimp only

theorem endSessionsWhere_keeps {s₀ : State} (s : State) (p : Session → Bool) (hk : Keeps s₀ s) : Keeps s₀ (endSessionsWhere s p) := by
  unfold endSessionsWhere
  try dsimp only
  repeat' first
    | with_reducible first
      | assumption
      | intro _
    | (with_reducible first | apply Keeps.mk_rest | apply Keeps.mk_mem | apply Keeps.mk_sec | apply Keeps.mk_mem_sec) <;> first
      | with_reducible first
        | assumption
    | dsimp only

theorem endAllSessions_keeps {s₀ : State} (s : State) (hk : Keeps s₀ s) : Keeps s₀ (endAllSessions s) := by
  unfold endAllSessions
  try dsimp only
  repeat' first
    | with_reducible first
      | assumption
      | intro _
    | (with_reducible first | apply Keeps.mk_rest | apply Keeps.mk_mem | apply Keeps.mk_sec | apply Keeps.mk_mem_sec) <;> first
      | with_reducible first
        | assumption
    | dsimp only

theorem setWord_keeps {s₀ : State} (s : State) (sess k : Nat) (w : DWord) (hk : Keeps s₀ s) : Keeps s₀ (setWord s sess k w) := by
  unfold setWord
  try dsimp only
  repeat' first
    | with_reducible first
      | assumption
      | intro _
      | apply State.modSess_keeps
      | refine Keeps.ite ?_ ?_
    | (with_reducible first | apply Keeps.mk_rest | apply Keeps.mk_mem | apply Keeps.mk_sec | apply Keeps.mk_mem_sec) <;> first
      | with_reducible first
        | assumption
        | apply State.modSess_keeps
        | refine Keeps.ite ?_ ?_
      | split
    | split
    | dsimp only

theorem refuse_keeps {s₀ : State} (s : State) (status : Nat) (hk : Keeps s₀ s) : Keeps s₀ (refuse s status).st := by
  unfold refuse
  try dsimp only
  repeat' first
    | with_reducible first
      | assumption
      | intro _
    | dsimp only

theorem doneAt_keeps {s₀ : State} (s : State) (result : Nat) (hk : Keeps s₀ s) : Keeps s₀ (doneAt s result).st := by
  unfold doneAt
  try dsimp only
  repeat' first
    | with_reducible first
      | assumption
      | intro _
    | dsimp only

theorem started_keeps {s₀ : State} (s : State) (hk : Keeps s₀ s) : Keeps s₀ (started s).st := by
  unfold started
  try dsimp only
  repeat' first
    | with_reducible first
      | assumption
      | intro _
    | dsimp only

theorem failedAt_keeps {s₀ : State} (s : State) (status : Nat) (hk : Keeps s₀ s) : Keeps s₀ (failedAt s status).st := by
  unfold failedAt
  try dsimp only
  repeat' first
    | with_reducible first
      | assumption
      | intro _
    | dsimp only

theorem require_keeps {s₀ : State} (c : Bool) (status : Nat) (s : State) (k : CmdAns) (hk : Keeps s₀ s) (ha : Keeps s₀ k.st) :
    Keeps s₀ (require c status s k).st :=
  Keeps.ite_st (fun _ => ha) (fun _ => hk)

theorem cmdBegin_keeps {s₀ : State} (s : State) (k scope sess : Nat) (hk : Keeps s₀ s) : Keeps s₀ (cmdBegin s k scope sess) := by
  unfold cmdBegin
  try dsimp only
  repeat' first
    | with_reducible first
      | assumption
      | intro _
    | (with_reducible first | apply Keeps.mk_rest | apply Keeps.mk_mem | apply Keeps.mk_sec | apply Keeps.mk_mem_sec) <;> first
      | with_reducible first
        | assumption
    | dsimp only

theorem cmdEnd_keeps {s₀ : State} (s : State) (k scope : Nat) (w : DWord) (hk : Keeps s₀ s) : Keeps s₀ (cmdEnd s k scope w) := by
  unfold cmdEnd
  try dsimp only
  repeat' first
    | with_reducible first
      | assumption
      | intro _
      | apply setWord_keeps
      | refine Keeps.foldl (fun _ _ _ => ?_) ?_
      | refine Keeps.foldl_snd (fun _ _ _ => ?_) ?_
    | (with_reducible first | apply Keeps.mk_rest | apply Keeps.mk_mem | apply Keeps.mk_sec | apply Keeps.mk_mem_sec) <;> first
      | with_reducible first
        | assumption
        | apply setWord_keeps
        | refine Keeps.foldl (fun _ _ _ => ?_) ?_
    | dsimp only

theorem wake_keeps {s₀ : State} (w : Wake) (s : State) (hk : Keeps s₀ s) : Keeps s₀ (wake w s) := by
  unfold wake
  try dsimp only
  repeat' first
    | with_reducible first
      | assumption
      | intro _
      | refine Keeps.ite ?_ ?_
      | refine Keeps.ite_st ?_ ?_
    | (with_reducible first | apply Keeps.mk_rest | apply Keeps.mk_mem | apply Keeps.mk_sec | apply Keeps.mk_mem_sec) <;> first
      | with_reducible first
        | assumption
        | refine Keeps.ite ?_ ?_
      | split
    | split
    | dsimp only

theorem cmdWrite_keeps {k : Nat} {range : State → Octets → Nat} {body : Nat → Nat → Octets → State → CmdAns}
    (hb : ∀ s₀ sess p arg s, Keeps s₀ s → Keeps s₀ (body sess p arg s).st) {s₀ s : State} (sess : Nat) (arg : Octets)
    (h : Keeps s₀ s) : Keeps s₀ (cmdWrite k range body sess arg s).2 := by
  unfold cmdWrite
  dsimp only
  repeat' first
    | with_reducible assumption
    | intro _
    | with_reducible apply setWord_keeps
    | with_reducible apply cmdBegin_keeps
    | with_reducible apply hb
    | with_reducible apply wake_keeps
    | with_reducible refine Keeps.ite ?_ ?_
    | with_reducible refine Keeps.ite_snd ?_ ?_
    | split

theorem cmdAnswer_keeps {s₀ : State} (k sess : Nat) {r : Nat × State} (h : Keeps s₀ r.2) : Keeps s₀ (cmdAnswer k sess r) :=
  State.emit_keeps _ h

theorem cmdRow_keeps {k : Nat} {w : Nat → Octets → State → Nat × State}
    (hw : ∀ s₀ sess arg s, Keeps s₀ s → Keeps s₀ (w sess arg s).2) {s₀ s : State} (sess : Nat) (arg : Octets)
    (h : Keeps s₀ s) : Keeps s₀ (cmdRow k w sess arg s) :=
  Keeps.ite (fun _ => cmdAnswer_keeps _ _ (hw _ _ _ _ h)) (fun _ => h)

theorem stepPend_keeps {s₀ : State} (k sess part : Nat) (arg : Octets) (s : State) (hk : Keeps s₀ s) : Keeps s₀ (stepPend k sess part arg s).st := by
  unfold stepPend
  try dsimp only
  repeat' first
    | with_reducible first
      | assumption
      | intro _
      | apply started_keeps
    | (with_reducible first | apply Keeps.mk_rest | apply Keeps.mk_mem | apply Keeps.mk_sec | apply Keeps.mk_mem_sec) <;> first
      | with_reducible first
        | assumption
        | apply started_keeps
    | dsimp only

theorem stepDone_keeps {s₀ : State} (c : StepCmd) (status : Nat) (s : State) (hk : Keeps s₀ s) : Keeps s₀ (stepDone c status s) := by
  unfold stepDone
  try dsimp only
  repeat' first
    | with_reducible first
      | assumption
      | intro _
      | apply cmdEnd_keeps
      | refine Keeps.ite ?_ ?_
    | split
    | dsimp only

end Sys2Proof.Machine
end

