-- ==== Sys2Proof/Laws/KeepsArrayOps.lean ====
section
/-! SUPPORT. Each operation of Machine/ArrayOps.lean makes a change that `Keeps`. -/

namespace Sys2Proof.Machine

theorem askGrant_keeps {s₀ : State} (s : State) (n : Nat) (atHead : Bool) (hk : Keeps s₀ s) : Keeps s₀ (askGrant s n atHead) := by
  unfold askGrant
  try dsimp only
  repeat' first
    | with_reducible first
      | assumption
      | intro _
      | apply State.setVat_keeps
      | refine Keeps.ite ?_ ?_
    | (with_reducible first | apply Keeps.mk_rest | apply Keeps.mk_mem | apply Keeps.mk_sec | apply Keeps.mk_mem_sec) <;> first
      | with_reducible first
        | assumption
        | apply State.setVat_keeps
        | refine Keeps.ite ?_ ?_
      | split
    | split
    | dsimp only

theorem returnGrant_keeps {s₀ : State} (s : State) (n : Nat) (hk : Keeps s₀ s) : Keeps s₀ (returnGrant s n) := by
  unfold returnGrant
  try dsimp only
  repeat' first
    | with_reducible first
      | assumption
      | intro _
      | apply State.modArr_keeps
      | apply State.modVat_keeps
    | (with_reducible first | apply Keeps.mk_rest | apply Keeps.mk_mem | apply Keeps.mk_sec | apply Keeps.mk_mem_sec) <;> first
      | with_reducible first
        | assumption
        | apply State.modArr_keeps
        | apply State.modVat_keeps
    | dsimp only

theorem giveGrant_keeps {s₀ : State} (s : State) (n : Nat) (hk : Keeps s₀ s) : Keeps s₀ (giveGrant s n) := by
  unfold giveGrant
  try dsimp only
  repeat' first
    | with_reducible first
      | assumption
      | intro _
      | apply State.modArr_keeps
      | apply State.modVat_keeps
    | (with_reducible first | apply Keeps.mk_rest | apply Keeps.mk_mem | apply Keeps.mk_sec | apply Keeps.mk_mem_sec) <;> first
      | with_reducible first
        | assumption
        | apply State.modArr_keeps
        | apply State.modVat_keeps
    | dsimp only

theorem callUp_keeps {s₀ : State} (s : State) (n : Nat) (hk : Keeps s₀ s) : Keeps s₀ (callUp s n) := by
  unfold callUp
  try dsimp only
  repeat' first
    | with_reducible first
      | assumption
      | intro _
      | apply State.setArr_keeps
      | apply askGrant_keeps
      | refine Keeps.ite ?_ ?_
    | (with_reducible first | apply Keeps.mk_rest | apply Keeps.mk_mem | apply Keeps.mk_sec | apply Keeps.mk_mem_sec) <;> first
      | with_reducible first
        | assumption
        | apply State.setArr_keeps
        | apply askGrant_keeps
        | refine Keeps.ite ?_ ?_
      | split
    | split
    | dsimp only

theorem returnIfDone_keeps {s₀ : State} (s : State) (n : Nat) (hk : Keeps s₀ s) : Keeps s₀ (returnIfDone s n) := by
  unfold returnIfDone
  try dsimp only
  repeat' first
    | with_reducible first
      | assumption
      | intro _
      | apply returnGrant_keeps
      | refine Keeps.ite ?_ ?_
    | split
    | dsimp only

theorem forwardTo_keeps {s₀ : State} (s : State) (n : Nat) (r : Partial) (hk : Keeps s₀ s) : Keeps s₀ (forwardTo s n r) := by
  unfold forwardTo
  try dsimp only
  repeat' first
    | with_reducible first
      | assumption
      | intro _
      | apply State.modArr_keeps
      | refine Keeps.ite ?_ ?_
    | (with_reducible first | apply Keeps.mk_rest | apply Keeps.mk_mem | apply Keeps.mk_sec | apply Keeps.mk_mem_sec) <;> first
      | with_reducible first
        | assumption
        | apply State.modArr_keeps
        | refine Keeps.ite ?_ ?_
      | split
    | split
    | dsimp only

theorem headForward_keeps {s₀ : State} (s : State) (n : Nat) (hk : Keeps s₀ s) : Keeps s₀ (headForward s n) := by
  unfold headForward
  try dsimp only
  repeat' first
    | with_reducible first
      | assumption
      | intro _
      | apply State.setArr_keeps
      | apply forwardTo_keeps
      | refine Keeps.ite ?_ ?_
    | (with_reducible first | apply Keeps.mk_rest | apply Keeps.mk_mem | apply Keeps.mk_sec | apply Keeps.mk_mem_sec) <;> first
      | with_reducible first
        | assumption
        | apply State.setArr_keeps
        | apply forwardTo_keeps
        | refine Keeps.ite ?_ ?_
      | split
    | split
    | dsimp only

theorem headForwards_keeps {s₀ : State} (s : State) (n : Nat) (hk : Keeps s₀ s) : Keeps s₀ (headForwards s n) := by
  unfold headForwards
  try dsimp only
  repeat' first
    | with_reducible first
      | assumption
      | intro _
      | apply headForward_keeps
    | dsimp only

theorem acceptOne_keeps {s₀ : State} (s : State) (n : Nat) (hk : Keeps s₀ s) : Keeps s₀ (acceptOne s n) := by
  unfold acceptOne
  try dsimp only
  repeat' first
    | with_reducible first
      | assumption
      | intro _
      | apply State.setArr_keeps
      | refine Keeps.ite ?_ ?_
      | refine Keeps.ite_snd ?_ ?_
      | apply Keeps.ite_fst
      | refine Keeps.foldl (fun _ _ _ => ?_) ?_
      | refine Keeps.foldl_snd (fun _ _ _ => ?_) ?_
    | (with_reducible first | apply Keeps.mk_rest | apply Keeps.mk_mem | apply Keeps.mk_sec | apply Keeps.mk_mem_sec) <;> first
      | with_reducible first
        | assumption
        | apply State.setArr_keeps
        | refine Keeps.ite ?_ ?_
        | refine Keeps.foldl (fun _ _ _ => ?_) ?_
      | split
    | split
    | dsimp only

theorem acceptWaiting_keeps {s₀ : State} (s : State) (n : Nat) (hk : Keeps s₀ s) : Keeps s₀ (acceptWaiting s n) := by
  unfold acceptWaiting
  try dsimp only
  repeat' first
    | with_reducible first
      | assumption
      | intro _
      | apply headForwards_keeps
      | apply acceptOne_keeps
    | dsimp only

theorem enqueueRecord_keeps {s₀ : State} (s : State) (n : Nat) (w : WaitRec) (hk : Keeps s₀ s) : Keeps s₀ (enqueueRecord s n w) := by
  unfold enqueueRecord
  try dsimp only
  repeat' first
    | with_reducible first
      | assumption
      | intro _
      | apply State.setArr_keeps
      | apply callUp_keeps
      | apply acceptWaiting_keeps
    | (with_reducible first | apply Keeps.mk_rest | apply Keeps.mk_mem | apply Keeps.mk_sec | apply Keeps.mk_mem_sec) <;> first
      | with_reducible first
        | assumption
        | apply State.setArr_keeps
        | apply callUp_keeps
        | apply acceptWaiting_keeps
    | dsimp only

theorem refuseRecord_keeps {s₀ : State} (s : State) (n : Nat) (w : WaitRec) (status : Nat) (held : Bool) (hk : Keeps s₀ s) : Keeps s₀ (refuseRecord s n w status held) := by
  unfold refuseRecord
  try dsimp only
  repeat' first
    | with_reducible first
      | assumption
      | intro _
      | apply State.setArr_keeps
      | apply State.emit_keeps
      | apply headForwards_keeps
      | apply enqueueRecord_keeps
      | refine Keeps.ite ?_ ?_
      | refine Keeps.ite_st ?_ ?_
    | (with_reducible first | apply Keeps.mk_rest | apply Keeps.mk_mem | apply Keeps.mk_sec | apply Keeps.mk_mem_sec) <;> first
      | with_reducible first
        | assumption
        | apply State.setArr_keeps
        | apply State.emit_keeps
        | apply headForwards_keeps
        | apply enqueueRecord_keeps
        | refine Keeps.ite ?_ ?_
      | split
    | split
    | dsimp only

theorem deliver_keeps {s₀ : State} (s : State) (vat slot : Nat) (w : WaitRec) (hk : Keeps s₀ s) : Keeps s₀ (deliver s vat slot w) := by
  unfold deliver
  try dsimp only
  repeat' first
    | with_reducible first
      | assumption
      | intro _
      | apply enqueueRecord_keeps
      | apply refuseRecord_keeps
      | refine Keeps.ite ?_ ?_
    | split
    | dsimp only

theorem restartProducts_keeps {s₀ : State} (s : State) (n : Nat) (hk : Keeps s₀ s) : Keeps s₀ (restartProducts s n) := by
  unfold restartProducts
  try dsimp only
  repeat' first
    | with_reducible first
      | assumption
      | intro _
      | apply State.setArr_keeps
      | apply callUp_keeps
      | apply headForwards_keeps
      | refine Keeps.ite ?_ ?_
    | (with_reducible first | apply Keeps.mk_rest | apply Keeps.mk_mem | apply Keeps.mk_sec | apply Keeps.mk_mem_sec) <;> first
      | with_reducible first
        | assumption
        | apply State.setArr_keeps
        | apply callUp_keeps
        | apply headForwards_keeps
        | refine Keeps.ite ?_ ?_
      | split
    | split
    | dsimp only

theorem restartChain_keeps {s₀ : State} (s : State) (v l : Nat) (hk : Keeps s₀ s) : Keeps s₀ (restartChain s v l) := by
  unfold restartChain
  try dsimp only
  repeat' first
    | with_reducible first
      | assumption
      | intro _
      | apply restartProducts_keeps
      | refine Keeps.foldl (fun _ _ _ => ?_) ?_
      | refine Keeps.foldl_snd (fun _ _ _ => ?_) ?_
    | dsimp only

theorem voidChain_keeps {s₀ : State} (s : State) (v l : Nat) (hk : Keeps s₀ s) : Keeps s₀ (voidChain s v l) := by
  unfold voidChain
  try dsimp only
  repeat' first
    | with_reducible first
      | assumption
      | intro _
      | apply State.modArr_keeps
      | refine Keeps.foldl (fun _ _ _ => ?_) ?_
      | refine Keeps.foldl_snd (fun _ _ _ => ?_) ?_
    | (with_reducible first | apply Keeps.mk_rest | apply Keeps.mk_mem | apply Keeps.mk_sec | apply Keeps.mk_mem_sec) <;> first
      | with_reducible first
        | assumption
        | apply State.modArr_keeps
        | refine Keeps.foldl (fun _ _ _ => ?_) ?_
    | dsimp only

theorem popChain_keeps {s₀ : State} (s : State) (v l : Nat) (hk : Keeps s₀ s) : Keeps s₀ (popChain s v l) := by
  unfold popChain
  try dsimp only
  repeat' first
    | with_reducible first
      | assumption
      | intro _
      | apply State.modArr_keeps
      | apply returnIfDone_keeps
      | apply acceptWaiting_keeps
      | refine Keeps.ite ?_ ?_
      | refine Keeps.foldl (fun _ _ _ => ?_) ?_
      | refine Keeps.foldl_snd (fun _ _ _ => ?_) ?_
    | (with_reducible first | apply Keeps.mk_rest | apply Keeps.mk_mem | apply Keeps.mk_sec | apply Keeps.mk_mem_sec) <;> first
      | with_reducible first
        | assumption
        | apply State.modArr_keeps
        | apply returnIfDone_keeps
        | apply acceptWaiting_keeps
        | refine Keeps.ite ?_ ?_
        | refine Keeps.foldl (fun _ _ _ => ?_) ?_
      | split
    | split
    | dsimp only

end Sys2Proof.Machine
end

