-- ==== Sys2Proof/Laws/KeepsFabOps.lean ====
section
/-! SUPPORT. Each operation of Machine/FabOps.lean makes a change that `Keeps`. -/

namespace Sys2Proof.Machine

theorem setChan_keeps {s₀ : State} (s : State) (h : Nat) (x : Chan) (hk : Keeps s₀ s) : Keeps s₀ (setChan s h x) := by
  unfold setChan
  try dsimp only
  repeat' first
    | with_reducible first
      | assumption
      | intro _
      | apply State.setSlot_keeps
    | (with_reducible first | apply Keeps.mk_rest | apply Keeps.mk_mem | apply Keeps.mk_sec | apply Keeps.mk_mem_sec) <;> first
      | with_reducible first
        | assumption
        | apply State.setSlot_keeps
    | dsimp only

theorem openChan_keeps {s₀ : State} (s : State) (slot part : Nat) (x : Chan) (hk : Keeps s₀ s) : Keeps s₀ (openChan s slot part x).2 := by
  unfold openChan
  try dsimp only
  repeat' first
    | with_reducible first
      | assumption
      | intro _
      | apply State.setSlot_keeps
    | (with_reducible first | apply Keeps.mk_rest | apply Keeps.mk_mem | apply Keeps.mk_sec | apply Keeps.mk_mem_sec) <;> first
      | with_reducible first
        | assumption
        | apply State.setSlot_keeps
    | dsimp only

theorem closeChan_keeps {s₀ : State} (s : State) (slot : Nat) (hk : Keeps s₀ s) : Keeps s₀ (closeChan s slot) := by
  unfold closeChan
  try dsimp only
  repeat' first
    | with_reducible first
      | assumption
      | intro _
      | apply State.setSlot_keeps
    | (with_reducible first | apply Keeps.mk_rest | apply Keeps.mk_mem | apply Keeps.mk_sec | apply Keeps.mk_mem_sec) <;> first
      | with_reducible first
        | assumption
        | apply State.setSlot_keeps
    | dsimp only

theorem modStream_keeps {s₀ : State} (s : State) (h : Nat) (f : StreamSt → StreamSt) (hk : Keeps s₀ s) : Keeps s₀ (modStream s h f) := by
  unfold modStream
  try dsimp only
  repeat' first
    | with_reducible first
      | assumption
      | intro _
      | apply setChan_keeps
      | refine Keeps.ite ?_ ?_
      | refine Keeps.ite_st ?_ ?_
    | split
    | dsimp only

theorem frameStart_keeps {s₀ : State} (s : State) (p : Nat) (hk : Keeps s₀ s) : Keeps s₀ (frameStart s p) := by
  unfold frameStart
  try dsimp only
  repeat' first
    | with_reducible first
      | assumption
      | intro _
      | apply State.modPort_keeps
      | apply cfgPut_keeps
      | refine Keeps.ite ?_ ?_
      | refine Keeps.ite_snd ?_ ?_
      | apply Keeps.ite_fst
      | refine Keeps.foldl (fun _ _ _ => ?_) ?_
      | refine Keeps.foldl_snd (fun _ _ _ => ?_) ?_
    | (with_reducible first | apply Keeps.mk_rest | apply Keeps.mk_mem | apply Keeps.mk_sec | apply Keeps.mk_mem_sec) <;> first
      | with_reducible first
        | assumption
        | apply State.modPort_keeps
        | apply cfgPut_keeps
        | refine Keeps.ite ?_ ?_
        | refine Keeps.foldl (fun _ _ _ => ?_) ?_
      | split
    | split
    | dsimp only

theorem putOnPort_keeps {s₀ : State} (s : State) (p k : Nat) (f : SentFrame) (hk : Keeps s₀ s) : Keeps s₀ (putOnPort s p k f).2 := by
  unfold putOnPort
  try dsimp only
  repeat' first
    | with_reducible first
      | assumption
      | intro _
      | apply State.setSub_keeps
      | apply frameStart_keeps
      | refine Keeps.ite ?_ ?_
      | refine Keeps.ite_snd ?_ ?_
    | (with_reducible first | apply Keeps.mk_rest | apply Keeps.mk_mem | apply Keeps.mk_sec | apply Keeps.mk_mem_sec) <;> first
      | with_reducible first
        | assumption
        | apply State.setSub_keeps
        | apply frameStart_keeps
        | refine Keeps.ite ?_ ?_
      | split
    | split
    | dsimp only

theorem sendOnPath_keeps {s₀ : State} (s : State) (f : SentFrame) (path : Nat) (hk : Keeps s₀ s) : Keeps s₀ (sendOnPath s f path) := by
  unfold sendOnPath
  try dsimp only
  repeat' first
    | with_reducible first
      | assumption
      | intro _
      | apply State.emit_keeps
      | apply putOnPort_keeps
      | refine Keeps.ite ?_ ?_
      | refine Keeps.ite_snd ?_ ?_
      | refine Keeps.ite_st ?_ ?_
      | apply Keeps.ite_fst
    | (with_reducible first | apply Keeps.mk_rest | apply Keeps.mk_mem | apply Keeps.mk_sec | apply Keeps.mk_mem_sec) <;> first
      | with_reducible first
        | assumption
        | apply State.emit_keeps
        | apply putOnPort_keeps
        | refine Keeps.ite ?_ ?_
      | split
    | split
    | dsimp only

theorem sendHelloTo_keeps {s₀ : State} (s : State) (chip state : Nat) (hk : Keeps s₀ s) : Keeps s₀ (sendHelloTo s chip state) := by
  unfold sendHelloTo
  try dsimp only
  repeat' first
    | with_reducible first
      | assumption
      | intro _
      | apply State.emit_keeps
      | apply frameStart_keeps
      | refine Keeps.ite ?_ ?_
    | split
    | dsimp only

theorem sendFrame_keeps {s₀ : State} (s : State) (f : SentFrame) (hk : Keeps s₀ s) : Keeps s₀ (sendFrame s f) := by
  unfold sendFrame
  try dsimp only
  repeat' first
    | with_reducible first
      | assumption
      | intro _
      | apply sendOnPath_keeps
      | apply sendHelloTo_keeps
      | refine Keeps.ite ?_ ?_
    | (with_reducible first | apply Keeps.mk_rest | apply Keeps.mk_mem | apply Keeps.mk_sec | apply Keeps.mk_mem_sec) <;> first
      | with_reducible first
        | assumption
        | apply sendOnPath_keeps
        | apply sendHelloTo_keeps
        | refine Keeps.ite ?_ ?_
      | split
    | split
    | dsimp only

theorem flushWaiting_keeps {s₀ : State} (s : State) (hk : Keeps s₀ s) : Keeps s₀ (flushWaiting s) := by
  unfold flushWaiting
  try dsimp only
  repeat' first
    | with_reducible first
      | assumption
      | intro _
      | apply sendFrame_keeps
      | refine Keeps.foldl (fun _ _ _ => ?_) ?_
      | refine Keeps.foldl_snd (fun _ _ _ => ?_) ?_
    | (with_reducible first | apply Keeps.mk_rest | apply Keeps.mk_mem | apply Keeps.mk_sec | apply Keeps.mk_mem_sec) <;> first
      | with_reducible first
        | assumption
        | apply sendFrame_keeps
        | refine Keeps.foldl (fun _ _ _ => ?_) ?_
    | dsimp only

theorem sendGroup_keeps {s₀ : State} (s : State) (f : SentFrame) (hk : Keeps s₀ s) : Keeps s₀ (sendGroup s f) := by
  unfold sendGroup
  try dsimp only
  repeat' first
    | with_reducible first
      | assumption
      | intro _
      | apply State.emit_keeps
      | apply putOnPort_keeps
      | refine Keeps.foldl (fun _ _ _ => ?_) ?_
      | refine Keeps.foldl_snd (fun _ _ _ => ?_) ?_
    | (with_reducible first | apply Keeps.mk_rest | apply Keeps.mk_mem | apply Keeps.mk_sec | apply Keeps.mk_mem_sec) <;> first
      | with_reducible first
        | assumption
        | apply State.emit_keeps
        | apply putOnPort_keeps
        | refine Keeps.foldl (fun _ _ _ => ?_) ?_
    | dsimp only

theorem sendStream_keeps {s₀ : State} (s : State) (h typ op offset aux : Nat) (payload : Octets) (by_ : Option Agent) (obj : Option Nat) (hk : Keeps s₀ s) : Keeps s₀ (sendStream s h typ op offset aux payload by_ obj).2 := by
  unfold sendStream
  try dsimp only
  repeat' first
    | with_reducible first
      | assumption
      | intro _
      | apply setChan_keeps
      | apply sendFrame_keeps
      | refine Keeps.ite ?_ ?_
      | refine Keeps.ite_snd ?_ ?_
      | refine Keeps.ite_st ?_ ?_
    | (with_reducible first | apply Keeps.mk_rest | apply Keeps.mk_mem | apply Keeps.mk_sec | apply Keeps.mk_mem_sec) <;> first
      | with_reducible first
        | assumption
        | apply setChan_keeps
        | apply sendFrame_keeps
        | refine Keeps.ite ?_ ?_
      | split
    | split
    | dsimp only

theorem sendEack_keeps {s₀ : State} (s : State) (chip op stream eseq offset aux : Nat) (hk : Keeps s₀ s) : Keeps s₀ (sendEack s chip op stream eseq offset aux) := by
  unfold sendEack
  try dsimp only
  repeat' first
    | with_reducible first
      | assumption
      | intro _
      | apply sendFrame_keeps
      | refine Keeps.ite ?_ ?_
    | (with_reducible first | apply Keeps.mk_rest | apply Keeps.mk_mem | apply Keeps.mk_sec | apply Keeps.mk_mem_sec) <;> first
      | with_reducible first
        | assumption
        | apply sendFrame_keeps
        | refine Keeps.ite ?_ ?_
      | split
    | split
    | dsimp only

theorem linkAcked_keeps {s₀ : State} (s : State) (p k lack : Nat) (hk : Keeps s₀ s) : Keeps s₀ (linkAcked s p k lack) := by
  unfold linkAcked
  try dsimp only
  repeat' first
    | with_reducible first
      | assumption
      | intro _
      | apply State.setSub_keeps
      | apply flushWaiting_keeps
      | refine Keeps.ite ?_ ?_
    | (with_reducible first | apply Keeps.mk_rest | apply Keeps.mk_mem | apply Keeps.mk_sec | apply Keeps.mk_mem_sec) <;> first
      | with_reducible first
        | assumption
        | apply State.setSub_keeps
        | apply flushWaiting_keeps
        | refine Keeps.ite ?_ ?_
      | split
    | split
    | dsimp only

theorem creditBack_keeps {s₀ : State} (s : State) (p k cls units : Nat) (hk : Keeps s₀ s) : Keeps s₀ (creditBack s p k cls units) := by
  unfold creditBack
  try dsimp only
  repeat' first
    | with_reducible first
      | assumption
      | intro _
      | apply State.setSub_keeps
      | apply flushWaiting_keeps
      | refine Keeps.ite ?_ ?_
    | (with_reducible first | apply Keeps.mk_rest | apply Keeps.mk_mem | apply Keeps.mk_sec | apply Keeps.mk_mem_sec) <;> first
      | with_reducible first
        | assumption
        | apply State.setSub_keeps
        | apply flushWaiting_keeps
        | refine Keeps.ite ?_ ?_
      | split
    | split
    | dsimp only

theorem sendLink_keeps {s₀ : State} (s : State) (p k op value : Nat) (hk : Keeps s₀ s) : Keeps s₀ (sendLink s p k op value) := by
  unfold sendLink
  try dsimp only
  repeat' first
    | with_reducible first
      | assumption
      | intro _
      | apply State.modSub_keeps
      | apply State.emit_keeps
      | apply frameStart_keeps
    | (with_reducible first | apply Keeps.mk_rest | apply Keeps.mk_mem | apply Keeps.mk_sec | apply Keeps.mk_mem_sec) <;> first
      | with_reducible first
        | assumption
        | apply State.modSub_keeps
        | apply State.emit_keeps
        | apply frameStart_keeps
    | dsimp only

theorem heardFrom_keeps {s₀ : State} (s : State) (p k chip : Nat) (hk : Keeps s₀ s) : Keeps s₀ (heardFrom s p k chip) := by
  unfold heardFrom
  try dsimp only
  repeat' first
    | with_reducible first
      | assumption
      | intro _
      | apply State.modSub_keeps
    | (with_reducible first | apply Keeps.mk_rest | apply Keeps.mk_mem | apply Keeps.mk_sec | apply Keeps.mk_mem_sec) <;> first
      | with_reducible first
        | assumption
        | apply State.modSub_keeps
    | dsimp only

theorem linkReceive_keeps {s₀ : State} (f : Frame) (s : State) (hk : Keeps s₀ s) : Keeps s₀ (linkReceive f s).1 := by
  unfold linkReceive
  try dsimp only
  repeat' first
    | with_reducible first
      | assumption
      | intro _
      | apply State.setSub_keeps
      | apply linkAcked_keeps
      | apply creditBack_keeps
      | apply sendLink_keeps
      | apply heardFrom_keeps
      | refine Keeps.ite ?_ ?_
      | apply Keeps.ite_fst
    | (with_reducible first | apply Keeps.mk_rest | apply Keeps.mk_mem | apply Keeps.mk_sec | apply Keeps.mk_mem_sec) <;> first
      | with_reducible first
        | assumption
        | apply State.setSub_keeps
        | apply linkAcked_keeps
        | apply creditBack_keeps
        | apply sendLink_keeps
        | apply heardFrom_keeps
        | refine Keeps.ite ?_ ?_
      | split
    | split
    | dsimp only

theorem dropFrame_keeps {s₀ : State} (s : State) (p : Nat) (hk : Keeps s₀ s) : Keeps s₀ (dropFrame s p) := by
  unfold dropFrame
  try dsimp only
  repeat' first
    | with_reducible first
      | assumption
      | intro _
      | apply State.modPort_keeps
    | (with_reducible first | apply Keeps.mk_rest | apply Keeps.mk_mem | apply Keeps.mk_sec | apply Keeps.mk_mem_sec) <;> first
      | with_reducible first
        | assumption
        | apply State.modPort_keeps
    | dsimp only

theorem forwardFrame_keeps {s₀ : State} (f : Frame) (typ : Nat) (s : State) (hk : Keeps s₀ s) : Keeps s₀ (forwardFrame f typ s) := by
  unfold forwardFrame
  try dsimp only
  repeat' first
    | with_reducible first
      | assumption
      | intro _
      | apply State.emit_keeps
      | apply putOnPort_keeps
      | apply dropFrame_keeps
      | refine Keeps.ite ?_ ?_
      | refine Keeps.ite_snd ?_ ?_
      | refine Keeps.ite_st ?_ ?_
    | (with_reducible first | apply Keeps.mk_rest | apply Keeps.mk_mem | apply Keeps.mk_sec | apply Keeps.mk_mem_sec) <;> first
      | with_reducible first
        | assumption
        | apply State.emit_keeps
        | apply putOnPort_keeps
        | apply dropFrame_keeps
        | refine Keeps.ite ?_ ?_
      | split
    | split
    | dsimp only

theorem frameArrives_keeps {s₀ : State} (f : Frame) (typ : Nat) (s : State) (hk : Keeps s₀ s) : Keeps s₀ (frameArrives f typ s).1 := by
  unfold frameArrives
  try dsimp only
  repeat' first
    | with_reducible first
      | assumption
      | intro _
      | apply State.writeErr_keeps
      | apply linkReceive_keeps
      | apply dropFrame_keeps
      | apply forwardFrame_keeps
      | refine Keeps.ite ?_ ?_
      | refine Keeps.ite_snd ?_ ?_
      | apply Keeps.ite_fst
    | split
    | dsimp only

theorem sendAck_keeps {s₀ : State} (s : State) (h : Nat) (x : StreamSt) (hk : Keeps s₀ s) : Keeps s₀ (sendAck s h x) := by
  unfold sendAck
  try dsimp only
  repeat' first
    | with_reducible first
      | assumption
      | intro _
      | apply setChan_keeps
      | apply sendEack_keeps
    | (with_reducible first | apply Keeps.mk_rest | apply Keeps.mk_mem | apply Keeps.mk_sec | apply Keeps.mk_mem_sec) <;> first
      | with_reducible first
        | assumption
        | apply setChan_keeps
        | apply sendEack_keeps
    | dsimp only

theorem streamReceive_keeps {f : Frame} {g : Nat → State → Nat × State} (hg : ∀ s₀ p s, Keeps s₀ s → Keeps s₀ (g p s).2)
    {s₀ s : State} (hk : Keeps s₀ s) : Keeps s₀ (streamReceive f g s) := by
  unfold streamReceive
  dsimp only
  repeat' first
      | with_reducible first
        | assumption
        | intro _
        | apply sendEack_keeps
        | apply sendAck_keeps
        | apply setChan_keeps
        | apply hg
        | refine Keeps.ite ?_ ?_
        | refine Keeps.ite_snd ?_ ?_
        | refine Keeps.ite_st ?_ ?_
        | refine Keeps.foldl (fun _ _ _ => ?_) ?_
        | refine Keeps.foldl_snd (fun _ _ _ => ?_) ?_
      | (with_reducible first | apply Keeps.mk_rest | apply Keeps.mk_mem | apply Keeps.mk_sec | apply Keeps.mk_mem_sec) <;> first
        | with_reducible first
          | assumption
          | apply sendEack_keeps
          | apply sendAck_keeps
          | apply setChan_keeps
          | apply hg
          | refine Keeps.ite ?_ ?_
          | refine Keeps.foldl (fun _ _ _ => ?_) ?_
        | split
      | split
      | dsimp only

theorem failFrame_keeps {s₀ : State} (s : State) (f : SentFrame) (status : Nat) (hk : Keeps s₀ s) : Keeps s₀ (failFrame s f status) := by
  unfold failFrame
  try dsimp only
  repeat' first
    | with_reducible first
      | assumption
      | intro _
      | apply State.emit_keeps
      | apply State.writeErr_keeps
      | refine Keeps.ite ?_ ?_
      | refine Keeps.ite_st ?_ ?_
    | (with_reducible first | apply Keeps.mk_rest | apply Keeps.mk_mem | apply Keeps.mk_sec | apply Keeps.mk_mem_sec) <;> first
      | with_reducible first
        | assumption
        | apply State.emit_keeps
        | apply State.writeErr_keeps
        | refine Keeps.ite ?_ ?_
      | split
    | split
    | dsimp only

end Sys2Proof.Machine
end

