-- ==== Sys2Proof/Laws/KeepsSyncOps.lean ====
section
/-! SUPPORT. Each operation of Machine/SyncOps.lean makes a change that `Keeps`. -/

namespace Sys2Proof.Machine

theorem answerSync_keeps {s₀ : State} (s : State) (by_ : SyncBy) (op result status : Nat) (hk : Keeps s₀ s) : Keeps s₀ (answerSync s by_ op result status) := by
  unfold answerSync
  try dsimp only
  repeat' first
    | with_reducible first
      | assumption
      | intro _
      | apply State.emit_keeps
      | apply sendStream_keeps
      | refine Keeps.ite ?_ ?_
      | refine Keeps.ite_snd ?_ ?_
    | split
    | dsimp only

theorem wakeWaiters_keeps {s₀ : State} (s : State) (n : Nat) (hk : Keeps s₀ s) : Keeps s₀ (wakeWaiters s n) := by
  unfold wakeWaiters
  try dsimp only
  repeat' first
    | with_reducible first
      | assumption
      | intro _
      | apply answerSync_keeps
      | refine Keeps.foldl (fun _ _ _ => ?_) ?_
      | refine Keeps.foldl_snd (fun _ _ _ => ?_) ?_
    | (with_reducible first | apply Keeps.mk_rest | apply Keeps.mk_mem | apply Keeps.mk_sec | apply Keeps.mk_mem_sec) <;> first
      | with_reducible first
        | assumption
        | apply answerSync_keeps
        | refine Keeps.foldl (fun _ _ _ => ?_) ?_
    | dsimp only

theorem afterChange_keeps {s₀ : State} (fuel : Nat) (s : State) (n : Nat) (hk : Keeps s₀ s) :
    Keeps s₀ (afterChange fuel s n) := by
  induction fuel generalizing s n with
  | zero => exact wakeWaiters_keeps _ _ hk
  | succ fuel ih =>
    unfold afterChange
    dsimp only
    repeat' first
      | with_reducible first
        | assumption
        | intro _
        | apply wakeWaiters_keeps
        | apply ih
        | apply State.setObj_keeps
        | refine Keeps.ite ?_ ?_
        | refine Keeps.ite_snd ?_ ?_
        | refine Keeps.ite_st ?_ ?_
        | refine Keeps.foldl (fun _ _ _ => ?_) ?_
        | refine Keeps.foldl_snd (fun _ _ _ => ?_) ?_
      | (with_reducible first | apply Keeps.mk_rest | apply Keeps.mk_mem | apply Keeps.mk_sec | apply Keeps.mk_mem_sec) <;> first
        | with_reducible first
          | assumption
          | apply wakeWaiters_keeps
          | apply ih
          | apply State.setObj_keeps
          | refine Keeps.ite ?_ ?_
          | refine Keeps.foldl (fun _ _ _ => ?_) ?_
        | split
      | split
      | dsimp only

theorem objChanged_keeps {s₀ : State} (s : State) (n : Nat) (hk : Keeps s₀ s) : Keeps s₀ (objChanged s n) := by
  unfold objChanged
  try dsimp only
  repeat' first
    | with_reducible first
      | assumption
      | intro _
      | apply afterChange_keeps
    | dsimp only

theorem syncDo_keeps {s₀ : State} (s : State) (n : Nat) (op : SyncOp) (hk : Keeps s₀ s) : Keeps s₀ (syncDo s n op).2.2 := by
  unfold syncDo
  try dsimp only
  repeat' first
    | with_reducible first
      | assumption
      | intro _
      | apply State.setObj_keeps
      | apply objChanged_keeps
      | refine Keeps.ite ?_ ?_
      | refine Keeps.ite_snd ?_ ?_
    | (with_reducible first | apply Keeps.mk_rest | apply Keeps.mk_mem | apply Keeps.mk_sec | apply Keeps.mk_mem_sec) <;> first
      | with_reducible first
        | assumption
        | apply State.setObj_keeps
        | apply objChanged_keeps
        | refine Keeps.ite ?_ ?_
      | split
    | split
    | dsimp only

theorem signalLocal_keeps {s₀ : State} (s : State) (n : Nat) (hk : Keeps s₀ s) : Keeps s₀ (signalLocal s n) := by
  unfold signalLocal
  try dsimp only
  repeat' first
    | with_reducible first
      | assumption
      | intro _
      | apply syncDo_keeps
    | dsimp only

theorem sendSync_keeps {s₀ : State} (s : State) (part chip op off a b token timeout : Nat) (by_ : Option Agent) (obj : Option Nat) (hk : Keeps s₀ s) : Keeps s₀ (sendSync s part chip op off a b token timeout by_ obj).2 := by
  unfold sendSync
  try dsimp only
  repeat' first
    | with_reducible first
      | assumption
      | intro _
      | apply sendFrame_keeps
      | apply sendGroup_keeps
      | apply sendStream_keeps
      | refine Keeps.ite ?_ ?_
      | refine Keeps.ite_snd ?_ ?_
    | (with_reducible first | apply Keeps.mk_rest | apply Keeps.mk_mem | apply Keeps.mk_sec | apply Keeps.mk_mem_sec) <;> first
      | with_reducible first
        | assumption
        | apply sendFrame_keeps
        | apply sendGroup_keeps
        | apply sendStream_keeps
        | refine Keeps.ite ?_ ?_
      | split
    | split
    | dsimp only

theorem newToken_keeps {s₀ : State} (s : State) (r : SyncReq) (hk : Keeps s₀ s) : Keeps s₀ (newToken s r).2 := by
  unfold newToken
  try dsimp only
  repeat' first
    | with_reducible first
      | assumption
      | intro _
    | (with_reducible first | apply Keeps.mk_rest | apply Keeps.mk_mem | apply Keeps.mk_sec | apply Keeps.mk_mem_sec) <;> first
      | with_reducible first
        | assumption
    | dsimp only

theorem remoteSync_keeps {s₀ : State} (s : State) (by_ : SyncBy) (ag : Option Agent) (part addr op a b timeout : Nat) (task : Bool) (hk : Keeps s₀ s) : Keeps s₀ (remoteSync s by_ ag part addr op a b timeout task).2 := by
  unfold remoteSync
  try dsimp only
  repeat' first
    | with_reducible first
      | assumption
      | intro _
      | apply sendSync_keeps
      | apply newToken_keeps
      | refine Keeps.ite ?_ ?_
      | refine Keeps.ite_snd ?_ ?_
      | apply Keeps.ite_fst
    | (with_reducible first | apply Keeps.mk_rest | apply Keeps.mk_mem | apply Keeps.mk_sec | apply Keeps.mk_mem_sec) <;> first
      | with_reducible first
        | assumption
        | apply sendSync_keeps
        | apply newToken_keeps
        | refine Keeps.ite ?_ ?_
      | split
    | split
    | dsimp only

theorem signal_keeps {s₀ : State} (s : State) (part addr : Nat) (ag : Option Agent) (hk : Keeps s₀ s) : Keeps s₀ (signal s part addr ag).2 := by
  unfold signal
  try dsimp only
  repeat' first
    | with_reducible first
      | assumption
      | intro _
      | apply syncDo_keeps
      | apply remoteSync_keeps
      | refine Keeps.ite ?_ ?_
      | refine Keeps.ite_snd ?_ ?_
      | apply Keeps.ite_fst
    | split
    | dsimp only

theorem syncWait_keeps {s₀ : State} (s : State) (by_ : SyncBy) (n v timeoutUs : Nat) (hk : Keeps s₀ s) : Keeps s₀ (syncWait s by_ n v timeoutUs) := by
  unfold syncWait
  try dsimp only
  repeat' first
    | with_reducible first
      | assumption
      | intro _
      | apply answerSync_keeps
      | refine Keeps.ite ?_ ?_
    | (with_reducible first | apply Keeps.mk_rest | apply Keeps.mk_mem | apply Keeps.mk_sec | apply Keeps.mk_mem_sec) <;> first
      | with_reducible first
        | assumption
        | apply answerSync_keeps
        | refine Keeps.ite ?_ ?_
      | split
    | split
    | dsimp only

theorem failWaiters_keeps {s₀ : State} (s : State) (n status : Nat) (hk : Keeps s₀ s) : Keeps s₀ (failWaiters s n status) := by
  unfold failWaiters
  try dsimp only
  repeat' first
    | with_reducible first
      | assumption
      | intro _
      | apply answerSync_keeps
      | refine Keeps.foldl (fun _ _ _ => ?_) ?_
      | refine Keeps.foldl_snd (fun _ _ _ => ?_) ?_
    | (with_reducible first | apply Keeps.mk_rest | apply Keeps.mk_mem | apply Keeps.mk_sec | apply Keeps.mk_mem_sec) <;> first
      | with_reducible first
        | assumption
        | apply answerSync_keeps
        | refine Keeps.foldl (fun _ _ _ => ?_) ?_
    | dsimp only

theorem breakObj_keeps {s₀ : State} (s : State) (n : Nat) (hk : Keeps s₀ s) : Keeps s₀ (breakObj s n) := by
  unfold breakObj
  try dsimp only
  repeat' first
    | with_reducible first
      | assumption
      | intro _
      | apply State.setObj_keeps
      | apply failWaiters_keeps
    | (with_reducible first | apply Keeps.mk_rest | apply Keeps.mk_mem | apply Keeps.mk_sec | apply Keeps.mk_mem_sec) <;> first
      | with_reducible first
        | assumption
        | apply State.setObj_keeps
        | apply failWaiters_keeps
    | dsimp only

end Sys2Proof.Machine
end

