-- ==== Sys2Proof/Laws/KeepsTaskOps.lean ====
section
/-! SUPPORT. Each operation of Machine/TaskOps.lean makes a change that `Keeps`. -/

namespace Sys2Proof.Machine

theorem queueTask_keeps {s₀ : State} (s : State) (n : Nat) (t : Task) (hk : Keeps s₀ s) : Keeps s₀ (queueTask s n t) := by
  unfold queueTask
  try dsimp only
  repeat' first
    | with_reducible first
      | assumption
      | intro _
      | apply State.modVat_keeps
      | apply State.setEng_keeps
      | apply remoteSync_keeps
      | refine Keeps.ite ?_ ?_
      | refine Keeps.ite_snd ?_ ?_
    | (with_reducible first | apply Keeps.mk_rest | apply Keeps.mk_mem | apply Keeps.mk_sec | apply Keeps.mk_mem_sec) <;> first
      | with_reducible first
        | assumption
        | apply State.modVat_keeps
        | apply State.setEng_keeps
        | apply remoteSync_keeps
        | refine Keeps.ite ?_ ?_
      | split
    | split
    | dsimp only

theorem postTask_keeps {s₀ : State} (s : State) (src : Poster) (d : Octets) (hk : Keeps s₀ s) : Keeps s₀ (postTask s src d).2 := by
  unfold postTask
  try dsimp only
  repeat' first
    | with_reducible first
      | assumption
      | intro _
      | apply State.modVat_keeps
      | apply queueTask_keeps
      | refine Keeps.ite ?_ ?_
      | refine Keeps.ite_snd ?_ ?_
    | (with_reducible first | apply Keeps.mk_rest | apply Keeps.mk_mem | apply Keeps.mk_sec | apply Keeps.mk_mem_sec) <;> first
      | with_reducible first
        | assumption
        | apply State.modVat_keeps
        | apply queueTask_keeps
        | refine Keeps.ite ?_ ?_
      | split
    | split
    | dsimp only

theorem takeTask_keeps {s₀ : State} (s : State) (n : Nat) (ovf : Bool) (t : Task) (hk : Keeps s₀ s) : Keeps s₀ (takeTask s n ovf t) := by
  unfold takeTask
  try dsimp only
  repeat' first
    | with_reducible first
      | assumption
      | intro _
      | apply State.modVat_keeps
      | apply State.modEng_keeps
      | refine Keeps.ite ?_ ?_
      | refine Keeps.ite_snd ?_ ?_
      | apply Keeps.ite_fst
    | (with_reducible first | apply Keeps.mk_rest | apply Keeps.mk_mem | apply Keeps.mk_sec | apply Keeps.mk_mem_sec) <;> first
      | with_reducible first
        | assumption
        | apply State.modVat_keeps
        | apply State.modEng_keeps
        | refine Keeps.ite ?_ ?_
      | split
    | split
    | dsimp only

theorem engineFree_keeps {s₀ : State} (s : State) (n : Nat) (hk : Keeps s₀ s) : Keeps s₀ (engineFree s n) := by
  unfold engineFree
  try dsimp only
  repeat' first
    | with_reducible first
      | assumption
      | intro _
      | apply State.modEng_keeps
    | (with_reducible first | apply Keeps.mk_rest | apply Keeps.mk_mem | apply Keeps.mk_sec | apply Keeps.mk_mem_sec) <;> first
      | with_reducible first
        | assumption
        | apply State.modEng_keeps
    | dsimp only

theorem failTask_keeps {s₀ : State} (s : State) (n status : Nat) (t : Task) (hk : Keeps s₀ s) : Keeps s₀ (failTask s n status t) := by
  unfold failTask
  try dsimp only
  repeat' first
    | with_reducible first
      | assumption
      | intro _
      | apply State.emit_keeps
      | apply State.writeErr_keeps
    | dsimp only

theorem countTask_keeps {s₀ : State} (s : State) (n : Nat) (hk : Keeps s₀ s) : Keeps s₀ (countTask s n) := by
  unfold countTask
  try dsimp only
  repeat' first
    | with_reducible first
      | assumption
      | intro _
      | apply State.modVat_keeps
      | apply State.modEng_keeps
    | (with_reducible first | apply Keeps.mk_rest | apply Keeps.mk_mem | apply Keeps.mk_sec | apply Keeps.mk_mem_sec) <;> first
      | with_reducible first
        | assumption
        | apply State.modVat_keeps
        | apply State.modEng_keeps
    | dsimp only

theorem completeTask_keeps {s₀ : State} (s : State) (n : Nat) (t : Task) (hk : Keeps s₀ s) : Keeps s₀ (completeTask s n t) := by
  unfold completeTask
  try dsimp only
  repeat' first
    | with_reducible first
      | assumption
      | intro _
      | apply signal_keeps
      | apply failTask_keeps
      | apply countTask_keeps
      | refine Keeps.ite ?_ ?_
      | refine Keeps.ite_snd ?_ ?_
      | apply Keeps.ite_fst
    | (with_reducible first | apply Keeps.mk_rest | apply Keeps.mk_mem | apply Keeps.mk_sec | apply Keeps.mk_mem_sec) <;> first
      | with_reducible first
        | assumption
        | apply signal_keeps
        | apply failTask_keeps
        | apply countTask_keeps
        | refine Keeps.ite ?_ ?_
      | split
    | split
    | dsimp only

theorem placeCopy_keeps {s₀ : State} (s : State) (n : Nat) (t : Task) (hk : Keeps s₀ s) : Keeps s₀ (placeCopy s n t) := by
  unfold placeCopy
  try dsimp only
  repeat' first
    | with_reducible first
      | assumption
      | intro _
      | apply State.modEng_keeps
    | (with_reducible first | apply Keeps.mk_rest | apply Keeps.mk_mem | apply Keeps.mk_sec | apply Keeps.mk_mem_sec) <;> first
      | with_reducible first
        | assumption
        | apply State.modEng_keeps
    | dsimp only

theorem setDual_keeps {s₀ : State} (s : State) (d : DualSt) (hk : Keeps s₀ s) : Keeps s₀ (setDual s d) := by
  unfold setDual
  try dsimp only
  repeat' first
    | with_reducible first
      | assumption
      | intro _
      | refine Keeps.ite ?_ ?_
    | (with_reducible first | apply Keeps.mk_rest | apply Keeps.mk_mem | apply Keeps.mk_sec | apply Keeps.mk_mem_sec) <;> first
      | with_reducible first
        | assumption
        | refine Keeps.ite ?_ ?_
      | split
    | split
    | dsimp only

theorem endDual_keeps {s₀ : State} (s : State) (k : Nat) (hk : Keeps s₀ s) : Keeps s₀ (endDual s k) := by
  unfold endDual
  try dsimp only
  repeat' first
    | with_reducible first
      | assumption
      | intro _
      | refine Keeps.ite ?_ ?_
      | refine Keeps.ite_snd ?_ ?_
      | apply Keeps.ite_fst
      | refine Keeps.foldl (fun _ _ _ => ?_) ?_
      | refine Keeps.foldl_snd (fun _ _ _ => ?_) ?_
    | (with_reducible first | apply Keeps.mk_rest | apply Keeps.mk_mem | apply Keeps.mk_sec | apply Keeps.mk_mem_sec) <;> first
      | with_reducible first
        | assumption
        | refine Keeps.ite ?_ ?_
        | refine Keeps.foldl (fun _ _ _ => ?_) ?_
      | split
    | split
    | dsimp only

theorem placeSecondary_keeps {s₀ : State} (s : State) (d : DualSt) (hk : Keeps s₀ s) : Keeps s₀ (placeSecondary s d) := by
  unfold placeSecondary
  try dsimp only
  repeat' first
    | with_reducible first
      | assumption
      | intro _
      | apply placeCopy_keeps
      | refine Keeps.ite ?_ ?_
    | (with_reducible first | apply Keeps.mk_rest | apply Keeps.mk_mem | apply Keeps.mk_sec | apply Keeps.mk_mem_sec) <;> first
      | with_reducible first
        | assumption
        | apply placeCopy_keeps
        | refine Keeps.ite ?_ ?_
      | split
    | split
    | dsimp only

theorem placeThird_keeps {s₀ : State} (s : State) (d : DualSt) (hk : Keeps s₀ s) : Keeps s₀ (placeThird s d) := by
  unfold placeThird
  try dsimp only
  repeat' first
    | with_reducible first
      | assumption
      | intro _
      | apply placeCopy_keeps
      | refine Keeps.ite ?_ ?_
    | (with_reducible first | apply Keeps.mk_rest | apply Keeps.mk_mem | apply Keeps.mk_sec | apply Keeps.mk_mem_sec) <;> first
      | with_reducible first
        | assumption
        | apply placeCopy_keeps
        | refine Keeps.ite ?_ ?_
      | split
    | split
    | dsimp only

theorem failTasksWhere_keeps {s₀ : State} (s : State) (mine : Task → Bool) (status : Nat) (hk : Keeps s₀ s) : Keeps s₀ (failTasksWhere s mine status) := by
  unfold failTasksWhere
  try dsimp only
  repeat' first
    | with_reducible first
      | assumption
      | intro _
      | apply failTask_keeps
      | refine Keeps.foldl (fun _ _ _ => ?_) ?_
      | refine Keeps.foldl_snd (fun _ _ _ => ?_) ?_
    | (with_reducible first | apply Keeps.mk_rest | apply Keeps.mk_mem | apply Keeps.mk_sec | apply Keeps.mk_mem_sec) <;> first
      | with_reducible first
        | assumption
        | apply failTask_keeps
        | refine Keeps.foldl (fun _ _ _ => ?_) ?_
    | dsimp only

theorem failWaitingTasks_keeps {s₀ : State} (s : State) (n status : Nat) (hk : Keeps s₀ s) : Keeps s₀ (failWaitingTasks s n status) := by
  unfold failWaitingTasks
  try dsimp only
  repeat' first
    | with_reducible first
      | assumption
      | intro _
      | apply failTasksWhere_keeps
    | dsimp only

theorem failRequest_keeps {s₀ : State} (s : State) (r : SyncReq) (status : Nat) (hk : Keeps s₀ s) : Keeps s₀ (failRequest s r status) := by
  unfold failRequest
  try dsimp only
  repeat' first
    | with_reducible first
      | assumption
      | intro _
      | apply answerSync_keeps
      | apply failTasksWhere_keeps
      | refine Keeps.ite ?_ ?_
    | (with_reducible first | apply Keeps.mk_rest | apply Keeps.mk_mem | apply Keeps.mk_sec | apply Keeps.mk_mem_sec) <;> first
      | with_reducible first
        | assumption
        | apply answerSync_keeps
        | apply failTasksWhere_keeps
        | refine Keeps.ite ?_ ?_
      | split
    | split
    | dsimp only

theorem breakObject_keeps {s₀ : State} (s : State) (n : Nat) (hk : Keeps s₀ s) : Keeps s₀ (breakObject s n) := by
  unfold breakObject
  try dsimp only
  repeat' first
    | with_reducible first
      | assumption
      | intro _
      | apply breakObj_keeps
      | apply failWaitingTasks_keeps
    | dsimp only

end Sys2Proof.Machine
end

