-- ==== Sys2Proof/Laws/KeepsFaultOps.lean ====
section
/-! SUPPORT. Each operation of Machine/FaultOps.lean makes a change that `Keeps`. -/

namespace Sys2Proof.Machine

theorem noteFence_keeps {s₀ : State} (s : State) (kind unit : Nat) (r : ErrRec) (hk : Keeps s₀ s) : Keeps s₀ (noteFence s kind unit r) := by
  unfold noteFence
  try dsimp only
  repeat' first
    | with_reducible first
      | assumption
      | intro _
      | apply setHealth_keeps
      | apply State.writeErr_keeps
      | refine Keeps.ite ?_ ?_
    | (with_reducible first | apply Keeps.mk_rest | apply Keeps.mk_mem | apply Keeps.mk_sec | apply Keeps.mk_mem_sec) <;> first
      | with_reducible first
        | assumption
        | apply setHealth_keeps
        | apply State.writeErr_keeps
        | refine Keeps.ite ?_ ?_
      | split
    | split
    | dsimp only

theorem noteAgain_keeps {s₀ : State} (s : State) (kind unit : Nat) (r : ErrRec) (hk : Keeps s₀ s) : Keeps s₀ (noteAgain s kind unit r) := by
  unfold noteAgain
  try dsimp only
  repeat' first
    | with_reducible first
      | assumption
      | intro _
      | apply State.writeErr_keeps
    | (with_reducible first | apply Keeps.mk_rest | apply Keeps.mk_mem | apply Keeps.mk_sec | apply Keeps.mk_mem_sec) <;> first
      | with_reducible first
        | assumption
        | apply State.writeErr_keeps
    | dsimp only

theorem abandonStep_keeps {s₀ : State} (s : State) (hold : Bool) (hk : Keeps s₀ s) : Keeps s₀ (abandonStep s hold) := by
  unfold abandonStep
  try dsimp only
  repeat' first
    | with_reducible first
      | assumption
      | intro _
      | refine Keeps.ite ?_ ?_
    | (with_reducible first | apply Keeps.mk_rest | apply Keeps.mk_mem | apply Keeps.mk_sec | apply Keeps.mk_mem_sec) <;> first
      | with_reducible first
        | assumption
        | refine Keeps.ite ?_ ?_
      | split
    | split
    | dsimp only

theorem dropFrames_keeps {s₀ : State} (s : State) (h : Nat) (hk : Keeps s₀ s) : Keeps s₀ (dropFrames s h) := by
  unfold dropFrames
  try dsimp only
  repeat' first
    | with_reducible first
      | assumption
      | intro _
    | (with_reducible first | apply Keeps.mk_rest | apply Keeps.mk_mem | apply Keeps.mk_sec | apply Keeps.mk_mem_sec) <;> first
      | with_reducible first
        | assumption
    | dsimp only

theorem endChan_keeps {s₀ : State} (s : State) (slot status : Nat) (hk : Keeps s₀ s) : Keeps s₀ (endChan s slot status) := by
  unfold endChan
  try dsimp only
  repeat' first
    | with_reducible first
      | assumption
      | intro _
      | apply setChan_keeps
      | apply failFrame_keeps
      | apply failRequest_keeps
      | apply dropFrames_keeps
      | refine Keeps.ite ?_ ?_
      | refine Keeps.ite_st ?_ ?_
      | refine Keeps.foldl (fun _ _ _ => ?_) ?_
      | refine Keeps.foldl_snd (fun _ _ _ => ?_) ?_
    | (with_reducible first | apply Keeps.mk_rest | apply Keeps.mk_mem | apply Keeps.mk_sec | apply Keeps.mk_mem_sec) <;> first
      | with_reducible first
        | assumption
        | apply setChan_keeps
        | apply failFrame_keeps
        | apply failRequest_keeps
        | apply dropFrames_keeps
        | refine Keeps.ite ?_ ?_
        | refine Keeps.foldl (fun _ _ _ => ?_) ?_
      | split
    | split
    | dsimp only

theorem breakGroup_keeps {s₀ : State} (s : State) (slot : Nat) (hk : Keeps s₀ s) : Keeps s₀ (breakGroup s slot) := by
  unfold breakGroup
  try dsimp only
  repeat' first
    | with_reducible first
      | assumption
      | intro _
      | apply setChan_keeps
      | apply breakObject_keeps
      | refine Keeps.ite ?_ ?_
    | (with_reducible first | apply Keeps.mk_rest | apply Keeps.mk_mem | apply Keeps.mk_sec | apply Keeps.mk_mem_sec) <;> first
      | with_reducible first
        | assumption
        | apply setChan_keeps
        | apply breakObject_keeps
        | refine Keeps.ite ?_ ?_
      | split
    | split
    | dsimp only

theorem serviceLost_keeps {s₀ : State} (s : State) (p : Nat) (hk : Keeps s₀ s) : Keeps s₀ (serviceLost s p) := by
  unfold serviceLost
  try dsimp only
  repeat' first
    | with_reducible first
      | assumption
      | intro _
      | apply State.modWhl_keeps
      | apply cfgPut_keeps
      | apply endChan_keeps
      | apply breakGroup_keeps
      | refine Keeps.ite ?_ ?_
      | refine Keeps.ite_snd ?_ ?_
      | apply Keeps.ite_fst
      | refine Keeps.foldl (fun _ _ _ => ?_) ?_
      | refine Keeps.foldl_snd (fun _ _ _ => ?_) ?_
    | (with_reducible first | apply Keeps.mk_rest | apply Keeps.mk_mem | apply Keeps.mk_sec | apply Keeps.mk_mem_sec) <;> first
      | with_reducible first
        | assumption
        | apply State.modWhl_keeps
        | apply cfgPut_keeps
        | apply endChan_keeps
        | apply breakGroup_keeps
        | refine Keeps.ite ?_ ?_
        | refine Keeps.foldl (fun _ _ _ => ?_) ?_
      | split
    | split
    | dsimp only

theorem startProgram_keeps {s₀ : State} (s : State) (n part : Nat) (img : ArrImg) (hk : Keeps s₀ s) : Keeps s₀ (startProgram s n part img) := by
  unfold startProgram
  try dsimp only
  repeat' first
    | with_reducible first
      | assumption
      | intro _
      | apply State.modArr_keeps
      | apply askGrant_keeps
      | refine Keeps.ite ?_ ?_
    | (with_reducible first | apply Keeps.mk_rest | apply Keeps.mk_mem | apply Keeps.mk_sec | apply Keeps.mk_mem_sec) <;> first
      | with_reducible first
        | assumption
        | apply State.modArr_keeps
        | apply askGrant_keeps
        | refine Keeps.ite ?_ ?_
      | split
    | split
    | dsimp only

theorem programTarget_keeps {s₀ : State} (s : State) (p v l target : Nat) (hk : Keeps s₀ s) : Keeps s₀ (programTarget s p v l target) := by
  unfold programTarget
  try dsimp only
  repeat' first
    | with_reducible first
      | assumption
      | intro _
      | apply startProgram_keeps
      | refine Keeps.ite ?_ ?_
    | split
    | dsimp only

theorem finishRemap_keeps {s₀ : State} (s : State) (v l target : Nat) (hk : Keeps s₀ s) : Keeps s₀ (finishRemap s v l target) := by
  unfold finishRemap
  try dsimp only
  repeat' first
    | with_reducible first
      | assumption
      | intro _
      | apply State.modArr_keeps
      | apply State.modVat_keeps
      | apply callUp_keeps
      | apply deliver_keeps
      | apply restartChain_keeps
      | refine Keeps.ite ?_ ?_
      | refine Keeps.foldl (fun _ _ _ => ?_) ?_
      | refine Keeps.foldl_snd (fun _ _ _ => ?_) ?_
    | (with_reducible first | apply Keeps.mk_rest | apply Keeps.mk_mem | apply Keeps.mk_sec | apply Keeps.mk_mem_sec) <;> first
      | with_reducible first
        | assumption
        | apply State.modArr_keeps
        | apply State.modVat_keeps
        | apply callUp_keeps
        | apply deliver_keeps
        | apply restartChain_keeps
        | refine Keeps.ite ?_ ?_
        | refine Keeps.foldl (fun _ _ _ => ?_) ?_
      | split
    | split
    | dsimp only

theorem returnInputs_keeps {s₀ : State} (s : State) (ws : List WaitRec) (status : Nat) (hk : Keeps s₀ s) : Keeps s₀ (returnInputs s ws status) := by
  unfold returnInputs
  try dsimp only
  repeat' first
    | with_reducible first
      | assumption
      | intro _
      | apply State.emit_keeps
      | refine Keeps.foldl (fun _ _ _ => ?_) ?_
      | refine Keeps.foldl_snd (fun _ _ _ => ?_) ?_
    | dsimp only

theorem voidThrough_keeps {s₀ : State} (s : State) (v l : Nat) (hk : Keeps s₀ s) : Keeps s₀ (voidThrough s v l) := by
  unfold voidThrough
  try dsimp only
  repeat' first
    | with_reducible first
      | assumption
      | intro _
      | apply voidChain_keeps
      | refine Keeps.ite ?_ ?_
    | split
    | dsimp only

theorem placeAgain_keeps {s₀ : State} (s : State) (q m : Nat) (hk : Keeps s₀ s) : Keeps s₀ (placeAgain s q m) := by
  unfold placeAgain
  try dsimp only
  repeat' first
    | with_reducible first
      | assumption
      | intro _
      | apply State.setWhl_keeps
      | apply startProgram_keeps
      | refine Keeps.ite ?_ ?_
      | refine Keeps.ite_snd ?_ ?_
      | apply Keeps.ite_fst
    | (with_reducible first | apply Keeps.mk_rest | apply Keeps.mk_mem | apply Keeps.mk_sec | apply Keeps.mk_mem_sec) <;> first
      | with_reducible first
        | assumption
        | apply State.setWhl_keeps
        | apply startProgram_keeps
        | refine Keeps.ite ?_ ?_
      | split
    | split
    | dsimp only

theorem beginRemap_keeps {s₀ : State} (s : State) (p v l n : Nat) (held : List WaitRec) (hk : Keeps s₀ s) : Keeps s₀ (beginRemap s p v l n held).2 := by
  unfold beginRemap
  try dsimp only
  repeat' first
    | with_reducible first
      | assumption
      | intro _
      | apply State.modArr_keeps
      | apply State.modVat_keeps
      | apply serviceLost_keeps
      | apply programTarget_keeps
      | apply finishRemap_keeps
      | apply returnInputs_keeps
      | apply voidThrough_keeps
      | apply placeAgain_keeps
      | refine Keeps.ite ?_ ?_
      | refine Keeps.ite_snd ?_ ?_
    | (with_reducible first | apply Keeps.mk_rest | apply Keeps.mk_mem | apply Keeps.mk_sec | apply Keeps.mk_mem_sec) <;> first
      | with_reducible first
        | assumption
        | apply State.modArr_keeps
        | apply State.modVat_keeps
        | apply serviceLost_keeps
        | apply programTarget_keeps
        | apply finishRemap_keeps
        | apply returnInputs_keeps
        | apply voidThrough_keeps
        | apply placeAgain_keeps
        | refine Keeps.ite ?_ ?_
      | split
    | split
    | dsimp only

theorem fenceArray_keeps {s₀ : State} (s : State) (n : Nat) (r : ErrRec) (hk : Keeps s₀ s) : Keeps s₀ (fenceArray s n r) := by
  unfold fenceArray
  try dsimp only
  repeat' first
    | with_reducible first
      | assumption
      | intro _
      | apply State.modArr_keeps
      | apply State.modVat_keeps
      | apply returnGrant_keeps
      | apply noteFence_keeps
      | apply noteAgain_keeps
      | apply returnInputs_keeps
      | apply beginRemap_keeps
      | refine Keeps.ite ?_ ?_
      | refine Keeps.ite_snd ?_ ?_
      | apply Keeps.ite_fst
    | (with_reducible first | apply Keeps.mk_rest | apply Keeps.mk_mem | apply Keeps.mk_sec | apply Keeps.mk_mem_sec) <;> first
      | with_reducible first
        | assumption
        | apply State.modArr_keeps
        | apply State.modVat_keeps
        | apply returnGrant_keeps
        | apply noteFence_keeps
        | apply noteAgain_keeps
        | apply returnInputs_keeps
        | apply beginRemap_keeps
        | refine Keeps.ite ?_ ?_
      | split
    | split
    | dsimp only

theorem requeueRunning_keeps {s₀ : State} (s : State) (n : Nat) (hk : Keeps s₀ s) : Keeps s₀ (requeueRunning s n) := by
  unfold requeueRunning
  try dsimp only
  repeat' first
    | with_reducible first
      | assumption
      | intro _
      | apply State.modEng_keeps
      | apply placeCopy_keeps
      | apply endDual_keeps
      | apply placeSecondary_keeps
      | apply placeThird_keeps
      | refine Keeps.ite ?_ ?_
    | (with_reducible first | apply Keeps.mk_rest | apply Keeps.mk_mem | apply Keeps.mk_sec | apply Keeps.mk_mem_sec) <;> first
      | with_reducible first
        | assumption
        | apply State.modEng_keeps
        | apply placeCopy_keeps
        | apply endDual_keeps
        | apply placeSecondary_keeps
        | apply placeThird_keeps
        | refine Keeps.ite ?_ ?_
      | split
    | split
    | dsimp only

theorem freeQueue_keeps {s₀ : State} (s : State) (n : Nat) (hk : Keeps s₀ s) : Keeps s₀ (freeQueue s n) := by
  unfold freeQueue
  try dsimp only
  repeat' first
    | with_reducible first
      | assumption
      | intro _
      | apply State.modVat_keeps
      | apply State.modEng_keeps
      | apply placeSecondary_keeps
      | apply placeThird_keeps
      | refine Keeps.ite ?_ ?_
      | refine Keeps.ite_snd ?_ ?_
      | apply Keeps.ite_fst
      | refine Keeps.foldl (fun _ _ _ => ?_) ?_
      | refine Keeps.foldl_snd (fun _ _ _ => ?_) ?_
    | (with_reducible first | apply Keeps.mk_rest | apply Keeps.mk_mem | apply Keeps.mk_sec | apply Keeps.mk_mem_sec) <;> first
      | with_reducible first
        | assumption
        | apply State.modVat_keeps
        | apply State.modEng_keeps
        | apply placeSecondary_keeps
        | apply placeThird_keeps
        | refine Keeps.ite ?_ ?_
        | refine Keeps.foldl (fun _ _ _ => ?_) ?_
      | split
    | split
    | dsimp only

theorem stopEngine_keeps {s₀ : State} (s : State) (n : Nat) (hk : Keeps s₀ s) : Keeps s₀ (stopEngine s n) := by
  unfold stopEngine
  try dsimp only
  repeat' first
    | with_reducible first
      | assumption
      | intro _
      | apply State.modEng_keeps
      | apply requeueRunning_keeps
      | apply freeQueue_keeps
    | (with_reducible first | apply Keeps.mk_rest | apply Keeps.mk_mem | apply Keeps.mk_sec | apply Keeps.mk_mem_sec) <;> first
      | with_reducible first
        | assumption
        | apply State.modEng_keeps
        | apply requeueRunning_keeps
        | apply freeQueue_keeps
    | dsimp only

theorem fenceEngine_keeps {s₀ : State} (s : State) (n : Nat) (r : ErrRec) (hk : Keeps s₀ s) : Keeps s₀ (fenceEngine s n r) := by
  unfold fenceEngine
  try dsimp only
  repeat' first
    | with_reducible first
      | assumption
      | intro _
      | apply noteFence_keeps
      | apply noteAgain_keeps
      | apply stopEngine_keeps
      | refine Keeps.ite ?_ ?_
    | (with_reducible first | apply Keeps.mk_rest | apply Keeps.mk_mem | apply Keeps.mk_sec | apply Keeps.mk_mem_sec) <;> first
      | with_reducible first
        | assumption
        | apply noteFence_keeps
        | apply noteAgain_keeps
        | apply stopEngine_keeps
        | refine Keeps.ite ?_ ?_
      | split
    | split
    | dsimp only

theorem rehome_keeps {s₀ : State} (s : State) (v : Nat) (hk : Keeps s₀ s) : Keeps s₀ (rehome s v) := by
  unfold rehome
  try dsimp only
  repeat' first
    | with_reducible first
      | assumption
      | intro _
      | apply setChan_keeps
      | refine Keeps.ite ?_ ?_
      | refine Keeps.ite_snd ?_ ?_
      | apply Keeps.ite_fst
      | refine Keeps.foldl (fun _ _ _ => ?_) ?_
      | refine Keeps.foldl_snd (fun _ _ _ => ?_) ?_
    | (with_reducible first | apply Keeps.mk_rest | apply Keeps.mk_mem | apply Keeps.mk_sec | apply Keeps.mk_mem_sec) <;> first
      | with_reducible first
        | assumption
        | apply setChan_keeps
        | refine Keeps.ite ?_ ?_
        | refine Keeps.foldl (fun _ _ _ => ?_) ?_
      | split
    | split
    | dsimp only

theorem stopArray_keeps {s₀ : State} (s : State) (n : Nat) (hk : Keeps s₀ s) : Keeps s₀ (stopArray s n) := by
  unfold stopArray
  try dsimp only
  repeat' first
    | with_reducible first
      | assumption
      | intro _
      | apply State.modArr_keeps
      | apply returnInputs_keeps
      | apply voidThrough_keeps
      | refine Keeps.ite ?_ ?_
    | (with_reducible first | apply Keeps.mk_rest | apply Keeps.mk_mem | apply Keeps.mk_sec | apply Keeps.mk_mem_sec) <;> first
      | with_reducible first
        | assumption
        | apply State.modArr_keeps
        | apply returnInputs_keeps
        | apply voidThrough_keeps
        | refine Keeps.ite ?_ ?_
      | split
    | split
    | dsimp only

theorem fenceVat_keeps {s₀ : State} (s : State) (v : Nat) (r : ErrRec) (hk : Keeps s₀ s) : Keeps s₀ (fenceVat s v r) := by
  unfold fenceVat
  try dsimp only
  repeat' first
    | with_reducible first
      | assumption
      | intro _
      | apply State.modVat_keeps
      | apply noteFence_keeps
      | apply noteAgain_keeps
      | apply abandonStep_keeps
      | apply serviceLost_keeps
      | apply returnInputs_keeps
      | apply stopEngine_keeps
      | apply rehome_keeps
      | apply stopArray_keeps
      | refine Keeps.ite ?_ ?_
      | apply Keeps.ite_fst
      | refine Keeps.foldl (fun _ _ _ => ?_) ?_
      | refine Keeps.foldl_snd (fun _ _ _ => ?_) ?_
    | (with_reducible first | apply Keeps.mk_rest | apply Keeps.mk_mem | apply Keeps.mk_sec | apply Keeps.mk_mem_sec) <;> first
      | with_reducible first
        | assumption
        | apply State.modVat_keeps
        | apply noteFence_keeps
        | apply noteAgain_keeps
        | apply abandonStep_keeps
        | apply serviceLost_keeps
        | apply returnInputs_keeps
        | apply stopEngine_keeps
        | apply rehome_keeps
        | apply stopArray_keeps
        | refine Keeps.ite ?_ ?_
        | refine Keeps.foldl (fun _ _ _ => ?_) ?_
      | split
    | split
    | dsimp only

end Sys2Proof.Machine
end

