-- ==== Sys2Proof/Laws/KeepsArray.lean ====
section
/-! SUPPORT. Each operation of Machine/Array.lean makes a change that `Keeps`. -/

namespace Sys2Proof.Machine

theorem arrayRecord_keeps {s₀ : State} (sender : Agent) (vat slot : Nat) (record : Octets) (poisoned : Bool) (s : State) (hk : Keeps s₀ s) : Keeps s₀ (arrayRecord sender vat slot record poisoned s) := by
  unfold arrayRecord
  try dsimp only
  repeat' first
    | with_reducible first
      | assumption
      | intro _
      | apply State.setVat_keeps
      | apply State.emit_keeps
      | apply refuseRecord_keeps
      | apply deliver_keeps
      | refine Keeps.ite ?_ ?_
      | refine Keeps.ite_st ?_ ?_
    | (with_reducible first | apply Keeps.mk_rest | apply Keeps.mk_mem | apply Keeps.mk_sec | apply Keeps.mk_mem_sec) <;> first
      | with_reducible first
        | assumption
        | apply State.setVat_keeps
        | apply State.emit_keeps
        | apply refuseRecord_keeps
        | apply deliver_keeps
        | refine Keeps.ite ?_ ?_
      | split
    | split
    | dsimp only

theorem execArrayInputRecord_keeps {s₀ : State} (sender : Agent) (vat slot : Nat) (record : Octets) (poisoned : Bool) (s : State) (hk : Keeps s₀ s) : KeepsO s₀ (execArrayInputRecord sender vat slot record poisoned s) := by
  unfold execArrayInputRecord
  try dsimp only
  repeat' first
    | with_reducible first
      | assumption
      | intro _
      | apply arrayRecord_keeps
      | refine KeepsO.next ?_
    | dsimp only

theorem execArrayWake_keeps {s₀ : State} (n : Nat) (s : State) (hk : Keeps s₀ s) : KeepsO s₀ (execArrayWake n s) := by
  unfold execArrayWake
  try dsimp only
  repeat' first
    | with_reducible first
      | assumption
      | intro _
      | apply State.setArr_keeps
      | apply State.until_keeps
      | apply acceptWaiting_keeps
      | refine Keeps.ite ?_ ?_
      | refine KeepsO.ite ?_ ?_
      | refine KeepsO.next ?_
    | (with_reducible first | apply Keeps.mk_rest | apply Keeps.mk_mem | apply Keeps.mk_sec | apply Keeps.mk_mem_sec) <;> first
      | with_reducible first
        | assumption
        | apply State.setArr_keeps
        | apply State.until_keeps
        | apply acceptWaiting_keeps
        | refine Keeps.ite ?_ ?_
      | split
    | split
    | dsimp only

theorem execPassGrant_keeps {s₀ : State} (vat : Nat) (s : State) (hk : Keeps s₀ s) : KeepsO s₀ (execPassGrant vat s) := by
  unfold execPassGrant
  try dsimp only
  repeat' first
    | with_reducible first
      | assumption
      | intro _
      | apply giveGrant_keeps
      | apply acceptWaiting_keeps
      | refine Keeps.ite ?_ ?_
      | refine KeepsO.ite ?_ ?_
      | refine KeepsO.next ?_
    | split
    | dsimp only

theorem launched_keeps {s₀ : State} (s : State) (n i : Nat) (isSplit : Bool) (plane : Nat) (f : Product → Product) (hk : Keeps s₀ s) : Keeps s₀ (launched s n i isSplit plane f) := by
  unfold launched
  try dsimp only
  repeat' first
    | with_reducible first
      | assumption
      | intro _
      | apply State.setArr_keeps
      | apply State.tel_keeps
      | apply State.until_keeps
      | refine Keeps.ite ?_ ?_
      | refine Keeps.ite_snd ?_ ?_
      | apply Keeps.ite_fst
      | refine Keeps.foldl (fun _ _ _ => ?_) ?_
      | refine Keeps.foldl_snd (fun _ _ _ => ?_) ?_
    | (with_reducible first | apply Keeps.mk_rest | apply Keeps.mk_mem | apply Keeps.mk_sec | apply Keeps.mk_mem_sec) <;> first
      | with_reducible first
        | assumption
        | apply State.setArr_keeps
        | apply State.tel_keeps
        | apply State.until_keeps
        | refine Keeps.ite ?_ ?_
        | refine Keeps.foldl (fun _ _ _ => ?_) ?_
      | split
    | split
    | dsimp only

theorem execArrayPassLaunch_keeps {s₀ : State} (n : Nat) (s : State) (hk : Keeps s₀ s) : KeepsO s₀ (execArrayPassLaunch n s) := by
  unfold execArrayPassLaunch
  try dsimp only
  repeat' first
    | with_reducible first
      | assumption
      | intro _
      | apply launched_keeps
      | refine Keeps.ite ?_ ?_
      | refine KeepsO.ite ?_ ?_
      | refine KeepsO.next ?_
    | (with_reducible first | apply Keeps.mk_rest | apply Keeps.mk_mem | apply Keeps.mk_sec | apply Keeps.mk_mem_sec) <;> first
      | with_reducible first
        | assumption
        | apply launched_keeps
        | refine Keeps.ite ?_ ?_
      | split
    | split
    | dsimp only

theorem execSplit_keeps {s₀ : State} (n : Nat) (s : State) (hk : Keeps s₀ s) : KeepsO s₀ (execSplit n s) := by
  unfold execSplit
  try dsimp only
  repeat' first
    | with_reducible first
      | assumption
      | intro _
      | apply launched_keeps
      | refine Keeps.ite ?_ ?_
      | apply Keeps.ite_fst
      | refine KeepsO.ite ?_ ?_
      | refine KeepsO.next ?_
    | (with_reducible first | apply Keeps.mk_rest | apply Keeps.mk_mem | apply Keeps.mk_sec | apply Keeps.mk_mem_sec) <;> first
      | with_reducible first
        | assumption
        | apply launched_keeps
        | refine Keeps.ite ?_ ?_
      | split
    | split
    | dsimp only

theorem folded_keeps {s₀ : State} (s : State) (n i : Nat) (a : ArrSt) (p : Product) (b : Pass) (c : CheckOut) (counts : List (List Nat)) (kind : Nat) (hk : Keeps s₀ s) : Keeps s₀ (folded s n i a p b c counts kind) := by
  unfold folded
  try dsimp only
  repeat' first
    | with_reducible first
      | assumption
      | intro _
      | apply State.setArr_keeps
      | apply returnIfDone_keeps
      | apply headForwards_keeps
      | refine Keeps.ite ?_ ?_
      | refine Keeps.ite_snd ?_ ?_
      | apply Keeps.ite_fst
    | (with_reducible first | apply Keeps.mk_rest | apply Keeps.mk_mem | apply Keeps.mk_sec | apply Keeps.mk_mem_sec) <;> first
      | with_reducible first
        | assumption
        | apply State.setArr_keeps
        | apply returnIfDone_keeps
        | apply headForwards_keeps
        | refine Keeps.ite ?_ ?_
      | split
    | split
    | dsimp only

theorem execPassCountsReady_keeps {s₀ : State} (n : Nat) (reports : List ConvReport) (residueFail : Option (Nat × Nat)) (s : State) (hk : Keeps s₀ s) : KeepsO s₀ (execPassCountsReady n reports residueFail s) := by
  unfold execPassCountsReady
  try dsimp only
  repeat' first
    | with_reducible first
      | assumption
      | intro _
      | apply State.setArr_keeps
      | apply State.until_keeps
      | apply fenceArray_keeps
      | apply folded_keeps
      | refine Keeps.ite ?_ ?_
      | refine Keeps.ite_snd ?_ ?_
      | apply Keeps.ite_fst
      | refine KeepsO.ite ?_ ?_
      | refine KeepsO.next ?_
    | (with_reducible first | apply Keeps.mk_rest | apply Keeps.mk_mem | apply Keeps.mk_sec | apply Keeps.mk_mem_sec) <;> first
      | with_reducible first
        | assumption
        | apply State.setArr_keeps
        | apply State.until_keeps
        | apply fenceArray_keeps
        | apply folded_keeps
        | refine Keeps.ite ?_ ?_
      | split
    | split
    | dsimp only

theorem execChainPartialSum_keeps {s₀ : State} (n : Nat) (s : State) (hk : Keeps s₀ s) : KeepsO s₀ (execChainPartialSum n s) := by
  unfold execChainPartialSum
  try dsimp only
  repeat' first
    | with_reducible first
      | assumption
      | intro _
      | apply State.setArr_keeps
      | apply State.until_keeps
      | apply forwardTo_keeps
      | refine Keeps.ite ?_ ?_
      | refine KeepsO.ite ?_ ?_
      | refine KeepsO.next ?_
    | (with_reducible first | apply Keeps.mk_rest | apply Keeps.mk_mem | apply Keeps.mk_sec | apply Keeps.mk_mem_sec) <;> first
      | with_reducible first
        | assumption
        | apply State.setArr_keeps
        | apply State.until_keeps
        | apply forwardTo_keeps
        | refine Keeps.ite ?_ ?_
      | split
    | split
    | dsimp only

theorem execPairJoin_keeps {s₀ : State} (n : Nat) (s : State) (hk : Keeps s₀ s) : KeepsO s₀ (execPairJoin n s) := by
  unfold execPairJoin
  try dsimp only
  repeat' first
    | with_reducible first
      | assumption
      | intro _
      | apply State.setArr_keeps
      | refine Keeps.ite ?_ ?_
      | refine Keeps.ite_snd ?_ ?_
      | apply Keeps.ite_fst
      | refine KeepsO.ite ?_ ?_
      | refine KeepsO.next ?_
    | (with_reducible first | apply Keeps.mk_rest | apply Keeps.mk_mem | apply Keeps.mk_sec | apply Keeps.mk_mem_sec) <;> first
      | with_reducible first
        | assumption
        | apply State.setArr_keeps
        | refine Keeps.ite ?_ ?_
      | split
    | split
    | dsimp only

theorem countRecord_keeps {s₀ : State} (s : State) (n : Nat) (nf sat conflict : Bool) (hk : Keeps s₀ s) : Keeps s₀ (countRecord s n nf sat conflict) := by
  unfold countRecord
  try dsimp only
  repeat' first
    | with_reducible first
      | assumption
      | intro _
      | apply State.modArr_keeps
      | apply State.modVat_keeps
    | (with_reducible first | apply Keeps.mk_rest | apply Keeps.mk_mem | apply Keeps.mk_sec | apply Keeps.mk_mem_sec) <;> first
      | with_reducible first
        | assumption
        | apply State.modArr_keeps
        | apply State.modVat_keeps
    | dsimp only

theorem afterRelease_keeps {s₀ : State} (s : State) (n : Nat) (hk : Keeps s₀ s) : Keeps s₀ (afterRelease s n) := by
  unfold afterRelease
  try dsimp only
  repeat' first
    | with_reducible first
      | assumption
      | intro _
      | apply popChain_keeps
      | apply fenceArray_keeps
      | refine Keeps.ite ?_ ?_
      | refine Keeps.ite_snd ?_ ?_
      | apply Keeps.ite_fst
      | refine Keeps.foldl (fun _ _ _ => ?_) ?_
      | refine Keeps.foldl_snd (fun _ _ _ => ?_) ?_
    | (with_reducible first | apply Keeps.mk_rest | apply Keeps.mk_mem | apply Keeps.mk_sec | apply Keeps.mk_mem_sec) <;> first
      | with_reducible first
        | assumption
        | apply popChain_keeps
        | apply fenceArray_keeps
        | refine Keeps.ite ?_ ?_
        | refine Keeps.foldl (fun _ _ _ => ?_) ?_
      | split
    | split
    | dsimp only

theorem execOutputRelease_keeps {s₀ : State} (n : Nat) (s : State) (hk : Keeps s₀ s) : KeepsO s₀ (execOutputRelease n s) := by
  unfold execOutputRelease
  try dsimp only
  repeat' first
    | with_reducible first
      | assumption
      | intro _
      | apply State.emit_keeps
      | apply State.until_keeps
      | apply countRecord_keeps
      | apply afterRelease_keeps
      | refine Keeps.ite ?_ ?_
      | refine Keeps.ite_snd ?_ ?_
      | refine Keeps.ite_st ?_ ?_
      | apply Keeps.ite_fst
      | refine KeepsO.ite ?_ ?_
      | refine KeepsO.next ?_
    | split
    | dsimp only

theorem execArrayIdleGate_keeps {s₀ : State} (n : Nat) (s : State) (hk : Keeps s₀ s) : KeepsO s₀ (execArrayIdleGate n s) := by
  unfold execArrayIdleGate
  try dsimp only
  repeat' first
    | with_reducible first
      | assumption
      | intro _
      | apply State.setArr_keeps
      | apply State.until_keeps
      | refine Keeps.ite ?_ ?_
      | refine Keeps.ite_st ?_ ?_
      | refine KeepsO.ite ?_ ?_
      | refine KeepsO.next ?_
    | (with_reducible first | apply Keeps.mk_rest | apply Keeps.mk_mem | apply Keeps.mk_sec | apply Keeps.mk_mem_sec) <;> first
      | with_reducible first
        | assumption
        | apply State.setArr_keeps
        | apply State.until_keeps
        | refine Keeps.ite ?_ ?_
      | split
    | split
    | dsimp only

end Sys2Proof.Machine
end

