-- ==== Sys2Proof/Laws/KeepsKernelOps.lean ====
section
/-! SUPPORT. Each operation of Machine/KernelOps.lean makes a change that `Keeps`. -/

namespace Sys2Proof.Machine

theorem kfail_keeps {s₀ : State} (s : State) (status : Nat) (hk : Keeps s₀ s) : Keeps s₀ (kfail s status).st := by
  unfold kfail
  try dsimp only
  repeat' first
    | with_reducible first
      | assumption
      | intro _
    | (with_reducible first | apply Keeps.mk_rest | apply Keeps.mk_mem | apply Keeps.mk_sec | apply Keeps.mk_mem_sec) <;> first
      | with_reducible first
        | assumption
    | dsimp only

theorem kwrite_keeps {s₀ : State} (s : State) (part : Nat) (l : List Wr) (hk : Keeps s₀ s) : Keeps s₀ (kwrite s part l).2 := by
  induction l generalizing s with
  | nil => exact hk
  | cons w t ih =>
    unfold kwrite
    have hw := memWrite_keeps part 0 w.off w.data hk
    exact Keeps.ite_snd (fun _ => ih _ hw) (fun _ => hk)

theorem addBusy_keeps {s₀ : State} (s : State) (part pool ns : Nat) (hk : Keeps s₀ s) : Keeps s₀ (addBusy s part pool ns) := by
  unfold addBusy
  try dsimp only
  repeat' first
    | with_reducible first
      | assumption
      | intro _
      | apply State.tel_keeps
      | refine Keeps.ite ?_ ?_
    | (with_reducible first | apply Keeps.mk_rest | apply Keeps.mk_mem | apply Keeps.mk_sec | apply Keeps.mk_mem_sec) <;> first
      | with_reducible first
        | assumption
        | apply State.tel_keeps
        | refine Keeps.ite ?_ ?_
      | split
    | split
    | dsimp only

theorem sendRecords_keeps {s₀ : State} (s : State) (n : Nat) (rs : List (Nat × Nat × Octets)) (hk : Keeps s₀ s) : Keeps s₀ (sendRecords s n rs).2 := by
  unfold sendRecords
  try dsimp only
  repeat' first
    | with_reducible first
      | assumption
      | intro _
      | apply arrayRecord_keeps
      | refine Keeps.ite ?_ ?_
      | refine Keeps.ite_snd ?_ ?_
      | apply Keeps.ite_fst
      | refine Keeps.foldl (fun _ _ _ => ?_) ?_
      | refine Keeps.foldl_snd (fun _ _ _ => ?_) ?_
    | split
    | dsimp only

theorem finishTask_keeps {s₀ : State} (s : State) (n : Nat) (t : Task) (rs : List (Nat × Nat × Octets)) (hk : Keeps s₀ s) : Keeps s₀ (finishTask s n t rs) := by
  unfold finishTask
  try dsimp only
  repeat' first
    | with_reducible first
      | assumption
      | intro _
      | apply failTask_keeps
      | apply completeTask_keeps
      | apply sendRecords_keeps
      | refine Keeps.ite ?_ ?_
      | refine Keeps.ite_snd ?_ ?_
      | apply Keeps.ite_fst
    | split
    | dsimp only

theorem taskFails_keeps {s₀ : State} (s : State) (n status : Nat) (t : Task) (hk : Keeps s₀ s) : Keeps s₀ (taskFails s n status t) := by
  unfold taskFails
  try dsimp only
  repeat' first
    | with_reducible first
      | assumption
      | intro _
      | apply engineFree_keeps
      | apply failTask_keeps
      | apply endDual_keeps
      | refine Keeps.ite ?_ ?_
    | split
    | dsimp only

theorem taskRan_keeps {s₀ : State} (s : State) (n : Nat) (t : Task) (r : KRes) (ws : List Wr) (hk : Keeps s₀ s) : Keeps s₀ (taskRan s n t r ws) := by
  unfold taskRan
  try dsimp only
  repeat' first
    | with_reducible first
      | assumption
      | intro _
      | apply engineFree_keeps
      | apply setDual_keeps
      | apply finishTask_keeps
      | refine Keeps.ite ?_ ?_
    | (with_reducible first | apply Keeps.mk_rest | apply Keeps.mk_mem | apply Keeps.mk_sec | apply Keeps.mk_mem_sec) <;> first
      | with_reducible first
        | assumption
        | apply engineFree_keeps
        | apply setDual_keeps
        | apply finishTask_keeps
        | refine Keeps.ite ?_ ?_
      | split
    | split
    | dsimp only

theorem endRun_keeps {k : State → Running → KRes} (hf : ∀ s₀ s x, Keeps s₀ s → Keeps s₀ (k s x).st) {s₀ s : State} (n busyNs : Nat)
    (u : Option EngineUpset) (x : Running) (hk : Keeps s₀ s) : Keeps s₀ (endRun s n busyNs u x k) := by
  unfold endRun
  dsimp only
  repeat' first
      | with_reducible first
        | assumption
        | intro _
        | apply fenceEngine_keeps
        | apply taskFails_keeps
        | apply taskRan_keeps
        | apply kwrite_keeps
        | apply hf
        | apply State.modEng_keeps
        | apply addBusy_keeps
        | refine Keeps.ite ?_ ?_
        | refine Keeps.ite_snd ?_ ?_
        | refine Keeps.ite_st ?_ ?_
        | refine Keeps.foldl (fun _ _ _ => ?_) ?_
        | refine Keeps.foldl_snd (fun _ _ _ => ?_) ?_
      | (with_reducible first | apply Keeps.mk_rest | apply Keeps.mk_mem | apply Keeps.mk_sec | apply Keeps.mk_mem_sec) <;> first
        | with_reducible first
          | assumption
          | apply fenceEngine_keeps
          | apply taskFails_keeps
          | apply taskRan_keeps
          | apply kwrite_keeps
          | apply hf
          | apply State.modEng_keeps
          | apply addBusy_keeps
          | refine Keeps.ite ?_ ?_
          | refine Keeps.foldl (fun _ _ _ => ?_) ?_
        | split
      | split
      | dsimp only

theorem runKernel_keeps {is : Nat → Bool} {k : State → Running → KRes} (hf : ∀ s₀ s x, Keeps s₀ s → Keeps s₀ (k s x).st)
    {s₀ s : State} (n busyNs : Nat) (u : Option EngineUpset) (hk : Keeps s₀ s) : Keeps s₀ (runKernel is k n busyNs u s) := by
  unfold runKernel
  split
  · exact Keeps.ite (fun _ => endRun_keeps hf _ _ _ _ hk) (fun _ => hk)
  · exact hk

/-- A kernel's outcome keeps when the state of a work that is done does. -/
structure KeepsE (s₀ : State) (r : Except Nat KRes) : Prop where
  keeps : ∀ k, r = .ok k → Keeps s₀ k.st

theorem KeepsE.error {s₀ : State} (e : Nat) : KeepsE s₀ (.error e) := ⟨fun _ h => nomatch h⟩

theorem KeepsE.throw {s₀ : State} (e : Nat) : KeepsE s₀ (throw e) := ⟨fun _ h => nomatch h⟩

theorem KeepsE.pure {s₀ : State} {k : KRes} (h : Keeps s₀ k.st) : KeepsE s₀ (pure k) := by
  constructor
  intro j hj
  cases hj
  exact h

theorem KeepsE.bind {α : Type} {s₀ : State} {x : Except Nat α} {f : α → Except Nat KRes} (h : ∀ a, KeepsE s₀ (f a)) :
    KeepsE s₀ (x >>= f) := by
  cases x with
  | error e => exact KeepsE.error e
  | ok a => exact h a

theorem KeepsE.ite {s₀ : State} {a b : Except Nat KRes} {c : Prop} [Decidable c] (ha : c → KeepsE s₀ a)
    (hb : ¬c → KeepsE s₀ b) : KeepsE s₀ (if c then a else b) := by
  split
  · exact ha ‹_›
  · exact hb ‹_›

theorem kres_keeps {s₀ : State} (s : State) {r : Except Nat KRes} (hr : KeepsE s₀ r) (hk : Keeps s₀ s) :
    Keeps s₀ (kres s r).st := by
  unfold kres
  split
  · exact hr.keeps _ rfl
  · exact kfail_keeps _ _ hk

end Sys2Proof.Machine
end

