-- ==== Sys2Proof/Laws/KeepsSeqOps.lean ====
section
/-! SUPPORT. Each operation of Machine/SeqOps.lean makes a change that `Keeps`. -/

namespace Sys2Proof.Machine

end Sys2Proof.Machine
end

