-- ==== Sys2Proof/Laws/KeepsAttn.lean ====
section
/-! SUPPORT. Each operation of Machine/Attn.lean makes a change that `Keeps`. -/

namespace Sys2Proof.Machine

theorem kvAppend_keeps {s₀ : State} (s : State) (x : Running) (hk : Keeps s₀ s) : Keeps s₀ (kvAppend s x).st := by
  unfold kvAppend
  try dsimp only
  repeat' first
    | with_reducible assumption
    | intro _
    | with_reducible apply kres_keeps
    | with_reducible apply kfail_keeps
    | with_reducible refine KeepsE.throw _
    | with_reducible refine KeepsE.ite ?_ ?_
    | with_reducible refine KeepsE.bind ?_
    | with_reducible refine KeepsE.pure ?_
    | (with_reducible apply Keeps.mk_rest) <;> with_reducible assumption
    | split
    | dsimp only

theorem execKvAppend_keeps {s₀ : State} (engine busyNs : Nat) (upset : Option EngineUpset) (s : State) (hk : Keeps s₀ s) : KeepsO s₀ (execKvAppend engine busyNs upset s) := by
  unfold execKvAppend
  try dsimp only
  repeat' first
    | with_reducible first
      | assumption
      | intro _
      | apply runKernel_keeps
      | apply kvAppend_keeps
      | refine Keeps.ite ?_ ?_
      | refine KeepsO.ite ?_ ?_
      | refine KeepsO.next ?_
    | split
    | dsimp only

theorem attention_keeps {s₀ : State} (qmax : Nat) (s : State) (x : Running) (hk : Keeps s₀ s) : Keeps s₀ (attention qmax s x).st := by
  unfold attention
  try dsimp only
  repeat' first
    | with_reducible assumption
    | intro _
    | with_reducible apply kres_keeps
    | with_reducible apply kfail_keeps
    | with_reducible refine KeepsE.throw _
    | with_reducible refine KeepsE.ite ?_ ?_
    | with_reducible refine KeepsE.bind ?_
    | with_reducible refine KeepsE.pure ?_
    | (with_reducible apply Keeps.mk_rest) <;> with_reducible assumption
    | split
    | dsimp only

theorem execAttnDecode_keeps {s₀ : State} (engine busyNs : Nat) (upset : Option EngineUpset) (s : State) (hk : Keeps s₀ s) : KeepsO s₀ (execAttnDecode engine busyNs upset s) := by
  unfold execAttnDecode
  try dsimp only
  repeat' first
    | with_reducible first
      | assumption
      | intro _
      | apply runKernel_keeps
      | apply attention_keeps
      | refine KeepsO.next ?_
    | dsimp only

theorem execAttnPrefill_keeps {s₀ : State} (engine busyNs : Nat) (upset : Option EngineUpset) (s : State) (hk : Keeps s₀ s) : KeepsO s₀ (execAttnPrefill engine busyNs upset s) := by
  unfold execAttnPrefill
  try dsimp only
  repeat' first
    | with_reducible first
      | assumption
      | intro _
      | apply runKernel_keeps
      | apply attention_keeps
      | refine KeepsO.next ?_
    | dsimp only

end Sys2Proof.Machine
end

