-- ==== Sys2Proof/Laws/KeepsRegOps.lean ====
section
/-! SUPPORT. Each operation of Machine/RegOps.lean makes a change that `Keeps`. -/

namespace Sys2Proof.Machine

theorem busError_keeps {s₀ : State} (s : State) (a : RegAgent) (addr status : Nat) (hk : Keeps s₀ s) : Keeps s₀ (busError s a addr status) := by
  unfold busError
  try dsimp only
  repeat' first
    | with_reducible first
      | assumption
      | intro _
      | apply State.emit_keeps
    | dsimp only

theorem regRow_keeps {a : RegAgent} {addr : Nat} {f : State → State} (hf : ∀ s₀ s, Keeps s₀ s → Keeps s₀ (f s))
    {s₀ s : State} (hk : Keeps s₀ s) : Keeps s₀ (regRow a addr f s) :=
  Keeps.ite (fun _ => hf _ _ hk) (fun _ => busError_keeps _ _ _ _ hk)

end Sys2Proof.Machine
end

