-- ==== Sys2Proof/Laws/KeepsCalib.lean ====
section
/-! SUPPORT. Each operation of Machine/Calib.lean makes a change that `Keeps`. -/

namespace Sys2Proof.Machine

theorem startCal_keeps {s₀ : State} (s : State) (v mode : Nat) (cmd : Bool) (hk : Keeps s₀ s) : Keeps s₀ (startCal s v mode cmd) := by
  unfold startCal
  try dsimp only
  repeat' first
    | with_reducible first
      | assumption
      | intro _
      | apply State.modArr_keeps
      | apply State.modVat_keeps
      | refine Keeps.ite ?_ ?_
      | refine Keeps.foldl (fun _ _ _ => ?_) ?_
      | refine Keeps.foldl_snd (fun _ _ _ => ?_) ?_
    | (with_reducible first | apply Keeps.mk_rest | apply Keeps.mk_mem | apply Keeps.mk_sec | apply Keeps.mk_mem_sec) <;> first
      | with_reducible first
        | assumption
        | apply State.modArr_keeps
        | apply State.modVat_keeps
        | refine Keeps.ite ?_ ?_
        | refine Keeps.foldl (fun _ _ _ => ?_) ?_
      | split
    | split
    | dsimp only

theorem arrCalBody_keeps {s₀ : State} (sess_ part_ : Nat) (arg : Octets) (s : State) (hk : Keeps s₀ s) : Keeps s₀ (arrCalBody sess_ part_ arg s).st := by
  unfold arrCalBody
  try dsimp only
  repeat' first
    | with_reducible first
      | assumption
      | intro _
      | apply State.modVat_keeps
      | apply refuse_keeps
      | apply started_keeps
      | apply startCal_keeps
      | refine Keeps.ite ?_ ?_
      | refine Keeps.ite_st ?_ ?_
      | refine Keeps.foldl (fun _ _ _ => ?_) ?_
      | refine Keeps.foldl_snd (fun _ _ _ => ?_) ?_
    | (with_reducible first | apply Keeps.mk_rest | apply Keeps.mk_mem | apply Keeps.mk_sec | apply Keeps.mk_mem_sec) <;> first
      | with_reducible first
        | assumption
        | apply State.modVat_keeps
        | apply refuse_keeps
        | apply started_keeps
        | apply startCal_keeps
        | refine Keeps.ite ?_ ?_
        | refine Keeps.foldl (fun _ _ _ => ?_) ?_
      | split
    | split
    | dsimp only

theorem arrCalWrite_keeps (s₀ : State) (sess : Nat) (arg : Octets) (s : State) (h : Keeps s₀ s) : Keeps s₀ (arrCalWrite sess arg s).2 := by
  unfold arrCalWrite
  repeat' first
    | with_reducible first
      | assumption
      | intro _
      | apply cmdWrite_keeps
      | apply arrCalBody_keeps
    | dsimp only

theorem execArrCalStart_keeps {s₀ : State} (sess : Nat) (arg : Octets) (s : State) (hk : Keeps s₀ s) : KeepsO s₀ (execArrCalStart sess arg s) := by
  unfold execArrCalStart
  try dsimp only
  repeat' first
    | with_reducible first
      | assumption
      | intro _
      | apply cmdRow_keeps
      | apply arrCalWrite_keeps
      | refine KeepsO.next ?_
    | dsimp only

theorem ccVatControl_keeps {s₀ : State} (v value : Nat) (s : State) (hk : Keeps s₀ s) : Keeps s₀ (ccVatControl v value s) := by
  unfold ccVatControl
  try dsimp only
  repeat' first
    | with_reducible first
      | assumption
      | intro _
      | apply State.modVat_keeps
      | apply startCal_keeps
      | refine Keeps.ite ?_ ?_
    | (with_reducible first | apply Keeps.mk_rest | apply Keeps.mk_mem | apply Keeps.mk_sec | apply Keeps.mk_mem_sec) <;> first
      | with_reducible first
        | assumption
        | apply State.modVat_keeps
        | apply startCal_keeps
        | refine Keeps.ite ?_ ?_
      | split
    | split
    | dsimp only

theorem execCcVatStart_keeps {s₀ : State} (agent : RegAgent) (vat value : Nat) (s : State) (hk : Keeps s₀ s) : KeepsO s₀ (execCcVatStart agent vat value s) := by
  unfold execCcVatStart
  try dsimp only
  repeat' first
    | with_reducible first
      | assumption
      | intro _
      | apply regRow_keeps
      | apply ccVatControl_keeps
      | refine KeepsO.next ?_
    | dsimp only

theorem acceptTaps_keeps {s₀ : State} (s : State) (n key : Nat) (t : TapPair) (hk : Keeps s₀ s) : Keeps s₀ (acceptTaps s n key t) := by
  unfold acceptTaps
  try dsimp only
  repeat' first
    | with_reducible first
      | assumption
      | intro _
      | apply State.modArr_keeps
    | (with_reducible first | apply Keeps.mk_rest | apply Keeps.mk_mem | apply Keeps.mk_sec | apply Keeps.mk_mem_sec) <;> first
      | with_reducible first
        | assumption
        | apply State.modArr_keeps
    | dsimp only

theorem execConverterCalResult_keeps {s₀ : State} (n segment column : Nat) (runs : List TapPair) (s : State) (hk : Keeps s₀ s) : KeepsO s₀ (execConverterCalResult n segment column runs s) := by
  unfold execConverterCalResult
  try dsimp only
  repeat' first
    | with_reducible first
      | assumption
      | intro _
      | apply State.modArr_keeps
      | apply State.modVat_keeps
      | apply fenceArray_keeps
      | apply acceptTaps_keeps
      | refine Keeps.ite ?_ ?_
      | refine KeepsO.ite ?_ ?_
      | refine KeepsO.next ?_
    | (with_reducible first | apply Keeps.mk_rest | apply Keeps.mk_mem | apply Keeps.mk_sec | apply Keeps.mk_mem_sec) <;> first
      | with_reducible first
        | assumption
        | apply State.modArr_keeps
        | apply State.modVat_keeps
        | apply fenceArray_keeps
        | apply acceptTaps_keeps
        | refine Keeps.ite ?_ ?_
      | split
    | split
    | dsimp only

theorem reportCal_keeps {s₀ : State} (s : State) (hk : Keeps s₀ s) : Keeps s₀ (reportCal s) := by
  unfold reportCal
  try dsimp only
  repeat' first
    | with_reducible first
      | assumption
      | intro _
      | apply setWord_keeps
      | apply cmdEnd_keeps
      | refine Keeps.ite ?_ ?_
      | refine Keeps.ite_snd ?_ ?_
      | apply Keeps.ite_fst
      | refine Keeps.foldl (fun _ _ _ => ?_) ?_
      | refine Keeps.foldl_snd (fun _ _ _ => ?_) ?_
    | split
    | dsimp only

theorem refsLost_keeps {s₀ : State} (s : State) (v : Nat) (r : ErrRec) (hk : Keeps s₀ s) : Keeps s₀ (refsLost s v r) := by
  unfold refsLost
  try dsimp only
  repeat' first
    | with_reducible first
      | assumption
      | intro _
      | apply State.modArr_keeps
      | apply State.modVat_keeps
      | apply fenceVat_keeps
      | apply reportCal_keeps
      | refine Keeps.ite ?_ ?_
      | refine Keeps.foldl (fun _ _ _ => ?_) ?_
      | refine Keeps.foldl_snd (fun _ _ _ => ?_) ?_
    | (with_reducible first | apply Keeps.mk_rest | apply Keeps.mk_mem | apply Keeps.mk_sec | apply Keeps.mk_mem_sec) <;> first
      | with_reducible first
        | assumption
        | apply State.modArr_keeps
        | apply State.modVat_keeps
        | apply fenceVat_keeps
        | apply reportCal_keeps
        | refine Keeps.ite ?_ ?_
        | refine Keeps.foldl (fun _ _ _ => ?_) ?_
      | split
    | split
    | dsimp only

theorem execRefLineCalResult_keeps {s₀ : State} (vat line : Nat) (taps : TapPair) (s : State) (hk : Keeps s₀ s) : KeepsO s₀ (execRefLineCalResult vat line taps s) := by
  unfold execRefLineCalResult
  try dsimp only
  repeat' first
    | with_reducible first
      | assumption
      | intro _
      | apply State.setVat_keeps
      | apply State.writeErr_keeps
      | apply refsLost_keeps
      | refine Keeps.ite ?_ ?_
      | refine KeepsO.ite ?_ ?_
      | refine KeepsO.next ?_
    | (with_reducible first | apply Keeps.mk_rest | apply Keeps.mk_mem | apply Keeps.mk_sec | apply Keeps.mk_mem_sec) <;> first
      | with_reducible first
        | assumption
        | apply State.setVat_keeps
        | apply State.writeErr_keeps
        | apply refsLost_keeps
        | refine Keeps.ite ?_ ?_
      | split
    | split
    | dsimp only

theorem execCalRunDone_keeps {s₀ : State} (vat stepFs : Nat) (s : State) (hk : Keeps s₀ s) : KeepsO s₀ (execCalRunDone vat stepFs s) := by
  unfold execCalRunDone
  try dsimp only
  repeat' first
    | with_reducible first
      | assumption
      | intro _
      | apply State.modArr_keeps
      | apply State.setVat_keeps
      | apply acceptWaiting_keeps
      | apply reportCal_keeps
      | refine Keeps.ite ?_ ?_
      | refine KeepsO.ite ?_ ?_
      | refine KeepsO.next ?_
      | refine Keeps.foldl (fun _ _ _ => ?_) ?_
      | refine Keeps.foldl_snd (fun _ _ _ => ?_) ?_
    | (with_reducible first | apply Keeps.mk_rest | apply Keeps.mk_mem | apply Keeps.mk_sec | apply Keeps.mk_mem_sec) <;> first
      | with_reducible first
        | assumption
        | apply State.modArr_keeps
        | apply State.setVat_keeps
        | apply acceptWaiting_keeps
        | apply reportCal_keeps
        | refine Keeps.ite ?_ ?_
        | refine Keeps.foldl (fun _ _ _ => ?_) ?_
      | split
    | split
    | dsimp only

theorem execDriftCalibration_keeps {s₀ : State} (n : Nat) (s : State) (hk : Keeps s₀ s) : KeepsO s₀ (execDriftCalibration n s) := by
  unfold execDriftCalibration
  try dsimp only
  repeat' first
    | with_reducible first
      | assumption
      | intro _
      | apply State.modArr_keeps
      | refine Keeps.ite ?_ ?_
      | refine KeepsO.ite ?_ ?_
      | refine KeepsO.next ?_
    | (with_reducible first | apply Keeps.mk_rest | apply Keeps.mk_mem | apply Keeps.mk_sec | apply Keeps.mk_mem_sec) <;> first
      | with_reducible first
        | assumption
        | apply State.modArr_keeps
        | refine Keeps.ite ?_ ?_
      | split
    | split
    | dsimp only

theorem execIdleCalibrationSlice_keeps {s₀ : State} (n : Nat) (cut : Bool) (s : State) (hk : Keeps s₀ s) : KeepsO s₀ (execIdleCalibrationSlice n cut s) := by
  unfold execIdleCalibrationSlice
  try dsimp only
  repeat' first
    | with_reducible first
      | assumption
      | intro _
      | apply State.setArr_keeps
      | apply State.until_keeps
      | apply acceptWaiting_keeps
      | refine Keeps.ite ?_ ?_
      | refine KeepsO.ite ?_ ?_
      | refine KeepsO.next ?_
    | (with_reducible first | apply Keeps.mk_rest | apply Keeps.mk_mem | apply Keeps.mk_sec | apply Keeps.mk_mem_sec) <;> first
      | with_reducible first
        | assumption
        | apply State.setArr_keeps
        | apply State.until_keeps
        | apply acceptWaiting_keeps
        | refine Keeps.ite ?_ ?_
      | split
    | split
    | dsimp only

end Sys2Proof.Machine
end

