-- ==== Sys2Proof/Laws/KeepsEmbOps.lean ====
section
/-! SUPPORT. Each operation of Machine/EmbOps.lean makes a change that `Keeps`. -/

namespace Sys2Proof.Machine

theorem setDir_keeps {s₀ : State} (s : State) (k : Nat) (e : Option DirEnt) (hk : Keeps s₀ s) : Keeps s₀ (setDir s k e) := by
  unfold setDir
  try dsimp only
  repeat' first
    | with_reducible first
      | assumption
      | intro _
    | (with_reducible first | apply Keeps.mk_rest | apply Keeps.mk_mem | apply Keeps.mk_sec | apply Keeps.mk_mem_sec) <;> first
      | with_reducible first
        | assumption
    | dsimp only

theorem dropEntries_keeps {s₀ : State} (s : State) (f : DirEnt → Bool) (hk : Keeps s₀ s) : Keeps s₀ (dropEntries s f) := by
  unfold dropEntries
  try dsimp only
  repeat' first
    | with_reducible first
      | assumption
      | intro _
    | (with_reducible first | apply Keeps.mk_rest | apply Keeps.mk_mem | apply Keeps.mk_sec | apply Keeps.mk_mem_sec) <;> first
      | with_reducible first
        | assumption
    | dsimp only

theorem takeWay_keeps {s₀ : State} (s : State) (p table row : Nat) (pinned : Bool) (hk : Keeps s₀ s) : Keeps s₀ (takeWay s p table row pinned) := by
  unfold takeWay
  try dsimp only
  repeat' first
    | with_reducible first
      | assumption
      | intro _
      | apply setDir_keeps
      | refine Keeps.ite ?_ ?_
    | (with_reducible first | apply Keeps.mk_rest | apply Keeps.mk_mem | apply Keeps.mk_sec | apply Keeps.mk_mem_sec) <;> first
      | with_reducible first
        | assumption
        | apply setDir_keeps
        | refine Keeps.ite ?_ ?_
      | split
    | split
    | dsimp only

theorem finishCopies_keeps {s₀ : State} (s : State) (hk : Keeps s₀ s) : Keeps s₀ (finishCopies s) := by
  unfold finishCopies
  try dsimp only
  repeat' first
    | with_reducible first
      | assumption
      | intro _
      | apply setDir_keeps
      | refine Keeps.ite ?_ ?_
      | refine Keeps.ite_snd ?_ ?_
      | apply Keeps.ite_fst
      | refine Keeps.foldl (fun _ _ _ => ?_) ?_
      | refine Keeps.foldl_snd (fun _ _ _ => ?_) ?_
    | (with_reducible first | apply Keeps.mk_rest | apply Keeps.mk_mem | apply Keeps.mk_sec | apply Keeps.mk_mem_sec) <;> first
      | with_reducible first
        | assumption
        | apply setDir_keeps
        | refine Keeps.ite ?_ ?_
        | refine Keeps.foldl (fun _ _ _ => ?_) ?_
      | split
    | split
    | dsimp only

theorem sketchMiss_keeps {s₀ : State} (s : State) (p table row : Nat) (hk : Keeps s₀ s) : Keeps s₀ (sketchMiss s p table row) := by
  unfold sketchMiss
  try dsimp only
  repeat' first
    | with_reducible first
      | assumption
      | intro _
      | refine Keeps.ite ?_ ?_
      | refine Keeps.foldl (fun _ _ _ => ?_) ?_
      | refine Keeps.foldl_snd (fun _ _ _ => ?_) ?_
    | (with_reducible first | apply Keeps.mk_rest | apply Keeps.mk_mem | apply Keeps.mk_sec | apply Keeps.mk_mem_sec) <;> first
      | with_reducible first
        | assumption
        | refine Keeps.ite ?_ ?_
        | refine Keeps.foldl (fun _ _ _ => ?_) ?_
      | split
    | split
    | dsimp only

theorem countLookup_keeps {s₀ : State} (s : State) (p table row : Nat) (hit : Option Nat) (hk : Keeps s₀ s) : Keeps s₀ (countLookup s p table row hit) := by
  unfold countLookup
  try dsimp only
  repeat' first
    | with_reducible first
      | assumption
      | intro _
      | apply setDir_keeps
      | apply sketchMiss_keeps
      | refine Keeps.ite ?_ ?_
    | (with_reducible first | apply Keeps.mk_rest | apply Keeps.mk_mem | apply Keeps.mk_sec | apply Keeps.mk_mem_sec) <;> first
      | with_reducible first
        | assumption
        | apply setDir_keeps
        | apply sketchMiss_keeps
        | refine Keeps.ite ?_ ?_
      | split
    | split
    | dsimp only

theorem setUnits_keeps {s₀ : State} (s : State) (p n : Nat) (hk : Keeps s₀ s) : Keeps s₀ (setUnits s p n) := by
  unfold setUnits
  try dsimp only
  repeat' first
    | with_reducible first
      | assumption
      | intro _
      | apply dropEntries_keeps
      | refine Keeps.ite ?_ ?_
      | apply Keeps.ite_fst
    | (with_reducible first | apply Keeps.mk_rest | apply Keeps.mk_mem | apply Keeps.mk_sec | apply Keeps.mk_mem_sec) <;> first
      | with_reducible first
        | assumption
        | apply dropEntries_keeps
        | refine Keeps.ite ?_ ?_
      | split
    | split
    | dsimp only

end Sys2Proof.Machine
end

