-- ==== Sys2Proof/Laws/KeepsWheelOps.lean ====
section
/-! SUPPORT. Each operation of Machine/WheelOps.lean makes a change that `Keeps`. -/

namespace Sys2Proof.Machine

theorem setCave_keeps {s₀ : State} (s : State) (k : Nat) (c : CaveSlot) (hk : Keeps s₀ s) : Keeps s₀ (setCave s k c) := by
  unfold setCave
  try dsimp only
  repeat' first
    | with_reducible first
      | assumption
      | intro _
    | (with_reducible first | apply Keeps.mk_rest | apply Keeps.mk_mem | apply Keeps.mk_sec | apply Keeps.mk_mem_sec) <;> first
      | with_reducible first
        | assumption
    | dsimp only

theorem dropCave_keeps {s₀ : State} (s : State) (c : CaveSlot) (hk : Keeps s₀ s) : Keeps s₀ (dropCave s c) := by
  unfold dropCave
  try dsimp only
  repeat' first
    | with_reducible first
      | assumption
      | intro _
    | (with_reducible first | apply Keeps.mk_rest | apply Keeps.mk_mem | apply Keeps.mk_sec | apply Keeps.mk_mem_sec) <;> first
      | with_reducible first
        | assumption
    | dsimp only

theorem pushReplica_keeps {s₀ : State} (s : State) (p epoch : Nat) (e : Octets) (hk : Keeps s₀ s) : Keeps s₀ (pushReplica s p epoch e) := by
  unfold pushReplica
  try dsimp only
  repeat' first
    | with_reducible first
      | assumption
      | intro _
      | apply State.modWhl_keeps
      | apply State.emit_keeps
      | refine Keeps.ite ?_ ?_
      | refine Keeps.foldl (fun _ _ _ => ?_) ?_
      | refine Keeps.foldl_snd (fun _ _ _ => ?_) ?_
    | (with_reducible first | apply Keeps.mk_rest | apply Keeps.mk_mem | apply Keeps.mk_sec | apply Keeps.mk_mem_sec) <;> first
      | with_reducible first
        | assumption
        | apply State.modWhl_keeps
        | apply State.emit_keeps
        | refine Keeps.ite ?_ ?_
        | refine Keeps.foldl (fun _ _ _ => ?_) ?_
      | split
    | split
    | dsimp only

theorem setChains_keeps {s₀ : State} (s : State) (p : Nat) (w : Wheel) (hk : Keeps s₀ s) : Keeps s₀ (setChains s p w) := by
  unfold setChains
  try dsimp only
  repeat' first
    | with_reducible first
      | assumption
      | intro _
      | apply State.modArr_keeps
      | refine Keeps.foldl (fun _ _ _ => ?_) ?_
      | refine Keeps.foldl_snd (fun _ _ _ => ?_) ?_
    | (with_reducible first | apply Keeps.mk_rest | apply Keeps.mk_mem | apply Keeps.mk_sec | apply Keeps.mk_mem_sec) <;> first
      | with_reducible first
        | assumption
        | apply State.modArr_keeps
        | refine Keeps.foldl (fun _ _ _ => ?_) ?_
    | dsimp only

theorem setTables_keeps {s₀ : State} (s : State) (w : Wheel) (hk : Keeps s₀ s) : Keeps s₀ (setTables s w) := by
  unfold setTables
  try dsimp only
  repeat' first
    | with_reducible first
      | assumption
      | intro _
      | apply State.modVat_keeps
      | refine Keeps.foldl (fun _ _ _ => ?_) ?_
      | refine Keeps.foldl_snd (fun _ _ _ => ?_) ?_
    | (with_reducible first | apply Keeps.mk_rest | apply Keeps.mk_mem | apply Keeps.mk_sec | apply Keeps.mk_mem_sec) <;> first
      | with_reducible first
        | assumption
        | apply State.modVat_keeps
        | refine Keeps.foldl (fun _ _ _ => ?_) ?_
    | dsimp only

theorem reprefill_keeps {s₀ : State} (s : State) (p : Nat) (hk : Keeps s₀ s) : Keeps s₀ (reprefill s p) := by
  unfold reprefill
  try dsimp only
  repeat' first
    | with_reducible first
      | assumption
      | intro _
      | refine Keeps.ite ?_ ?_
      | refine Keeps.ite_st ?_ ?_
    | (with_reducible first | apply Keeps.mk_rest | apply Keeps.mk_mem | apply Keeps.mk_sec | apply Keeps.mk_mem_sec) <;> first
      | with_reducible first
        | assumption
        | refine Keeps.ite ?_ ?_
      | split
    | split
    | dsimp only

theorem putInForce_keeps {s₀ : State} (s : State) (p : Nat) (w : Wheel) (epoch : Nat) (envelope : Option Octets) (hk : Keeps s₀ s) : Keeps s₀ (putInForce s p w epoch envelope) := by
  unfold putInForce
  try dsimp only
  repeat' first
    | with_reducible first
      | assumption
      | intro _
      | apply State.modArr_keeps
      | apply State.modWhl_keeps
      | apply programTarget_keeps
      | apply dropCave_keeps
      | apply setChains_keeps
      | apply setTables_keeps
      | refine Keeps.ite ?_ ?_
      | refine Keeps.ite_snd ?_ ?_
      | apply Keeps.ite_fst
      | refine Keeps.foldl (fun _ _ _ => ?_) ?_
      | refine Keeps.foldl_snd (fun _ _ _ => ?_) ?_
    | (with_reducible first | apply Keeps.mk_rest | apply Keeps.mk_mem | apply Keeps.mk_sec | apply Keeps.mk_mem_sec) <;> first
      | with_reducible first
        | assumption
        | apply State.modArr_keeps
        | apply State.modWhl_keeps
        | apply programTarget_keeps
        | apply dropCave_keeps
        | apply setChains_keeps
        | apply setTables_keeps
        | refine Keeps.ite ?_ ?_
        | refine Keeps.foldl (fun _ _ _ => ?_) ?_
      | split
    | split
    | dsimp only

theorem flip_keeps {s₀ : State} (s : State) (p : Nat) (hk : Keeps s₀ s) : Keeps s₀ (flip s p) := by
  unfold flip
  try dsimp only
  repeat' first
    | with_reducible first
      | assumption
      | intro _
      | apply State.modWhl_keeps
      | apply State.emit_keeps
      | apply finishRemap_keeps
      | apply reprefill_keeps
      | apply putInForce_keeps
      | refine Keeps.ite ?_ ?_
      | refine Keeps.ite_snd ?_ ?_
      | apply Keeps.ite_fst
      | refine Keeps.foldl (fun _ _ _ => ?_) ?_
      | refine Keeps.foldl_snd (fun _ _ _ => ?_) ?_
    | (with_reducible first | apply Keeps.mk_rest | apply Keeps.mk_mem | apply Keeps.mk_sec | apply Keeps.mk_mem_sec) <;> first
      | with_reducible first
        | assumption
        | apply State.modWhl_keeps
        | apply State.emit_keeps
        | apply finishRemap_keeps
        | apply reprefill_keeps
        | apply putInForce_keeps
        | refine Keeps.ite ?_ ?_
        | refine Keeps.foldl (fun _ _ _ => ?_) ?_
      | split
    | split
    | dsimp only

end Sys2Proof.Machine
end

