-- ==== Sys2Proof/Laws/KeepsServeOps.lean ====
section
/-! SUPPORT. Each operation of Machine/ServeOps.lean makes a change that `Keeps`. -/

namespace Sys2Proof.Machine

theorem setReq_keeps {s₀ : State} (s : State) (q : Req) (hk : Keeps s₀ s) : Keeps s₀ (setReq s q) := by
  unfold setReq
  try dsimp only
  repeat' first
    | with_reducible first
      | assumption
      | intro _
      | refine Keeps.ite ?_ ?_
    | (with_reducible first | apply Keeps.mk_rest | apply Keeps.mk_mem | apply Keeps.mk_sec | apply Keeps.mk_mem_sec) <;> first
      | with_reducible first
        | assumption
        | refine Keeps.ite ?_ ?_
      | split
    | split
    | dsimp only

theorem addReq_keeps {s₀ : State} (s : State) (q : Req) (hk : Keeps s₀ s) : Keeps s₀ (addReq s q) := by
  unfold addReq
  try dsimp only
  repeat' first
    | with_reducible first
      | assumption
      | intro _
    | (with_reducible first | apply Keeps.mk_rest | apply Keeps.mk_mem | apply Keeps.mk_sec | apply Keeps.mk_mem_sec) <;> first
      | with_reducible first
        | assumption
    | dsimp only

theorem forgetEnded_keeps {s₀ : State} (s : State) (h : Nat) (hk : Keeps s₀ s) : Keeps s₀ (forgetEnded s h) := by
  unfold forgetEnded
  try dsimp only
  repeat' first
    | with_reducible first
      | assumption
      | intro _
    | (with_reducible first | apply Keeps.mk_rest | apply Keeps.mk_mem | apply Keeps.mk_sec | apply Keeps.mk_mem_sec) <;> first
      | with_reducible first
        | assumption
    | dsimp only

theorem retire_keeps {s₀ : State} (s : State) (h k : Nat) (hk : Keeps s₀ s) : Keeps s₀ (retire s h k) := by
  unfold retire
  try dsimp only
  repeat' first
    | with_reducible first
      | assumption
      | intro _
      | apply setChan_keeps
      | apply syncDo_keeps
      | refine Keeps.ite ?_ ?_
      | refine Keeps.ite_snd ?_ ?_
    | (with_reducible first | apply Keeps.mk_rest | apply Keeps.mk_mem | apply Keeps.mk_sec | apply Keeps.mk_mem_sec) <;> first
      | with_reducible first
        | assumption
        | apply setChan_keeps
        | apply syncDo_keeps
        | refine Keeps.ite ?_ ?_
      | split
    | split
    | dsimp only

theorem journalPut_keeps {s₀ : State} (s : State) (kind : Nat) (body : Octets) (hk : Keeps s₀ s) : Keeps s₀ (journalPut s kind body).2 := by
  unfold journalPut
  try dsimp only
  repeat' first
    | with_reducible first
      | assumption
      | intro _
      | apply State.emit_keeps
      | refine Keeps.ite ?_ ?_
      | refine Keeps.ite_snd ?_ ?_
      | refine Keeps.ite_st ?_ ?_
      | refine Keeps.foldl (fun _ _ _ => ?_) ?_
      | refine Keeps.foldl_snd (fun _ _ _ => ?_) ?_
    | (with_reducible first | apply Keeps.mk_rest | apply Keeps.mk_mem | apply Keeps.mk_sec | apply Keeps.mk_mem_sec) <;> first
      | with_reducible first
        | assumption
        | apply State.emit_keeps
        | refine Keeps.ite ?_ ?_
        | refine Keeps.foldl (fun _ _ _ => ?_) ?_
      | split
    | split
    | dsimp only

theorem checkpoint_keeps {s₀ : State} (s : State) (q : Req) (hk : Keeps s₀ s) : Keeps s₀ (checkpoint s q) := by
  unfold checkpoint
  try dsimp only
  repeat' first
    | with_reducible first
      | assumption
      | intro _
      | apply setReq_keeps
      | apply journalPut_keeps
    | (with_reducible first | apply Keeps.mk_rest | apply Keeps.mk_mem | apply Keeps.mk_sec | apply Keeps.mk_mem_sec) <;> first
      | with_reducible first
        | assumption
        | apply setReq_keeps
        | apply journalPut_keeps
    | dsimp only

theorem checkpointFirst_keeps {s₀ : State} (s : State) (len : Nat) (hk : Keeps s₀ s) : Keeps s₀ (checkpointFirst s len) := by
  unfold checkpointFirst
  try dsimp only
  repeat' first
    | with_reducible first
      | assumption
      | intro _
      | apply checkpoint_keeps
      | refine Keeps.ite ?_ ?_
      | refine Keeps.foldl (fun _ _ _ => ?_) ?_
      | refine Keeps.foldl_snd (fun _ _ _ => ?_) ?_
    | split
    | dsimp only

theorem journalWrite_keeps {s₀ : State} (s : State) (kind : Nat) (body : Octets) (hk : Keeps s₀ s) : Keeps s₀ (journalWrite s kind body).2 := by
  unfold journalWrite
  try dsimp only
  repeat' first
    | with_reducible first
      | assumption
      | intro _
      | apply journalPut_keeps
      | apply checkpointFirst_keeps
    | dsimp only

theorem addRec_keeps {s₀ : State} (s : State) (h : Nat) (r : OutRec) (hk : Keeps s₀ s) : Keeps s₀ (addRec s h r) := by
  unfold addRec
  try dsimp only
  repeat' first
    | with_reducible first
      | assumption
      | intro _
    | (with_reducible first | apply Keeps.mk_rest | apply Keeps.mk_mem | apply Keeps.mk_sec | apply Keeps.mk_mem_sec) <;> first
      | with_reducible first
        | assumption
    | dsimp only

theorem unholdLater_keeps {s₀ : State} (s : State) (seq : Nat) (hk : Keeps s₀ s) : Keeps s₀ (unholdLater s seq) := by
  unfold unholdLater
  try dsimp only
  repeat' first
    | with_reducible first
      | assumption
      | intro _
    | (with_reducible first | apply Keeps.mk_rest | apply Keeps.mk_mem | apply Keeps.mk_sec | apply Keeps.mk_mem_sec) <;> first
      | with_reducible first
        | assumption
    | dsimp only

theorem endReq_keeps {s₀ : State} (s : State) (q : Req) (status reason stopIndex batch cls : Nat) (held : Bool) (hk : Keeps s₀ s) : Keeps s₀ (endReq s q status reason stopIndex batch cls held) := by
  unfold endReq
  try dsimp only
  repeat' first
    | with_reducible first
      | assumption
      | intro _
      | apply setReq_keeps
      | apply retire_keeps
      | apply journalWrite_keeps
      | apply addRec_keeps
      | apply unholdLater_keeps
      | refine Keeps.ite ?_ ?_
      | refine Keeps.ite_snd ?_ ?_
      | apply Keeps.ite_fst
    | (with_reducible first | apply Keeps.mk_rest | apply Keeps.mk_mem | apply Keeps.mk_sec | apply Keeps.mk_mem_sec) <;> first
      | with_reducible first
        | assumption
        | apply setReq_keeps
        | apply retire_keeps
        | apply journalWrite_keeps
        | apply addRec_keeps
        | apply unholdLater_keeps
        | refine Keeps.ite ?_ ?_
      | split
    | split
    | dsimp only

theorem endNow_keeps {s₀ : State} (s : State) (q : Req) (status : Nat) (hk : Keeps s₀ s) : Keeps s₀ (endNow s q status) := by
  unfold endNow
  try dsimp only
  repeat' first
    | with_reducible first
      | assumption
      | intro _
      | apply endReq_keeps
    | dsimp only

theorem endSilent_keeps {s₀ : State} (s : State) (q : Req) (hk : Keeps s₀ s) : Keeps s₀ (endSilent s q) := by
  unfold endSilent
  try dsimp only
  repeat' first
    | with_reducible first
      | assumption
      | intro _
      | apply journalWrite_keeps
      | apply unholdLater_keeps
      | refine Keeps.ite ?_ ?_
      | refine Keeps.ite_snd ?_ ?_
    | (with_reducible first | apply Keeps.mk_rest | apply Keeps.mk_mem | apply Keeps.mk_sec | apply Keeps.mk_mem_sec) <;> first
      | with_reducible first
        | assumption
        | apply journalWrite_keeps
        | apply unholdLater_keeps
        | refine Keeps.ite ?_ ?_
      | split
    | split
    | dsimp only

theorem killChannel_keeps {s₀ : State} (s : State) (h : Nat) (hk : Keeps s₀ s) : Keeps s₀ (killChannel s h) := by
  unfold killChannel
  try dsimp only
  repeat' first
    | with_reducible first
      | assumption
      | intro _
      | apply setChan_keeps
      | apply endSilent_keeps
      | refine Keeps.ite ?_ ?_
      | refine Keeps.foldl (fun _ _ _ => ?_) ?_
      | refine Keeps.foldl_snd (fun _ _ _ => ?_) ?_
    | (with_reducible first | apply Keeps.mk_rest | apply Keeps.mk_mem | apply Keeps.mk_sec | apply Keeps.mk_mem_sec) <;> first
      | with_reducible first
        | assumption
        | apply setChan_keeps
        | apply endSilent_keeps
        | refine Keeps.ite ?_ ?_
        | refine Keeps.foldl (fun _ _ _ => ?_) ?_
      | split
    | split
    | dsimp only

theorem rdmaSend_keeps {s₀ : State} (s : State) (h : Nat) (o : Out) (hk : Keeps s₀ s) : Keeps s₀ (rdmaSend s h o) := by
  unfold rdmaSend
  try dsimp only
  repeat' first
    | with_reducible first
      | assumption
      | intro _
      | apply State.emit_keeps
      | apply setChan_keeps
      | refine Keeps.ite ?_ ?_
    | (with_reducible first | apply Keeps.mk_rest | apply Keeps.mk_mem | apply Keeps.mk_sec | apply Keeps.mk_mem_sec) <;> first
      | with_reducible first
        | assumption
        | apply State.emit_keeps
        | apply setChan_keeps
        | refine Keeps.ite ?_ ?_
      | split
    | split
    | dsimp only

theorem writeRecs_keeps {s₀ : State} (h : Nat) (l : List OutRec) (s : State) (hk : Keeps s₀ s) :
    Keeps s₀ (writeRecs h l s) := by
  induction l generalizing s with
  | nil => exact Keeps.mk_rest hk
  | cons r t ih =>
    unfold writeRecs
    dsimp only
    repeat' first
      | with_reducible first
        | assumption
        | intro _
        | apply ih
        | apply setChan_keeps
        | apply rdmaSend_keeps
        | refine Keeps.ite ?_ ?_
        | refine Keeps.ite_snd ?_ ?_
        | refine Keeps.ite_st ?_ ?_
        | refine Keeps.foldl (fun _ _ _ => ?_) ?_
        | refine Keeps.foldl_snd (fun _ _ _ => ?_) ?_
      | (with_reducible first | apply Keeps.mk_rest | apply Keeps.mk_mem | apply Keeps.mk_sec | apply Keeps.mk_mem_sec) <;> first
        | with_reducible first
          | assumption
          | apply ih
          | apply setChan_keeps
          | apply rdmaSend_keeps
          | refine Keeps.ite ?_ ?_
          | refine Keeps.foldl (fun _ _ _ => ?_) ?_
        | split
      | split
      | dsimp only

theorem flushChannel_keeps {s₀ : State} (s : State) (h : Nat) (hk : Keeps s₀ s) : Keeps s₀ (flushChannel s h) := by
  unfold flushChannel
  try dsimp only
  repeat' first
    | with_reducible first
      | assumption
      | intro _
      | apply forgetEnded_keeps
      | apply rdmaSend_keeps
      | apply writeRecs_keeps
      | refine Keeps.ite ?_ ?_
      | refine Keeps.ite_snd ?_ ?_
    | split
    | dsimp only

end Sys2Proof.Machine
end

