-- ==== Sys2Proof/Laws/KeepsMem.lean ====
section
/-! SUPPORT. Each operation of Machine/Mem.lean makes a change that `Keeps`. -/

namespace Sys2Proof.Machine

theorem memRegionBody_keeps {s₀ : State} (sess p : Nat) (arg : Octets) (s : State) (hk : Keeps s₀ s) : Keeps s₀ (memRegionBody sess p arg s).st := by
  unfold memRegionBody
  try dsimp only
  repeat' first
    | with_reducible first
      | assumption
      | intro _
      | apply refuse_keeps
      | apply stepPend_keeps
      | refine Keeps.ite ?_ ?_
      | refine Keeps.ite_st ?_ ?_
    | split
    | dsimp only

theorem memRegionWrite_keeps (s₀ : State) (sess : Nat) (arg : Octets) (s : State) (h : Keeps s₀ s) : Keeps s₀ (memRegionWrite sess arg s).2 := by
  unfold memRegionWrite
  repeat' first
    | with_reducible first
      | assumption
      | intro _
      | apply cmdWrite_keeps
      | apply memRegionBody_keeps
    | dsimp only

theorem execMemRegionSet_keeps {s₀ : State} (sess : Nat) (arg : Octets) (s : State) (hk : Keeps s₀ s) : KeepsO s₀ (execMemRegionSet sess arg s) := by
  unfold execMemRegionSet
  try dsimp only
  repeat' first
    | with_reducible first
      | assumption
      | intro _
      | apply cmdRow_keeps
      | apply memRegionWrite_keeps
      | refine KeepsO.next ?_
    | dsimp only

theorem startZero_keeps {s₀ : State} (s : State) (p : Nat) (rs : List Region) (clearKey : Bool) (hk : Keeps s₀ s) : Keeps s₀ (startZero s p rs clearKey) := by
  unfold startZero
  try dsimp only
  repeat' first
    | with_reducible first
      | assumption
      | intro _
    | (with_reducible first | apply Keeps.mk_rest | apply Keeps.mk_mem | apply Keeps.mk_sec | apply Keeps.mk_mem_sec) <;> first
      | with_reducible first
        | assumption
    | dsimp only

theorem memRegionApply_keeps {s₀ : State} (arg : Octets) (s : State) (hk : Keeps s₀ s) : Keeps s₀ (memRegionApply arg s).2 := by
  unfold memRegionApply
  try dsimp only
  repeat' first
    | with_reducible first
      | assumption
      | intro _
      | apply startZero_keeps
      | refine Keeps.ite ?_ ?_
      | refine Keeps.ite_snd ?_ ?_
    | (with_reducible first | apply Keeps.mk_rest | apply Keeps.mk_mem | apply Keeps.mk_sec | apply Keeps.mk_mem_sec) <;> first
      | with_reducible first
        | assumption
        | apply startZero_keeps
        | refine Keeps.ite ?_ ?_
      | split
    | split
    | dsimp only

theorem partGone_keeps {s₀ : State} (s : State) (p : Nat) (hk : Keeps s₀ s) : Keeps s₀ (partGone s p) := by
  unfold partGone
  try dsimp only
  repeat' first
    | with_reducible first
      | assumption
      | intro _
      | apply State.setPart_keeps
      | apply cmdEnd_keeps
      | refine Keeps.ite ?_ ?_
      | refine Keeps.ite_snd ?_ ?_
      | refine Keeps.ite_st ?_ ?_
    | (with_reducible first | apply Keeps.mk_rest | apply Keeps.mk_mem | apply Keeps.mk_sec | apply Keeps.mk_mem_sec) <;> first
      | with_reducible first
        | assumption
        | apply State.setPart_keeps
        | apply cmdEnd_keeps
        | refine Keeps.ite ?_ ?_
      | split
    | split
    | dsimp only

theorem execMemoryZeroDone_keeps {s₀ : State} (job : Nat) (s : State) (hk : Keeps s₀ s) : KeepsO s₀ (execMemoryZeroDone job s) := by
  unfold execMemoryZeroDone
  try dsimp only
  repeat' first
    | with_reducible first
      | assumption
      | intro _
      | apply zeroKeys_keeps
      | apply partGone_keeps
      | refine Keeps.ite ?_ ?_
      | refine KeepsO.ite ?_ ?_
      | refine KeepsO.next ?_
    | (with_reducible first | apply Keeps.mk_rest | apply Keeps.mk_mem | apply Keeps.mk_sec | apply Keeps.mk_mem_sec) <;> first
      | with_reducible first
        | assumption
        | apply zeroKeys_keeps
        | apply partGone_keeps
        | refine Keeps.ite ?_ ?_
      | split
    | split
    | dsimp only

theorem corrected_keeps {s₀ : State} (s : State) (k line die : Nat) (hk : Keeps s₀ s) : Keeps s₀ (corrected s k line die) := by
  unfold corrected
  try dsimp only
  repeat' first
    | with_reducible first
      | assumption
      | intro _
      | apply State.setSlice_keeps
      | apply State.writeErr_keeps
      | refine Keeps.ite ?_ ?_
    | (with_reducible first | apply Keeps.mk_rest | apply Keeps.mk_mem | apply Keeps.mk_sec | apply Keeps.mk_mem_sec) <;> first
      | with_reducible first
        | assumption
        | apply State.setSlice_keeps
        | apply State.writeErr_keeps
        | refine Keeps.ite ?_ ?_
      | split
    | split
    | dsimp only

theorem uncorrectable_keeps {s₀ : State} (s : State) (k line : Nat) (die : Option Nat) (hk : Keeps s₀ s) : Keeps s₀ (uncorrectable s k line die) := by
  unfold uncorrectable
  try dsimp only
  repeat' first
    | with_reducible first
      | assumption
      | intro _
      | apply State.setSlice_keeps
      | apply State.writeErr_keeps
      | refine Keeps.ite ?_ ?_
    | (with_reducible first | apply Keeps.mk_rest | apply Keeps.mk_mem | apply Keeps.mk_sec | apply Keeps.mk_mem_sec) <;> first
      | with_reducible first
        | assumption
        | apply State.setSlice_keeps
        | apply State.writeErr_keeps
        | refine Keeps.ite ?_ ?_
      | split
    | split
    | dsimp only

theorem execPatrolScrub_keeps {s₀ : State} (slice line : Nat) (err : Option EccError) (s : State) (hk : Keeps s₀ s) : KeepsO s₀ (execPatrolScrub slice line err s) := by
  unfold execPatrolScrub
  try dsimp only
  repeat' first
    | with_reducible first
      | assumption
      | intro _
      | apply State.setSlice_keeps
      | apply corrected_keeps
      | apply uncorrectable_keeps
      | refine Keeps.ite ?_ ?_
      | refine Keeps.ite_st ?_ ?_
      | refine KeepsO.ite ?_ ?_
      | refine KeepsO.next ?_
    | (with_reducible first | apply Keeps.mk_rest | apply Keeps.mk_mem | apply Keeps.mk_sec | apply Keeps.mk_mem_sec) <;> first
      | with_reducible first
        | assumption
        | apply State.setSlice_keeps
        | apply corrected_keeps
        | apply uncorrectable_keeps
        | refine Keeps.ite ?_ ?_
      | split
    | split
    | dsimp only

theorem pushAgain_keeps {s₀ : State} (s : State) (chip : Nat) (idx : List Nat) (hk : Keeps s₀ s) : Keeps s₀ (pushAgain s chip idx) := by
  unfold pushAgain
  try dsimp only
  repeat' first
    | with_reducible first
      | assumption
      | intro _
      | apply State.modWhl_keeps
      | apply State.emit_keeps
      | refine Keeps.ite ?_ ?_
      | refine Keeps.ite_snd ?_ ?_
      | apply Keeps.ite_fst
      | refine Keeps.foldl (fun _ _ _ => ?_) ?_
      | refine Keeps.foldl_snd (fun _ _ _ => ?_) ?_
    | (with_reducible first | apply Keeps.mk_rest | apply Keeps.mk_mem | apply Keeps.mk_sec | apply Keeps.mk_mem_sec) <;> first
      | with_reducible first
        | assumption
        | apply State.modWhl_keeps
        | apply State.emit_keeps
        | refine Keeps.ite ?_ ?_
        | refine Keeps.foldl (fun _ _ _ => ?_) ?_
      | split
    | split
    | dsimp only

theorem execReplicaLostNotice_keeps {s₀ : State} (chip : Nat) (s : State) (hk : Keeps s₀ s) : KeepsO s₀ (execReplicaLostNotice chip s) := by
  unfold execReplicaLostNotice
  try dsimp only
  repeat' first
    | with_reducible first
      | assumption
      | intro _
      | apply pushAgain_keeps
      | refine Keeps.ite ?_ ?_
      | refine KeepsO.ite ?_ ?_
      | refine KeepsO.next ?_
      | refine Keeps.foldl (fun _ _ _ => ?_) ?_
      | refine Keeps.foldl_snd (fun _ _ _ => ?_) ?_
    | (with_reducible first | apply Keeps.mk_rest | apply Keeps.mk_mem | apply Keeps.mk_sec | apply Keeps.mk_mem_sec) <;> first
      | with_reducible first
        | assumption
        | apply pushAgain_keeps
        | refine Keeps.ite ?_ ?_
        | refine Keeps.foldl (fun _ _ _ => ?_) ?_
      | split
    | split
    | dsimp only

end Sys2Proof.Machine
end

