-- ==== Sys2Proof/Laws/KeepsMonitor.lean ====
section
/-! SUPPORT. Each operation of Machine/Monitor.lean makes a change that `Keeps`. -/

namespace Sys2Proof.Machine

theorem State.setMonSeq_keeps {s₀ : State} (s : State) (k : Nat) (q : MonSeq) (hk : Keeps s₀ s) : Keeps s₀ (State.setMonSeq s k q) := by
  unfold State.setMonSeq
  try dsimp only
  repeat' first
    | with_reducible first
      | assumption
      | intro _
    | (with_reducible first | apply Keeps.mk_rest | apply Keeps.mk_mem | apply Keeps.mk_sec | apply Keeps.mk_mem_sec) <;> first
      | with_reducible first
        | assumption
    | dsimp only

theorem State.setMonConv_keeps {s₀ : State} (s : State) (k : Nat) (c : MonConv) (hk : Keeps s₀ s) : Keeps s₀ (State.setMonConv s k c) := by
  unfold State.setMonConv
  try dsimp only
  repeat' first
    | with_reducible first
      | assumption
      | intro _
    | (with_reducible first | apply Keeps.mk_rest | apply Keeps.mk_mem | apply Keeps.mk_sec | apply Keeps.mk_mem_sec) <;> first
      | with_reducible first
        | assumption
    | dsimp only

theorem State.setMonAcc_keeps {s₀ : State} (s : State) (k : Nat) (a : MonAcc) (hk : Keeps s₀ s) : Keeps s₀ (State.setMonAcc s k a) := by
  unfold State.setMonAcc
  try dsimp only
  repeat' first
    | with_reducible first
      | assumption
      | intro _
    | (with_reducible first | apply Keeps.mk_rest | apply Keeps.mk_mem | apply Keeps.mk_sec | apply Keeps.mk_mem_sec) <;> first
      | with_reducible first
        | assumption
    | dsimp only

theorem slotApply_keeps {s₀ : State} (s : State) (k : Nat) (hk : Keeps s₀ s) : Keeps s₀ (slotApply s k) := by
  unfold slotApply
  try dsimp only
  repeat' first
    | with_reducible first
      | assumption
      | intro _
      | apply State.setMonSeq_keeps
      | apply State.setMonConv_keeps
      | refine Keeps.foldl (fun _ _ _ => ?_) ?_
      | refine Keeps.foldl_snd (fun _ _ _ => ?_) ?_
    | (with_reducible first | apply Keeps.mk_rest | apply Keeps.mk_mem | apply Keeps.mk_sec | apply Keeps.mk_mem_sec) <;> first
      | with_reducible first
        | assumption
        | apply State.setMonSeq_keeps
        | apply State.setMonConv_keeps
        | refine Keeps.foldl (fun _ _ _ => ?_) ?_
    | dsimp only

theorem clearSeen_keeps {s₀ : State} (s : State) (k : Nat) (hk : Keeps s₀ s) : Keeps s₀ (clearSeen s k) := by
  unfold clearSeen
  try dsimp only
  repeat' first
    | with_reducible first
      | assumption
      | intro _
      | apply cmdEnd_keeps
      | refine Keeps.ite ?_ ?_
    | (with_reducible first | apply Keeps.mk_rest | apply Keeps.mk_mem | apply Keeps.mk_sec | apply Keeps.mk_mem_sec) <;> first
      | with_reducible first
        | assumption
        | apply cmdEnd_keeps
        | refine Keeps.ite ?_ ?_
      | split
    | split
    | dsimp only

theorem entryBegins_keeps {s₀ : State} (s : State) (k : Nat) (hk : Keeps s₀ s) : Keeps s₀ (entryBegins s k) := by
  unfold entryBegins
  try dsimp only
  repeat' first
    | with_reducible first
      | assumption
      | intro _
      | apply State.setMonSeq_keeps
      | apply State.setMonAcc_keeps
      | apply slotApply_keeps
      | apply clearSeen_keeps
      | refine Keeps.ite ?_ ?_
      | refine Keeps.foldl (fun _ _ _ => ?_) ?_
      | refine Keeps.foldl_snd (fun _ _ _ => ?_) ?_
    | (with_reducible first | apply Keeps.mk_rest | apply Keeps.mk_mem | apply Keeps.mk_sec | apply Keeps.mk_mem_sec) <;> first
      | with_reducible first
        | assumption
        | apply State.setMonSeq_keeps
        | apply State.setMonAcc_keeps
        | apply slotApply_keeps
        | apply clearSeen_keeps
        | refine Keeps.ite ?_ ?_
        | refine Keeps.foldl (fun _ _ _ => ?_) ?_
      | split
    | split
    | dsimp only

theorem startRun_keeps {s₀ : State} (s : State) (k : Nat) (hk : Keeps s₀ s) : Keeps s₀ (startRun s k) := by
  unfold startRun
  try dsimp only
  repeat' first
    | with_reducible first
      | assumption
      | intro _
      | apply State.setMonSeq_keeps
      | apply entryBegins_keeps
    | (with_reducible first | apply Keeps.mk_rest | apply Keeps.mk_mem | apply Keeps.mk_sec | apply Keeps.mk_mem_sec) <;> first
      | with_reducible first
        | assumption
        | apply State.setMonSeq_keeps
        | apply entryBegins_keeps
    | dsimp only

theorem startContinuous_keeps {s₀ : State} (s : State) (k : Nat) (hk : Keeps s₀ s) : Keeps s₀ (startContinuous s k) := by
  unfold startContinuous
  try dsimp only
  repeat' first
    | with_reducible first
      | assumption
      | intro _
      | apply startRun_keeps
      | refine Keeps.ite ?_ ?_
    | split
    | dsimp only

theorem seqWrite_keeps {s₀ : State} (s : State) (k off v : Nat) (hk : Keeps s₀ s) : Keeps s₀ (seqWrite s k off v) := by
  unfold seqWrite
  try dsimp only
  repeat' first
    | with_reducible first
      | assumption
      | intro _
      | apply State.setMonSeq_keeps
      | apply startContinuous_keeps
      | refine Keeps.ite ?_ ?_
    | (with_reducible first | apply Keeps.mk_rest | apply Keeps.mk_mem | apply Keeps.mk_sec | apply Keeps.mk_mem_sec) <;> first
      | with_reducible first
        | assumption
        | apply State.setMonSeq_keeps
        | apply startContinuous_keeps
        | refine Keeps.ite ?_ ?_
      | split
    | split
    | dsimp only

theorem seqClear_keeps {s₀ : State} (s : State) (k : Nat) (hk : Keeps s₀ s) : Keeps s₀ (seqClear s k) := by
  unfold seqClear
  try dsimp only
  repeat' first
    | with_reducible first
      | assumption
      | intro _
      | apply State.setMonSeq_keeps
    | (with_reducible first | apply Keeps.mk_rest | apply Keeps.mk_mem | apply Keeps.mk_sec | apply Keeps.mk_mem_sec) <;> first
      | with_reducible first
        | assumption
        | apply State.setMonSeq_keeps
    | dsimp only

theorem nextCal_keeps {s₀ : State} (s : State) (hk : Keeps s₀ s) : Keeps s₀ (nextCal s) := by
  unfold nextCal
  try dsimp only
  repeat' first
    | with_reducible first
      | assumption
      | intro _
      | apply cmdEnd_keeps
      | apply State.setMonConv_keeps
      | refine Keeps.ite ?_ ?_
    | (with_reducible first | apply Keeps.mk_rest | apply Keeps.mk_mem | apply Keeps.mk_sec | apply Keeps.mk_mem_sec) <;> first
      | with_reducible first
        | assumption
        | apply cmdEnd_keeps
        | apply State.setMonConv_keeps
        | refine Keeps.ite ?_ ?_
      | split
    | split
    | dsimp only

theorem startMonCal_keeps {s₀ : State} (s : State) (mask : Nat) (hk : Keeps s₀ s) : Keeps s₀ (startMonCal s mask) := by
  unfold startMonCal
  try dsimp only
  repeat' first
    | with_reducible first
      | assumption
      | intro _
      | apply nextCal_keeps
    | (with_reducible first | apply Keeps.mk_rest | apply Keeps.mk_mem | apply Keeps.mk_sec | apply Keeps.mk_mem_sec) <;> first
      | with_reducible first
        | assumption
        | apply nextCal_keeps
    | dsimp only

theorem monCalReg_keeps {s₀ : State} (s : State) (v : Nat) (hk : Keeps s₀ s) : Keeps s₀ (monCalReg s v) := by
  unfold monCalReg
  try dsimp only
  repeat' first
    | with_reducible first
      | assumption
      | intro _
      | apply startMonCal_keeps
      | refine Keeps.ite ?_ ?_
    | (with_reducible first | apply Keeps.mk_rest | apply Keeps.mk_mem | apply Keeps.mk_sec | apply Keeps.mk_mem_sec) <;> first
      | with_reducible first
        | assumption
        | apply startMonCal_keeps
        | refine Keeps.ite ?_ ?_
      | split
    | split
    | dsimp only

theorem monRegWrite_keeps {s₀ : State} (s : State) (off v : Nat) (hk : Keeps s₀ s) : Keeps s₀ (monRegWrite s off v) := by
  unfold monRegWrite
  try dsimp only
  repeat' first
    | with_reducible first
      | assumption
      | intro _
      | apply State.setMonConv_keeps
      | apply seqWrite_keeps
      | apply seqClear_keeps
      | apply monCalReg_keeps
      | refine Keeps.ite ?_ ?_
    | (with_reducible first | apply Keeps.mk_rest | apply Keeps.mk_mem | apply Keeps.mk_sec | apply Keeps.mk_mem_sec) <;> first
      | with_reducible first
        | assumption
        | apply State.setMonConv_keeps
        | apply seqWrite_keeps
        | apply seqClear_keeps
        | apply monCalReg_keeps
        | refine Keeps.ite ?_ ?_
      | split
    | split
    | dsimp only

theorem seqCfgPut_keeps {s₀ : State} (s : State) (k : Nat) (b : Octets) (hk : Keeps s₀ s) : Keeps s₀ (seqCfgPut s k b) := by
  unfold seqCfgPut
  try dsimp only
  repeat' first
    | with_reducible first
      | assumption
      | intro _
      | apply seqWrite_keeps
      | refine Keeps.foldl (fun _ _ _ => ?_) ?_
      | refine Keeps.foldl_snd (fun _ _ _ => ?_) ?_
    | dsimp only

theorem trigger_keeps {s₀ : State} (s : State) (k : Nat) (hk : Keeps s₀ s) : Keeps s₀ (trigger s k) := by
  unfold trigger
  try dsimp only
  repeat' first
    | with_reducible first
      | assumption
      | intro _
      | apply State.setMonSeq_keeps
      | apply startRun_keeps
      | refine Keeps.ite ?_ ?_
    | (with_reducible first | apply Keeps.mk_rest | apply Keeps.mk_mem | apply Keeps.mk_sec | apply Keeps.mk_mem_sec) <;> first
      | with_reducible first
        | assumption
        | apply State.setMonSeq_keeps
        | apply startRun_keeps
        | refine Keeps.ite ?_ ?_
      | split
    | split
    | dsimp only

theorem execMonTimerTrigger_keeps {s₀ : State} (seq : Nat) (s : State) (hk : Keeps s₀ s) : KeepsO s₀ (execMonTimerTrigger seq s) := by
  unfold execMonTimerTrigger
  try dsimp only
  repeat' first
    | with_reducible first
      | assumption
      | intro _
      | apply State.until_keeps
      | apply State.setMonSeq_keeps
      | apply trigger_keeps
      | refine Keeps.ite ?_ ?_
      | refine KeepsO.ite ?_ ?_
      | refine KeepsO.next ?_
    | (with_reducible first | apply Keeps.mk_rest | apply Keeps.mk_mem | apply Keeps.mk_sec | apply Keeps.mk_mem_sec) <;> first
      | with_reducible first
        | assumption
        | apply State.until_keeps
        | apply State.setMonSeq_keeps
        | apply trigger_keeps
        | refine Keeps.ite ?_ ?_
      | split
    | split
    | dsimp only

theorem execMonVrSync_keeps {s₀ : State} (controller : Nat) (s : State) (hk : Keeps s₀ s) : KeepsO s₀ (execMonVrSync controller s) := by
  unfold execMonVrSync
  try dsimp only
  repeat' first
    | with_reducible first
      | assumption
      | intro _
      | apply State.until_keeps
      | apply trigger_keeps
      | refine Keeps.ite ?_ ?_
      | refine KeepsO.ite ?_ ?_
      | refine KeepsO.next ?_
      | refine Keeps.foldl (fun _ _ _ => ?_) ?_
      | refine Keeps.foldl_snd (fun _ _ _ => ?_) ?_
    | split
    | dsimp only

theorem entryEnds_keeps {s₀ : State} (s : State) (k : Nat) (hk : Keeps s₀ s) : Keeps s₀ (entryEnds s k) := by
  unfold entryEnds
  try dsimp only
  repeat' first
    | with_reducible first
      | assumption
      | intro _
      | apply State.setMonSeq_keeps
      | apply slotApply_keeps
      | apply entryBegins_keeps
      | apply startContinuous_keeps
      | refine Keeps.ite ?_ ?_
    | (with_reducible first | apply Keeps.mk_rest | apply Keeps.mk_mem | apply Keeps.mk_sec | apply Keeps.mk_mem_sec) <;> first
      | with_reducible first
        | assumption
        | apply State.setMonSeq_keeps
        | apply slotApply_keeps
        | apply entryBegins_keeps
        | apply startContinuous_keeps
        | refine Keeps.ite ?_ ?_
      | split
    | split
    | dsimp only

theorem execMonConversionDone_keeps {s₀ : State} (seq raw : Nat) (s : State) (hk : Keeps s₀ s) : KeepsO s₀ (execMonConversionDone seq raw s) := by
  unfold execMonConversionDone
  try dsimp only
  repeat' first
    | with_reducible first
      | assumption
      | intro _
      | apply State.until_keeps
      | apply State.setMonAcc_keeps
      | apply entryEnds_keeps
      | refine Keeps.ite ?_ ?_
      | refine KeepsO.ite ?_ ?_
      | refine KeepsO.next ?_
    | (with_reducible first | apply Keeps.mk_rest | apply Keeps.mk_mem | apply Keeps.mk_sec | apply Keeps.mk_mem_sec) <;> first
      | with_reducible first
        | assumption
        | apply State.until_keeps
        | apply State.setMonAcc_keeps
        | apply entryEnds_keeps
        | refine Keeps.ite ?_ ?_
      | split
    | split
    | dsimp only

theorem monCalBody_keeps {s₀ : State} (sess_ p_ : Nat) (arg : Octets) (s : State) (hk : Keeps s₀ s) : Keeps s₀ (monCalBody sess_ p_ arg s).st := by
  unfold monCalBody
  try dsimp only
  repeat' first
    | with_reducible first
      | assumption
      | intro _
      | apply refuse_keeps
      | apply doneAt_keeps
      | apply started_keeps
      | apply startMonCal_keeps
      | refine Keeps.ite ?_ ?_
      | refine Keeps.ite_st ?_ ?_
    | (with_reducible first | apply Keeps.mk_rest | apply Keeps.mk_mem | apply Keeps.mk_sec | apply Keeps.mk_mem_sec) <;> first
      | with_reducible first
        | assumption
        | apply refuse_keeps
        | apply doneAt_keeps
        | apply started_keeps
        | apply startMonCal_keeps
        | refine Keeps.ite ?_ ?_
      | split
    | split
    | dsimp only

theorem monCalWrite_keeps (s₀ : State) (sess : Nat) (arg : Octets) (s : State) (h : Keeps s₀ s) : Keeps s₀ (monCalWrite sess arg s).2 := by
  unfold monCalWrite
  repeat' first
    | with_reducible first
      | assumption
      | intro _
      | apply cmdWrite_keeps
      | apply monCalBody_keeps
    | dsimp only

theorem execMonCalStart_keeps {s₀ : State} (by_ : MonCalBy) (s : State) (hk : Keeps s₀ s) : KeepsO s₀ (execMonCalStart by_ s) := by
  unfold execMonCalStart
  try dsimp only
  repeat' first
    | with_reducible first
      | assumption
      | intro _
      | apply cmdRow_keeps
      | apply regRow_keeps
      | apply monRegWrite_keeps
      | apply monCalWrite_keeps
      | refine Keeps.ite ?_ ?_
      | refine KeepsO.ite ?_ ?_
      | refine KeepsO.next ?_
    | split
    | dsimp only

theorem calConverted_keeps {s₀ : State} (s : State) (c : Nat) (rest : List Nat) (y : MonConv) (hk : Keeps s₀ s) : Keeps s₀ (calConverted s c rest y) := by
  unfold calConverted
  try dsimp only
  repeat' first
    | with_reducible first
      | assumption
      | intro _
      | apply State.setMonConv_keeps
      | apply startContinuous_keeps
      | apply nextCal_keeps
    | (with_reducible first | apply Keeps.mk_rest | apply Keeps.mk_mem | apply Keeps.mk_sec | apply Keeps.mk_mem_sec) <;> first
      | with_reducible first
        | assumption
        | apply State.setMonConv_keeps
        | apply startContinuous_keeps
        | apply nextCal_keeps
    | dsimp only

theorem calAccept_keeps {s₀ : State} (s : State) (c : Nat) (rest : List Nat) (x : MonConv) (t : TapPair) (hk : Keeps s₀ s) : Keeps s₀ (calAccept s c rest x t) := by
  unfold calAccept
  try dsimp only
  repeat' first
    | with_reducible first
      | assumption
      | intro _
      | apply State.until_keeps
      | apply calConverted_keeps
    | (with_reducible first | apply Keeps.mk_rest | apply Keeps.mk_mem | apply Keeps.mk_sec | apply Keeps.mk_mem_sec) <;> first
      | with_reducible first
        | assumption
        | apply State.until_keeps
        | apply calConverted_keeps
    | dsimp only

theorem execMonCalDone_keeps {s₀ : State} (converter : Nat) (runs : List TapPair) (s : State) (hk : Keeps s₀ s) : KeepsO s₀ (execMonCalDone converter runs s) := by
  unfold execMonCalDone
  try dsimp only
  repeat' first
    | with_reducible first
      | assumption
      | intro _
      | apply State.writeErr_keeps
      | apply State.setMonConv_keeps
      | apply calConverted_keeps
      | apply calAccept_keeps
      | refine Keeps.ite ?_ ?_
      | refine KeepsO.ite ?_ ?_
      | refine KeepsO.next ?_
    | (with_reducible first | apply Keeps.mk_rest | apply Keeps.mk_mem | apply Keeps.mk_sec | apply Keeps.mk_mem_sec) <;> first
      | with_reducible first
        | assumption
        | apply State.writeErr_keeps
        | apply State.setMonConv_keeps
        | apply calConverted_keeps
        | apply calAccept_keeps
        | refine Keeps.ite ?_ ?_
      | split
    | split
    | dsimp only

theorem monClearBody_keeps {s₀ : State} (sess_ p_ : Nat) (arg : Octets) (s : State) (hk : Keeps s₀ s) : Keeps s₀ (monClearBody sess_ p_ arg s).st := by
  unfold monClearBody
  try dsimp only
  repeat' first
    | with_reducible first
      | assumption
      | intro _
      | apply doneAt_keeps
      | apply started_keeps
      | apply seqClear_keeps
      | refine Keeps.ite ?_ ?_
      | refine Keeps.ite_st ?_ ?_
      | refine Keeps.foldl (fun _ _ _ => ?_) ?_
      | refine Keeps.foldl_snd (fun _ _ _ => ?_) ?_
    | (with_reducible first | apply Keeps.mk_rest | apply Keeps.mk_mem | apply Keeps.mk_sec | apply Keeps.mk_mem_sec) <;> first
      | with_reducible first
        | assumption
        | apply doneAt_keeps
        | apply started_keeps
        | apply seqClear_keeps
        | refine Keeps.ite ?_ ?_
        | refine Keeps.foldl (fun _ _ _ => ?_) ?_
      | split
    | split
    | dsimp only

theorem monClearWrite_keeps (s₀ : State) (sess : Nat) (arg : Octets) (s : State) (h : Keeps s₀ s) : Keeps s₀ (monClearWrite sess arg s).2 := by
  unfold monClearWrite
  repeat' first
    | with_reducible first
      | assumption
      | intro _
      | apply cmdWrite_keeps
      | apply monClearBody_keeps
    | dsimp only

theorem execMonClear_keeps {s₀ : State} (by_ : MonCalBy) (s : State) (hk : Keeps s₀ s) : KeepsO s₀ (execMonClear by_ s) := by
  unfold execMonClear
  try dsimp only
  repeat' first
    | with_reducible first
      | assumption
      | intro _
      | apply cmdRow_keeps
      | apply regRow_keeps
      | apply monRegWrite_keeps
      | apply monClearWrite_keeps
      | refine Keeps.ite ?_ ?_
      | refine KeepsO.ite ?_ ?_
      | refine KeepsO.next ?_
    | split
    | dsimp only

end Sys2Proof.Machine
end

