-- ==== Sys2Proof/Laws/KeepsWheel.lean ====
section
/-! SUPPORT. Each operation of Machine/Wheel.lean makes a change that `Keeps`. -/

namespace Sys2Proof.Machine

theorem whlRefuse_keeps {s₀ : State} (s : State) (p st : Nat) (hk : Keeps s₀ s) : Keeps s₀ (whlRefuse s p st).st := by
  unfold whlRefuse
  try dsimp only
  repeat' first
    | with_reducible first
      | assumption
      | intro _
      | apply State.modWhl_keeps
      | apply refuse_keeps
    | (with_reducible first | apply Keeps.mk_rest | apply Keeps.mk_mem | apply Keeps.mk_sec | apply Keeps.mk_mem_sec) <;> first
      | with_reducible first
        | assumption
        | apply State.modWhl_keeps
        | apply refuse_keeps
    | dsimp only

theorem inStates_keeps {s₀ : State} (p : Nat) (states : List Nat) (s : State) (k : CmdAns) (hk : Keeps s₀ s)
    (ha : Keeps s₀ k.st) : Keeps s₀ (inStates p states s k).st := by
  unfold inStates
  try dsimp only
  repeat' first
    | with_reducible assumption
    | intro _
    | with_reducible apply refuse_keeps
    | with_reducible apply whlRefuse_keeps
    | with_reducible refine Keeps.ite_st ?_ ?_

theorem whlStageBody_keeps {s₀ : State} (sess_ p : Nat) (arg : Octets) (s : State) (hk : Keeps s₀ s) : Keeps s₀ (whlStageBody sess_ p arg s).st := by
  unfold whlStageBody
  try dsimp only
  repeat' first
    | with_reducible first
      | assumption
      | intro _
      | apply State.modWhl_keeps
      | apply doneAt_keeps
      | apply openChan_keeps
      | apply setCave_keeps
      | apply whlRefuse_keeps
      | apply inStates_keeps
      | refine Keeps.ite ?_ ?_
      | refine Keeps.ite_snd ?_ ?_
      | refine Keeps.ite_st ?_ ?_
      | apply Keeps.ite_fst
    | (with_reducible first | apply Keeps.mk_rest | apply Keeps.mk_mem | apply Keeps.mk_sec | apply Keeps.mk_mem_sec) <;> first
      | with_reducible first
        | assumption
        | apply State.modWhl_keeps
        | apply doneAt_keeps
        | apply openChan_keeps
        | apply setCave_keeps
        | apply whlRefuse_keeps
        | apply inStates_keeps
        | refine Keeps.ite ?_ ?_
      | split
    | split
    | dsimp only

theorem whlStageWrite_keeps (s₀ : State) (sess : Nat) (arg : Octets) (s : State) (h : Keeps s₀ s) : Keeps s₀ (whlStageWrite sess arg s).2 := by
  unfold whlStageWrite
  repeat' first
    | with_reducible first
      | assumption
      | intro _
      | apply cmdWrite_keeps
      | apply whlStageBody_keeps
    | dsimp only

theorem execWhlStage_keeps {s₀ : State} (sess : Nat) (arg : Octets) (s : State) (hk : Keeps s₀ s) : KeepsO s₀ (execWhlStage sess arg s) := by
  unfold execWhlStage
  try dsimp only
  repeat' first
    | with_reducible first
      | assumption
      | intro _
      | apply cmdRow_keeps
      | apply whlStageWrite_keeps
      | refine KeepsO.next ?_
    | dsimp only

theorem endStaging_keeps {s₀ : State} (s : State) (p : Nat) (hk : Keeps s₀ s) : Keeps s₀ (endStaging s p) := by
  unfold endStaging
  try dsimp only
  repeat' first
    | with_reducible first
      | assumption
      | intro _
      | apply State.modWhl_keeps
      | apply closeChan_keeps
      | refine Keeps.ite ?_ ?_
      | refine Keeps.ite_st ?_ ?_
    | (with_reducible first | apply Keeps.mk_rest | apply Keeps.mk_mem | apply Keeps.mk_sec | apply Keeps.mk_mem_sec) <;> first
      | with_reducible first
        | assumption
        | apply State.modWhl_keeps
        | apply closeChan_keeps
        | refine Keeps.ite ?_ ?_
      | split
    | split
    | dsimp only

theorem verified_keeps {s₀ : State} (s : State) (p : Nat) (c : EnvelopeCrypto) (hk : Keeps s₀ s) : Keeps s₀ (verified s p c).2 := by
  unfold verified
  try dsimp only
  repeat' first
    | with_reducible first
      | assumption
      | intro _
      | apply State.modWhl_keeps
      | apply dropCave_keeps
      | apply pushReplica_keeps
      | apply endStaging_keeps
      | refine Keeps.ite ?_ ?_
      | refine Keeps.ite_snd ?_ ?_
      | refine Keeps.ite_st ?_ ?_
      | apply Keeps.ite_fst
    | (with_reducible first | apply Keeps.mk_rest | apply Keeps.mk_mem | apply Keeps.mk_sec | apply Keeps.mk_mem_sec) <;> first
      | with_reducible first
        | assumption
        | apply State.modWhl_keeps
        | apply dropCave_keeps
        | apply pushReplica_keeps
        | apply endStaging_keeps
        | refine Keeps.ite ?_ ?_
      | split
    | split
    | dsimp only

theorem whlVerifyBody_keeps {s₀ : State} (c : EnvelopeCrypto) (sess_ p : Nat) (arg_ : Octets) (s : State) (hk : Keeps s₀ s) : Keeps s₀ (whlVerifyBody c sess_ p arg_ s).st := by
  unfold whlVerifyBody
  try dsimp only
  repeat' first
    | with_reducible first
      | assumption
      | intro _
      | apply refuse_keeps
      | apply doneAt_keeps
      | apply inStates_keeps
      | apply verified_keeps
      | refine Keeps.ite ?_ ?_
      | refine Keeps.ite_snd ?_ ?_
      | refine Keeps.ite_st ?_ ?_
      | apply Keeps.ite_fst
    | split
    | dsimp only

theorem execWhlVerify_keeps {s₀ : State} (sess : Nat) (arg : Octets) (crypto : EnvelopeCrypto) (s : State) (hk : Keeps s₀ s) : KeepsO s₀ (execWhlVerify sess arg crypto s) := by
  unfold execWhlVerify
  try dsimp only
  repeat' first
    | with_reducible first
      | assumption
      | intro _
      | apply cmdWrite_keeps
      | apply cmdRow_keeps
      | apply whlVerifyBody_keeps
      | refine KeepsO.next ?_
    | dsimp only

theorem whlVerifyStart_keeps {s₀ : State} (sess_ p : Nat) (arg_ : Octets) (s : State) (hk : Keeps s₀ s) : Keeps s₀ (whlVerifyStart sess_ p arg_ s).st := by
  unfold whlVerifyStart
  try dsimp only
  repeat' first
    | with_reducible first
      | assumption
      | intro _
      | apply State.modWhl_keeps
      | apply started_keeps
      | apply inStates_keeps
    | (with_reducible first | apply Keeps.mk_rest | apply Keeps.mk_mem | apply Keeps.mk_sec | apply Keeps.mk_mem_sec) <;> first
      | with_reducible first
        | assumption
        | apply State.modWhl_keeps
        | apply started_keeps
        | apply inStates_keeps
    | dsimp only

theorem whlVerifyWrite_keeps (s₀ : State) (sess : Nat) (arg : Octets) (s : State) (h : Keeps s₀ s) : Keeps s₀ (whlVerifyWrite sess arg s).2 := by
  unfold whlVerifyWrite
  repeat' first
    | with_reducible first
      | assumption
      | intro _
      | apply cmdWrite_keeps
      | apply whlVerifyStart_keeps
    | dsimp only

theorem execEnvelopeVerifyDone_keeps {s₀ : State} (part : Nat) (crypto : EnvelopeCrypto) (s : State) (hk : Keeps s₀ s) : KeepsO s₀ (execEnvelopeVerifyDone part crypto s) := by
  unfold execEnvelopeVerifyDone
  try dsimp only
  repeat' first
    | with_reducible first
      | assumption
      | intro _
      | apply cmdEnd_keeps
      | apply verified_keeps
      | refine Keeps.ite ?_ ?_
      | refine Keeps.ite_snd ?_ ?_
      | refine Keeps.ite_st ?_ ?_
      | apply Keeps.ite_fst
      | refine KeepsO.ite ?_ ?_
      | refine KeepsO.next ?_
    | split
    | dsimp only

theorem programAll_keeps {s₀ : State} (s : State) (p : Nat) (digest : Octets) (l : List (Nat × ArrImg)) (hk : Keeps s₀ s) : Keeps s₀ (programAll s p digest l).2 := by
  unfold programAll
  try dsimp only
  repeat' first
    | with_reducible first
      | assumption
      | intro _
      | apply startProgram_keeps
      | refine Keeps.ite ?_ ?_
      | refine Keeps.ite_snd ?_ ?_
      | apply Keeps.ite_fst
      | refine Keeps.foldl (fun _ _ _ => ?_) ?_
      | refine Keeps.foldl_snd (fun _ _ _ => ?_) ?_
    | split
    | dsimp only

theorem whlPlaceBody_keeps {s₀ : State} (sess_ p : Nat) (arg : Octets) (s : State) (hk : Keeps s₀ s) : Keeps s₀ (whlPlaceBody sess_ p arg s).st := by
  unfold whlPlaceBody
  try dsimp only
  repeat' first
    | with_reducible first
      | assumption
      | intro _
      | apply State.setWhl_keeps
      | apply State.modWhl_keeps
      | apply doneAt_keeps
      | apply whlRefuse_keeps
      | apply inStates_keeps
      | apply programAll_keeps
      | refine Keeps.ite ?_ ?_
      | refine Keeps.ite_snd ?_ ?_
      | refine Keeps.ite_st ?_ ?_
      | apply Keeps.ite_fst
    | (with_reducible first | apply Keeps.mk_rest | apply Keeps.mk_mem | apply Keeps.mk_sec | apply Keeps.mk_mem_sec) <;> first
      | with_reducible first
        | assumption
        | apply State.setWhl_keeps
        | apply State.modWhl_keeps
        | apply doneAt_keeps
        | apply whlRefuse_keeps
        | apply inStates_keeps
        | apply programAll_keeps
        | refine Keeps.ite ?_ ?_
      | split
    | split
    | dsimp only

theorem whlPlaceWrite_keeps (s₀ : State) (sess : Nat) (arg : Octets) (s : State) (h : Keeps s₀ s) : Keeps s₀ (whlPlaceWrite sess arg s).2 := by
  unfold whlPlaceWrite
  repeat' first
    | with_reducible first
      | assumption
      | intro _
      | apply cmdWrite_keeps
      | apply whlPlaceBody_keeps
    | dsimp only

theorem execWhlPlace_keeps {s₀ : State} (sess : Nat) (arg : Octets) (s : State) (hk : Keeps s₀ s) : KeepsO s₀ (execWhlPlace sess arg s) := by
  unfold execWhlPlace
  try dsimp only
  repeat' first
    | with_reducible first
      | assumption
      | intro _
      | apply cmdRow_keeps
      | apply whlPlaceWrite_keeps
      | refine KeepsO.next ?_
    | dsimp only

theorem whlArmBody_keeps {s₀ : State} (sess p : Nat) (arg : Octets) (s : State) (hk : Keeps s₀ s) : Keeps s₀ (whlArmBody sess p arg s).st := by
  unfold whlArmBody
  try dsimp only
  repeat' first
    | with_reducible first
      | assumption
      | intro _
      | apply State.modWhl_keeps
      | apply stepPend_keeps
      | apply whlRefuse_keeps
      | apply inStates_keeps
      | refine Keeps.ite ?_ ?_
      | refine Keeps.ite_st ?_ ?_
    | (with_reducible first | apply Keeps.mk_rest | apply Keeps.mk_mem | apply Keeps.mk_sec | apply Keeps.mk_mem_sec) <;> first
      | with_reducible first
        | assumption
        | apply State.modWhl_keeps
        | apply stepPend_keeps
        | apply whlRefuse_keeps
        | apply inStates_keeps
        | refine Keeps.ite ?_ ?_
      | split
    | split
    | dsimp only

theorem whlArmWrite_keeps (s₀ : State) (sess : Nat) (arg : Octets) (s : State) (h : Keeps s₀ s) : Keeps s₀ (whlArmWrite sess arg s).2 := by
  unfold whlArmWrite
  repeat' first
    | with_reducible first
      | assumption
      | intro _
      | apply cmdWrite_keeps
      | apply whlArmBody_keeps
    | dsimp only

theorem execWhlArm_keeps {s₀ : State} (sess : Nat) (arg : Octets) (s : State) (hk : Keeps s₀ s) : KeepsO s₀ (execWhlArm sess arg s) := by
  unfold execWhlArm
  try dsimp only
  repeat' first
    | with_reducible first
      | assumption
      | intro _
      | apply cmdRow_keeps
      | apply whlArmWrite_keeps
      | refine KeepsO.next ?_
    | dsimp only

theorem stopProgram_keeps {s₀ : State} (s : State) (n : Nat) (hk : Keeps s₀ s) : Keeps s₀ (stopProgram s n) := by
  unfold stopProgram
  try dsimp only
  repeat' first
    | with_reducible first
      | assumption
      | intro _
      | apply State.setArr_keeps
      | apply returnIfDone_keeps
      | refine Keeps.ite ?_ ?_
    | (with_reducible first | apply Keeps.mk_rest | apply Keeps.mk_mem | apply Keeps.mk_sec | apply Keeps.mk_mem_sec) <;> first
      | with_reducible first
        | assumption
        | apply State.setArr_keeps
        | apply returnIfDone_keeps
        | refine Keeps.ite ?_ ?_
      | split
    | split
    | dsimp only

theorem dropPending_keeps {s₀ : State} (s : State) (p : Nat) (hk : Keeps s₀ s) : Keeps s₀ (dropPending s p) := by
  unfold dropPending
  try dsimp only
  repeat' first
    | with_reducible first
      | assumption
      | intro _
      | apply State.modWhl_keeps
      | apply dropCave_keeps
      | apply endStaging_keeps
      | apply stopProgram_keeps
      | refine Keeps.foldl (fun _ _ _ => ?_) ?_
      | refine Keeps.foldl_snd (fun _ _ _ => ?_) ?_
    | (with_reducible first | apply Keeps.mk_rest | apply Keeps.mk_mem | apply Keeps.mk_sec | apply Keeps.mk_mem_sec) <;> first
      | with_reducible first
        | assumption
        | apply State.modWhl_keeps
        | apply dropCave_keeps
        | apply endStaging_keeps
        | apply stopProgram_keeps
        | refine Keeps.foldl (fun _ _ _ => ?_) ?_
    | dsimp only

theorem whlCancelBody_keeps {s₀ : State} (sess_ p : Nat) (arg_ : Octets) (s : State) (hk : Keeps s₀ s) : Keeps s₀ (whlCancelBody sess_ p arg_ s).st := by
  unfold whlCancelBody
  try dsimp only
  repeat' first
    | with_reducible first
      | assumption
      | intro _
      | apply doneAt_keeps
      | apply cmdEnd_keeps
      | apply inStates_keeps
      | apply dropPending_keeps
      | refine Keeps.ite ?_ ?_
      | refine Keeps.ite_st ?_ ?_
    | split
    | dsimp only

theorem whlCancelWrite_keeps (s₀ : State) (sess : Nat) (arg : Octets) (s : State) (h : Keeps s₀ s) : Keeps s₀ (whlCancelWrite sess arg s).2 := by
  unfold whlCancelWrite
  repeat' first
    | with_reducible first
      | assumption
      | intro _
      | apply cmdWrite_keeps
      | apply whlCancelBody_keeps
    | dsimp only

theorem execWhlCancel_keeps {s₀ : State} (sess : Nat) (arg : Octets) (s : State) (hk : Keeps s₀ s) : KeepsO s₀ (execWhlCancel sess arg s) := by
  unfold execWhlCancel
  try dsimp only
  repeat' first
    | with_reducible first
      | assumption
      | intro _
      | apply cmdRow_keeps
      | apply whlCancelWrite_keeps
      | refine KeepsO.next ?_
    | dsimp only

theorem openCave_keeps {s₀ s t : State} {p : Nat} (hk : Keeps s₀ s) (h : openCave s p = some t) : Keeps s₀ t := by
  unfold openCave at h
  split at h
  · cases h; exact hk
  · rw [Option.map_eq_some_iff] at h
    obtain ⟨k, _, rfl⟩ := h
    exact setCave_keeps _ _ _ hk

theorem openWriteBody_keeps {s₀ : State} (sess_ p : Nat) (arg : Octets) (s : State) (hk : Keeps s₀ s) : Keeps s₀ (openWriteBody sess_ p arg s).st := by
  unfold openWriteBody
  try dsimp only
  repeat' first
    | with_reducible first
      | assumption
      | intro _
      | apply State.setWhl_keeps
      | apply refuse_keeps
      | apply doneAt_keeps
      | apply whlRefuse_keeps
      | apply inStates_keeps
      | exact openCave_keeps (by with_reducible assumption) (by assumption)
      | refine Keeps.ite ?_ ?_
      | refine Keeps.ite_st ?_ ?_
    | (with_reducible first | apply Keeps.mk_rest | apply Keeps.mk_mem | apply Keeps.mk_sec | apply Keeps.mk_mem_sec) <;> first
      | with_reducible first
        | assumption
        | apply State.setWhl_keeps
        | apply refuse_keeps
        | apply doneAt_keeps
        | apply whlRefuse_keeps
        | apply inStates_keeps
        | exact openCave_keeps (by with_reducible assumption) (by assumption)
        | refine Keeps.ite ?_ ?_
      | split
    | split
    | dsimp only

theorem openWriteWrite_keeps (s₀ : State) (sess : Nat) (arg : Octets) (s : State) (h : Keeps s₀ s) : Keeps s₀ (openWriteWrite sess arg s).2 := by
  unfold openWriteWrite
  repeat' first
    | with_reducible first
      | assumption
      | intro _
      | apply cmdWrite_keeps
      | apply openWriteBody_keeps
    | dsimp only

theorem execOpenWrite_keeps {s₀ : State} (sess : Nat) (arg : Octets) (s : State) (hk : Keeps s₀ s) : KeepsO s₀ (execOpenWrite sess arg s) := by
  unfold execOpenWrite
  try dsimp only
  repeat' first
    | with_reducible first
      | assumption
      | intro _
      | apply cmdRow_keeps
      | apply openWriteWrite_keeps
      | refine KeepsO.next ?_
    | dsimp only

theorem execReplicaStore_keeps {s₀ : State} (chip part epoch : Nat) (envelope : Octets) (s : State) (hk : Keeps s₀ s) : KeepsO s₀ (execReplicaStore chip part epoch envelope s) := by
  unfold execReplicaStore
  try dsimp only
  repeat' first
    | with_reducible first
      | assumption
      | intro _
      | apply State.emit_keeps
      | apply setCave_keeps
      | refine Keeps.ite ?_ ?_
      | refine Keeps.ite_snd ?_ ?_
      | refine Keeps.ite_st ?_ ?_
      | apply Keeps.ite_fst
      | refine KeepsO.ite ?_ ?_
      | refine KeepsO.next ?_
      | refine Keeps.foldl (fun _ _ _ => ?_) ?_
      | refine Keeps.foldl_snd (fun _ _ _ => ?_) ?_
    | (with_reducible first | apply Keeps.mk_rest | apply Keeps.mk_mem | apply Keeps.mk_sec | apply Keeps.mk_mem_sec) <;> first
      | with_reducible first
        | assumption
        | apply State.emit_keeps
        | apply setCave_keeps
        | refine Keeps.ite ?_ ?_
        | refine Keeps.foldl (fun _ _ _ => ?_) ?_
      | split
    | split
    | dsimp only

theorem execReplicaPushAck_keeps {s₀ : State} (part holder status : Nat) (s : State) (hk : Keeps s₀ s) : KeepsO s₀ (execReplicaPushAck part holder status s) := by
  unfold execReplicaPushAck
  try dsimp only
  repeat' first
    | with_reducible first
      | assumption
      | intro _
      | apply State.setWhl_keeps
      | refine Keeps.ite ?_ ?_
      | refine KeepsO.ite ?_ ?_
      | refine KeepsO.next ?_
    | (with_reducible first | apply Keeps.mk_rest | apply Keeps.mk_mem | apply Keeps.mk_sec | apply Keeps.mk_mem_sec) <;> first
      | with_reducible first
        | assumption
        | apply State.setWhl_keeps
        | refine Keeps.ite ?_ ?_
      | split
    | split
    | dsimp only

theorem rollBack_keeps {s₀ : State} (s : State) (p : Nat) (byAbort : Bool) (hk : Keeps s₀ s) : Keeps s₀ (rollBack s p byAbort) := by
  unfold rollBack
  try dsimp only
  repeat' first
    | with_reducible first
      | assumption
      | intro _
      | apply State.modWhl_keeps
      | apply startProgram_keeps
      | apply stopProgram_keeps
      | refine Keeps.ite ?_ ?_
      | refine Keeps.ite_snd ?_ ?_
      | apply Keeps.ite_fst
      | refine Keeps.foldl (fun _ _ _ => ?_) ?_
      | refine Keeps.foldl_snd (fun _ _ _ => ?_) ?_
    | (with_reducible first | apply Keeps.mk_rest | apply Keeps.mk_mem | apply Keeps.mk_sec | apply Keeps.mk_mem_sec) <;> first
      | with_reducible first
        | assumption
        | apply State.modWhl_keeps
        | apply startProgram_keeps
        | apply stopProgram_keeps
        | refine Keeps.ite ?_ ?_
        | refine Keeps.foldl (fun _ _ _ => ?_) ?_
      | split
    | split
    | dsimp only

theorem startRewrite_keeps {s₀ : State} (s : State) (p : Nat) (hk : Keeps s₀ s) : Keeps s₀ (startRewrite s p) := by
  unfold startRewrite
  try dsimp only
  repeat' first
    | with_reducible first
      | assumption
      | intro _
      | apply State.setWhl_keeps
      | apply State.modWhl_keeps
      | apply programAll_keeps
      | apply rollBack_keeps
      | refine Keeps.ite ?_ ?_
      | refine Keeps.ite_snd ?_ ?_
      | apply Keeps.ite_fst
    | (with_reducible first | apply Keeps.mk_rest | apply Keeps.mk_mem | apply Keeps.mk_sec | apply Keeps.mk_mem_sec) <;> first
      | with_reducible first
        | assumption
        | apply State.setWhl_keeps
        | apply State.modWhl_keeps
        | apply programAll_keeps
        | apply rollBack_keeps
        | refine Keeps.ite ?_ ?_
      | split
    | split
    | dsimp only

theorem rewriteElsewhere_keeps {s₀ : State} (s : State) (p n : Nat) (img : ArrImg) (hk : Keeps s₀ s) : Keeps s₀ (rewriteElsewhere s p n img) := by
  unfold rewriteElsewhere
  try dsimp only
  repeat' first
    | with_reducible first
      | assumption
      | intro _
      | apply State.modVat_keeps
      | apply State.modWhl_keeps
      | apply startProgram_keeps
      | apply rollBack_keeps
      | refine Keeps.ite ?_ ?_
    | (with_reducible first | apply Keeps.mk_rest | apply Keeps.mk_mem | apply Keeps.mk_sec | apply Keeps.mk_mem_sec) <;> first
      | with_reducible first
        | assumption
        | apply State.modVat_keeps
        | apply State.modWhl_keeps
        | apply startProgram_keeps
        | apply rollBack_keeps
        | refine Keeps.ite ?_ ?_
      | split
    | split
    | dsimp only

theorem adoptFails_keeps {s₀ : State} (s : State) (p status : Nat) (hk : Keeps s₀ s) : Keeps s₀ (adoptFails s p status) := by
  unfold adoptFails
  try dsimp only
  repeat' first
    | with_reducible first
      | assumption
      | intro _
      | apply State.modWhl_keeps
      | apply cmdEnd_keeps
      | apply dropCave_keeps
      | apply stopProgram_keeps
      | refine Keeps.foldl (fun _ _ _ => ?_) ?_
      | refine Keeps.foldl_snd (fun _ _ _ => ?_) ?_
    | (with_reducible first | apply Keeps.mk_rest | apply Keeps.mk_mem | apply Keeps.mk_sec | apply Keeps.mk_mem_sec) <;> first
      | with_reducible first
        | assumption
        | apply State.modWhl_keeps
        | apply cmdEnd_keeps
        | apply dropCave_keeps
        | apply stopProgram_keeps
        | refine Keeps.foldl (fun _ _ _ => ?_) ?_
    | dsimp only

theorem adoptElsewhere_keeps {s₀ : State} (s : State) (p n : Nat) (img : ArrImg) (hk : Keeps s₀ s) : Keeps s₀ (adoptElsewhere s p n img) := by
  unfold adoptElsewhere
  try dsimp only
  repeat' first
    | with_reducible first
      | assumption
      | intro _
      | apply rewriteElsewhere_keeps
      | apply adoptFails_keeps
      | refine Keeps.ite ?_ ?_
    | split
    | dsimp only

theorem adoptDone_keeps {s₀ : State} (s : State) (p : Nat) (hk : Keeps s₀ s) : Keeps s₀ (adoptDone s p) := by
  unfold adoptDone
  try dsimp only
  repeat' first
    | with_reducible first
      | assumption
      | intro _
      | apply State.modWhl_keeps
      | apply cfgPut_keeps
      | apply cmdEnd_keeps
      | apply pushReplica_keeps
      | apply putInForce_keeps
      | refine Keeps.ite ?_ ?_
    | (with_reducible first | apply Keeps.mk_rest | apply Keeps.mk_mem | apply Keeps.mk_sec | apply Keeps.mk_mem_sec) <;> first
      | with_reducible first
        | assumption
        | apply State.modWhl_keeps
        | apply cfgPut_keeps
        | apply cmdEnd_keeps
        | apply pushReplica_keeps
        | apply putInForce_keeps
        | refine Keeps.ite ?_ ?_
      | split
    | split
    | dsimp only

theorem programFailed_keeps {s₀ : State} (s : State) (n p : Nat) (img : ArrImg) (mech detail : Nat) (hk : Keeps s₀ s) : Keeps s₀ (programFailed s n p img mech detail) := by
  unfold programFailed
  try dsimp only
  repeat' first
    | with_reducible first
      | assumption
      | intro _
      | apply State.setWhl_keeps
      | apply placeAgain_keeps
      | apply fenceArray_keeps
      | apply rewriteElsewhere_keeps
      | apply adoptElsewhere_keeps
      | refine Keeps.ite ?_ ?_
      | refine Keeps.ite_st ?_ ?_
    | (with_reducible first | apply Keeps.mk_rest | apply Keeps.mk_mem | apply Keeps.mk_sec | apply Keeps.mk_mem_sec) <;> first
      | with_reducible first
        | assumption
        | apply State.setWhl_keeps
        | apply placeAgain_keeps
        | apply fenceArray_keeps
        | apply rewriteElsewhere_keeps
        | apply adoptElsewhere_keeps
        | refine Keeps.ite ?_ ?_
      | split
    | split
    | dsimp only

theorem execProgramRow_keeps {s₀ : State} (n : Nat) (verified : Bool) (s : State) (hk : Keeps s₀ s) : KeepsO s₀ (execProgramRow n verified s) := by
  unfold execProgramRow
  try dsimp only
  repeat' first
    | with_reducible first
      | assumption
      | intro _
      | apply State.setArr_keeps
      | apply verified_keeps
      | apply programFailed_keeps
      | refine Keeps.ite ?_ ?_
      | refine KeepsO.ite ?_ ?_
      | refine KeepsO.next ?_
    | (with_reducible first | apply Keeps.mk_rest | apply Keeps.mk_mem | apply Keeps.mk_sec | apply Keeps.mk_mem_sec) <;> first
      | with_reducible first
        | assumption
        | apply State.setArr_keeps
        | apply verified_keeps
        | apply programFailed_keeps
        | refine Keeps.ite ?_ ?_
      | split
    | split
    | dsimp only

theorem nowReady_keeps {s₀ : State} (s : State) (n p : Nat) (hk : Keeps s₀ s) : Keeps s₀ (nowReady s n p) := by
  unfold nowReady
  try dsimp only
  repeat' first
    | with_reducible first
      | assumption
      | intro _
      | apply State.setWhl_keeps
      | apply finishRemap_keeps
      | apply adoptDone_keeps
      | refine Keeps.ite ?_ ?_
      | refine Keeps.ite_st ?_ ?_
    | (with_reducible first | apply Keeps.mk_rest | apply Keeps.mk_mem | apply Keeps.mk_sec | apply Keeps.mk_mem_sec) <;> first
      | with_reducible first
        | assumption
        | apply State.setWhl_keeps
        | apply finishRemap_keeps
        | apply adoptDone_keeps
        | refine Keeps.ite ?_ ?_
      | split
    | split
    | dsimp only

theorem imageIn_keeps {s₀ : State} (s : State) (n p : Nat) (img : ArrImg) (hk : Keeps s₀ s) : Keeps s₀ (imageIn s n p img) := by
  unfold imageIn
  try dsimp only
  repeat' first
    | with_reducible first
      | assumption
      | intro _
      | apply State.modArr_keeps
      | refine Keeps.ite ?_ ?_
    | (with_reducible first | apply Keeps.mk_rest | apply Keeps.mk_mem | apply Keeps.mk_sec | apply Keeps.mk_mem_sec) <;> first
      | with_reducible first
        | assumption
        | apply State.modArr_keeps
        | refine Keeps.ite ?_ ?_
      | split
    | split
    | dsimp only

theorem execArrayProgramDone_keeps {s₀ : State} (n : Nat) (raisedTest : Option Nat) (s : State) (hk : Keeps s₀ s) : KeepsO s₀ (execArrayProgramDone n raisedTest s) := by
  unfold execArrayProgramDone
  try dsimp only
  repeat' first
    | with_reducible first
      | assumption
      | intro _
      | apply State.modArr_keeps
      | apply returnIfDone_keeps
      | apply programFailed_keeps
      | apply nowReady_keeps
      | apply imageIn_keeps
      | refine Keeps.ite ?_ ?_
      | refine KeepsO.ite ?_ ?_
      | refine KeepsO.next ?_
    | (with_reducible first | apply Keeps.mk_rest | apply Keeps.mk_mem | apply Keeps.mk_sec | apply Keeps.mk_mem_sec) <;> first
      | with_reducible first
        | assumption
        | apply State.modArr_keeps
        | apply returnIfDone_keeps
        | apply programFailed_keeps
        | apply nowReady_keeps
        | apply imageIn_keeps
        | refine Keeps.ite ?_ ?_
      | split
    | split
    | dsimp only

theorem arriveAt_keeps {s₀ : State} (s : State) (p addr : Nat) (hk : Keeps s₀ s) : Keeps s₀ (arriveAt s p addr) := by
  unfold arriveAt
  try dsimp only
  repeat' first
    | with_reducible first
      | assumption
      | intro _
      | apply State.modWhl_keeps
      | apply signal_keeps
      | refine Keeps.ite ?_ ?_
      | refine Keeps.ite_snd ?_ ?_
      | apply Keeps.ite_fst
    | (with_reducible first | apply Keeps.mk_rest | apply Keeps.mk_mem | apply Keeps.mk_sec | apply Keeps.mk_mem_sec) <;> first
      | with_reducible first
        | assumption
        | apply State.modWhl_keeps
        | apply signal_keeps
        | refine Keeps.ite ?_ ?_
      | split
    | split
    | dsimp only

theorem execSwapArrive_keeps {s₀ : State} (part : Nat) (s : State) (hk : Keeps s₀ s) : KeepsO s₀ (execSwapArrive part s) := by
  unfold execSwapArrive
  try dsimp only
  repeat' first
    | with_reducible first
      | assumption
      | intro _
      | apply arriveAt_keeps
      | refine Keeps.ite ?_ ?_
      | refine Keeps.ite_st ?_ ?_
      | refine KeepsO.ite ?_ ?_
      | refine KeepsO.next ?_
    | split
    | dsimp only

theorem swapAborted_keeps {s₀ : State} (s : State) (p : Nat) (hk : Keeps s₀ s) : Keeps s₀ (swapAborted s p) := by
  unfold swapAborted
  try dsimp only
  repeat' first
    | with_reducible first
      | assumption
      | intro _
      | apply State.modWhl_keeps
    | (with_reducible first | apply Keeps.mk_rest | apply Keeps.mk_mem | apply Keeps.mk_sec | apply Keeps.mk_mem_sec) <;> first
      | with_reducible first
        | assumption
        | apply State.modWhl_keeps
    | dsimp only

theorem execSwapDecision_keeps {s₀ : State} (part value : Nat) (s : State) (hk : Keeps s₀ s) : KeepsO s₀ (execSwapDecision part value s) := by
  unfold execSwapDecision
  try dsimp only
  repeat' first
    | with_reducible first
      | assumption
      | intro _
      | apply flip_keeps
      | apply rollBack_keeps
      | apply startRewrite_keeps
      | apply swapAborted_keeps
      | refine Keeps.ite ?_ ?_
      | refine Keeps.ite_st ?_ ?_
      | refine KeepsO.ite ?_ ?_
      | refine KeepsO.next ?_
    | split
    | dsimp only

theorem execSwapHoldAlarm_keeps {s₀ : State} (part : Nat) (s : State) (hk : Keeps s₀ s) : KeepsO s₀ (execSwapHoldAlarm part s) := by
  unfold execSwapHoldAlarm
  try dsimp only
  repeat' first
    | with_reducible first
      | assumption
      | intro _
      | apply State.setWhl_keeps
      | apply State.writeErr_keeps
      | apply State.until_keeps
      | refine Keeps.ite ?_ ?_
      | refine Keeps.ite_st ?_ ?_
      | refine KeepsO.ite ?_ ?_
      | refine KeepsO.next ?_
    | (with_reducible first | apply Keeps.mk_rest | apply Keeps.mk_mem | apply Keeps.mk_sec | apply Keeps.mk_mem_sec) <;> first
      | with_reducible first
        | assumption
        | apply State.setWhl_keeps
        | apply State.writeErr_keeps
        | apply State.until_keeps
        | refine Keeps.ite ?_ ?_
      | split
    | split
    | dsimp only

theorem execRewriteDone_keeps {s₀ : State} (part : Nat) (s : State) (hk : Keeps s₀ s) : KeepsO s₀ (execRewriteDone part s) := by
  unfold execRewriteDone
  try dsimp only
  repeat' first
    | with_reducible first
      | assumption
      | intro _
      | apply arriveAt_keeps
      | refine Keeps.ite ?_ ?_
      | refine Keeps.ite_st ?_ ?_
      | refine KeepsO.ite ?_ ?_
      | refine KeepsO.next ?_
    | split
    | dsimp only

theorem execRewriteRollbackDone_keeps {s₀ : State} (part : Nat) (s : State) (hk : Keeps s₀ s) : KeepsO s₀ (execRewriteRollbackDone part s) := by
  unfold execRewriteRollbackDone
  try dsimp only
  repeat' first
    | with_reducible first
      | assumption
      | intro _
      | apply State.setWhl_keeps
      | apply arriveAt_keeps
      | apply swapAborted_keeps
      | refine Keeps.ite ?_ ?_
      | refine Keeps.ite_st ?_ ?_
      | refine KeepsO.ite ?_ ?_
      | refine KeepsO.next ?_
    | (with_reducible first | apply Keeps.mk_rest | apply Keeps.mk_mem | apply Keeps.mk_sec | apply Keeps.mk_mem_sec) <;> first
      | with_reducible first
        | assumption
        | apply State.setWhl_keeps
        | apply arriveAt_keeps
        | apply swapAborted_keeps
        | refine Keeps.ite ?_ ?_
      | split
    | split
    | dsimp only

theorem replicaGone_keeps {s₀ : State} (s : State) (p : Nat) (hk : Keeps s₀ s) : Keeps s₀ (replicaGone s p) := by
  unfold replicaGone
  try dsimp only
  repeat' first
    | with_reducible first
      | assumption
      | intro _
      | apply State.modWhl_keeps
      | apply State.writeErr_keeps
      | apply dropCave_keeps
    | (with_reducible first | apply Keeps.mk_rest | apply Keeps.mk_mem | apply Keeps.mk_sec | apply Keeps.mk_mem_sec) <;> first
      | with_reducible first
        | assumption
        | apply State.modWhl_keeps
        | apply State.writeErr_keeps
        | apply dropCave_keeps
    | dsimp only

theorem imagesHere_keeps {s₀ : State} (s : State) (p : Nat) (hk : Keeps s₀ s) : Keeps s₀ (imagesHere s p) := by
  unfold imagesHere
  try dsimp only
  repeat' first
    | with_reducible first
      | assumption
      | intro _
      | apply startProgram_keeps
      | refine Keeps.ite ?_ ?_
      | refine Keeps.ite_snd ?_ ?_
      | apply Keeps.ite_fst
      | refine Keeps.foldl (fun _ _ _ => ?_) ?_
      | refine Keeps.foldl_snd (fun _ _ _ => ?_) ?_
    | split
    | dsimp only

theorem execReplicaFetchDone_keeps {s₀ : State} (part : Nat) (envelope : Option Octets) (crypto : EnvelopeCrypto) (s : State) (hk : Keeps s₀ s) : KeepsO s₀ (execReplicaFetchDone part envelope crypto s) := by
  unfold execReplicaFetchDone
  try dsimp only
  repeat' first
    | with_reducible first
      | assumption
      | intro _
      | apply State.modWhl_keeps
      | apply setCave_keeps
      | apply startRewrite_keeps
      | apply replicaGone_keeps
      | apply imagesHere_keeps
      | exact openCave_keeps (by with_reducible assumption) (by assumption)
      | refine Keeps.ite ?_ ?_
      | refine Keeps.ite_st ?_ ?_
      | refine KeepsO.ite ?_ ?_
      | refine KeepsO.next ?_
    | (with_reducible first | apply Keeps.mk_rest | apply Keeps.mk_mem | apply Keeps.mk_sec | apply Keeps.mk_mem_sec) <;> first
      | with_reducible first
        | assumption
        | apply State.modWhl_keeps
        | apply setCave_keeps
        | apply startRewrite_keeps
        | apply replicaGone_keeps
        | apply imagesHere_keeps
        | exact openCave_keeps (by with_reducible assumption) (by assumption)
        | refine Keeps.ite ?_ ?_
      | split
    | split
    | dsimp only

theorem writeLayer_keeps {s₀ : State} (s : State) (p : Nat) (w : Wheel) (y : Layer) (hk : Keeps s₀ s) : Keeps s₀ (writeLayer s p w y) := by
  unfold writeLayer
  try dsimp only
  repeat' first
    | with_reducible first
      | assumption
      | intro _
      | apply State.modArr_keeps
      | refine Keeps.ite ?_ ?_
      | refine Keeps.foldl (fun _ _ _ => ?_) ?_
      | refine Keeps.foldl_snd (fun _ _ _ => ?_) ?_
    | (with_reducible first | apply Keeps.mk_rest | apply Keeps.mk_mem | apply Keeps.mk_sec | apply Keeps.mk_mem_sec) <;> first
      | with_reducible first
        | assumption
        | apply State.modArr_keeps
        | refine Keeps.ite ?_ ?_
        | refine Keeps.foldl (fun _ _ _ => ?_) ?_
      | split
    | split
    | dsimp only

theorem execOverflowLayerLoad_keeps {s₀ : State} (part layer : Nat) (s : State) (hk : Keeps s₀ s) : KeepsO s₀ (execOverflowLayerLoad part layer s) := by
  unfold execOverflowLayerLoad
  try dsimp only
  repeat' first
    | with_reducible first
      | assumption
      | intro _
      | apply State.modWhl_keeps
      | apply writeLayer_keeps
      | refine Keeps.ite ?_ ?_
      | refine KeepsO.ite ?_ ?_
      | refine KeepsO.next ?_
    | (with_reducible first | apply Keeps.mk_rest | apply Keeps.mk_mem | apply Keeps.mk_sec | apply Keeps.mk_mem_sec) <;> first
      | with_reducible first
        | assumption
        | apply State.modWhl_keeps
        | apply writeLayer_keeps
        | refine Keeps.ite ?_ ?_
      | split
    | split
    | dsimp only

theorem execRetentionAgeTick_keeps {s₀ : State} (n tempC milliHours : Nat) (s : State) (hk : Keeps s₀ s) : KeepsO s₀ (execRetentionAgeTick n tempC milliHours s) := by
  unfold execRetentionAgeTick
  try dsimp only
  repeat' first
    | with_reducible first
      | assumption
      | intro _
      | apply State.modArr_keeps
      | refine Keeps.ite ?_ ?_
      | refine Keeps.ite_st ?_ ?_
      | refine KeepsO.ite ?_ ?_
      | refine KeepsO.next ?_
    | (with_reducible first | apply Keeps.mk_rest | apply Keeps.mk_mem | apply Keeps.mk_sec | apply Keeps.mk_mem_sec) <;> first
      | with_reducible first
        | assumption
        | apply State.modArr_keeps
        | refine Keeps.ite ?_ ?_
      | split
    | split
    | dsimp only

end Sys2Proof.Machine
end

