-- ==== Sys2Proof/Laws/KeepsChanOps.lean ====
section
/-! SUPPORT. Each operation of Machine/ChanOps.lean makes a change that `Keeps`. -/

namespace Sys2Proof.Machine

theorem freeObject_keeps {s₀ : State} (s : State) (n : Nat) (hk : Keeps s₀ s) : Keeps s₀ (freeObject s n) := by
  unfold freeObject
  try dsimp only
  repeat' first
    | with_reducible first
      | assumption
      | intro _
      | apply State.setObj_keeps
      | apply failWaiters_keeps
      | apply failWaitingTasks_keeps
    | (with_reducible first | apply Keeps.mk_rest | apply Keeps.mk_mem | apply Keeps.mk_sec | apply Keeps.mk_mem_sec) <;> first
      | with_reducible first
        | assumption
        | apply State.setObj_keeps
        | apply failWaiters_keeps
        | apply failWaitingTasks_keeps
    | dsimp only

theorem closeStream_keeps {s₀ : State} (s : State) (slot : Nat) (x : StreamSt) (hk : Keeps s₀ s) : Keeps s₀ (closeStream s slot x) := by
  unfold closeStream
  try dsimp only
  repeat' first
    | with_reducible first
      | assumption
      | intro _
      | apply setChan_keeps
      | apply closeChan_keeps
      | refine Keeps.ite ?_ ?_
      | refine Keeps.ite_st ?_ ?_
    | (with_reducible first | apply Keeps.mk_rest | apply Keeps.mk_mem | apply Keeps.mk_sec | apply Keeps.mk_mem_sec) <;> first
      | with_reducible first
        | assumption
        | apply setChan_keeps
        | apply closeChan_keeps
        | refine Keeps.ite ?_ ?_
      | split
    | split
    | dsimp only

theorem closeGroup_keeps {s₀ : State} (s : State) (slot : Nat) (g : GroupSt) (hk : Keeps s₀ s) : Keeps s₀ (closeGroup s slot g) := by
  unfold closeGroup
  try dsimp only
  repeat' first
    | with_reducible first
      | assumption
      | intro _
      | apply State.setObj_keeps
      | apply closeChan_keeps
      | apply failWaiters_keeps
      | apply failWaitingTasks_keeps
      | refine Keeps.ite ?_ ?_
      | refine Keeps.ite_st ?_ ?_
    | (with_reducible first | apply Keeps.mk_rest | apply Keeps.mk_mem | apply Keeps.mk_sec | apply Keeps.mk_mem_sec) <;> first
      | with_reducible first
        | assumption
        | apply State.setObj_keeps
        | apply closeChan_keeps
        | apply failWaiters_keeps
        | apply failWaitingTasks_keeps
        | refine Keeps.ite ?_ ?_
      | split
    | split
    | dsimp only

theorem closeReqChan_keeps {s₀ : State} (s : State) (slot : Nat) (hk : Keeps s₀ s) : Keeps s₀ (closeReqChan s slot) := by
  unfold closeReqChan
  try dsimp only
  repeat' first
    | with_reducible first
      | assumption
      | intro _
      | apply closeChan_keeps
    | (with_reducible first | apply Keeps.mk_rest | apply Keeps.mk_mem | apply Keeps.mk_sec | apply Keeps.mk_mem_sec) <;> first
      | with_reducible first
        | assumption
        | apply closeChan_keeps
    | dsimp only

theorem destroyChan_keeps {s₀ : State} (s : State) (slot : Nat) (hk : Keeps s₀ s) : Keeps s₀ (destroyChan s slot) := by
  unfold destroyChan
  try dsimp only
  repeat' first
    | with_reducible first
      | assumption
      | intro _
      | apply State.modWhl_keeps
      | apply closeChan_keeps
      | apply closeStream_keeps
      | apply closeGroup_keeps
      | apply closeReqChan_keeps
      | refine Keeps.ite ?_ ?_
      | refine Keeps.ite_st ?_ ?_
    | (with_reducible first | apply Keeps.mk_rest | apply Keeps.mk_mem | apply Keeps.mk_sec | apply Keeps.mk_mem_sec) <;> first
      | with_reducible first
        | assumption
        | apply State.modWhl_keeps
        | apply closeChan_keeps
        | apply closeStream_keeps
        | apply closeGroup_keeps
        | apply closeReqChan_keeps
        | refine Keeps.ite ?_ ?_
      | split
    | split
    | dsimp only

end Sys2Proof.Machine
end

