-- ==== Sys2Proof/Laws/KeepsEmb.lean ====
section
/-! SUPPORT. Each operation of Machine/Emb.lean makes a change that `Keeps`. -/

namespace Sys2Proof.Machine

theorem embEditBody_keeps {s₀ : State} (sess p : Nat) (arg : Octets) (s : State) (hk : Keeps s₀ s) : Keeps s₀ (embEditBody sess p arg s).st := by
  unfold embEditBody
  try dsimp only
  repeat' first
    | with_reducible first
      | assumption
      | intro _
      | apply refuse_keeps
      | apply stepPend_keeps
      | refine Keeps.ite ?_ ?_
      | refine Keeps.ite_st ?_ ?_
    | split
    | dsimp only

theorem embTableEditWrite_keeps (s₀ : State) (sess : Nat) (arg : Octets) (s : State) (h : Keeps s₀ s) : Keeps s₀ (embTableEditWrite sess arg s).2 := by
  unfold embTableEditWrite
  repeat' first
    | with_reducible first
      | assumption
      | intro _
      | apply cmdWrite_keeps
      | apply embEditBody_keeps
    | dsimp only

theorem execEmbTableEdit_keeps {s₀ : State} (sess : Nat) (arg : Octets) (s : State) (hk : Keeps s₀ s) : KeepsO s₀ (execEmbTableEdit sess arg s) := by
  unfold execEmbTableEdit
  try dsimp only
  repeat' first
    | with_reducible first
      | assumption
      | intro _
      | apply cmdRow_keeps
      | apply embTableEditWrite_keeps
      | refine KeepsO.next ?_
    | dsimp only

theorem embEditApply_keeps {s₀ : State} (p : Nat) (arg : Octets) (s : State) (hk : Keeps s₀ s) : Keeps s₀ (embEditApply p arg s).2 := by
  unfold embEditApply
  try dsimp only
  repeat' first
    | with_reducible first
      | assumption
      | intro _
      | apply dropEntries_keeps
      | refine Keeps.ite ?_ ?_
      | refine Keeps.ite_snd ?_ ?_
    | (with_reducible first | apply Keeps.mk_rest | apply Keeps.mk_mem | apply Keeps.mk_sec | apply Keeps.mk_mem_sec) <;> first
      | with_reducible first
        | assumption
        | apply dropEntries_keeps
        | refine Keeps.ite ?_ ?_
      | split
    | split
    | dsimp only

theorem invalBody_keeps {s₀ : State} (sess p : Nat) (arg : Octets) (s : State) (hk : Keeps s₀ s) : Keeps s₀ (invalBody sess p arg s).st := by
  unfold invalBody
  try dsimp only
  repeat' first
    | with_reducible first
      | assumption
      | intro _
      | apply refuse_keeps
      | apply stepPend_keeps
      | refine Keeps.ite ?_ ?_
      | refine Keeps.ite_st ?_ ?_
    | split
    | dsimp only

theorem embInvalidateWrite_keeps (s₀ : State) (sess : Nat) (arg : Octets) (s : State) (h : Keeps s₀ s) : Keeps s₀ (embInvalidateWrite sess arg s).2 := by
  unfold embInvalidateWrite
  repeat' first
    | with_reducible first
      | assumption
      | intro _
      | apply cmdWrite_keeps
      | apply invalBody_keeps
    | dsimp only

theorem execEmbInvalidate_keeps {s₀ : State} (sess : Nat) (arg : Octets) (s : State) (hk : Keeps s₀ s) : KeepsO s₀ (execEmbInvalidate sess arg s) := by
  unfold execEmbInvalidate
  try dsimp only
  repeat' first
    | with_reducible first
      | assumption
      | intro _
      | apply cmdRow_keeps
      | apply embInvalidateWrite_keeps
      | refine KeepsO.next ?_
    | dsimp only

theorem invalApply_keeps {s₀ : State} (p : Nat) (arg : Octets) (s : State) (hk : Keeps s₀ s) : Keeps s₀ (invalApply p arg s).2 := by
  unfold invalApply
  try dsimp only
  repeat' first
    | with_reducible first
      | assumption
      | intro _
      | apply dropEntries_keeps
      | refine Keeps.ite ?_ ?_
      | refine Keeps.ite_snd ?_ ?_
      | apply Keeps.ite_fst
    | (with_reducible first | apply Keeps.mk_rest | apply Keeps.mk_mem | apply Keeps.mk_sec | apply Keeps.mk_mem_sec) <;> first
      | with_reducible first
        | assumption
        | apply dropEntries_keeps
        | refine Keeps.ite ?_ ?_
      | split
    | split
    | dsimp only

theorem pinBody_keeps {s₀ : State} (sess p : Nat) (arg : Octets) (s : State) (hk : Keeps s₀ s) : Keeps s₀ (pinBody sess p arg s).st := by
  unfold pinBody
  try dsimp only
  repeat' first
    | with_reducible first
      | assumption
      | intro _
      | apply refuse_keeps
      | apply stepPend_keeps
      | refine Keeps.ite ?_ ?_
      | refine Keeps.ite_st ?_ ?_
    | split
    | dsimp only

theorem embPinWrite_keeps (s₀ : State) (sess : Nat) (arg : Octets) (s : State) (h : Keeps s₀ s) : Keeps s₀ (embPinWrite sess arg s).2 := by
  unfold embPinWrite
  repeat' first
    | with_reducible first
      | assumption
      | intro _
      | apply cmdWrite_keeps
      | apply pinBody_keeps
    | dsimp only

theorem execEmbPin_keeps {s₀ : State} (sess : Nat) (arg : Octets) (s : State) (hk : Keeps s₀ s) : KeepsO s₀ (execEmbPin sess arg s) := by
  unfold execEmbPin
  try dsimp only
  repeat' first
    | with_reducible first
      | assumption
      | intro _
      | apply cmdRow_keeps
      | apply embPinWrite_keeps
      | refine KeepsO.next ?_
    | dsimp only

theorem pinApply_keeps {s₀ : State} (p : Nat) (arg : Octets) (s : State) (hk : Keeps s₀ s) : Keeps s₀ (pinApply p arg s).2 := by
  unfold pinApply
  try dsimp only
  repeat' first
    | with_reducible first
      | assumption
      | intro _
      | apply setDir_keeps
      | apply takeWay_keeps
      | refine Keeps.ite ?_ ?_
      | refine Keeps.ite_snd ?_ ?_
    | (with_reducible first | apply Keeps.mk_rest | apply Keeps.mk_mem | apply Keeps.mk_sec | apply Keeps.mk_mem_sec) <;> first
      | with_reducible first
        | assumption
        | apply setDir_keeps
        | apply takeWay_keeps
        | refine Keeps.ite ?_ ?_
      | split
    | split
    | dsimp only

theorem promoteAll_keeps {s₀ : State} (s : State) (hk : Keeps s₀ s) : Keeps s₀ (promoteAll s) := by
  unfold promoteAll
  try dsimp only
  repeat' first
    | with_reducible first
      | assumption
      | intro _
      | apply takeWay_keeps
      | refine Keeps.ite ?_ ?_
      | refine Keeps.ite_snd ?_ ?_
      | apply Keeps.ite_fst
      | refine Keeps.foldl (fun _ _ _ => ?_) ?_
      | refine Keeps.foldl_snd (fun _ _ _ => ?_) ?_
    | (with_reducible first | apply Keeps.mk_rest | apply Keeps.mk_mem | apply Keeps.mk_sec | apply Keeps.mk_mem_sec) <;> first
      | with_reducible first
        | assumption
        | apply takeWay_keeps
        | refine Keeps.ite ?_ ?_
        | refine Keeps.foldl (fun _ _ _ => ?_) ?_
      | split
    | split
    | dsimp only

theorem snapshotEmb_keeps {s₀ : State} (s : State) (hk : Keeps s₀ s) : Keeps s₀ (snapshotEmb s) := by
  unfold snapshotEmb
  try dsimp only
  repeat' first
    | with_reducible first
      | assumption
      | intro _
    | (with_reducible first | apply Keeps.mk_rest | apply Keeps.mk_mem | apply Keeps.mk_sec | apply Keeps.mk_mem_sec) <;> first
      | with_reducible first
        | assumption
    | dsimp only

theorem countDecay_keeps {s₀ : State} (s : State) (hk : Keeps s₀ s) : Keeps s₀ (countDecay s) := by
  unfold countDecay
  try dsimp only
  repeat' first
    | with_reducible first
      | assumption
      | intro _
      | refine Keeps.foldl (fun _ _ _ => ?_) ?_
      | refine Keeps.foldl_snd (fun _ _ _ => ?_) ?_
    | (with_reducible first | apply Keeps.mk_rest | apply Keeps.mk_mem | apply Keeps.mk_sec | apply Keeps.mk_mem_sec) <;> first
      | with_reducible first
        | assumption
        | refine Keeps.foldl (fun _ _ _ => ?_) ?_
    | dsimp only

theorem execDirectoryDecay_keeps {s₀ : State} (part : Nat) (s : State) (hk : Keeps s₀ s) : KeepsO s₀ (execDirectoryDecay part s) := by
  unfold execDirectoryDecay
  try dsimp only
  repeat' first
    | with_reducible first
      | assumption
      | intro _
      | refine Keeps.ite ?_ ?_
      | refine Keeps.ite_snd ?_ ?_
      | apply Keeps.ite_fst
      | refine KeepsO.ite ?_ ?_
      | refine KeepsO.next ?_
      | refine Keeps.foldl (fun _ _ _ => ?_) ?_
      | refine Keeps.foldl_snd (fun _ _ _ => ?_) ?_
    | (with_reducible first | apply Keeps.mk_rest | apply Keeps.mk_mem | apply Keeps.mk_sec | apply Keeps.mk_mem_sec) <;> first
      | with_reducible first
        | assumption
        | refine Keeps.ite ?_ ?_
        | refine Keeps.foldl (fun _ _ _ => ?_) ?_
      | split
    | split
    | dsimp only

theorem execHotRowCopy_keeps {s₀ : State} (dirSet way : Nat) (s : State) (hk : Keeps s₀ s) : KeepsO s₀ (execHotRowCopy dirSet way s) := by
  unfold execHotRowCopy
  try dsimp only
  repeat' first
    | with_reducible first
      | assumption
      | intro _
      | apply setDir_keeps
      | refine Keeps.ite ?_ ?_
      | refine KeepsO.ite ?_ ?_
      | refine KeepsO.next ?_
    | (with_reducible first | apply Keeps.mk_rest | apply Keeps.mk_mem | apply Keeps.mk_sec | apply Keeps.mk_mem_sec) <;> first
      | with_reducible first
        | assumption
        | apply setDir_keeps
        | refine Keeps.ite ?_ ?_
      | split
    | split
    | dsimp only

theorem execHotRowCopyDone_keeps {s₀ : State} (dirSet way : Nat) (s : State) (hk : Keeps s₀ s) : KeepsO s₀ (execHotRowCopyDone dirSet way s) := by
  unfold execHotRowCopyDone
  try dsimp only
  repeat' first
    | with_reducible first
      | assumption
      | intro _
      | apply memWrite_keeps
      | apply setDir_keeps
      | refine Keeps.ite ?_ ?_
      | refine Keeps.ite_snd ?_ ?_
      | refine Keeps.ite_st ?_ ?_
      | apply Keeps.ite_fst
      | refine KeepsO.ite ?_ ?_
      | refine KeepsO.next ?_
    | (with_reducible first | apply Keeps.mk_rest | apply Keeps.mk_mem | apply Keeps.mk_sec | apply Keeps.mk_mem_sec) <;> first
      | with_reducible first
        | assumption
        | apply memWrite_keeps
        | apply setDir_keeps
        | refine Keeps.ite ?_ ?_
      | split
    | split
    | dsimp only

theorem countAll_keeps {s₀ : State} (s : State) (x : Running) (es : List GatherEnt) (hk : Keeps s₀ s) : Keeps s₀ (countAll s x es) := by
  unfold countAll
  try dsimp only
  repeat' first
    | with_reducible first
      | assumption
      | intro _
      | apply countLookup_keeps
      | refine Keeps.ite ?_ ?_
      | refine Keeps.ite_snd ?_ ?_
      | refine Keeps.foldl (fun _ _ _ => ?_) ?_
      | refine Keeps.foldl_snd (fun _ _ _ => ?_) ?_
    | split
    | dsimp only

theorem gatherPool_keeps {s₀ : State} (s : State) (x : Running) (hk : Keeps s₀ s) : Keeps s₀ (gatherPool s x).st := by
  unfold gatherPool
  try dsimp only
  repeat' first
    | with_reducible assumption
    | intro _
    | with_reducible apply kres_keeps
    | with_reducible apply kfail_keeps
    | with_reducible refine KeepsE.throw _
    | with_reducible refine KeepsE.ite ?_ ?_
    | with_reducible refine KeepsE.bind ?_
    | with_reducible refine KeepsE.pure ?_
    | with_reducible apply countAll_keeps
    | (with_reducible apply Keeps.mk_rest) <;> with_reducible assumption
    | split
    | dsimp only

theorem execGatherPool_keeps {s₀ : State} (engine busyNs : Nat) (upset : Option EngineUpset) (s : State) (hk : Keeps s₀ s) : KeepsO s₀ (execGatherPool engine busyNs upset s) := by
  unfold execGatherPool
  try dsimp only
  repeat' first
    | with_reducible first
      | assumption
      | intro _
      | apply runKernel_keeps
      | apply gatherPool_keeps
      | refine KeepsO.next ?_
    | dsimp only

end Sys2Proof.Machine
end

