-- ==== Sys2Proof/Laws/KeepsPartOps.lean ====
section
/-! SUPPORT. Each operation of Machine/PartOps.lean makes a change that `Keeps`. -/

namespace Sys2Proof.Machine

theorem endRequests_keeps {s₀ : State} (s : State) (p : Nat) (hk : Keeps s₀ s) : Keeps s₀ (endRequests s p) := by
  unfold endRequests
  try dsimp only
  repeat' first
    | with_reducible first
      | assumption
      | intro _
      | apply endReq_keeps
      | refine Keeps.ite ?_ ?_
      | refine Keeps.foldl (fun _ _ _ => ?_) ?_
      | refine Keeps.foldl_snd (fun _ _ _ => ?_) ?_
    | (with_reducible first | apply Keeps.mk_rest | apply Keeps.mk_mem | apply Keeps.mk_sec | apply Keeps.mk_mem_sec) <;> first
      | with_reducible first
        | assumption
        | apply endReq_keeps
        | refine Keeps.ite ?_ ?_
        | refine Keeps.foldl (fun _ _ _ => ?_) ?_
      | split
    | split
    | dsimp only

theorem endChannels_keeps {s₀ : State} (s : State) (p : Nat) (hk : Keeps s₀ s) : Keeps s₀ (endChannels s p) := by
  unfold endChannels
  try dsimp only
  repeat' first
    | with_reducible first
      | assumption
      | intro _
      | apply flushChannel_keeps
      | apply destroyChan_keeps
      | refine Keeps.foldl (fun _ _ _ => ?_) ?_
      | refine Keeps.foldl_snd (fun _ _ _ => ?_) ?_
    | dsimp only

theorem endHoldings_keeps {s₀ : State} (s : State) (p : Nat) (hk : Keeps s₀ s) : Keeps s₀ (endHoldings s p) := by
  unfold endHoldings
  try dsimp only
  repeat' first
    | with_reducible first
      | assumption
      | intro _
      | apply setUnits_keeps
      | apply freeObject_keeps
      | refine Keeps.foldl (fun _ _ _ => ?_) ?_
      | refine Keeps.foldl_snd (fun _ _ _ => ?_) ?_
    | (with_reducible first | apply Keeps.mk_rest | apply Keeps.mk_mem | apply Keeps.mk_sec | apply Keeps.mk_mem_sec) <;> first
      | with_reducible first
        | assumption
        | apply setUnits_keeps
        | apply freeObject_keeps
        | refine Keeps.foldl (fun _ _ _ => ?_) ?_
    | dsimp only

theorem endTasks_keeps {s₀ : State} (s : State) (p : Nat) (hk : Keeps s₀ s) : Keeps s₀ (endTasks s p) := by
  unfold endTasks
  try dsimp only
  repeat' first
    | with_reducible first
      | assumption
      | intro _
      | apply State.modVat_keeps
      | apply State.modEng_keeps
      | refine Keeps.foldl (fun _ _ _ => ?_) ?_
      | refine Keeps.foldl_snd (fun _ _ _ => ?_) ?_
    | (with_reducible first | apply Keeps.mk_rest | apply Keeps.mk_mem | apply Keeps.mk_sec | apply Keeps.mk_mem_sec) <;> first
      | with_reducible first
        | assumption
        | apply State.modVat_keeps
        | apply State.modEng_keeps
        | refine Keeps.foldl (fun _ _ _ => ?_) ?_
    | dsimp only

theorem releaseArray_keeps {s₀ : State} (p : Nat) (w : Option Wheel) (s : State) (n : Nat) (hk : Keeps s₀ s) : Keeps s₀ (releaseArray p w s n) := by
  unfold releaseArray
  try dsimp only
  repeat' first
    | with_reducible first
      | assumption
      | intro _
      | apply State.setArr_keeps
      | apply returnGrant_keeps
      | refine Keeps.ite ?_ ?_
    | (with_reducible first | apply Keeps.mk_rest | apply Keeps.mk_mem | apply Keeps.mk_sec | apply Keeps.mk_mem_sec) <;> first
      | with_reducible first
        | assumption
        | apply State.setArr_keeps
        | apply returnGrant_keeps
        | refine Keeps.ite ?_ ?_
      | split
    | split
    | dsimp only

theorem endArrays_keeps {s₀ : State} (s : State) (p : Nat) (hk : Keeps s₀ s) : Keeps s₀ (endArrays s p) := by
  unfold endArrays
  try dsimp only
  repeat' first
    | with_reducible first
      | assumption
      | intro _
      | apply State.modVat_keeps
      | apply State.setWhl_keeps
      | apply dropCave_keeps
      | apply dropPending_keeps
      | apply releaseArray_keeps
      | refine Keeps.foldl (fun _ _ _ => ?_) ?_
      | refine Keeps.foldl_snd (fun _ _ _ => ?_) ?_
    | (with_reducible first | apply Keeps.mk_rest | apply Keeps.mk_mem | apply Keeps.mk_sec | apply Keeps.mk_mem_sec) <;> first
      | with_reducible first
        | assumption
        | apply State.modVat_keeps
        | apply State.setWhl_keeps
        | apply dropCave_keeps
        | apply dropPending_keeps
        | apply releaseArray_keeps
        | refine Keeps.foldl (fun _ _ _ => ?_) ?_
    | dsimp only

theorem releaseRest_keeps {s₀ : State} (s : State) (p : Nat) (hk : Keeps s₀ s) : Keeps s₀ (releaseRest s p) := by
  unfold releaseRest
  try dsimp only
  repeat' first
    | with_reducible first
      | assumption
      | intro _
      | apply State.setPart_keeps
      | apply startZero_keeps
      | apply endRequests_keeps
      | apply endChannels_keeps
      | apply endHoldings_keeps
      | apply endTasks_keeps
      | apply endArrays_keeps
    | (with_reducible first | apply Keeps.mk_rest | apply Keeps.mk_mem | apply Keeps.mk_sec | apply Keeps.mk_mem_sec) <;> first
      | with_reducible first
        | assumption
        | apply State.setPart_keeps
        | apply startZero_keeps
        | apply endRequests_keeps
        | apply endChannels_keeps
        | apply endHoldings_keeps
        | apply endTasks_keeps
        | apply endArrays_keeps
    | dsimp only

end Sys2Proof.Machine
end

