-- ==== Sys2Proof/Laws/KeepsHealth.lean ====
section
/-! SUPPORT. Each operation of Machine/Health.lean makes a change that `Keeps`. -/

namespace Sys2Proof.Machine

theorem execVatHeartbeat_keeps {s₀ : State} (vat : Nat) (s : State) (hk : Keeps s₀ s) : KeepsO s₀ (execVatHeartbeat vat s) := by
  unfold execVatHeartbeat
  try dsimp only
  repeat' first
    | with_reducible first
      | assumption
      | intro _
      | apply State.modVat_keeps
      | refine Keeps.ite ?_ ?_
      | refine KeepsO.ite ?_ ?_
      | refine KeepsO.next ?_
    | (with_reducible first | apply Keeps.mk_rest | apply Keeps.mk_mem | apply Keeps.mk_sec | apply Keeps.mk_mem_sec) <;> first
      | with_reducible first
        | assumption
        | apply State.modVat_keeps
        | refine Keeps.ite ?_ ?_
      | split
    | split
    | dsimp only

theorem execVatWatchdog_keeps {s₀ : State} (vat : Nat) (s : State) (hk : Keeps s₀ s) : KeepsO s₀ (execVatWatchdog vat s) := by
  unfold execVatWatchdog
  try dsimp only
  repeat' first
    | with_reducible first
      | assumption
      | intro _
      | apply State.modVat_keeps
      | apply State.until_keeps
      | apply fenceVat_keeps
      | refine Keeps.ite ?_ ?_
      | refine Keeps.ite_st ?_ ?_
      | refine KeepsO.ite ?_ ?_
      | refine KeepsO.next ?_
    | (with_reducible first | apply Keeps.mk_rest | apply Keeps.mk_mem | apply Keeps.mk_sec | apply Keeps.mk_mem_sec) <;> first
      | with_reducible first
        | assumption
        | apply State.modVat_keeps
        | apply State.until_keeps
        | apply fenceVat_keeps
        | refine Keeps.ite ?_ ?_
      | split
    | split
    | dsimp only

theorem execVatFenceGate_keeps {s₀ : State} (vat : Nat) (s : State) (hk : Keeps s₀ s) : KeepsO s₀ (execVatFenceGate vat s) := by
  unfold execVatFenceGate
  try dsimp only
  repeat' first
    | with_reducible first
      | assumption
      | intro _
      | apply State.modArr_keeps
      | apply State.modVat_keeps
      | apply State.modEng_keeps
      | apply State.until_keeps
      | refine Keeps.ite ?_ ?_
      | apply Keeps.ite_fst
      | refine KeepsO.ite ?_ ?_
      | refine KeepsO.next ?_
      | refine Keeps.foldl (fun _ _ _ => ?_) ?_
      | refine Keeps.foldl_snd (fun _ _ _ => ?_) ?_
    | (with_reducible first | apply Keeps.mk_rest | apply Keeps.mk_mem | apply Keeps.mk_sec | apply Keeps.mk_mem_sec) <;> first
      | with_reducible first
        | assumption
        | apply State.modArr_keeps
        | apply State.modVat_keeps
        | apply State.modEng_keeps
        | apply State.until_keeps
        | refine Keeps.ite ?_ ?_
        | refine Keeps.foldl (fun _ _ _ => ?_) ?_
      | split
    | split
    | dsimp only

theorem execMgmtCoreReset_keeps {s₀ : State} (s : State) (hk : Keeps s₀ s) : KeepsO s₀ (execMgmtCoreReset s) := by
  unfold execMgmtCoreReset
  try dsimp only
  repeat' first
    | with_reducible first
      | assumption
      | intro _
      | apply endAllSessions_keeps
      | refine Keeps.ite ?_ ?_
      | refine Keeps.ite_st ?_ ?_
      | refine KeepsO.ite ?_ ?_
      | refine KeepsO.next ?_
    | (with_reducible first | apply Keeps.mk_rest | apply Keeps.mk_mem | apply Keeps.mk_sec | apply Keeps.mk_mem_sec) <;> first
      | with_reducible first
        | assumption
        | apply endAllSessions_keeps
        | refine Keeps.ite ?_ ?_
      | split
    | split
    | dsimp only

theorem execMgmtCoreResetDone_keeps {s₀ : State} (s : State) (hk : Keeps s₀ s) : KeepsO s₀ (execMgmtCoreResetDone s) := by
  unfold execMgmtCoreResetDone
  try dsimp only
  repeat' first
    | with_reducible first
      | assumption
      | intro _
      | refine Keeps.ite ?_ ?_
      | refine KeepsO.ite ?_ ?_
      | refine KeepsO.next ?_
    | (with_reducible first | apply Keeps.mk_rest | apply Keeps.mk_mem | apply Keeps.mk_sec | apply Keeps.mk_mem_sec) <;> first
      | with_reducible first
        | assumption
        | refine Keeps.ite ?_ ?_
      | split
    | split
    | dsimp only

theorem execMgmtRecoveryTimeout_keeps {s₀ : State} (s : State) (hk : Keeps s₀ s) : KeepsO s₀ (execMgmtRecoveryTimeout s) := by
  unfold execMgmtRecoveryTimeout
  try dsimp only
  repeat' first
    | with_reducible first
      | assumption
      | intro _
      | apply State.until_keeps
      | refine Keeps.ite ?_ ?_
      | refine KeepsO.ite ?_ ?_
      | refine KeepsO.next ?_
    | (with_reducible first | apply Keeps.mk_rest | apply Keeps.mk_mem | apply Keeps.mk_sec | apply Keeps.mk_mem_sec) <;> first
      | with_reducible first
        | assumption
        | apply State.until_keeps
        | refine Keeps.ite ?_ ?_
      | split
    | split
    | dsimp only

theorem execErrorRecordPersist_keeps {s₀ : State} (s : State) (hk : Keeps s₀ s) : KeepsO s₀ (execErrorRecordPersist s) := by
  unfold execErrorRecordPersist
  try dsimp only
  repeat' first
    | with_reducible first
      | assumption
      | intro _
      | refine Keeps.ite ?_ ?_
      | refine Keeps.ite_st ?_ ?_
      | refine KeepsO.ite ?_ ?_
      | refine KeepsO.next ?_
    | (with_reducible first | apply Keeps.mk_rest | apply Keeps.mk_mem | apply Keeps.mk_sec | apply Keeps.mk_mem_sec) <;> first
      | with_reducible first
        | assumption
        | refine Keeps.ite ?_ ?_
      | split
    | split
    | dsimp only

theorem setCode_keeps {s₀ : State} (s : State) (u : HealthUnit) (c passed : Nat) (hk : Keeps s₀ s) : Keeps s₀ (setCode s u c passed) := by
  unfold setCode
  try dsimp only
  repeat' first
    | with_reducible first
      | assumption
      | intro _
      | apply setHealth_keeps
    | (with_reducible first | apply Keeps.mk_rest | apply Keeps.mk_mem | apply Keeps.mk_sec | apply Keeps.mk_mem_sec) <;> first
      | with_reducible first
        | assumption
        | apply setHealth_keeps
    | dsimp only

theorem beginArrayTests_keeps {s₀ : State} (s : State) (n : Nat) (hk : Keeps s₀ s) : Keeps s₀ (beginArrayTests s n) := by
  unfold beginArrayTests
  try dsimp only
  repeat' first
    | with_reducible first
      | assumption
      | intro _
      | apply State.modArr_keeps
      | apply setCode_keeps
    | (with_reducible first | apply Keeps.mk_rest | apply Keeps.mk_mem | apply Keeps.mk_sec | apply Keeps.mk_mem_sec) <;> first
      | with_reducible first
        | assumption
        | apply State.modArr_keeps
        | apply setCode_keeps
    | dsimp only

theorem arrayBrine_keeps {s₀ : State} (s : State) (n : Nat) (hk : Keeps s₀ s) : Keeps s₀ (arrayBrine s n) := by
  unfold arrayBrine
  try dsimp only
  repeat' first
    | with_reducible first
      | assumption
      | intro _
      | apply State.modArr_keeps
      | apply State.modVat_keeps
      | apply State.until_keeps
      | apply beginArrayTests_keeps
      | refine Keeps.ite ?_ ?_
    | (with_reducible first | apply Keeps.mk_rest | apply Keeps.mk_mem | apply Keeps.mk_sec | apply Keeps.mk_mem_sec) <;> first
      | with_reducible first
        | assumption
        | apply State.modArr_keeps
        | apply State.modVat_keeps
        | apply State.until_keeps
        | apply beginArrayTests_keeps
        | refine Keeps.ite ?_ ?_
      | split
    | split
    | dsimp only

theorem engineBrine_keeps {s₀ : State} (s : State) (n : Nat) (hk : Keeps s₀ s) : Keeps s₀ (engineBrine s n) := by
  unfold engineBrine
  try dsimp only
  repeat' first
    | with_reducible first
      | assumption
      | intro _
      | apply State.modEng_keeps
      | apply State.until_keeps
      | apply setCode_keeps
      | refine Keeps.ite ?_ ?_
    | (with_reducible first | apply Keeps.mk_rest | apply Keeps.mk_mem | apply Keeps.mk_sec | apply Keeps.mk_mem_sec) <;> first
      | with_reducible first
        | assumption
        | apply State.modEng_keeps
        | apply State.until_keeps
        | apply setCode_keeps
        | refine Keeps.ite ?_ ?_
      | split
    | split
    | dsimp only

theorem execBrineSliceStart_keeps {s₀ : State} (u : HealthUnit) (s : State) (hk : Keeps s₀ s) : KeepsO s₀ (execBrineSliceStart u s) := by
  unfold execBrineSliceStart
  try dsimp only
  repeat' first
    | with_reducible first
      | assumption
      | intro _
      | apply arrayBrine_keeps
      | apply engineBrine_keeps
      | refine Keeps.ite ?_ ?_
      | refine KeepsO.ite ?_ ?_
      | refine KeepsO.next ?_
    | split
    | dsimp only

theorem readmitArray_keeps {s₀ : State} (s : State) (n : Nat) (hk : Keeps s₀ s) : Keeps s₀ (readmitArray s n) := by
  unfold readmitArray
  try dsimp only
  repeat' first
    | with_reducible first
      | assumption
      | intro _
      | apply State.modArr_keeps
      | apply State.modVat_keeps
      | apply setCode_keeps
      | refine Keeps.ite ?_ ?_
    | (with_reducible first | apply Keeps.mk_rest | apply Keeps.mk_mem | apply Keeps.mk_sec | apply Keeps.mk_mem_sec) <;> first
      | with_reducible first
        | assumption
        | apply State.modArr_keeps
        | apply State.modVat_keeps
        | apply setCode_keeps
        | refine Keeps.ite ?_ ?_
      | split
    | split
    | dsimp only

theorem readmitEngine_keeps {s₀ : State} (s : State) (n : Nat) (hk : Keeps s₀ s) : Keeps s₀ (readmitEngine s n) := by
  unfold readmitEngine
  try dsimp only
  repeat' first
    | with_reducible first
      | assumption
      | intro _
      | apply State.modEng_keeps
      | apply setCode_keeps
    | (with_reducible first | apply Keeps.mk_rest | apply Keeps.mk_mem | apply Keeps.mk_sec | apply Keeps.mk_mem_sec) <;> first
      | with_reducible first
        | assumption
        | apply State.modEng_keeps
        | apply setCode_keeps
    | dsimp only

theorem readmitVat_keeps {s₀ : State} (s : State) (v : Nat) (hk : Keeps s₀ s) : Keeps s₀ (readmitVat s v) := by
  unfold readmitVat
  try dsimp only
  repeat' first
    | with_reducible first
      | assumption
      | intro _
      | apply State.modArr_keeps
      | apply State.modVat_keeps
      | apply State.modEng_keeps
      | apply State.modWhl_keeps
      | apply setCode_keeps
      | refine Keeps.ite ?_ ?_
      | refine Keeps.ite_snd ?_ ?_
      | apply Keeps.ite_fst
      | refine Keeps.foldl (fun _ _ _ => ?_) ?_
      | refine Keeps.foldl_snd (fun _ _ _ => ?_) ?_
    | (with_reducible first | apply Keeps.mk_rest | apply Keeps.mk_mem | apply Keeps.mk_sec | apply Keeps.mk_mem_sec) <;> first
      | with_reducible first
        | assumption
        | apply State.modArr_keeps
        | apply State.modVat_keeps
        | apply State.modEng_keeps
        | apply State.modWhl_keeps
        | apply setCode_keeps
        | refine Keeps.ite ?_ ?_
        | refine Keeps.foldl (fun _ _ _ => ?_) ?_
      | split
    | split
    | dsimp only

theorem slicePassed_keeps {s₀ : State} (s : State) (u : HealthUnit) (hk : Keeps s₀ s) : Keeps s₀ (slicePassed s u) := by
  unfold slicePassed
  try dsimp only
  repeat' first
    | with_reducible first
      | assumption
      | intro _
      | apply setHealth_keeps
      | apply readmitArray_keeps
      | apply readmitEngine_keeps
      | apply readmitVat_keeps
      | refine Keeps.ite ?_ ?_
      | refine Keeps.ite_snd ?_ ?_
      | apply Keeps.ite_fst
    | (with_reducible first | apply Keeps.mk_rest | apply Keeps.mk_mem | apply Keeps.mk_sec | apply Keeps.mk_mem_sec) <;> first
      | with_reducible first
        | assumption
        | apply setHealth_keeps
        | apply readmitArray_keeps
        | apply readmitEngine_keeps
        | apply readmitVat_keeps
        | refine Keeps.ite ?_ ?_
      | split
    | split
    | dsimp only

theorem sliceFailed_keeps {s₀ : State} (s : State) (u : HealthUnit) (test : Nat) (hk : Keeps s₀ s) : Keeps s₀ (sliceFailed s u test) := by
  unfold sliceFailed
  try dsimp only
  repeat' first
    | with_reducible first
      | assumption
      | intro _
      | apply setHealth_keeps
      | apply noteAgain_keeps
      | apply fenceArray_keeps
      | apply fenceEngine_keeps
      | refine Keeps.ite ?_ ?_
      | refine Keeps.ite_snd ?_ ?_
      | apply Keeps.ite_fst
    | (with_reducible first | apply Keeps.mk_rest | apply Keeps.mk_mem | apply Keeps.mk_sec | apply Keeps.mk_mem_sec) <;> first
      | with_reducible first
        | assumption
        | apply setHealth_keeps
        | apply noteAgain_keeps
        | apply fenceArray_keeps
        | apply fenceEngine_keeps
        | refine Keeps.ite ?_ ?_
      | split
    | split
    | dsimp only

theorem sliceEnds_keeps {s₀ : State} (s : State) (u : HealthUnit) (hk : Keeps s₀ s) : Keeps s₀ (sliceEnds s u) := by
  unfold sliceEnds
  try dsimp only
  repeat' first
    | with_reducible first
      | assumption
      | intro _
      | apply State.modArr_keeps
      | apply State.modEng_keeps
      | apply returnGrant_keeps
      | apply acceptWaiting_keeps
      | refine Keeps.ite ?_ ?_
    | (with_reducible first | apply Keeps.mk_rest | apply Keeps.mk_mem | apply Keeps.mk_sec | apply Keeps.mk_mem_sec) <;> first
      | with_reducible first
        | assumption
        | apply State.modArr_keeps
        | apply State.modEng_keeps
        | apply returnGrant_keeps
        | apply acceptWaiting_keeps
        | refine Keeps.ite ?_ ?_
      | split
    | split
    | dsimp only

theorem execBrineSliceDone_keeps {s₀ : State} (u : HealthUnit) (result : BrineResult) (s : State) (hk : Keeps s₀ s) : KeepsO s₀ (execBrineSliceDone u result s) := by
  unfold execBrineSliceDone
  try dsimp only
  repeat' first
    | with_reducible first
      | assumption
      | intro _
      | apply State.modArr_keeps
      | apply slicePassed_keeps
      | apply sliceFailed_keeps
      | apply sliceEnds_keeps
      | refine Keeps.ite ?_ ?_
      | refine KeepsO.ite ?_ ?_
      | refine KeepsO.next ?_
    | (with_reducible first | apply Keeps.mk_rest | apply Keeps.mk_mem | apply Keeps.mk_sec | apply Keeps.mk_mem_sec) <;> first
      | with_reducible first
        | assumption
        | apply State.modArr_keeps
        | apply slicePassed_keeps
        | apply sliceFailed_keeps
        | apply sliceEnds_keeps
        | refine Keeps.ite ?_ ?_
      | split
    | split
    | dsimp only

theorem onUnit_keeps {s₀ : State} (arg : Octets) (s : State) (f : HealthUnit → CmdAns) (hk : Keeps s₀ s)
    (hf : ∀ u, Keeps s₀ (f u).st) : Keeps s₀ (onUnit arg s f).st := by
  unfold onUnit
  repeat' first
    | with_reducible assumption
    | intro _
    | with_reducible apply refuse_keeps
    | with_reducible refine Keeps.ite_st ?_ ?_
    | with_reducible apply hf
    | split

theorem healthFenceBody_keeps {s₀ : State} (sess_ p_ : Nat) (arg : Octets) (s : State) (hk : Keeps s₀ s) : Keeps s₀ (healthFenceBody sess_ p_ arg s).st := by
  unfold healthFenceBody
  try dsimp only
  repeat' first
    | with_reducible first
      | assumption
      | intro _
      | apply doneAt_keeps
      | apply fenceArray_keeps
      | apply fenceEngine_keeps
      | apply fenceVat_keeps
      | apply onUnit_keeps
      | refine Keeps.ite ?_ ?_
      | refine Keeps.ite_st ?_ ?_
    | (with_reducible first | apply Keeps.mk_rest | apply Keeps.mk_mem | apply Keeps.mk_sec | apply Keeps.mk_mem_sec) <;> first
      | with_reducible first
        | assumption
        | apply doneAt_keeps
        | apply fenceArray_keeps
        | apply fenceEngine_keeps
        | apply fenceVat_keeps
        | apply onUnit_keeps
        | refine Keeps.ite ?_ ?_
      | split
    | split
    | dsimp only

theorem healthFenceWrite_keeps (s₀ : State) (sess : Nat) (arg : Octets) (s : State) (h : Keeps s₀ s) : Keeps s₀ (healthFenceWrite sess arg s).2 := by
  unfold healthFenceWrite
  repeat' first
    | with_reducible first
      | assumption
      | intro _
      | apply cmdWrite_keeps
      | apply healthFenceBody_keeps
    | dsimp only

theorem execHealthFence_keeps {s₀ : State} (sess : Nat) (arg : Octets) (s : State) (hk : Keeps s₀ s) : KeepsO s₀ (execHealthFence sess arg s) := by
  unfold execHealthFence
  try dsimp only
  repeat' first
    | with_reducible first
      | assumption
      | intro _
      | apply cmdRow_keeps
      | apply healthFenceWrite_keeps
      | refine KeepsO.next ?_
    | dsimp only

theorem startReadmit_keeps {s₀ : State} (s : State) (u : HealthUnit) (hk : Keeps s₀ s) : Keeps s₀ (startReadmit s u) := by
  unfold startReadmit
  try dsimp only
  repeat' first
    | with_reducible first
      | assumption
      | intro _
      | apply State.modVat_keeps
      | apply setHealth_keeps
      | apply setCode_keeps
      | apply beginArrayTests_keeps
      | refine Keeps.ite ?_ ?_
      | refine Keeps.foldl (fun _ _ _ => ?_) ?_
      | refine Keeps.foldl_snd (fun _ _ _ => ?_) ?_
    | (with_reducible first | apply Keeps.mk_rest | apply Keeps.mk_mem | apply Keeps.mk_sec | apply Keeps.mk_mem_sec) <;> first
      | with_reducible first
        | assumption
        | apply State.modVat_keeps
        | apply setHealth_keeps
        | apply setCode_keeps
        | apply beginArrayTests_keeps
        | refine Keeps.ite ?_ ?_
        | refine Keeps.foldl (fun _ _ _ => ?_) ?_
      | split
    | split
    | dsimp only

theorem healthReadmitBody_keeps {s₀ : State} (sess_ p_ : Nat) (arg : Octets) (s : State) (hk : Keeps s₀ s) : Keeps s₀ (healthReadmitBody sess_ p_ arg s).st := by
  unfold healthReadmitBody
  try dsimp only
  repeat' first
    | with_reducible first
      | assumption
      | intro _
      | apply refuse_keeps
      | apply doneAt_keeps
      | apply onUnit_keeps
      | apply startReadmit_keeps
      | refine Keeps.ite ?_ ?_
      | refine Keeps.ite_st ?_ ?_
    | split
    | dsimp only

theorem healthReadmitWrite_keeps (s₀ : State) (sess : Nat) (arg : Octets) (s : State) (h : Keeps s₀ s) : Keeps s₀ (healthReadmitWrite sess arg s).2 := by
  unfold healthReadmitWrite
  repeat' first
    | with_reducible first
      | assumption
      | intro _
      | apply cmdWrite_keeps
      | apply healthReadmitBody_keeps
    | dsimp only

theorem execHealthReadmit_keeps {s₀ : State} (sess : Nat) (arg : Octets) (s : State) (hk : Keeps s₀ s) : KeepsO s₀ (execHealthReadmit sess arg s) := by
  unfold execHealthReadmit
  try dsimp only
  repeat' first
    | with_reducible first
      | assumption
      | intro _
      | apply cmdRow_keeps
      | apply healthReadmitWrite_keeps
      | refine KeepsO.next ?_
    | dsimp only

theorem healthClearBody_keeps {s₀ : State} (sess_ p_ : Nat) (arg : Octets) (s : State) (hk : Keeps s₀ s) : Keeps s₀ (healthClearBody sess_ p_ arg s).st := by
  unfold healthClearBody
  try dsimp only
  repeat' first
    | with_reducible first
      | assumption
      | intro _
      | apply refuse_keeps
      | apply doneAt_keeps
      | apply setCode_keeps
      | apply onUnit_keeps
      | refine Keeps.ite ?_ ?_
      | refine Keeps.ite_st ?_ ?_
    | split
    | dsimp only

theorem healthClearWrite_keeps (s₀ : State) (sess : Nat) (arg : Octets) (s : State) (h : Keeps s₀ s) : Keeps s₀ (healthClearWrite sess arg s).2 := by
  unfold healthClearWrite
  repeat' first
    | with_reducible first
      | assumption
      | intro _
      | apply cmdWrite_keeps
      | apply healthClearBody_keeps
    | dsimp only

theorem execHealthClear_keeps {s₀ : State} (sess : Nat) (arg : Octets) (s : State) (hk : Keeps s₀ s) : KeepsO s₀ (execHealthClear sess arg s) := by
  unfold execHealthClear
  try dsimp only
  repeat' first
    | with_reducible first
      | assumption
      | intro _
      | apply cmdRow_keeps
      | apply healthClearWrite_keeps
      | refine KeepsO.next ?_
    | dsimp only

end Sys2Proof.Machine
end

