-- ==== Sys2Proof/Laws/KeepsCompose.lean ====
section
/-! SUPPORT. Each operation of Machine/Compose.lean makes a change that `Keeps`. -/

namespace Sys2Proof.Machine

theorem admitOne_keeps {s₀ : State} (s : State) (q : Req) (hk : Keeps s₀ s) : Keeps s₀ (admitOne s q) := by
  unfold admitOne
  try dsimp only
  repeat' first
    | with_reducible first
      | assumption
      | intro _
      | apply setReq_keeps
      | apply retire_keeps
      | apply journalWrite_keeps
      | apply endNow_keeps
      | refine Keeps.ite ?_ ?_
      | refine Keeps.ite_snd ?_ ?_
    | (with_reducible first | apply Keeps.mk_rest | apply Keeps.mk_mem | apply Keeps.mk_sec | apply Keeps.mk_mem_sec) <;> first
      | with_reducible first
        | assumption
        | apply setReq_keeps
        | apply retire_keeps
        | apply journalWrite_keeps
        | apply endNow_keeps
        | refine Keeps.ite ?_ ?_
      | split
    | split
    | dsimp only

theorem admitUpTo_keeps {s₀ : State} (n : Nat) (l : List Req) (s : State) (hk : Keeps s₀ s) :
    Keeps s₀ (admitUpTo n l s) := by
  induction l generalizing s n with
  | nil => cases n <;> exact hk
  | cons r t ih =>
    cases n with
    | zero => exact hk
    | succ n =>
    unfold admitUpTo
    repeat' first
      | with_reducible first
        | assumption
        | intro _
        | apply ih
        | apply admitOne_keeps
        | apply State.writeErr_keeps
        | refine Keeps.ite ?_ ?_
        | refine Keeps.ite_snd ?_ ?_
        | refine Keeps.ite_st ?_ ?_
        | refine Keeps.foldl (fun _ _ _ => ?_) ?_
        | refine Keeps.foldl_snd (fun _ _ _ => ?_) ?_
      | (with_reducible first | apply Keeps.mk_rest | apply Keeps.mk_mem | apply Keeps.mk_sec | apply Keeps.mk_mem_sec) <;> first
        | with_reducible first
          | assumption
          | apply ih
          | apply admitOne_keeps
          | apply State.writeErr_keeps
          | refine Keeps.ite ?_ ?_
          | refine Keeps.foldl (fun _ _ _ => ?_) ?_
        | split
      | split
      | dsimp only

theorem admitQueued_keeps {s₀ : State} (s : State) (p : Nat) (hk : Keeps s₀ s) : Keeps s₀ (admitQueued s p) := by
  unfold admitQueued
  try dsimp only
  repeat' first
    | with_reducible first
      | assumption
      | intro _
      | apply admitUpTo_keeps
      | refine Keeps.ite ?_ ?_
      | refine Keeps.ite_st ?_ ?_
    | split
    | dsimp only

theorem setPools_keeps {s₀ : State} (s : State) (p pp dd : Nat) (f : Word) (hk : Keeps s₀ s) : Keeps s₀ (setPools s p pp dd f) := by
  unfold setPools
  try dsimp only
  repeat' first
    | with_reducible first
      | assumption
      | intro _
      | apply State.modEng_keeps
      | apply State.fresh_keeps
      | refine Keeps.ite ?_ ?_
      | refine Keeps.ite_snd ?_ ?_
      | apply Keeps.ite_fst
      | refine Keeps.foldl (fun _ _ _ => ?_) ?_
      | refine Keeps.foldl_snd (fun _ _ _ => ?_) ?_
    | (with_reducible first | apply Keeps.mk_rest | apply Keeps.mk_mem | apply Keeps.mk_sec | apply Keeps.mk_mem_sec) <;> first
      | with_reducible first
        | assumption
        | apply State.modEng_keeps
        | apply State.fresh_keeps
        | refine Keeps.ite ?_ ?_
        | refine Keeps.foldl (fun _ _ _ => ?_) ?_
      | split
    | split
    | dsimp only

theorem poolLaw_keeps {s₀ : State} (s : State) (p : Nat) (l : List LenEntry) (hk : Keeps s₀ s) : Keeps s₀ (poolLaw s p l) := by
  unfold poolLaw
  try dsimp only
  repeat' first
    | with_reducible first
      | assumption
      | intro _
      | apply setPools_keeps
    | (with_reducible first | apply Keeps.mk_rest | apply Keeps.mk_mem | apply Keeps.mk_sec | apply Keeps.mk_mem_sec) <;> first
      | with_reducible first
        | assumption
        | apply setPools_keeps
    | dsimp only

theorem leadPlan_keeps {s₀ : State} (named : List (Nat × Nat)) (s : State) (p : Nat) (hk : Keeps s₀ s) : Keeps s₀ (leadPlan named s p) := by
  unfold leadPlan
  try dsimp only
  repeat' first
    | with_reducible first
      | assumption
      | intro _
      | apply State.emit_keeps
      | apply poolLaw_keeps
      | refine Keeps.ite ?_ ?_
      | refine Keeps.ite_snd ?_ ?_
      | refine Keeps.ite_st ?_ ?_
      | apply Keeps.ite_fst
      | refine Keeps.foldl (fun _ _ _ => ?_) ?_
      | refine Keeps.foldl_snd (fun _ _ _ => ?_) ?_
    | (with_reducible first | apply Keeps.mk_rest | apply Keeps.mk_mem | apply Keeps.mk_sec | apply Keeps.mk_mem_sec) <;> first
      | with_reducible first
        | assumption
        | apply State.emit_keeps
        | apply poolLaw_keeps
        | refine Keeps.ite ?_ ?_
        | refine Keeps.foldl (fun _ _ _ => ?_) ?_
      | split
    | split
    | dsimp only

theorem countWaits_keeps {s₀ : State} (s : State) (hk : Keeps s₀ s) : Keeps s₀ (countWaits s) := by
  unfold countWaits
  try dsimp only
  repeat' first
    | with_reducible first
      | assumption
      | intro _
      | refine Keeps.ite ?_ ?_
      | refine Keeps.ite_st ?_ ?_
    | (with_reducible first | apply Keeps.mk_rest | apply Keeps.mk_mem | apply Keeps.mk_sec | apply Keeps.mk_mem_sec) <;> first
      | with_reducible first
        | assumption
        | refine Keeps.ite ?_ ?_
      | split
    | split
    | dsimp only

theorem leadStep_keeps {s₀ : State} (s : State) (named : List (Nat × Nat)) (hk : Keeps s₀ s) : Keeps s₀ (leadStep s named) := by
  unfold leadStep
  try dsimp only
  repeat' first
    | with_reducible first
      | assumption
      | intro _
      | apply admitQueued_keeps
      | apply leadPlan_keeps
      | apply countWaits_keeps
      | refine Keeps.ite ?_ ?_
      | refine Keeps.ite_st ?_ ?_
      | refine Keeps.foldl (fun _ _ _ => ?_) ?_
      | refine Keeps.foldl_snd (fun _ _ _ => ?_) ?_
    | (with_reducible first | apply Keeps.mk_rest | apply Keeps.mk_mem | apply Keeps.mk_sec | apply Keeps.mk_mem_sec) <;> first
      | with_reducible first
        | assumption
        | apply admitQueued_keeps
        | apply leadPlan_keeps
        | apply countWaits_keeps
        | refine Keeps.ite ?_ ?_
        | refine Keeps.foldl (fun _ _ _ => ?_) ?_
      | split
    | split
    | dsimp only

theorem memberStep_keeps {s₀ : State} (s : State) (p : Nat) (plan : Plan) (hk : Keeps s₀ s) : Keeps s₀ (memberStep s p plan) := by
  unfold memberStep
  try dsimp only
  repeat' first
    | with_reducible first
      | assumption
      | intro _
      | apply State.emit_keeps
      | apply poolLaw_keeps
      | refine Keeps.foldl (fun _ _ _ => ?_) ?_
      | refine Keeps.foldl_snd (fun _ _ _ => ?_) ?_
    | (with_reducible first | apply Keeps.mk_rest | apply Keeps.mk_mem | apply Keeps.mk_sec | apply Keeps.mk_mem_sec) <;> first
      | with_reducible first
        | assumption
        | apply State.emit_keeps
        | apply poolLaw_keeps
        | refine Keeps.foldl (fun _ _ _ => ?_) ?_
    | dsimp only

end Sys2Proof.Machine
end

