-- ==== Sys2Proof/Laws/KeepsServe.lean ====
section
/-! SUPPORT. Each operation of Machine/Serve.lean makes a change that `Keeps`. -/

namespace Sys2Proof.Machine

theorem reqOpenBody_keeps {s₀ : State} (sess_ p : Nat) (arg : Octets) (s : State) (hk : Keeps s₀ s) : Keeps s₀ (reqOpenBody sess_ p arg s).st := by
  unfold reqOpenBody
  try dsimp only
  repeat' first
    | with_reducible first
      | assumption
      | intro _
      | apply refuse_keeps
      | apply doneAt_keeps
      | apply openChan_keeps
      | refine Keeps.ite ?_ ?_
      | refine Keeps.ite_snd ?_ ?_
      | refine Keeps.ite_st ?_ ?_
      | apply Keeps.ite_fst
    | (with_reducible first | apply Keeps.mk_rest | apply Keeps.mk_mem | apply Keeps.mk_sec | apply Keeps.mk_mem_sec) <;> first
      | with_reducible first
        | assumption
        | apply refuse_keeps
        | apply doneAt_keeps
        | apply openChan_keeps
        | refine Keeps.ite ?_ ?_
      | split
    | split
    | dsimp only

theorem reqOpenWrite_keeps (s₀ : State) (sess : Nat) (arg : Octets) (s : State) (h : Keeps s₀ s) : Keeps s₀ (reqOpenWrite sess arg s).2 := by
  unfold reqOpenWrite
  repeat' first
    | with_reducible first
      | assumption
      | intro _
      | apply cmdWrite_keeps
      | apply reqOpenBody_keeps
    | dsimp only

theorem execReqChanOpen_keeps {s₀ : State} (sess : Nat) (arg : Octets) (s : State) (hk : Keeps s₀ s) : KeepsO s₀ (execReqChanOpen sess arg s) := by
  unfold execReqChanOpen
  try dsimp only
  repeat' first
    | with_reducible first
      | assumption
      | intro _
      | apply cmdRow_keeps
      | apply reqOpenWrite_keeps
      | refine KeepsO.next ?_
    | dsimp only

theorem reqCloseBody_keeps {s₀ : State} (sess_ p : Nat) (arg : Octets) (s : State) (hk : Keeps s₀ s) : Keeps s₀ (reqCloseBody sess_ p arg s).st := by
  unfold reqCloseBody
  try dsimp only
  repeat' first
    | with_reducible first
      | assumption
      | intro _
      | apply refuse_keeps
      | apply doneAt_keeps
      | apply closeReqChan_keeps
      | refine Keeps.ite ?_ ?_
      | refine Keeps.ite_st ?_ ?_
    | split
    | dsimp only

theorem reqCloseWrite_keeps (s₀ : State) (sess : Nat) (arg : Octets) (s : State) (h : Keeps s₀ s) : Keeps s₀ (reqCloseWrite sess arg s).2 := by
  unfold reqCloseWrite
  repeat' first
    | with_reducible first
      | assumption
      | intro _
      | apply cmdWrite_keeps
      | apply reqCloseBody_keeps
    | dsimp only

theorem execReqChanClose_keeps {s₀ : State} (sess : Nat) (arg : Octets) (s : State) (hk : Keeps s₀ s) : KeepsO s₀ (execReqChanClose sess arg s) := by
  unfold execReqChanClose
  try dsimp only
  repeat' first
    | with_reducible first
      | assumption
      | intro _
      | apply cmdRow_keeps
      | apply reqCloseWrite_keeps
      | refine KeepsO.next ?_
    | dsimp only

theorem entryRead_keeps {s₀ : State} (s : State) (h : Nat) (c : ReqChan) (hk : Keeps s₀ s) : Keeps s₀ (entryRead s h c) := by
  unfold entryRead
  try dsimp only
  repeat' first
    | with_reducible first
      | assumption
      | intro _
      | apply setChan_keeps
    | (with_reducible first | apply Keeps.mk_rest | apply Keeps.mk_mem | apply Keeps.mk_sec | apply Keeps.mk_mem_sec) <;> first
      | with_reducible first
        | assumption
        | apply setChan_keeps
    | dsimp only

theorem refuseEntry_keeps {s₀ : State} (s : State) (h k status op reqId : Nat) (hk : Keeps s₀ s) : Keeps s₀ (refuseEntry s h k status op reqId) := by
  unfold refuseEntry
  try dsimp only
  repeat' first
    | with_reducible first
      | assumption
      | intro _
      | apply retire_keeps
      | apply addRec_keeps
    | dsimp only

theorem submit_keeps {s₀ : State} (s : State) (q : Req) (b stops : Octets) (hk : Keeps s₀ s) : Keeps s₀ (submit s q b stops) := by
  unfold submit
  try dsimp only
  repeat' first
    | with_reducible first
      | assumption
      | intro _
      | apply addReq_keeps
      | apply endReq_keeps
      | refine Keeps.ite ?_ ?_
    | (with_reducible first | apply Keeps.mk_rest | apply Keeps.mk_mem | apply Keeps.mk_sec | apply Keeps.mk_mem_sec) <;> first
      | with_reducible first
        | assumption
        | apply addReq_keeps
        | apply endReq_keeps
        | refine Keeps.ite ?_ ?_
      | split
    | split
    | dsimp only

theorem execSubmit_keeps {s₀ : State} (chan : Nat) (s : State) (hk : Keeps s₀ s) : KeepsO s₀ (execSubmit chan s) := by
  unfold execSubmit
  try dsimp only
  repeat' first
    | with_reducible first
      | assumption
      | intro _
      | apply forgetEnded_keeps
      | apply entryRead_keeps
      | apply refuseEntry_keeps
      | apply submit_keeps
      | refine Keeps.ite ?_ ?_
      | refine KeepsO.ite ?_ ?_
      | refine KeepsO.next ?_
    | split
    | dsimp only

theorem ackCancel_keeps {s₀ : State} (s : State) (h status reqId terminal : Nat) (hk : Keeps s₀ s) : Keeps s₀ (ackCancel s h status reqId terminal) := by
  unfold ackCancel
  try dsimp only
  repeat' first
    | with_reducible first
      | assumption
      | intro _
      | apply addRec_keeps
    | dsimp only

theorem resolveCancel_keeps {s₀ : State} (s : State) (h reqId : Nat) (hk : Keeps s₀ s) : Keeps s₀ (resolveCancel s h reqId) := by
  unfold resolveCancel
  try dsimp only
  repeat' first
    | with_reducible first
      | assumption
      | intro _
      | apply setReq_keeps
      | apply endNow_keeps
      | apply ackCancel_keeps
      | refine Keeps.ite ?_ ?_
      | refine Keeps.ite_st ?_ ?_
    | (with_reducible first | apply Keeps.mk_rest | apply Keeps.mk_mem | apply Keeps.mk_sec | apply Keeps.mk_mem_sec) <;> first
      | with_reducible first
        | assumption
        | apply setReq_keeps
        | apply endNow_keeps
        | apply ackCancel_keeps
        | refine Keeps.ite ?_ ?_
      | split
    | split
    | dsimp only

theorem execCancel_keeps {s₀ : State} (chan : Nat) (s : State) (hk : Keeps s₀ s) : KeepsO s₀ (execCancel chan s) := by
  unfold execCancel
  try dsimp only
  repeat' first
    | with_reducible first
      | assumption
      | intro _
      | apply forgetEnded_keeps
      | apply retire_keeps
      | apply entryRead_keeps
      | apply refuseEntry_keeps
      | apply resolveCancel_keeps
      | refine Keeps.ite ?_ ?_
      | refine KeepsO.ite ?_ ?_
      | refine KeepsO.next ?_
    | split
    | dsimp only

theorem qpFails_keeps {s₀ : State} (s : State) (h : Nat) (hk : Keeps s₀ s) : Keeps s₀ (qpFails s h) := by
  unfold qpFails
  try dsimp only
  repeat' first
    | with_reducible first
      | assumption
      | intro _
      | apply setChan_keeps
      | apply killChannel_keeps
      | refine Keeps.ite ?_ ?_
      | refine Keeps.ite_snd ?_ ?_
      | apply Keeps.ite_fst
      | refine Keeps.foldl (fun _ _ _ => ?_) ?_
      | refine Keeps.foldl_snd (fun _ _ _ => ?_) ?_
    | (with_reducible first | apply Keeps.mk_rest | apply Keeps.mk_mem | apply Keeps.mk_sec | apply Keeps.mk_mem_sec) <;> first
      | with_reducible first
        | assumption
        | apply setChan_keeps
        | apply killChannel_keeps
        | refine Keeps.ite ?_ ?_
        | refine Keeps.foldl (fun _ _ _ => ?_) ?_
      | split
    | split
    | dsimp only

theorem execQpTransportError_keeps {s₀ : State} (qp : Nat) (s : State) (hk : Keeps s₀ s) : KeepsO s₀ (execQpTransportError qp s) := by
  unfold execQpTransportError
  try dsimp only
  repeat' first
    | with_reducible first
      | assumption
      | intro _
      | apply qpFails_keeps
      | refine KeepsO.next ?_
    | dsimp only

theorem execPlanReceive_keeps {s₀ : State} (part : Nat) (plan : Plan) (s : State) (hk : Keeps s₀ s) : KeepsO s₀ (execPlanReceive part plan s) := by
  unfold execPlanReceive
  try dsimp only
  repeat' first
    | with_reducible first
      | assumption
      | intro _
      | refine Keeps.ite ?_ ?_
      | refine Keeps.ite_st ?_ ?_
      | refine KeepsO.ite ?_ ?_
      | refine KeepsO.next ?_
    | (with_reducible first | apply Keeps.mk_rest | apply Keeps.mk_mem | apply Keeps.mk_sec | apply Keeps.mk_mem_sec) <;> first
      | with_reducible first
        | assumption
        | refine Keeps.ite ?_ ?_
      | split
    | split
    | dsimp only

theorem execSeqInvalidReport_keeps {s₀ : State} (part seq chip : Nat) (s : State) (hk : Keeps s₀ s) : KeepsO s₀ (execSeqInvalidReport part seq chip s) := by
  unfold execSeqInvalidReport
  try dsimp only
  repeat' first
    | with_reducible first
      | assumption
      | intro _
      | refine Keeps.ite ?_ ?_
      | refine KeepsO.ite ?_ ?_
      | refine KeepsO.next ?_
    | (with_reducible first | apply Keeps.mk_rest | apply Keeps.mk_mem | apply Keeps.mk_sec | apply Keeps.mk_mem_sec) <;> first
      | with_reducible first
        | assumption
        | refine Keeps.ite ?_ ?_
      | split
    | split
    | dsimp only

theorem execDraftMessage_keeps {s₀ : State} (part seq : Nat) (drafts : List Nat) (s : State) (hk : Keeps s₀ s) : KeepsO s₀ (execDraftMessage part seq drafts s) := by
  unfold execDraftMessage
  try dsimp only
  repeat' first
    | with_reducible first
      | assumption
      | intro _
      | apply State.emit_keeps
      | refine Keeps.ite ?_ ?_
      | refine KeepsO.ite ?_ ?_
      | refine KeepsO.next ?_
      | refine Keeps.foldl (fun _ _ _ => ?_) ?_
      | refine Keeps.foldl_snd (fun _ _ _ => ?_) ?_
    | (with_reducible first | apply Keeps.mk_rest | apply Keeps.mk_mem | apply Keeps.mk_sec | apply Keeps.mk_mem_sec) <;> first
      | with_reducible first
        | assumption
        | apply State.emit_keeps
        | refine Keeps.ite ?_ ?_
        | refine Keeps.foldl (fun _ _ _ => ?_) ?_
      | split
    | split
    | dsimp only

theorem countTokens_keeps {s₀ : State} (s : State) (d : Decision) (hk : Keeps s₀ s) : Keeps s₀ (countTokens s d) := by
  unfold countTokens
  try dsimp only
  repeat' first
    | with_reducible first
      | assumption
      | intro _
      | apply State.tel_keeps
      | refine Keeps.ite ?_ ?_
    | (with_reducible first | apply Keeps.mk_rest | apply Keeps.mk_mem | apply Keeps.mk_sec | apply Keeps.mk_mem_sec) <;> first
      | with_reducible first
        | assumption
        | apply State.tel_keeps
        | refine Keeps.ite ?_ ?_
      | split
    | split
    | dsimp only

theorem applyDecision_keeps {s₀ : State} (seqno : Nat) (s : State) (d : Decision) (hk : Keeps s₀ s) : Keeps s₀ (applyDecision seqno s d) := by
  unfold applyDecision
  try dsimp only
  repeat' first
    | with_reducible first
      | assumption
      | intro _
      | apply setReq_keeps
      | apply addRec_keeps
      | apply endReq_keeps
      | apply countTokens_keeps
      | refine Keeps.ite ?_ ?_
      | refine Keeps.ite_st ?_ ?_
    | (with_reducible first | apply Keeps.mk_rest | apply Keeps.mk_mem | apply Keeps.mk_sec | apply Keeps.mk_mem_sec) <;> first
      | with_reducible first
        | assumption
        | apply setReq_keeps
        | apply addRec_keeps
        | apply endReq_keeps
        | apply countTokens_keeps
        | refine Keeps.ite ?_ ?_
      | split
    | split
    | dsimp only

theorem dueCheckpoints_keeps {s₀ : State} (s : State) (hk : Keeps s₀ s) : Keeps s₀ (dueCheckpoints s) := by
  unfold dueCheckpoints
  try dsimp only
  repeat' first
    | with_reducible first
      | assumption
      | intro _
      | apply checkpoint_keeps
      | refine Keeps.ite ?_ ?_
      | refine Keeps.foldl (fun _ _ _ => ?_) ?_
      | refine Keeps.foldl_snd (fun _ _ _ => ?_) ?_
    | (with_reducible first | apply Keeps.mk_rest | apply Keeps.mk_mem | apply Keeps.mk_sec | apply Keeps.mk_mem_sec) <;> first
      | with_reducible first
        | assumption
        | apply checkpoint_keeps
        | refine Keeps.ite ?_ ?_
        | refine Keeps.foldl (fun _ _ _ => ?_) ?_
      | split
    | split
    | dsimp only

theorem commitFence_keeps {s₀ : State} (s : State) (xs : List (Req × LenEntry)) (os : List RowOutcome) (hk : Keeps s₀ s) : Keeps s₀ (commitFence s xs os) := by
  unfold commitFence
  try dsimp only
  repeat' first
    | with_reducible first
      | assumption
      | intro _
      | apply journalWrite_keeps
      | apply applyDecision_keeps
      | apply dueCheckpoints_keeps
      | refine Keeps.foldl (fun _ _ _ => ?_) ?_
      | refine Keeps.foldl_snd (fun _ _ _ => ?_) ?_
    | dsimp only

theorem afterFence_keeps {s₀ : State} (s : State) (hk : Keeps s₀ s) : Keeps s₀ (afterFence s) := by
  unfold afterFence
  try dsimp only
  repeat' first
    | with_reducible first
      | assumption
      | intro _
      | apply releaseRest_keeps
      | refine Keeps.ite ?_ ?_
      | refine Keeps.ite_snd ?_ ?_
      | refine Keeps.ite_st ?_ ?_
      | apply Keeps.ite_fst
      | refine Keeps.foldl (fun _ _ _ => ?_) ?_
      | refine Keeps.foldl_snd (fun _ _ _ => ?_) ?_
    | (with_reducible first | apply Keeps.mk_rest | apply Keeps.mk_mem | apply Keeps.mk_sec | apply Keeps.mk_mem_sec) <;> first
      | with_reducible first
        | assumption
        | apply releaseRest_keeps
        | refine Keeps.ite ?_ ?_
        | refine Keeps.foldl (fun _ _ _ => ?_) ?_
      | split
    | split
    | dsimp only

theorem execCommitFence_keeps {s₀ : State} (vat : Nat) (outcomes : List RowOutcome) (s : State) (hk : Keeps s₀ s) : KeepsO s₀ (execCommitFence vat outcomes s) := by
  unfold execCommitFence
  try dsimp only
  repeat' first
    | with_reducible first
      | assumption
      | intro _
      | apply commitFence_keeps
      | apply afterFence_keeps
      | refine Keeps.ite ?_ ?_
      | refine KeepsO.ite ?_ ?_
      | refine KeepsO.next ?_
    | split
    | dsimp only

theorem execJournalRecord_keeps {s₀ : State} (lead : Nat) (record : Octets) (s : State) (hk : Keeps s₀ s) : KeepsO s₀ (execJournalRecord lead record s) := by
  unfold execJournalRecord
  try dsimp only
  repeat' first
    | with_reducible first
      | assumption
      | intro _
      | apply State.emit_keeps
      | refine Keeps.ite ?_ ?_
      | refine Keeps.ite_st ?_ ?_
      | apply Keeps.ite_fst
      | refine KeepsO.ite ?_ ?_
      | refine KeepsO.next ?_
    | (with_reducible first | apply Keeps.mk_rest | apply Keeps.mk_mem | apply Keeps.mk_sec | apply Keeps.mk_mem_sec) <;> first
      | with_reducible first
        | assumption
        | apply State.emit_keeps
        | refine Keeps.ite ?_ ?_
      | split
    | split
    | dsimp only

theorem execJournalAck_keeps {s₀ : State} (holder seqno status : Nat) (s : State) (hk : Keeps s₀ s) : KeepsO s₀ (execJournalAck holder seqno status s) := by
  unfold execJournalAck
  try dsimp only
  repeat' first
    | with_reducible first
      | assumption
      | intro _
      | apply State.writeErr_keeps
      | refine Keeps.ite ?_ ?_
      | refine KeepsO.ite ?_ ?_
      | refine KeepsO.next ?_
    | (with_reducible first | apply Keeps.mk_rest | apply Keeps.mk_mem | apply Keeps.mk_sec | apply Keeps.mk_mem_sec) <;> first
      | with_reducible first
        | assumption
        | apply State.writeErr_keeps
        | refine Keeps.ite ?_ ?_
      | split
    | split
    | dsimp only

theorem execCompletionRecordWrite_keeps {s₀ : State} (chan : Nat) (s : State) (hk : Keeps s₀ s) : KeepsO s₀ (execCompletionRecordWrite chan s) := by
  unfold execCompletionRecordWrite
  try dsimp only
  repeat' first
    | with_reducible first
      | assumption
      | intro _
      | apply flushChannel_keeps
      | refine Keeps.ite ?_ ?_
      | refine KeepsO.ite ?_ ?_
      | refine KeepsO.next ?_
    | split
    | dsimp only

end Sys2Proof.Machine
end

