-- ==== Sys2Proof/Laws/KeepsLinkOps.lean ====
section
/-! SUPPORT. Each operation of Machine/LinkOps.lean makes a change that `Keeps`. -/

namespace Sys2Proof.Machine

theorem trainPort_keeps {s₀ : State} (s : State) (p : Nat) (hk : Keeps s₀ s) : Keeps s₀ (trainPort s p) := by
  unfold trainPort
  try dsimp only
  repeat' first
    | with_reducible first
      | assumption
      | intro _
      | apply State.modPort_keeps
      | refine Keeps.ite ?_ ?_
      | refine Keeps.foldl (fun _ _ _ => ?_) ?_
      | refine Keeps.foldl_snd (fun _ _ _ => ?_) ?_
    | (with_reducible first | apply Keeps.mk_rest | apply Keeps.mk_mem | apply Keeps.mk_sec | apply Keeps.mk_mem_sec) <;> first
      | with_reducible first
        | assumption
        | apply State.modPort_keeps
        | refine Keeps.ite ?_ ?_
        | refine Keeps.foldl (fun _ _ _ => ?_) ?_
      | split
    | split
    | dsimp only

theorem trainAll_keeps {s₀ : State} (s : State) (hk : Keeps s₀ s) : Keeps s₀ (trainAll s) := by
  unfold trainAll
  try dsimp only
  repeat' first
    | with_reducible first
      | assumption
      | intro _
      | apply trainPort_keeps
      | refine Keeps.ite ?_ ?_
      | refine Keeps.ite_st ?_ ?_
      | refine Keeps.foldl (fun _ _ _ => ?_) ?_
      | refine Keeps.foldl_snd (fun _ _ _ => ?_) ?_
    | split
    | dsimp only

theorem resend_keeps {s₀ : State} (s : State) (f : SentFrame) (hk : Keeps s₀ s) : Keeps s₀ (resend s f) := by
  unfold resend
  try dsimp only
  repeat' first
    | with_reducible first
      | assumption
      | intro _
      | apply sendFrame_keeps
      | refine Keeps.ite ?_ ?_
    | (with_reducible first | apply Keeps.mk_rest | apply Keeps.mk_mem | apply Keeps.mk_sec | apply Keeps.mk_mem_sec) <;> first
      | with_reducible first
        | assumption
        | apply sendFrame_keeps
        | refine Keeps.ite ?_ ?_
      | split
    | split
    | dsimp only

theorem passOn_keeps {s₀ : State} (s : State) (p k : Nat) (x : SubSt) (hk : Keeps s₀ s) : Keeps s₀ (passOn s p k x) := by
  unfold passOn
  try dsimp only
  repeat' first
    | with_reducible first
      | assumption
      | intro _
      | apply sendEack_keeps
      | apply resend_keeps
      | refine Keeps.foldl (fun _ _ _ => ?_) ?_
      | refine Keeps.foldl_snd (fun _ _ _ => ?_) ?_
    | dsimp only

theorem portQpsFail_keeps {s₀ : State} (s : State) (p : Nat) (hk : Keeps s₀ s) : Keeps s₀ (portQpsFail s p) := by
  unfold portQpsFail
  try dsimp only
  repeat' first
    | with_reducible first
      | assumption
      | intro _
      | apply qpFails_keeps
      | refine Keeps.ite ?_ ?_
      | refine Keeps.ite_snd ?_ ?_
      | apply Keeps.ite_fst
      | refine Keeps.foldl (fun _ _ _ => ?_) ?_
      | refine Keeps.foldl_snd (fun _ _ _ => ?_) ?_
    | split
    | dsimp only

theorem leaveUp_keeps {s₀ : State} (s : State) (p k : Nat) (x : SubSt) (hk : Keeps s₀ s) : Keeps s₀ (leaveUp s p k x) := by
  unfold leaveUp
  try dsimp only
  repeat' first
    | with_reducible first
      | assumption
      | intro _
      | apply passOn_keeps
      | apply portQpsFail_keeps
      | refine Keeps.ite ?_ ?_
      | refine Keeps.ite_snd ?_ ?_
      | refine Keeps.ite_st ?_ ?_
    | split
    | dsimp only

theorem subDown_keeps {s₀ : State} (s : State) (p k event : Nat) (hk : Keeps s₀ s) : Keeps s₀ (subDown s p k event) := by
  unfold subDown
  try dsimp only
  repeat' first
    | with_reducible first
      | assumption
      | intro _
      | apply State.setSub_keeps
      | apply State.writeErr_keeps
      | apply leaveUp_keeps
      | refine Keeps.ite ?_ ?_
    | split
    | dsimp only

theorem portCfg_keeps {s₀ : State} (s : State) (p v : Nat) (hk : Keeps s₀ s) : Keeps s₀ (portCfg s p v).2 := by
  unfold portCfg
  try dsimp only
  repeat' first
    | with_reducible first
      | assumption
      | intro _
      | apply State.modPort_keeps
      | apply trainPort_keeps
      | apply leaveUp_keeps
      | refine Keeps.ite ?_ ?_
      | refine Keeps.ite_snd ?_ ?_
      | apply Keeps.ite_fst
      | refine Keeps.foldl (fun _ _ _ => ?_) ?_
      | refine Keeps.foldl_snd (fun _ _ _ => ?_) ?_
    | (with_reducible first | apply Keeps.mk_rest | apply Keeps.mk_mem | apply Keeps.mk_sec | apply Keeps.mk_mem_sec) <;> first
      | with_reducible first
        | assumption
        | apply State.modPort_keeps
        | apply trainPort_keeps
        | apply leaveUp_keeps
        | refine Keeps.ite ?_ ?_
        | refine Keeps.foldl (fun _ _ _ => ?_) ?_
      | split
    | split
    | dsimp only

theorem boardRoutes_keeps {s₀ : State} (s : State) (hk : Keeps s₀ s) : Keeps s₀ (boardRoutes s) := by
  unfold boardRoutes
  try dsimp only
  repeat' first
    | with_reducible first
      | assumption
      | intro _
      | refine Keeps.ite ?_ ?_
      | refine Keeps.ite_snd ?_ ?_
      | refine Keeps.ite_st ?_ ?_
      | apply Keeps.ite_fst
      | refine Keeps.foldl (fun _ _ _ => ?_) ?_
      | refine Keeps.foldl_snd (fun _ _ _ => ?_) ?_
    | (with_reducible first | apply Keeps.mk_rest | apply Keeps.mk_mem | apply Keeps.mk_sec | apply Keeps.mk_mem_sec) <;> first
      | with_reducible first
        | assumption
        | refine Keeps.ite ?_ ?_
        | refine Keeps.foldl (fun _ _ _ => ?_) ?_
      | split
    | split
    | dsimp only

theorem foundAgain_keeps {s₀ : State} (s : State) (chip : Nat) (hk : Keeps s₀ s) : Keeps s₀ (foundAgain s chip) := by
  unfold foundAgain
  try dsimp only
  repeat' first
    | with_reducible first
      | assumption
      | intro _
    | (with_reducible first | apply Keeps.mk_rest | apply Keeps.mk_mem | apply Keeps.mk_sec | apply Keeps.mk_mem_sec) <;> first
      | with_reducible first
        | assumption
    | dsimp only

theorem goUp_keeps {s₀ : State} (s : State) (p k : Nat) (hk : Keeps s₀ s) : Keeps s₀ (goUp s p k) := by
  unfold goUp
  try dsimp only
  repeat' first
    | with_reducible first
      | assumption
      | intro _
      | apply State.setSub_keeps
      | apply State.writeErr_keeps
      | apply flushWaiting_keeps
      | apply boardRoutes_keeps
      | apply foundAgain_keeps
      | refine Keeps.ite ?_ ?_
    | (with_reducible first | apply Keeps.mk_rest | apply Keeps.mk_mem | apply Keeps.mk_sec | apply Keeps.mk_mem_sec) <;> first
      | with_reducible first
        | assumption
        | apply State.setSub_keeps
        | apply State.writeErr_keeps
        | apply flushWaiting_keeps
        | apply boardRoutes_keeps
        | apply foundAgain_keeps
        | refine Keeps.ite ?_ ?_
      | split
    | split
    | dsimp only

theorem chanLoses_keeps {s₀ : State} (s : State) (slot : Nat) (hk : Keeps s₀ s) : Keeps s₀ (chanLoses s slot) := by
  unfold chanLoses
  try dsimp only
  repeat' first
    | with_reducible first
      | assumption
      | intro _
      | apply State.writeErr_keeps
      | apply endChan_keeps
      | apply breakGroup_keeps
      | refine Keeps.ite ?_ ?_
      | refine Keeps.ite_st ?_ ?_
    | (with_reducible first | apply Keeps.mk_rest | apply Keeps.mk_mem | apply Keeps.mk_sec | apply Keeps.mk_mem_sec) <;> first
      | with_reducible first
        | assumption
        | apply State.writeErr_keeps
        | apply endChan_keeps
        | apply breakGroup_keeps
        | refine Keeps.ite ?_ ?_
      | split
    | split
    | dsimp only

theorem holderLost_keeps {s₀ : State} (s : State) (chip status : Nat) (hk : Keeps s₀ s) : Keeps s₀ (holderLost s chip status) := by
  unfold holderLost
  try dsimp only
  repeat' first
    | with_reducible first
      | assumption
      | intro _
      | apply State.writeErr_keeps
      | apply flushChannel_keeps
      | refine Keeps.ite ?_ ?_
      | refine Keeps.ite_snd ?_ ?_
      | apply Keeps.ite_fst
      | refine Keeps.foldl (fun _ _ _ => ?_) ?_
      | refine Keeps.foldl_snd (fun _ _ _ => ?_) ?_
    | (with_reducible first | apply Keeps.mk_rest | apply Keeps.mk_mem | apply Keeps.mk_sec | apply Keeps.mk_mem_sec) <;> first
      | with_reducible first
        | assumption
        | apply State.writeErr_keeps
        | apply flushChannel_keeps
        | refine Keeps.ite ?_ ?_
        | refine Keeps.foldl (fun _ _ _ => ?_) ?_
      | split
    | split
    | dsimp only

theorem memberLost_keeps {s₀ : State} (s : State) (hk : Keeps s₀ s) : Keeps s₀ (memberLost s) := by
  unfold memberLost
  try dsimp only
  repeat' first
    | with_reducible first
      | assumption
      | intro _
      | apply abandonStep_keeps
      | refine Keeps.ite ?_ ?_
      | refine Keeps.ite_st ?_ ?_
    | (with_reducible first | apply Keeps.mk_rest | apply Keeps.mk_mem | apply Keeps.mk_sec | apply Keeps.mk_mem_sec) <;> first
      | with_reducible first
        | assumption
        | apply abandonStep_keeps
        | refine Keeps.ite ?_ ?_
      | split
    | split
    | dsimp only

theorem chipIsLost_keeps {s₀ : State} (s : State) (chip : Nat) (hk : Keeps s₀ s) : Keeps s₀ (chipIsLost s chip) := by
  unfold chipIsLost
  try dsimp only
  repeat' first
    | with_reducible first
      | assumption
      | intro _
      | apply State.writeErr_keeps
      | apply failFrame_keeps
      | apply failRequest_keeps
      | apply chanLoses_keeps
      | apply holderLost_keeps
      | apply memberLost_keeps
      | refine Keeps.ite ?_ ?_
      | refine Keeps.ite_snd ?_ ?_
      | apply Keeps.ite_fst
      | refine Keeps.foldl (fun _ _ _ => ?_) ?_
      | refine Keeps.foldl_snd (fun _ _ _ => ?_) ?_
    | (with_reducible first | apply Keeps.mk_rest | apply Keeps.mk_mem | apply Keeps.mk_sec | apply Keeps.mk_mem_sec) <;> first
      | with_reducible first
        | assumption
        | apply State.writeErr_keeps
        | apply failFrame_keeps
        | apply failRequest_keeps
        | apply chanLoses_keeps
        | apply holderLost_keeps
        | apply memberLost_keeps
        | refine Keeps.ite ?_ ?_
        | refine Keeps.foldl (fun _ _ _ => ?_) ?_
      | split
    | split
    | dsimp only

end Sys2Proof.Machine
end

