-- ==== Sys2Proof/Laws/KeepsPeerOps.lean ====
section
/-! SUPPORT. Each operation of Machine/PeerOps.lean makes a change that `Keeps`. -/

namespace Sys2Proof.Machine

theorem lifecycleOf_scrapped {s : State} (h : scrapBlown s = true) : lifecycleOf s = Lc.scrapped := by
  have key : ∀ b : BitVec 5, b.getLsbD 4 = true → (if b = 0 then 0 else Nat.log2 b.toNat + 1) = 5 := by decide
  exact key _ h

theorem lifecycleOf_blank {s : State} (h : lifecycleOf s = Lc.blank) : s.fuse.lifecycleBits = 0 := by
  unfold lifecycleOf at h
  split at h
  · assumption
  · cases h

theorem addPeers_keeps {s₀ : State} (s : State) (chips : List Nat) (hk : Keeps s₀ s) : Keeps s₀ (addPeers s chips) := by
  unfold addPeers
  try dsimp only
  repeat' first
    | with_reducible first
      | assumption
      | intro _
    | (with_reducible first | apply Keeps.mk_rest | apply Keeps.mk_mem | apply Keeps.mk_sec | apply Keeps.mk_mem_sec) <;> first
      | with_reducible first
        | assumption
    | dsimp only

theorem peerWaitBody_keeps {s₀ : State} (k : Nat) (sess p_ : Nat) (arg : Octets) (s : State) (hk : Keeps s₀ s) : Keeps s₀ (peerWaitBody k sess p_ arg s).st := by
  unfold peerWaitBody
  try dsimp only
  repeat' first
    | with_reducible first
      | assumption
      | intro _
      | apply started_keeps
    | (with_reducible first | apply Keeps.mk_rest | apply Keeps.mk_mem | apply Keeps.mk_sec | apply Keeps.mk_mem_sec) <;> first
      | with_reducible first
        | assumption
        | apply started_keeps
    | dsimp only

theorem peerRow_keeps {k : Nat} {body : Nat → Nat → Octets → State → CmdAns} {w : Nat → Octets → State → Nat × State}
    (hb : ∀ s₀ sess p arg s, Keeps s₀ s → Keeps s₀ (body sess p arg s).st)
    (hw : ∀ s₀ sess arg s, Keeps s₀ s → Keeps s₀ (w sess arg s).2) {s₀ s : State} (sess : Nat) (arg : Octets)
    (hk : Keeps s₀ s) : Keeps s₀ (peerRow k body w sess arg s) := by
  unfold peerRow
  dsimp only
  repeat' first
      | with_reducible first
        | assumption
        | intro _
        | apply cmdEnd_keeps
        | apply hb
        | apply hw
        | apply cmdRow_keeps
        | refine Keeps.ite ?_ ?_
        | refine Keeps.ite_snd ?_ ?_
        | refine Keeps.ite_st ?_ ?_
        | refine Keeps.foldl (fun _ _ _ => ?_) ?_
        | refine Keeps.foldl_snd (fun _ _ _ => ?_) ?_
      | (with_reducible first | apply Keeps.mk_rest | apply Keeps.mk_mem | apply Keeps.mk_sec | apply Keeps.mk_mem_sec) <;> first
        | with_reducible first
          | assumption
          | apply cmdEnd_keeps
          | apply hb
          | apply hw
          | apply cmdRow_keeps
          | refine Keeps.ite ?_ ?_
          | refine Keeps.foldl (fun _ _ _ => ?_) ?_
        | split
      | split
      | dsimp only

end Sys2Proof.Machine
end

