-- ==== Sys2Proof/Laws/KeepsTakeover.lean ====
section
/-! SUPPORT. Each operation of Machine/Takeover.lean makes a change that `Keeps`. -/

namespace Sys2Proof.Machine

theorem keepJournal_keeps {s₀ : State} (s : State) (p lost role : Nat) (js : List JournalReq) (hk : Keeps s₀ s) : Keeps s₀ (keepJournal s p lost role js) := by
  unfold keepJournal
  try dsimp only
  repeat' first
    | with_reducible first
      | assumption
      | intro _
      | apply adoptDone_keeps
      | refine Keeps.ite ?_ ?_
    | (with_reducible first | apply Keeps.mk_rest | apply Keeps.mk_mem | apply Keeps.mk_sec | apply Keeps.mk_mem_sec) <;> first
      | with_reducible first
        | assumption
        | apply adoptDone_keeps
        | refine Keeps.ite ?_ ?_
      | split
    | split
    | dsimp only

theorem adoptWith_keeps {s₀ : State} (s : State) (p lost epoch role : Nat) (e : Octets) (fetch : AdoptFetch) (hk : Keeps s₀ s) : Keeps s₀ (adoptWith s p lost epoch role e fetch).st := by
  unfold adoptWith
  try dsimp only
  repeat' first
    | with_reducible first
      | assumption
      | intro _
      | apply State.modWhl_keeps
      | apply refuse_keeps
      | apply doneAt_keeps
      | apply started_keeps
      | apply setCave_keeps
      | apply programAll_keeps
      | apply adoptDone_keeps
      | apply keepJournal_keeps
      | refine Keeps.ite ?_ ?_
      | refine Keeps.ite_snd ?_ ?_
      | refine Keeps.ite_st ?_ ?_
      | apply Keeps.ite_fst
    | (with_reducible first | apply Keeps.mk_rest | apply Keeps.mk_mem | apply Keeps.mk_sec | apply Keeps.mk_mem_sec) <;> first
      | with_reducible first
        | assumption
        | apply State.modWhl_keeps
        | apply refuse_keeps
        | apply doneAt_keeps
        | apply started_keeps
        | apply setCave_keeps
        | apply programAll_keeps
        | apply adoptDone_keeps
        | apply keepJournal_keeps
        | refine Keeps.ite ?_ ?_
      | split
    | split
    | dsimp only

theorem recAdoptBody_keeps {s₀ : State} (fetch : AdoptFetch) (sess_ p_ : Nat) (arg : Octets) (s : State) (hk : Keeps s₀ s) : Keeps s₀ (recAdoptBody fetch sess_ p_ arg s).st := by
  unfold recAdoptBody
  try dsimp only
  repeat' first
    | with_reducible first
      | assumption
      | intro _
      | apply refuse_keeps
      | apply adoptWith_keeps
      | refine Keeps.ite ?_ ?_
      | refine Keeps.ite_st ?_ ?_
    | split
    | dsimp only

theorem recAdoptWait_keeps (s₀ : State) (sess : Nat) (arg : Octets) (s : State) (h : Keeps s₀ s) : Keeps s₀ (recAdoptWait sess arg s).2 := by
  unfold recAdoptWait
  repeat' first
    | with_reducible first
      | assumption
      | intro _
      | apply cmdWrite_keeps
      | apply refuse_keeps
      | apply peerWaitBody_keeps
      | refine Keeps.ite ?_ ?_
      | refine Keeps.ite_st ?_ ?_
    | split
    | dsimp only

theorem execRecAdopt_keeps {s₀ : State} (sess : Nat) (arg : Octets) (fetch : AdoptFetch) (s : State) (hk : Keeps s₀ s) : KeepsO s₀ (execRecAdopt sess arg fetch s) := by
  unfold execRecAdopt
  try dsimp only
  repeat' first
    | with_reducible first
      | assumption
      | intro _
      | apply cmdEnd_keeps
      | apply cmdWrite_keeps
      | apply cmdRow_keeps
      | apply recAdoptBody_keeps
      | refine Keeps.ite ?_ ?_
      | refine Keeps.ite_snd ?_ ?_
      | refine Keeps.ite_st ?_ ?_
      | apply Keeps.ite_fst
      | refine KeepsO.ite ?_ ?_
      | refine KeepsO.next ?_
    | (with_reducible first | apply Keeps.mk_rest | apply Keeps.mk_mem | apply Keeps.mk_sec | apply Keeps.mk_mem_sec) <;> first
      | with_reducible first
        | assumption
        | apply cmdEnd_keeps
        | apply cmdWrite_keeps
        | apply cmdRow_keeps
        | apply recAdoptBody_keeps
        | refine Keeps.ite ?_ ?_
      | split
    | split
    | dsimp only

theorem recReplaceBody_keeps {s₀ : State} (sess p : Nat) (arg : Octets) (s : State) (hk : Keeps s₀ s) : Keeps s₀ (recReplaceBody sess p arg s).st := by
  unfold recReplaceBody
  try dsimp only
  repeat' first
    | with_reducible first
      | assumption
      | intro _
      | apply refuse_keeps
      | apply stepPend_keeps
      | apply memberLost_keeps
      | refine Keeps.ite ?_ ?_
      | refine Keeps.ite_st ?_ ?_
    | split
    | dsimp only

theorem recReplaceWrite_keeps (s₀ : State) (sess : Nat) (arg : Octets) (s : State) (h : Keeps s₀ s) : Keeps s₀ (recReplaceWrite sess arg s).2 := by
  unfold recReplaceWrite
  repeat' first
    | with_reducible first
      | assumption
      | intro _
      | apply cmdWrite_keeps
      | apply recReplaceBody_keeps
    | dsimp only

theorem execRecReplace_keeps {s₀ : State} (sess : Nat) (arg : Octets) (s : State) (hk : Keeps s₀ s) : KeepsO s₀ (execRecReplace sess arg s) := by
  unfold execRecReplace
  try dsimp only
  repeat' first
    | with_reducible first
      | assumption
      | intro _
      | apply cmdRow_keeps
      | apply recReplaceWrite_keeps
      | refine KeepsO.next ?_
    | dsimp only

theorem prefillAll_keeps {s₀ : State} (s : State) (hk : Keeps s₀ s) : Keeps s₀ (prefillAll s) := by
  unfold prefillAll
  try dsimp only
  repeat' first
    | with_reducible first
      | assumption
      | intro _
      | refine Keeps.ite ?_ ?_
      | refine Keeps.ite_st ?_ ?_
    | (with_reducible first | apply Keeps.mk_rest | apply Keeps.mk_mem | apply Keeps.mk_sec | apply Keeps.mk_mem_sec) <;> first
      | with_reducible first
        | assumption
        | refine Keeps.ite ?_ ?_
      | split
    | split
    | dsimp only

theorem recReplaceApply_keeps {s₀ : State} (b : Octets) (s : State) (hk : Keeps s₀ s) : Keeps s₀ (recReplaceApply b s).2 := by
  unfold recReplaceApply
  try dsimp only
  repeat' first
    | with_reducible first
      | assumption
      | intro _
      | apply State.writeErr_keeps
      | apply cfgPut_keeps
      | apply prefillAll_keeps
      | refine Keeps.ite ?_ ?_
      | refine Keeps.ite_snd ?_ ?_
    | (with_reducible first | apply Keeps.mk_rest | apply Keeps.mk_mem | apply Keeps.mk_sec | apply Keeps.mk_mem_sec) <;> first
      | with_reducible first
        | assumption
        | apply State.writeErr_keeps
        | apply cfgPut_keeps
        | apply prefillAll_keeps
        | refine Keeps.ite ?_ ?_
      | split
    | split
    | dsimp only

theorem rebindOne_keeps {s₀ : State} (p h : Nat) (s : State) (x : JournalReq × Nat) (hk : Keeps s₀ s) : Keeps s₀ (rebindOne p h s x) := by
  unfold rebindOne
  try dsimp only
  repeat' first
    | with_reducible first
      | assumption
      | intro _
      | apply addReq_keeps
      | apply addRec_keeps
      | refine Keeps.ite ?_ ?_
      | refine Keeps.ite_snd ?_ ?_
      | apply Keeps.ite_fst
      | refine Keeps.foldl (fun _ _ _ => ?_) ?_
      | refine Keeps.foldl_snd (fun _ _ _ => ?_) ?_
    | (with_reducible first | apply Keeps.mk_rest | apply Keeps.mk_mem | apply Keeps.mk_sec | apply Keeps.mk_mem_sec) <;> first
      | with_reducible first
        | assumption
        | apply addReq_keeps
        | apply addRec_keeps
        | refine Keeps.ite ?_ ?_
        | refine Keeps.foldl (fun _ _ _ => ?_) ?_
      | split
    | split
    | dsimp only

theorem recRebindBody_keeps {s₀ : State} (sess_ p : Nat) (arg : Octets) (s : State) (hk : Keeps s₀ s) : Keeps s₀ (recRebindBody sess_ p arg s).st := by
  unfold recRebindBody
  try dsimp only
  repeat' first
    | with_reducible first
      | assumption
      | intro _
      | apply refuse_keeps
      | apply doneAt_keeps
      | apply addRec_keeps
      | apply flushChannel_keeps
      | apply rebindOne_keeps
      | refine Keeps.ite ?_ ?_
      | refine Keeps.ite_snd ?_ ?_
      | refine Keeps.ite_st ?_ ?_
      | apply Keeps.ite_fst
      | refine Keeps.foldl (fun _ _ _ => ?_) ?_
      | refine Keeps.foldl_snd (fun _ _ _ => ?_) ?_
    | (with_reducible first | apply Keeps.mk_rest | apply Keeps.mk_mem | apply Keeps.mk_sec | apply Keeps.mk_mem_sec) <;> first
      | with_reducible first
        | assumption
        | apply refuse_keeps
        | apply doneAt_keeps
        | apply addRec_keeps
        | apply flushChannel_keeps
        | apply rebindOne_keeps
        | refine Keeps.ite ?_ ?_
        | refine Keeps.foldl (fun _ _ _ => ?_) ?_
      | split
    | split
    | dsimp only

theorem recRebindWrite_keeps (s₀ : State) (sess : Nat) (arg : Octets) (s : State) (h : Keeps s₀ s) : Keeps s₀ (recRebindWrite sess arg s).2 := by
  unfold recRebindWrite
  repeat' first
    | with_reducible first
      | assumption
      | intro _
      | apply cmdWrite_keeps
      | apply recRebindBody_keeps
    | dsimp only

theorem execRecRebind_keeps {s₀ : State} (sess : Nat) (arg : Octets) (s : State) (hk : Keeps s₀ s) : KeepsO s₀ (execRecRebind sess arg s) := by
  unfold execRecRebind
  try dsimp only
  repeat' first
    | with_reducible first
      | assumption
      | intro _
      | apply cmdRow_keeps
      | apply recRebindWrite_keeps
      | refine KeepsO.next ?_
    | dsimp only

theorem execRebindTimeout_keeps {s₀ : State} (oldChip oldHandle : Nat) (s : State) (hk : Keeps s₀ s) : KeepsO s₀ (execRebindTimeout oldChip oldHandle s) := by
  unfold execRebindTimeout
  try dsimp only
  repeat' first
    | with_reducible first
      | assumption
      | intro _
      | apply State.until_keeps
      | apply journalWrite_keeps
      | refine Keeps.ite ?_ ?_
      | refine Keeps.ite_snd ?_ ?_
      | apply Keeps.ite_fst
      | refine KeepsO.ite ?_ ?_
      | refine KeepsO.next ?_
      | refine Keeps.foldl (fun _ _ _ => ?_) ?_
      | refine Keeps.foldl_snd (fun _ _ _ => ?_) ?_
    | (with_reducible first | apply Keeps.mk_rest | apply Keeps.mk_mem | apply Keeps.mk_sec | apply Keeps.mk_mem_sec) <;> first
      | with_reducible first
        | assumption
        | apply State.until_keeps
        | apply journalWrite_keeps
        | refine Keeps.ite ?_ ?_
        | refine Keeps.foldl (fun _ _ _ => ?_) ?_
      | split
    | split
    | dsimp only

end Sys2Proof.Machine
end

