-- ==== Sys2Proof/Laws/KeepsPowerOps.lean ====
section
/-! SUPPORT. Each operation of Machine/PowerOps.lean makes a change that `Keeps`. -/

namespace Sys2Proof.Machine

theorem revoke_keeps {s₀ : State} (s : State) (n : Nat) (hk : Keeps s₀ s) : Keeps s₀ (revoke s n) := by
  unfold revoke
  try dsimp only
  repeat' first
    | with_reducible first
      | assumption
      | intro _
      | apply askGrant_keeps
      | apply returnGrant_keeps
      | apply sliceEnds_keeps
      | refine Keeps.ite ?_ ?_
    | split
    | dsimp only

theorem revokeVat_keeps {s₀ : State} (s : State) (v : Nat) (hk : Keeps s₀ s) : Keeps s₀ (revokeVat s v) := by
  unfold revokeVat
  try dsimp only
  repeat' first
    | with_reducible first
      | assumption
      | intro _
      | apply revoke_keeps
      | refine Keeps.foldl (fun _ _ _ => ?_) ?_
      | refine Keeps.foldl_snd (fun _ _ _ => ?_) ?_
    | dsimp only

theorem throttle_keeps {s₀ : State} (s : State) (hk : Keeps s₀ s) : Keeps s₀ (throttle s) := by
  unfold throttle
  try dsimp only
  repeat' first
    | with_reducible first
      | assumption
      | intro _
      | apply revokeVat_keeps
      | refine Keeps.foldl (fun _ _ _ => ?_) ?_
      | refine Keeps.foldl_snd (fun _ _ _ => ?_) ?_
    | (with_reducible first | apply Keeps.mk_rest | apply Keeps.mk_mem | apply Keeps.mk_sec | apply Keeps.mk_mem_sec) <;> first
      | with_reducible first
        | assumption
        | apply revokeVat_keeps
        | refine Keeps.foldl (fun _ _ _ => ?_) ?_
    | dsimp only

theorem applyBrake_keeps {s₀ : State} (s : State) (hk : Keeps s₀ s) : Keeps s₀ (applyBrake s) := by
  unfold applyBrake
  try dsimp only
  repeat' first
    | with_reducible first
      | assumption
      | intro _
      | apply throttle_keeps
    | (with_reducible first | apply Keeps.mk_rest | apply Keeps.mk_mem | apply Keeps.mk_sec | apply Keeps.mk_mem_sec) <;> first
      | with_reducible first
        | assumption
        | apply throttle_keeps
    | dsimp only

theorem setTiers_keeps {s₀ : State} (s : State) (a b : Nat) (hk : Keeps s₀ s) : Keeps s₀ (setTiers s a b) := by
  unfold setTiers
  try dsimp only
  repeat' first
    | with_reducible first
      | assumption
      | intro _
      | apply State.setSlice_keeps
      | refine Keeps.ite ?_ ?_
      | refine Keeps.foldl (fun _ _ _ => ?_) ?_
      | refine Keeps.foldl_snd (fun _ _ _ => ?_) ?_
    | (with_reducible first | apply Keeps.mk_rest | apply Keeps.mk_mem | apply Keeps.mk_sec | apply Keeps.mk_mem_sec) <;> first
      | with_reducible first
        | assumption
        | apply State.setSlice_keeps
        | refine Keeps.ite ?_ ?_
        | refine Keeps.foldl (fun _ _ _ => ?_) ?_
      | split
    | split
    | dsimp only

theorem gateVats_keeps {s₀ : State} (s : State) (hk : Keeps s₀ s) : Keeps s₀ (gateVats s) := by
  unfold gateVats
  try dsimp only
  repeat' first
    | with_reducible first
      | assumption
      | intro _
      | apply State.modVat_keeps
      | refine Keeps.foldl (fun _ _ _ => ?_) ?_
      | refine Keeps.foldl_snd (fun _ _ _ => ?_) ?_
    | (with_reducible first | apply Keeps.mk_rest | apply Keeps.mk_mem | apply Keeps.mk_sec | apply Keeps.mk_mem_sec) <;> first
      | with_reducible first
        | assumption
        | apply State.modVat_keeps
        | refine Keeps.foldl (fun _ _ _ => ?_) ?_
    | dsimp only

theorem ungateVats_keeps {s₀ : State} (s : State) (hk : Keeps s₀ s) : Keeps s₀ (ungateVats s) := by
  unfold ungateVats
  try dsimp only
  repeat' first
    | with_reducible first
      | assumption
      | intro _
      | apply State.modVat_keeps
      | refine Keeps.ite ?_ ?_
      | refine Keeps.foldl (fun _ _ _ => ?_) ?_
      | refine Keeps.foldl_snd (fun _ _ _ => ?_) ?_
    | (with_reducible first | apply Keeps.mk_rest | apply Keeps.mk_mem | apply Keeps.mk_sec | apply Keeps.mk_mem_sec) <;> first
      | with_reducible first
        | assumption
        | apply State.modVat_keeps
        | refine Keeps.ite ?_ ?_
        | refine Keeps.foldl (fun _ _ _ => ?_) ?_
      | split
    | split
    | dsimp only

theorem stopUnits_keeps {s₀ : State} (s : State) (hk : Keeps s₀ s) : Keeps s₀ (stopUnits s) := by
  unfold stopUnits
  try dsimp only
  repeat' first
    | with_reducible first
      | assumption
      | intro _
    | (with_reducible first | apply Keeps.mk_rest | apply Keeps.mk_mem | apply Keeps.mk_sec | apply Keeps.mk_mem_sec) <;> first
      | with_reducible first
        | assumption
    | dsimp only

theorem stopServing_keeps {s₀ : State} (s : State) (hk : Keeps s₀ s) : Keeps s₀ (stopServing s) := by
  unfold stopServing
  try dsimp only
  repeat' first
    | with_reducible first
      | assumption
      | intro _
    | (with_reducible first | apply Keeps.mk_rest | apply Keeps.mk_mem | apply Keeps.mk_sec | apply Keeps.mk_mem_sec) <;> first
      | with_reducible first
        | assumption
    | dsimp only

theorem stopPorts_keeps {s₀ : State} (s : State) (hk : Keeps s₀ s) : Keeps s₀ (stopPorts s) := by
  unfold stopPorts
  try dsimp only
  repeat' first
    | with_reducible first
      | assumption
      | intro _
      | refine Keeps.ite ?_ ?_
    | (with_reducible first | apply Keeps.mk_rest | apply Keeps.mk_mem | apply Keeps.mk_sec | apply Keeps.mk_mem_sec) <;> first
      | with_reducible first
        | assumption
        | refine Keeps.ite ?_ ?_
      | split
    | split
    | dsimp only

theorem stopChannels_keeps {s₀ : State} (s : State) (hk : Keeps s₀ s) : Keeps s₀ (stopChannels s) := by
  unfold stopChannels
  try dsimp only
  repeat' first
    | with_reducible first
      | assumption
      | intro _
      | apply closeChan_keeps
      | apply answerSync_keeps
      | apply failRequest_keeps
      | refine Keeps.foldl (fun _ _ _ => ?_) ?_
      | refine Keeps.foldl_snd (fun _ _ _ => ?_) ?_
    | (with_reducible first | apply Keeps.mk_rest | apply Keeps.mk_mem | apply Keeps.mk_sec | apply Keeps.mk_mem_sec) <;> first
      | with_reducible first
        | assumption
        | apply closeChan_keeps
        | apply answerSync_keeps
        | apply failRequest_keeps
        | refine Keeps.foldl (fun _ _ _ => ?_) ?_
    | dsimp only

theorem wheelAtS3_keeps {s₀ : State} (status : Nat) (s : State) (p : Nat) (hk : Keeps s₀ s) : Keeps s₀ (wheelAtS3 status s p) := by
  unfold wheelAtS3
  try dsimp only
  repeat' first
    | with_reducible first
      | assumption
      | intro _
      | apply State.modWhl_keeps
      | apply dropPending_keeps
      | apply adoptFails_keeps
      | refine Keeps.ite ?_ ?_
      | refine Keeps.ite_st ?_ ?_
    | (with_reducible first | apply Keeps.mk_rest | apply Keeps.mk_mem | apply Keeps.mk_sec | apply Keeps.mk_mem_sec) <;> first
      | with_reducible first
        | assumption
        | apply State.modWhl_keeps
        | apply dropPending_keeps
        | apply adoptFails_keeps
        | refine Keeps.ite ?_ ?_
      | split
    | split
    | dsimp only

theorem stopCommands_keeps {s₀ : State} (s : State) (status : Nat) (hk : Keeps s₀ s) : Keeps s₀ (stopCommands s status) := by
  unfold stopCommands
  try dsimp only
  repeat' first
    | with_reducible first
      | assumption
      | intro _
      | apply cmdEnd_keeps
      | apply stepDone_keeps
      | refine Keeps.foldl (fun _ _ _ => ?_) ?_
      | refine Keeps.foldl_snd (fun _ _ _ => ?_) ?_
    | (with_reducible first | apply Keeps.mk_rest | apply Keeps.mk_mem | apply Keeps.mk_sec | apply Keeps.mk_mem_sec) <;> first
      | with_reducible first
        | assumption
        | apply cmdEnd_keeps
        | apply stepDone_keeps
        | refine Keeps.foldl (fun _ _ _ => ?_) ?_
    | dsimp only

theorem stopSlots_keeps {s₀ : State} (s : State) (hk : Keeps s₀ s) : Keeps s₀ (stopSlots s) := by
  unfold stopSlots
  try dsimp only
  repeat' first
    | with_reducible first
      | assumption
      | intro _
      | apply cmdEnd_keeps
      | refine Keeps.ite ?_ ?_
    | (with_reducible first | apply Keeps.mk_rest | apply Keeps.mk_mem | apply Keeps.mk_sec | apply Keeps.mk_mem_sec) <;> first
      | with_reducible first
        | assumption
        | apply cmdEnd_keeps
        | refine Keeps.ite ?_ ?_
      | split
    | split
    | dsimp only

theorem loseTierA_keeps {s₀ : State} (s : State) (hk : Keeps s₀ s) : Keeps s₀ (loseTierA s) := by
  unfold loseTierA
  try dsimp only
  repeat' first
    | with_reducible first
      | assumption
      | intro _
      | apply State.setSlice_keeps
      | apply zeroKeys_keeps
      | apply corrected_keeps
      | refine Keeps.ite ?_ ?_
      | refine Keeps.foldl (fun _ _ _ => ?_) ?_
      | refine Keeps.foldl_snd (fun _ _ _ => ?_) ?_
    | (with_reducible first | apply Keeps.mk_rest | apply Keeps.mk_mem | apply Keeps.mk_sec | apply Keeps.mk_mem_sec) <;> first
      | with_reducible first
        | assumption
        | apply State.setSlice_keeps
        | apply zeroKeys_keeps
        | apply corrected_keeps
        | refine Keeps.ite ?_ ?_
        | refine Keeps.foldl (fun _ _ _ => ?_) ?_
      | split
    | split
    | dsimp only

theorem loseTables_keeps {s₀ : State} (s : State) (hk : Keeps s₀ s) : Keeps s₀ (loseTables s) := by
  unfold loseTables
  try dsimp only
  repeat' first
    | with_reducible first
      | assumption
      | intro _
      | refine Keeps.ite ?_ ?_
    | (with_reducible first | apply Keeps.mk_rest | apply Keeps.mk_mem | apply Keeps.mk_sec | apply Keeps.mk_mem_sec) <;> first
      | with_reducible first
        | assumption
        | refine Keeps.ite ?_ ?_
      | split
    | split
    | dsimp only

/-- A change of the debug level keeps when the module is not scrapped, or the new level is NONE. -/
theorem setDebug_level_keeps {s₀ s : State} (level until_ : Nat) (hl : scrapBlown s = true → level = 0) (hk : Keeps s₀ s) :
    Keeps s₀ (setDebug s level until_) := by
  unfold setDebug
  refine Keeps.ite (fun _ => Keeps.mk_sec hk) (fun _ => (endAllSessions_keeps s hk).trans ?_)
  exact .of_debug rfl id rfl (fun h _ => hl h) ⟨[], rfl⟩ (Nat.le_refl _)

theorem setDebug_keeps {s₀ s : State} (until_ : Nat) (hk : Keeps s₀ s) : Keeps s₀ (setDebug s 0 until_) :=
  setDebug_level_keeps 0 until_ (fun _ => rfl) hk

theorem releaseWaiting_keeps {s₀ : State} (s : State) (hk : Keeps s₀ s) : Keeps s₀ (releaseWaiting s) := by
  unfold releaseWaiting
  try dsimp only
  repeat' first
    | with_reducible first
      | assumption
      | intro _
      | apply releaseRest_keeps
      | refine Keeps.foldl (fun _ _ _ => ?_) ?_
      | refine Keeps.foldl_snd (fun _ _ _ => ?_) ?_
    | dsimp only

theorem enterS3_keeps {s₀ : State} (status : Nat) (s : State) (hk : Keeps s₀ s) : Keeps s₀ (enterS3 status s) := by
  unfold enterS3
  try dsimp only
  repeat' first
    | with_reducible first
      | assumption
      | intro _
      | apply abandonStep_keeps
      | apply setTiers_keeps
      | apply gateVats_keeps
      | apply stopUnits_keeps
      | apply stopServing_keeps
      | apply stopPorts_keeps
      | apply stopChannels_keeps
      | apply wheelAtS3_keeps
      | apply stopCommands_keeps
      | apply stopSlots_keeps
      | apply loseTierA_keeps
      | apply loseTables_keeps
      | apply setDebug_keeps
      | apply releaseWaiting_keeps
      | refine Keeps.ite ?_ ?_
      | apply Keeps.ite_fst
      | refine Keeps.foldl (fun _ _ _ => ?_) ?_
      | refine Keeps.foldl_snd (fun _ _ _ => ?_) ?_
    | (with_reducible first | apply Keeps.mk_rest | apply Keeps.mk_mem | apply Keeps.mk_sec | apply Keeps.mk_mem_sec) <;> first
      | with_reducible first
        | assumption
        | apply abandonStep_keeps
        | apply setTiers_keeps
        | apply gateVats_keeps
        | apply stopUnits_keeps
        | apply stopServing_keeps
        | apply stopPorts_keeps
        | apply stopChannels_keeps
        | apply wheelAtS3_keeps
        | apply stopCommands_keeps
        | apply stopSlots_keeps
        | apply loseTierA_keeps
        | apply loseTables_keeps
        | apply setDebug_keeps
        | apply releaseWaiting_keeps
        | refine Keeps.ite ?_ ?_
        | refine Keeps.foldl (fun _ _ _ => ?_) ?_
      | split
    | split
    | dsimp only

theorem enterS1_keeps {s₀ : State} (s : State) (hk : Keeps s₀ s) : Keeps s₀ (enterS1 s) := by
  unfold enterS1
  try dsimp only
  repeat' first
    | with_reducible first
      | assumption
      | intro _
      | apply setTiers_keeps
      | apply gateVats_keeps
    | (with_reducible first | apply Keeps.mk_rest | apply Keeps.mk_mem | apply Keeps.mk_sec | apply Keeps.mk_mem_sec) <;> first
      | with_reducible first
        | assumption
        | apply setTiers_keeps
        | apply gateVats_keeps
    | dsimp only

theorem enterS2_keeps {s₀ : State} (s : State) (hk : Keeps s₀ s) : Keeps s₀ (enterS2 s) := by
  unfold enterS2
  try dsimp only
  repeat' first
    | with_reducible first
      | assumption
      | intro _
      | apply State.modSub_keeps
      | apply sendLink_keeps
      | apply setTiers_keeps
      | apply gateVats_keeps
      | refine Keeps.foldl (fun _ _ _ => ?_) ?_
      | refine Keeps.foldl_snd (fun _ _ _ => ?_) ?_
    | (with_reducible first | apply Keeps.mk_rest | apply Keeps.mk_mem | apply Keeps.mk_sec | apply Keeps.mk_mem_sec) <;> first
      | with_reducible first
        | assumption
        | apply State.modSub_keeps
        | apply sendLink_keeps
        | apply setTiers_keeps
        | apply gateVats_keeps
        | refine Keeps.foldl (fun _ _ _ => ?_) ?_
    | dsimp only

theorem wakePorts_keeps {s₀ : State} (s : State) (hk : Keeps s₀ s) : Keeps s₀ (wakePorts s) := by
  unfold wakePorts
  try dsimp only
  repeat' first
    | with_reducible first
      | assumption
      | intro _
      | apply State.modSub_keeps
      | apply sendLink_keeps
      | refine Keeps.ite ?_ ?_
      | refine Keeps.ite_st ?_ ?_
      | refine Keeps.foldl (fun _ _ _ => ?_) ?_
      | refine Keeps.foldl_snd (fun _ _ _ => ?_) ?_
    | (with_reducible first | apply Keeps.mk_rest | apply Keeps.mk_mem | apply Keeps.mk_sec | apply Keeps.mk_mem_sec) <;> first
      | with_reducible first
        | assumption
        | apply State.modSub_keeps
        | apply sendLink_keeps
        | refine Keeps.ite ?_ ?_
        | refine Keeps.foldl (fun _ _ _ => ?_) ?_
      | split
    | split
    | dsimp only

theorem retryRemaps_keeps {s₀ : State} (s : State) (hk : Keeps s₀ s) : Keeps s₀ (retryRemaps s) := by
  unfold retryRemaps
  try dsimp only
  repeat' first
    | with_reducible first
      | assumption
      | intro _
      | apply beginRemap_keeps
      | refine Keeps.ite ?_ ?_
      | refine Keeps.ite_snd ?_ ?_
      | apply Keeps.ite_fst
      | refine Keeps.foldl (fun _ _ _ => ?_) ?_
      | refine Keeps.foldl_snd (fun _ _ _ => ?_) ?_
    | split
    | dsimp only

theorem resumeRewrites_keeps {s₀ : State} (s : State) (hk : Keeps s₀ s) : Keeps s₀ (resumeRewrites s) := by
  unfold resumeRewrites
  try dsimp only
  repeat' first
    | with_reducible first
      | assumption
      | intro _
      | apply startRewrite_keeps
      | refine Keeps.ite ?_ ?_
      | refine Keeps.ite_snd ?_ ?_
      | refine Keeps.ite_st ?_ ?_
      | apply Keeps.ite_fst
      | refine Keeps.foldl (fun _ _ _ => ?_) ?_
      | refine Keeps.foldl_snd (fun _ _ _ => ?_) ?_
    | split
    | dsimp only

theorem trainS3_keeps {s₀ : State} (s : State) (hk : Keeps s₀ s) : Keeps s₀ (trainS3 s) := by
  unfold trainS3
  try dsimp only
  repeat' first
    | with_reducible first
      | assumption
      | intro _
      | apply State.setSlice_keeps
      | apply State.modSub_keeps
      | apply trainAll_keeps
      | refine Keeps.ite ?_ ?_
      | refine Keeps.foldl (fun _ _ _ => ?_) ?_
      | refine Keeps.foldl_snd (fun _ _ _ => ?_) ?_
    | (with_reducible first | apply Keeps.mk_rest | apply Keeps.mk_mem | apply Keeps.mk_sec | apply Keeps.mk_mem_sec) <;> first
      | with_reducible first
        | assumption
        | apply State.setSlice_keeps
        | apply State.modSub_keeps
        | apply trainAll_keeps
        | refine Keeps.ite ?_ ?_
        | refine Keeps.foldl (fun _ _ _ => ?_) ?_
      | split
    | split
    | dsimp only

theorem exitToS0_keeps {s₀ : State} (s : State) (hk : Keeps s₀ s) : Keeps s₀ (exitToS0 s) := by
  unfold exitToS0
  try dsimp only
  repeat' first
    | with_reducible first
      | assumption
      | intro _
      | apply cmdEnd_keeps
      | apply applyBrake_keeps
      | apply setTiers_keeps
      | apply ungateVats_keeps
      | apply wakePorts_keeps
      | apply retryRemaps_keeps
      | apply resumeRewrites_keeps
      | apply trainS3_keeps
      | refine Keeps.ite ?_ ?_
      | refine Keeps.ite_st ?_ ?_
    | (with_reducible first | apply Keeps.mk_rest | apply Keeps.mk_mem | apply Keeps.mk_sec | apply Keeps.mk_mem_sec) <;> first
      | with_reducible first
        | assumption
        | apply cmdEnd_keeps
        | apply applyBrake_keeps
        | apply setTiers_keeps
        | apply ungateVats_keeps
        | apply wakePorts_keeps
        | apply retryRemaps_keeps
        | apply resumeRewrites_keeps
        | apply trainS3_keeps
        | refine Keeps.ite ?_ ?_
      | split
    | split
    | dsimp only

theorem stopRequest_keeps {s₀ : State} (s : State) (hk : Keeps s₀ s) : Keeps s₀ (stopRequest s) := by
  unfold stopRequest
  try dsimp only
  repeat' first
    | with_reducible first
      | assumption
      | intro _
      | apply cmdEnd_keeps
    | (with_reducible first | apply Keeps.mk_rest | apply Keeps.mk_mem | apply Keeps.mk_sec | apply Keeps.mk_mem_sec) <;> first
      | with_reducible first
        | assumption
        | apply cmdEnd_keeps
    | dsimp only

theorem holdOn_keeps {s₀ : State} (s : State) (hk : Keeps s₀ s) : Keeps s₀ (holdOn s) := by
  unfold holdOn
  try dsimp only
  repeat' first
    | with_reducible first
      | assumption
      | intro _
      | refine Keeps.ite ?_ ?_
      | refine Keeps.ite_st ?_ ?_
    | (with_reducible first | apply Keeps.mk_rest | apply Keeps.mk_mem | apply Keeps.mk_sec | apply Keeps.mk_mem_sec) <;> first
      | with_reducible first
        | assumption
        | refine Keeps.ite ?_ ?_
      | split
    | split
    | dsimp only

theorem fastStop_keeps {s₀ : State} (s : State) (hk : Keeps s₀ s) : Keeps s₀ (fastStop s) := by
  unfold fastStop
  try dsimp only
  repeat' first
    | with_reducible first
      | assumption
      | intro _
      | apply enterS3_keeps
      | apply stopRequest_keeps
      | apply holdOn_keeps
    | (with_reducible first | apply Keeps.mk_rest | apply Keeps.mk_mem | apply Keeps.mk_sec | apply Keeps.mk_mem_sec) <;> first
      | with_reducible first
        | assumption
        | apply enterS3_keeps
        | apply stopRequest_keeps
        | apply holdOn_keeps
    | dsimp only

theorem orderedStop_keeps {s₀ : State} (s : State) (hk : Keeps s₀ s) : Keeps s₀ (orderedStop s) := by
  unfold orderedStop
  try dsimp only
  repeat' first
    | with_reducible first
      | assumption
      | intro _
      | apply abandonStep_keeps
      | apply endNow_keeps
      | apply flushChannel_keeps
      | apply stopRequest_keeps
      | refine Keeps.ite ?_ ?_
      | apply Keeps.ite_fst
      | refine Keeps.foldl (fun _ _ _ => ?_) ?_
      | refine Keeps.foldl_snd (fun _ _ _ => ?_) ?_
    | (with_reducible first | apply Keeps.mk_rest | apply Keeps.mk_mem | apply Keeps.mk_sec | apply Keeps.mk_mem_sec) <;> first
      | with_reducible first
        | assumption
        | apply abandonStep_keeps
        | apply endNow_keeps
        | apply flushChannel_keeps
        | apply stopRequest_keeps
        | refine Keeps.ite ?_ ?_
        | refine Keeps.foldl (fun _ _ _ => ?_) ?_
      | split
    | split
    | dsimp only

theorem orderedEnd_keeps {s₀ : State} (s : State) (hk : Keeps s₀ s) : Keeps s₀ (orderedEnd s) := by
  unfold orderedEnd
  try dsimp only
  repeat' first
    | with_reducible first
      | assumption
      | intro _
      | apply State.writeErr_keeps
      | apply enterS3_keeps
      | apply holdOn_keeps
    | (with_reducible first | apply Keeps.mk_rest | apply Keeps.mk_mem | apply Keeps.mk_sec | apply Keeps.mk_mem_sec) <;> first
      | with_reducible first
        | assumption
        | apply State.writeErr_keeps
        | apply enterS3_keeps
        | apply holdOn_keeps
    | dsimp only

theorem thermalStop_keeps {s₀ : State} (s : State) (t r : Int) (hk : Keeps s₀ s) : Keeps s₀ (thermalStop s t r) := by
  unfold thermalStop
  try dsimp only
  repeat' first
    | with_reducible first
      | assumption
      | intro _
      | apply fastStop_keeps
      | apply orderedStop_keeps
      | refine Keeps.ite ?_ ?_
      | refine Keeps.ite_st ?_ ?_
    | split
    | dsimp only

theorem holdOff_keeps {s₀ : State} (s : State) (hk : Keeps s₀ s) : Keeps s₀ (holdOff s) := by
  unfold holdOff
  try dsimp only
  repeat' first
    | with_reducible first
      | assumption
      | intro _
      | refine Keeps.ite ?_ ?_
      | refine Keeps.ite_snd ?_ ?_
    | (with_reducible first | apply Keeps.mk_rest | apply Keeps.mk_mem | apply Keeps.mk_sec | apply Keeps.mk_mem_sec) <;> first
      | with_reducible first
        | assumption
        | refine Keeps.ite ?_ ?_
      | split
    | split
    | dsimp only

end Sys2Proof.Machine
end

