-- ==== Sys2Proof/Laws/KeepsSecOps.lean ====
section
/-! SUPPORT. Each operation of Machine/SecOps.lean makes a change that `Keeps`. -/

namespace Sys2Proof.Machine

theorem dropRetained_keeps {s₀ : State} (s : State) (hk : Keeps s₀ s) : Keeps s₀ (dropRetained s) := by
  unfold dropRetained
  try dsimp only
  repeat' first
    | with_reducible first
      | assumption
      | intro _
      | refine Keeps.ite ?_ ?_
      | refine Keeps.ite_snd ?_ ?_
    | (with_reducible first | apply Keeps.mk_rest | apply Keeps.mk_mem | apply Keeps.mk_sec | apply Keeps.mk_mem_sec) <;> first
      | with_reducible first
        | assumption
        | refine Keeps.ite ?_ ?_
      | split
    | split
    | dsimp only

theorem enrollApply_keeps {s₀ : State} (s : State) (row : Nat) (rows : List Octets) (hk : Keeps s₀ s) : Keeps s₀ (enrollApply s row rows) := by
  unfold enrollApply
  try dsimp only
  repeat' first
    | with_reducible first
      | assumption
      | intro _
      | apply endSessionsWhere_keeps
      | apply dropRetained_keeps
    | (with_reducible first | apply Keeps.mk_rest | apply Keeps.mk_mem | apply Keeps.mk_sec | apply Keeps.mk_mem_sec) <;> first
      | with_reducible first
        | assumption
        | apply endSessionsWhere_keeps
        | apply dropRetained_keeps
    | dsimp only

theorem eraseRetained_keeps {s₀ : State} (s : State) (hk : Keeps s₀ s) : Keeps s₀ (eraseRetained s) := by
  unfold eraseRetained
  try dsimp only
  repeat' first
    | with_reducible first
      | assumption
      | intro _
      | refine Keeps.ite ?_ ?_
    | (with_reducible first | apply Keeps.mk_rest | apply Keeps.mk_mem | apply Keeps.mk_sec | apply Keeps.mk_mem_sec) <;> first
      | with_reducible first
        | assumption
        | refine Keeps.ite ?_ ?_
      | split
    | split
    | dsimp only

theorem assignSet_keeps {s₀ : State} (s : State) (a : AssignArg) (hk : Keeps s₀ s) : Keeps s₀ (assignSet s a) := by
  unfold assignSet
  try dsimp only
  repeat' first
    | with_reducible first
      | assumption
      | intro _
      | apply State.setPart_keeps
      | refine Keeps.ite ?_ ?_
    | (with_reducible first | apply Keeps.mk_rest | apply Keeps.mk_mem | apply Keeps.mk_sec | apply Keeps.mk_mem_sec) <;> first
      | with_reducible first
        | assumption
        | apply State.setPart_keeps
        | refine Keeps.ite ?_ ?_
      | split
    | split
    | dsimp only

theorem plannedAssigns_keeps {s₀ : State} (s : State) (hk : Keeps s₀ s) : Keeps s₀ (plannedAssigns s) := by
  unfold plannedAssigns
  try dsimp only
  repeat' first
    | with_reducible first
      | assumption
      | intro _
      | apply assignSet_keeps
      | refine Keeps.foldl (fun _ _ _ => ?_) ?_
      | refine Keeps.foldl_snd (fun _ _ _ => ?_) ?_
    | dsimp only

theorem joinArray_keeps {s₀ : State} (p : Nat) (s : State) (n : Nat) (hk : Keeps s₀ s) : Keeps s₀ (joinArray p s n) := by
  unfold joinArray
  try dsimp only
  repeat' first
    | with_reducible first
      | assumption
      | intro _
      | apply State.modArr_keeps
      | refine Keeps.ite ?_ ?_
      | refine Keeps.ite_snd ?_ ?_
    | split
    | dsimp only

theorem moveTask_keeps {s₀ : State} (p v : Nat) (s : State) (t : Task) (hk : Keeps s₀ s) : Keeps s₀ (moveTask p v s t) := by
  unfold moveTask
  try dsimp only
  repeat' first
    | with_reducible first
      | assumption
      | intro _
      | apply State.modEng_keeps
      | refine Keeps.ite ?_ ?_
    | (with_reducible first | apply Keeps.mk_rest | apply Keeps.mk_mem | apply Keeps.mk_sec | apply Keeps.mk_mem_sec) <;> first
      | with_reducible first
        | assumption
        | apply State.modEng_keeps
        | refine Keeps.ite ?_ ?_
      | split
    | split
    | dsimp only

theorem leaveEngine_keeps {s₀ : State} (p : Nat) (s : State) (n : Nat) (hk : Keeps s₀ s) : Keeps s₀ (leaveEngine p s n) := by
  unfold leaveEngine
  try dsimp only
  repeat' first
    | with_reducible first
      | assumption
      | intro _
      | apply State.modVat_keeps
      | apply State.modEng_keeps
      | apply placeSecondary_keeps
      | apply placeThird_keeps
      | apply requeueRunning_keeps
      | apply moveTask_keeps
      | refine Keeps.ite ?_ ?_
      | refine Keeps.ite_snd ?_ ?_
      | apply Keeps.ite_fst
      | refine Keeps.foldl (fun _ _ _ => ?_) ?_
      | refine Keeps.foldl_snd (fun _ _ _ => ?_) ?_
    | (with_reducible first | apply Keeps.mk_rest | apply Keeps.mk_mem | apply Keeps.mk_sec | apply Keeps.mk_mem_sec) <;> first
      | with_reducible first
        | assumption
        | apply State.modVat_keeps
        | apply State.modEng_keeps
        | apply placeSecondary_keeps
        | apply placeThird_keeps
        | apply requeueRunning_keeps
        | apply moveTask_keeps
        | refine Keeps.ite ?_ ?_
        | refine Keeps.foldl (fun _ _ _ => ?_) ?_
      | split
    | split
    | dsimp only

theorem joinEngine_keeps {s₀ : State} (p : Nat) (s : State) (n : Nat) (hk : Keeps s₀ s) : Keeps s₀ (joinEngine p s n) := by
  unfold joinEngine
  try dsimp only
  repeat' first
    | with_reducible first
      | assumption
      | intro _
      | apply State.modEng_keeps
    | (with_reducible first | apply Keeps.mk_rest | apply Keeps.mk_mem | apply Keeps.mk_sec | apply Keeps.mk_mem_sec) <;> first
      | with_reducible first
        | assumption
        | apply State.modEng_keeps
    | dsimp only

theorem partAssignApply_keeps {s₀ : State} (b : Octets) (s : State) (hk : Keeps s₀ s) : Keeps s₀ (partAssignApply b s).2 := by
  unfold partAssignApply
  try dsimp only
  repeat' first
    | with_reducible first
      | assumption
      | intro _
      | apply State.modVat_keeps
      | apply State.modEng_keeps
      | apply assignSet_keeps
      | apply joinArray_keeps
      | apply leaveEngine_keeps
      | apply joinEngine_keeps
      | refine Keeps.ite ?_ ?_
      | refine Keeps.ite_snd ?_ ?_
      | apply Keeps.ite_fst
      | refine Keeps.foldl (fun _ _ _ => ?_) ?_
      | refine Keeps.foldl_snd (fun _ _ _ => ?_) ?_
    | (with_reducible first | apply Keeps.mk_rest | apply Keeps.mk_mem | apply Keeps.mk_sec | apply Keeps.mk_mem_sec) <;> first
      | with_reducible first
        | assumption
        | apply State.modVat_keeps
        | apply State.modEng_keeps
        | apply assignSet_keeps
        | apply joinArray_keeps
        | apply leaveEngine_keeps
        | apply joinEngine_keeps
        | refine Keeps.ite ?_ ?_
        | refine Keeps.foldl (fun _ _ _ => ?_) ?_
      | split
    | split
    | dsimp only

theorem beginRelease_keeps {s₀ : State} (s : State) (p : Nat) (hk : Keeps s₀ s) : Keeps s₀ (beginRelease s p) := by
  unfold beginRelease
  try dsimp only
  repeat' first
    | with_reducible first
      | assumption
      | intro _
      | apply State.setPart_keeps
      | apply endSessionsWhere_keeps
      | apply releaseRest_keeps
      | refine Keeps.ite ?_ ?_
      | refine Keeps.ite_snd ?_ ?_
      | apply Keeps.ite_fst
    | (with_reducible first | apply Keeps.mk_rest | apply Keeps.mk_mem | apply Keeps.mk_sec | apply Keeps.mk_mem_sec) <;> first
      | with_reducible first
        | assumption
        | apply State.setPart_keeps
        | apply endSessionsWhere_keeps
        | apply releaseRest_keeps
        | refine Keeps.ite ?_ ?_
      | split
    | split
    | dsimp only

theorem and_or_self (a b : BitVec 5) : a &&& (a ||| b) = a := by
  ext i hi
  simp only [BitVec.getElem_and, BitVec.getElem_or]
  cases a[i] <;> simp

/-- Only the transition to SCRAPPED blows its fuse. -/
theorem scrap_bit (n : Nat) (h : (BitVec.ofNat 5 (2 ^ (n - 1))).getLsbD 4 = true) : n = Lc.scrapped := by
  rw [BitVec.getLsbD_ofNat] at h
  simp only [Nat.testBit_two_pow, Bool.and_eq_true, decide_eq_true_eq] at h
  show n = 5
  omega

theorem lcBlow_keeps {s₀ s : State} (n : Nat) (hk : Keeps s₀ s) : Keeps s₀ (lcBlow s n) := by
  refine (endAllSessions_keeps s hk).trans ?_
  refine ⟨rfl, id, ⟨and_or_self _ _, Nat.le_refl _⟩, fun _ => ⟨rfl, rfl, rfl, rfl, rfl, rfl, rfl, rfl, rfl, rfl⟩, fun h hb => ?_,
    ⟨[], rfl⟩, Nat.le_refl _⟩
  show (if n = Lc.scrapped then 0 else (endAllSessions s).sec.debug) = 0
  split
  · rfl
  · refine h ?_
    have hb : ((endAllSessions s).fuse.lifecycleBits ||| BitVec.ofNat 5 (2 ^ (n - 1))).getLsbD 4 = true := hb
    rw [BitVec.getLsbD_or, Bool.or_eq_true] at hb
    rcases hb with hb | hb
    · exact hb
    · exact absurd (scrap_bit n hb) ‹_›

theorem lcErase_keeps {s₀ : State} (s : State) (hk : Keeps s₀ s) : Keeps s₀ (lcErase s) :=
  hk.trans (.of_eq rfl (fun _ => rfl) rfl rfl ⟨[], rfl⟩ (Nat.le_refl _))

theorem readChallenge_keeps {s₀ : State} (s : State) (nonce : Octets) (hk : Keeps s₀ s) : Keeps s₀ (readChallenge s nonce).2 := by
  unfold readChallenge
  try dsimp only
  repeat' first
    | with_reducible first
      | assumption
      | intro _
    | (with_reducible first | apply Keeps.mk_rest | apply Keeps.mk_mem | apply Keeps.mk_sec | apply Keeps.mk_mem_sec) <;> first
      | with_reducible first
        | assumption
    | dsimp only

theorem pkgLoadApply_keeps {s₀ : State} (p : Nat) (b : Octets) (s : State) (hk : Keeps s₀ s) : Keeps s₀ (pkgLoadApply p b s).2 := by
  unfold pkgLoadApply
  try dsimp only
  repeat' first
    | with_reducible first
      | assumption
      | intro _
      | refine Keeps.ite ?_ ?_
      | refine Keeps.ite_snd ?_ ?_
      | refine Keeps.ite_st ?_ ?_
    | (with_reducible first | apply Keeps.mk_rest | apply Keeps.mk_mem | apply Keeps.mk_sec | apply Keeps.mk_mem_sec) <;> first
      | with_reducible first
        | assumption
        | refine Keeps.ite ?_ ?_
      | split
    | split
    | dsimp only

theorem garble_keeps {s₀ : State} (s : State) (slot : Nat) (hk : Keeps s₀ s) : Keeps s₀ (garble s slot) := by
  unfold garble
  try dsimp only
  repeat' first
    | with_reducible first
      | assumption
      | intro _
      | apply State.modWhl_keeps
      | apply State.fresh_keeps
      | refine Keeps.ite ?_ ?_
      | refine Keeps.ite_snd ?_ ?_
    | (with_reducible first | apply Keeps.mk_rest | apply Keeps.mk_mem | apply Keeps.mk_sec | apply Keeps.mk_mem_sec) <;> first
      | with_reducible first
        | assumption
        | apply State.modWhl_keeps
        | apply State.fresh_keeps
        | refine Keeps.ite ?_ ?_
      | split
    | split
    | dsimp only

theorem loadKey_keeps {s₀ : State} (s : State) (slot : Nat) (hk : Keeps s₀ s) : Keeps s₀ (loadKey s slot) := by
  unfold loadKey
  try dsimp only
  repeat' first
    | with_reducible first
      | assumption
      | intro _
      | apply garble_keeps
    | (with_reducible first | apply Keeps.mk_rest | apply Keeps.mk_mem | apply Keeps.mk_sec | apply Keeps.mk_mem_sec) <;> first
      | with_reducible first
        | assumption
        | apply garble_keeps
    | dsimp only

theorem clearKey_keeps {s₀ : State} (s : State) (slot : Nat) (hk : Keeps s₀ s) : Keeps s₀ (clearKey s slot) := by
  unfold clearKey
  try dsimp only
  repeat' first
    | with_reducible first
      | assumption
      | intro _
      | apply garble_keeps
    | (with_reducible first | apply Keeps.mk_rest | apply Keeps.mk_mem | apply Keeps.mk_sec | apply Keeps.mk_mem_sec) <;> first
      | with_reducible first
        | assumption
        | apply garble_keeps
    | dsimp only

theorem keyRegWrite_keeps {s₀ : State} (s : State) (w : Nat) (hk : Keeps s₀ s) : Keeps s₀ (keyRegWrite s w) := by
  unfold keyRegWrite
  try dsimp only
  repeat' first
    | with_reducible first
      | assumption
      | intro _
      | apply loadKey_keeps
      | apply clearKey_keeps
      | refine Keeps.ite ?_ ?_
    | (with_reducible first | apply Keeps.mk_rest | apply Keeps.mk_mem | apply Keeps.mk_sec | apply Keeps.mk_mem_sec) <;> first
      | with_reducible first
        | assumption
        | apply loadKey_keeps
        | apply clearKey_keeps
        | refine Keeps.ite ?_ ?_
      | split
    | split
    | dsimp only

end Sys2Proof.Machine
end

