-- ==== Sys2Proof/Laws/KeepsBootOps.lean ====
section
/-! SUPPORT. Each operation of Machine/BootOps.lean makes a change that `Keeps`. -/

namespace Sys2Proof.Machine

theorem copyRecords_keeps {s₀ : State} (s : State) (hk : Keeps s₀ s) : Keeps s₀ (copyRecords s) := by
  unfold copyRecords
  try dsimp only
  repeat' first
    | with_reducible first
      | assumption
      | intro _
    | (with_reducible first | apply Keeps.mk_rest | apply Keeps.mk_mem | apply Keeps.mk_sec | apply Keeps.mk_mem_sec) <;> first
      | with_reducible first
        | assumption
    | dsimp only

theorem powerOff_keeps {s₀ : State} (s : State) (hk : Keeps s₀ s) : Keeps s₀ (powerOff s) :=
  hk.trans (.of_debug rfl (fun _ => rfl) rfl (fun _ _ => rfl) ⟨[], rfl⟩ (Nat.le_refl _))

theorem toDefaults_keeps {s₀ : State} (s : State) (hk : Keeps s₀ s) : Keeps s₀ (toDefaults s) := by
  unfold toDefaults
  try dsimp only
  repeat' first
    | with_reducible first
      | assumption
      | intro _
      | refine Keeps.ite ?_ ?_
      | apply Keeps.ite_fst
    | (with_reducible first | apply Keeps.mk_rest | apply Keeps.mk_mem | apply Keeps.mk_sec | apply Keeps.mk_mem_sec) <;> first
      | with_reducible first
        | assumption
        | refine Keeps.ite ?_ ?_
      | split
    | split
    | dsimp only

theorem bootValue_keeps {s₀ : State} (s : State) (p : PendVal) (hk : Keeps s₀ s) : Keeps s₀ (bootValue s p) := by
  unfold bootValue
  try dsimp only
  repeat' first
    | with_reducible first
      | assumption
      | intro _
      | apply State.writeErr_keeps
      | apply cfgPut_keeps
      | refine Keeps.ite ?_ ?_
    | split
    | dsimp only

theorem bootValues_keeps {s₀ : State} (s : State) (hk : Keeps s₀ s) : Keeps s₀ (bootValues s) := by
  unfold bootValues
  try dsimp only
  repeat' first
    | with_reducible first
      | assumption
      | intro _
      | apply bootValue_keeps
      | refine Keeps.foldl (fun _ _ _ => ?_) ?_
      | refine Keeps.foldl_snd (fun _ _ _ => ?_) ?_
    | (with_reducible first | apply Keeps.mk_rest | apply Keeps.mk_mem | apply Keeps.mk_sec | apply Keeps.mk_mem_sec) <;> first
      | with_reducible first
        | assumption
        | apply bootValue_keeps
        | refine Keeps.foldl (fun _ _ _ => ?_) ?_
    | dsimp only

theorem bootRecords_keeps {s₀ : State} (s : State) (hk : Keeps s₀ s) : Keeps s₀ (bootRecords s) := by
  unfold bootRecords
  try dsimp only
  repeat' first
    | with_reducible first
      | assumption
      | intro _
      | refine Keeps.ite ?_ ?_
      | refine Keeps.ite_st ?_ ?_
    | (with_reducible first | apply Keeps.mk_rest | apply Keeps.mk_mem | apply Keeps.mk_sec | apply Keeps.mk_mem_sec) <;> first
      | with_reducible first
        | assumption
        | refine Keeps.ite ?_ ?_
      | split
    | split
    | dsimp only

theorem bootKeys_keeps {s₀ : State} (s : State) (hk : Keeps s₀ s) : Keeps s₀ (bootKeys s) := by
  unfold bootKeys
  try dsimp only
  repeat' first
    | with_reducible first
      | assumption
      | intro _
    | (with_reducible first | apply Keeps.mk_rest | apply Keeps.mk_mem | apply Keeps.mk_sec | apply Keeps.mk_mem_sec) <;> first
      | with_reducible first
        | assumption
    | dsimp only

theorem bootReleases_keeps {s₀ : State} (s : State) (hk : Keeps s₀ s) : Keeps s₀ (bootReleases s) := by
  unfold bootReleases
  try dsimp only
  repeat' first
    | with_reducible first
      | assumption
      | intro _
      | apply partGone_keeps
      | apply releaseRest_keeps
      | refine Keeps.ite ?_ ?_
      | refine Keeps.ite_snd ?_ ?_
      | refine Keeps.ite_st ?_ ?_
      | apply Keeps.ite_fst
      | refine Keeps.foldl (fun _ _ _ => ?_) ?_
      | refine Keeps.foldl_snd (fun _ _ _ => ?_) ?_
    | (with_reducible first | apply Keeps.mk_rest | apply Keeps.mk_mem | apply Keeps.mk_sec | apply Keeps.mk_mem_sec) <;> first
      | with_reducible first
        | assumption
        | apply partGone_keeps
        | apply releaseRest_keeps
        | refine Keeps.ite ?_ ?_
        | refine Keeps.foldl (fun _ _ _ => ?_) ?_
      | split
    | split
    | dsimp only

theorem bootTrain_keeps {s₀ : State} (s : State) (slices ports : Nat) (hk : Keeps s₀ s) : Keeps s₀ (bootTrain s slices ports) := by
  unfold bootTrain
  try dsimp only
  repeat' first
    | with_reducible first
      | assumption
      | intro _
      | apply State.setSlice_keeps
      | apply State.setSub_keeps
      | refine Keeps.ite ?_ ?_
      | refine Keeps.foldl (fun _ _ _ => ?_) ?_
      | refine Keeps.foldl_snd (fun _ _ _ => ?_) ?_
    | (with_reducible first | apply Keeps.mk_rest | apply Keeps.mk_mem | apply Keeps.mk_sec | apply Keeps.mk_mem_sec) <;> first
      | with_reducible first
        | assumption
        | apply State.setSlice_keeps
        | apply State.setSub_keeps
        | refine Keeps.ite ?_ ?_
        | refine Keeps.foldl (fun _ _ _ => ?_) ?_
      | split
    | split
    | dsimp only

theorem bootBrake_keeps {s₀ : State} (s : State) (hk : Keeps s₀ s) : Keeps s₀ (bootBrake s) := by
  unfold bootBrake
  try dsimp only
  repeat' first
    | with_reducible first
      | assumption
      | intro _
      | apply State.writeErr_keeps
      | apply applyBrake_keeps
      | refine Keeps.ite ?_ ?_
    | (with_reducible first | apply Keeps.mk_rest | apply Keeps.mk_mem | apply Keeps.mk_sec | apply Keeps.mk_mem_sec) <;> first
      | with_reducible first
        | assumption
        | apply State.writeErr_keeps
        | apply applyBrake_keeps
        | refine Keeps.ite ?_ ?_
      | split
    | split
    | dsimp only

theorem bootReplicas_keeps {s₀ : State} (s : State) (hk : Keeps s₀ s) : Keeps s₀ (bootReplicas s) := by
  unfold bootReplicas
  try dsimp only
  repeat' first
    | with_reducible first
      | assumption
      | intro _
      | apply State.emit_keeps
      | refine Keeps.foldl (fun _ _ _ => ?_) ?_
      | refine Keeps.foldl_snd (fun _ _ _ => ?_) ?_
    | (with_reducible first | apply Keeps.mk_rest | apply Keeps.mk_mem | apply Keeps.mk_sec | apply Keeps.mk_mem_sec) <;> first
      | with_reducible first
        | assumption
        | apply State.emit_keeps
        | refine Keeps.foldl (fun _ _ _ => ?_) ?_
    | dsimp only

theorem bootCompute_keeps {s₀ : State} (s : State) (slices ports : Nat) (hk : Keeps s₀ s) : Keeps s₀ (bootCompute s slices ports) := by
  unfold bootCompute
  try dsimp only
  repeat' first
    | with_reducible first
      | assumption
      | intro _
      | apply startCal_keeps
      | apply trainAll_keeps
      | apply throttle_keeps
      | apply ungateVats_keeps
      | apply retryRemaps_keeps
      | apply bootTrain_keeps
      | apply bootBrake_keeps
      | apply bootReplicas_keeps
      | refine Keeps.foldl (fun _ _ _ => ?_) ?_
      | refine Keeps.foldl_snd (fun _ _ _ => ?_) ?_
    | (with_reducible first | apply Keeps.mk_rest | apply Keeps.mk_mem | apply Keeps.mk_sec | apply Keeps.mk_mem_sec) <;> first
      | with_reducible first
        | assumption
        | apply startCal_keeps
        | apply trainAll_keeps
        | apply throttle_keeps
        | apply ungateVats_keeps
        | apply retryRemaps_keeps
        | apply bootTrain_keeps
        | apply bootBrake_keeps
        | apply bootReplicas_keeps
        | refine Keeps.foldl (fun _ _ _ => ?_) ?_
    | dsimp only

theorem bootInvalid_keeps {s₀ : State} (s : State) (hk : Keeps s₀ s) : Keeps s₀ (bootInvalid s) := by
  unfold bootInvalid
  try dsimp only
  repeat' first
    | with_reducible first
      | assumption
      | intro _
      | apply State.fresh_keeps
      | apply State.writeErr_keeps
    | (with_reducible first | apply Keeps.mk_rest | apply Keeps.mk_mem | apply Keeps.mk_sec | apply Keeps.mk_mem_sec) <;> first
      | with_reducible first
        | assumption
        | apply State.fresh_keeps
        | apply State.writeErr_keeps
    | dsimp only

theorem bootUart_keeps {s₀ : State} (s : State) (hk : Keeps s₀ s) : Keeps s₀ (bootUart s) := by
  unfold bootUart
  try dsimp only
  repeat' first
    | with_reducible first
      | assumption
      | intro _
      | apply State.emit_keeps
    | dsimp only

theorem bootBank_keeps {s₀ : State} (s : State) (bank : Nat) (fallback : Bool) (failed slices ports : Nat) (distance : List Nat) (hk : Keeps s₀ s) : Keeps s₀ (bootBank s bank fallback failed slices ports distance) := by
  unfold bootBank
  try dsimp only
  repeat' first
    | with_reducible first
      | assumption
      | intro _
      | apply State.writeErr_keeps
      | apply startMonCal_keeps
      | apply toDefaults_keeps
      | apply bootValues_keeps
      | apply bootRecords_keeps
      | apply bootKeys_keeps
      | apply bootReleases_keeps
      | apply bootCompute_keeps
      | apply bootInvalid_keeps
      | apply bootUart_keeps
      | refine Keeps.ite ?_ ?_
      | refine Keeps.ite_st ?_ ?_
    | (with_reducible first | apply Keeps.mk_rest | apply Keeps.mk_mem | apply Keeps.mk_sec | apply Keeps.mk_mem_sec) <;> first
      | with_reducible first
        | assumption
        | apply State.writeErr_keeps
        | apply startMonCal_keeps
        | apply toDefaults_keeps
        | apply bootValues_keeps
        | apply bootRecords_keeps
        | apply bootKeys_keeps
        | apply bootReleases_keeps
        | apply bootCompute_keeps
        | apply bootInvalid_keeps
        | apply bootUart_keeps
        | refine Keeps.ite ?_ ?_
      | split
    | split
    | dsimp only

theorem boot_keeps {s₀ : State} (s : State) (c : BootCheck) (hk : Keeps s₀ s) : Keeps s₀ (boot s c) := by
  unfold boot
  try dsimp only
  repeat' first
    | with_reducible first
      | assumption
      | intro _
      | apply bootBank_keeps
      | refine Keeps.ite ?_ ?_
    | split
    | dsimp only

theorem bootIfFree_keeps {s₀ : State} (s : State) (straps : Nat) (c : BootCheck) (hk : Keeps s₀ s) : Keeps s₀ (bootIfFree s straps c) := by
  unfold bootIfFree
  try dsimp only
  repeat' first
    | with_reducible first
      | assumption
      | intro _
      | apply boot_keeps
      | refine Keeps.ite ?_ ?_
      | refine Keeps.ite_st ?_ ?_
    | (with_reducible first | apply Keeps.mk_rest | apply Keeps.mk_mem | apply Keeps.mk_sec | apply Keeps.mk_mem_sec) <;> first
      | with_reducible first
        | assumption
        | apply boot_keeps
        | refine Keeps.ite ?_ ?_
      | split
    | split
    | dsimp only

end Sys2Proof.Machine
end

