-- ==== Sys2Proof/Laws/KeepsBoot.lean ====
section
/-! SUPPORT. Each operation of Machine/Boot.lean makes a change that `Keeps`. -/

namespace Sys2Proof.Machine

theorem execPowerUp_keeps {s₀ : State} (straps : Nat) (check : BootCheck) (s : State) (hk : Keeps s₀ s) : KeepsO s₀ (execPowerUp straps check s) := by
  unfold execPowerUp
  try dsimp only
  repeat' first
    | with_reducible first
      | assumption
      | intro _
      | apply bootIfFree_keeps
      | refine Keeps.ite ?_ ?_
      | refine KeepsO.ite ?_ ?_
      | refine KeepsO.next ?_
    | (with_reducible first | apply Keeps.mk_rest | apply Keeps.mk_mem | apply Keeps.mk_sec | apply Keeps.mk_mem_sec) <;> first
      | with_reducible first
        | assumption
        | apply bootIfFree_keeps
        | refine Keeps.ite ?_ ?_
      | split
    | split
    | dsimp only

theorem execSupplyLoss_keeps {s₀ : State} (overvoltage : Bool) (s : State) (hk : Keeps s₀ s) : KeepsO s₀ (execSupplyLoss overvoltage s) := by
  unfold execSupplyLoss
  try dsimp only
  repeat' first
    | with_reducible first
      | assumption
      | intro _
      | apply copyRecords_keeps
      | apply powerOff_keeps
      | refine Keeps.ite ?_ ?_
      | refine Keeps.ite_st ?_ ?_
      | refine KeepsO.ite ?_ ?_
      | refine KeepsO.next ?_
    | (with_reducible first | apply Keeps.mk_rest | apply Keeps.mk_mem | apply Keeps.mk_sec | apply Keeps.mk_mem_sec) <;> first
      | with_reducible first
        | assumption
        | apply copyRecords_keeps
        | apply powerOff_keeps
        | refine Keeps.ite ?_ ?_
      | split
    | split
    | dsimp only

theorem execOvervoltageLockoutRelease_keeps {s₀ : State} (straps : Nat) (check : BootCheck) (s : State) (hk : Keeps s₀ s) : KeepsO s₀ (execOvervoltageLockoutRelease straps check s) := by
  unfold execOvervoltageLockoutRelease
  try dsimp only
  repeat' first
    | with_reducible first
      | assumption
      | intro _
      | apply bootIfFree_keeps
      | refine Keeps.ite ?_ ?_
      | refine KeepsO.ite ?_ ?_
      | refine KeepsO.next ?_
    | (with_reducible first | apply Keeps.mk_rest | apply Keeps.mk_mem | apply Keeps.mk_sec | apply Keeps.mk_mem_sec) <;> first
      | with_reducible first
        | assumption
        | apply bootIfFree_keeps
        | refine Keeps.ite ?_ ?_
      | split
    | split
    | dsimp only

theorem execResetAssert_keeps {s₀ : State} (s : State) (hk : Keeps s₀ s) : KeepsO s₀ (execResetAssert s) := by
  unfold execResetAssert
  try dsimp only
  repeat' first
    | with_reducible first
      | assumption
      | intro _
      | apply copyRecords_keeps
      | apply powerOff_keeps
      | refine Keeps.ite ?_ ?_
      | refine Keeps.ite_st ?_ ?_
      | refine KeepsO.ite ?_ ?_
      | refine KeepsO.next ?_
    | (with_reducible first | apply Keeps.mk_rest | apply Keeps.mk_mem | apply Keeps.mk_sec | apply Keeps.mk_mem_sec) <;> first
      | with_reducible first
        | assumption
        | apply copyRecords_keeps
        | apply powerOff_keeps
        | refine Keeps.ite ?_ ?_
      | split
    | split
    | dsimp only

theorem execResetRelease_keeps {s₀ : State} (straps : Nat) (check : BootCheck) (s : State) (hk : Keeps s₀ s) : KeepsO s₀ (execResetRelease straps check s) := by
  unfold execResetRelease
  try dsimp only
  repeat' first
    | with_reducible first
      | assumption
      | intro _
      | apply bootIfFree_keeps
      | refine Keeps.ite ?_ ?_
      | refine KeepsO.ite ?_ ?_
      | refine KeepsO.next ?_
    | (with_reducible first | apply Keeps.mk_rest | apply Keeps.mk_mem | apply Keeps.mk_sec | apply Keeps.mk_mem_sec) <;> first
      | with_reducible first
        | assumption
        | apply bootIfFree_keeps
        | refine Keeps.ite ?_ ?_
      | split
    | split
    | dsimp only

theorem execThermalTrip_keeps {s₀ : State} (sensor : Option Nat) (s : State) (hk : Keeps s₀ s) : KeepsO s₀ (execThermalTrip sensor s) := by
  unfold execThermalTrip
  try dsimp only
  repeat' first
    | with_reducible first
      | assumption
      | intro _
      | apply powerOff_keeps
      | refine Keeps.ite ?_ ?_
      | refine Keeps.ite_st ?_ ?_
      | refine KeepsO.ite ?_ ?_
      | refine KeepsO.next ?_
    | (with_reducible first | apply Keeps.mk_rest | apply Keeps.mk_mem | apply Keeps.mk_sec | apply Keeps.mk_mem_sec) <;> first
      | with_reducible first
        | assumption
        | apply powerOff_keeps
        | refine Keeps.ite ?_ ?_
      | split
    | split
    | dsimp only

theorem execThermTripLatchClear_keeps {s₀ : State} (s : State) (hk : Keeps s₀ s) : KeepsO s₀ (execThermTripLatchClear s) := by
  unfold execThermTripLatchClear
  try dsimp only
  repeat' first
    | with_reducible first
      | assumption
      | intro _
      | refine Keeps.ite ?_ ?_
      | refine Keeps.ite_st ?_ ?_
      | refine KeepsO.ite ?_ ?_
      | refine KeepsO.next ?_
    | (with_reducible first | apply Keeps.mk_rest | apply Keeps.mk_mem | apply Keeps.mk_sec | apply Keeps.mk_mem_sec) <;> first
      | with_reducible first
        | assumption
        | refine Keeps.ite ?_ ?_
      | split
    | split
    | dsimp only

theorem execSlotIdChange_keeps {s₀ : State} (straps : Nat) (s : State) (hk : Keeps s₀ s) : KeepsO s₀ (execSlotIdChange straps s) := by
  unfold execSlotIdChange
  try dsimp only
  repeat' first
    | with_reducible first
      | assumption
      | intro _
      | refine KeepsO.next ?_
    | (with_reducible first | apply Keeps.mk_rest | apply Keeps.mk_mem | apply Keeps.mk_sec | apply Keeps.mk_mem_sec) <;> first
      | with_reducible first
        | assumption
    | dsimp only

theorem execFwSelfTestTimeout_keeps {s₀ : State} (s : State) (hk : Keeps s₀ s) : KeepsO s₀ (execFwSelfTestTimeout s) := by
  unfold execFwSelfTestTimeout
  try dsimp only
  repeat' first
    | with_reducible first
      | assumption
      | intro _
      | apply State.fresh_keeps
      | apply State.until_keeps
      | apply copyRecords_keeps
      | apply powerOff_keeps
      | apply bootBank_keeps
      | refine Keeps.ite ?_ ?_
      | refine Keeps.ite_snd ?_ ?_
      | refine Keeps.ite_st ?_ ?_
      | apply Keeps.ite_fst
      | refine KeepsO.ite ?_ ?_
      | refine KeepsO.next ?_
    | split
    | dsimp only

theorem selectIr_keeps {s₀ : State} (s : State) (ir : JtagIr) (hk : Keeps s₀ s) : Keeps s₀ (selectIr s ir) := by
  unfold selectIr
  try dsimp only
  repeat' first
    | with_reducible first
      | assumption
      | intro _
      | refine Keeps.ite ?_ ?_
    | (with_reducible first | apply Keeps.mk_rest | apply Keeps.mk_mem | apply Keeps.mk_sec | apply Keeps.mk_mem_sec) <;> first
      | with_reducible first
        | assumption
        | refine Keeps.ite ?_ ?_
      | split
    | split
    | dsimp only

theorem execJtagIdcode_keeps {s₀ : State} (s : State) (hk : Keeps s₀ s) : KeepsO s₀ (execJtagIdcode s) := by
  unfold execJtagIdcode
  try dsimp only
  repeat' first
    | with_reducible first
      | assumption
      | intro _
      | apply State.emit_keeps
      | apply selectIr_keeps
      | refine Keeps.ite ?_ ?_
      | refine KeepsO.ite ?_ ?_
      | refine KeepsO.next ?_
    | split
    | dsimp only

theorem execJtagBypass_keeps {s₀ : State} (s : State) (hk : Keeps s₀ s) : KeepsO s₀ (execJtagBypass s) := by
  unfold execJtagBypass
  try dsimp only
  repeat' first
    | with_reducible first
      | assumption
      | intro _
      | apply selectIr_keeps
      | refine KeepsO.next ?_
    | dsimp only

theorem execJtagSamplePreload_keeps {s₀ : State} (s : State) (hk : Keeps s₀ s) : KeepsO s₀ (execJtagSamplePreload s) := by
  unfold execJtagSamplePreload
  try dsimp only
  repeat' first
    | with_reducible first
      | assumption
      | intro _
      | apply selectIr_keeps
      | refine Keeps.ite ?_ ?_
      | refine KeepsO.ite ?_ ?_
      | refine KeepsO.next ?_
    | split
    | dsimp only

theorem execJtagExtest_keeps {s₀ : State} (s : State) (hk : Keeps s₀ s) : KeepsO s₀ (execJtagExtest s) := by
  unfold execJtagExtest
  try dsimp only
  repeat' first
    | with_reducible first
      | assumption
      | intro _
      | apply selectIr_keeps
      | refine Keeps.ite ?_ ?_
      | refine KeepsO.ite ?_ ?_
      | refine KeepsO.next ?_
    | split
    | dsimp only

theorem execJtagFuseProgram_keeps {s₀ : State} (f : FuseImage) (s : State) (hk : Keeps s₀ s) :
    KeepsO s₀ (execJtagFuseProgram f s) := by
  unfold execJtagFuseProgram
  dsimp only
  refine KeepsO.ite (fun _ => KeepsO.next (selectIr_keeps _ _ hk)) (fun h => KeepsO.next (lcBlow_keeps _ ?_))
  refine (selectIr_keeps s .fuse hk).trans ?_
  simp only [Bool.or_eq_true, Bool.not_eq_true', bne_iff_ne, not_or, Bool.not_eq_false, ne_eq, Decidable.not_not] at h
  have hz : (selectIr s .fuse).fuse.lifecycleBits = 0 := by
    have : (selectIr s .fuse).fuse = s.fuse := by unfold selectIr; split <;> rfl
    rw [this]
    exact lifecycleOf_blank h.2
  exact ⟨rfl, id, ⟨by simp, Nat.le_refl _⟩, fun hn => absurd hz hn, id, ⟨[], rfl⟩, Nat.le_refl _⟩

theorem execJtagTapReset_keeps {s₀ : State} (s : State) (hk : Keeps s₀ s) : KeepsO s₀ (execJtagTapReset s) := by
  unfold execJtagTapReset
  try dsimp only
  repeat' first
    | with_reducible first
      | assumption
      | intro _
      | refine KeepsO.next ?_
    | (with_reducible first | apply Keeps.mk_rest | apply Keeps.mk_mem | apply Keeps.mk_sec | apply Keeps.mk_mem_sec) <;> first
      | with_reducible first
        | assumption
    | dsimp only

end Sys2Proof.Machine
end

