-- ==== Sys2Proof/Laws/KeepsEngine.lean ====
section
/-! SUPPORT. Each operation of Machine/Engine.lean makes a change that `Keeps`. -/

namespace Sys2Proof.Machine

theorem execTaskPost_keeps {s₀ : State} (poster : Poster) (desc : Octets) (s : State) (hk : Keeps s₀ s) : KeepsO s₀ (execTaskPost poster desc s) := by
  unfold execTaskPost
  try dsimp only
  repeat' first
    | with_reducible first
      | assumption
      | intro _
      | apply State.emit_keeps
      | apply postTask_keeps
      | refine Keeps.ite ?_ ?_
      | refine Keeps.ite_snd ?_ ?_
      | refine Keeps.ite_st ?_ ?_
      | apply Keeps.ite_fst
      | refine KeepsO.ite ?_ ?_
      | refine KeepsO.next ?_
    | split
    | dsimp only

theorem startTask_keeps {s₀ : State} (s : State) (n : Nat) (t : Task) (hk : Keeps s₀ s) : Keeps s₀ (startTask s n t) := by
  unfold startTask
  try dsimp only
  repeat' first
    | with_reducible first
      | assumption
      | intro _
      | apply State.modEng_keeps
    | (with_reducible first | apply Keeps.mk_rest | apply Keeps.mk_mem | apply Keeps.mk_sec | apply Keeps.mk_mem_sec) <;> first
      | with_reducible first
        | assumption
        | apply State.modEng_keeps
    | dsimp only

theorem startPrimary_keeps {s₀ : State} (s : State) (n : Nat) (t : Task) (hk : Keeps s₀ s) : Keeps s₀ (startPrimary s n t) := by
  unfold startPrimary
  try dsimp only
  repeat' first
    | with_reducible first
      | assumption
      | intro _
      | apply placeSecondary_keeps
      | apply startTask_keeps
    | (with_reducible first | apply Keeps.mk_rest | apply Keeps.mk_mem | apply Keeps.mk_sec | apply Keeps.mk_mem_sec) <;> first
      | with_reducible first
        | assumption
        | apply placeSecondary_keeps
        | apply startTask_keeps
    | dsimp only

theorem selectNext_keeps {s₀ : State} (s : State) (v : Nat) (hk : Keeps s₀ s) : Keeps s₀ (selectNext s v) := by
  unfold selectNext
  try dsimp only
  repeat' first
    | with_reducible first
      | assumption
      | intro _
      | refine Keeps.ite ?_ ?_
    | (with_reducible first | apply Keeps.mk_rest | apply Keeps.mk_mem | apply Keeps.mk_sec | apply Keeps.mk_mem_sec) <;> first
      | with_reducible first
        | assumption
        | refine Keeps.ite ?_ ?_
      | split
    | split
    | dsimp only

theorem execTaskStart_keeps {s₀ : State} (engine : Nat) (dual : Bool) (s : State) (hk : Keeps s₀ s) : KeepsO s₀ (execTaskStart engine dual s) := by
  unfold execTaskStart
  try dsimp only
  repeat' first
    | with_reducible first
      | assumption
      | intro _
      | apply takeTask_keeps
      | apply startTask_keeps
      | apply startPrimary_keeps
      | apply selectNext_keeps
      | refine Keeps.ite ?_ ?_
      | refine KeepsO.ite ?_ ?_
      | refine KeepsO.next ?_
    | split
    | dsimp only

theorem execEngineWake_keeps {s₀ : State} (engine : Nat) (s : State) (hk : Keeps s₀ s) : KeepsO s₀ (execEngineWake engine s) := by
  unfold execEngineWake
  try dsimp only
  repeat' first
    | with_reducible first
      | assumption
      | intro _
      | apply State.modEng_keeps
      | refine Keeps.ite ?_ ?_
      | apply Keeps.ite_fst
      | refine KeepsO.ite ?_ ?_
      | refine KeepsO.next ?_
    | (with_reducible first | apply Keeps.mk_rest | apply Keeps.mk_mem | apply Keeps.mk_sec | apply Keeps.mk_mem_sec) <;> first
      | with_reducible first
        | assumption
        | apply State.modEng_keeps
        | refine Keeps.ite ?_ ?_
      | split
    | split
    | dsimp only

theorem execEngineIdleGate_keeps {s₀ : State} (engine : Nat) (s : State) (hk : Keeps s₀ s) : KeepsO s₀ (execEngineIdleGate engine s) := by
  unfold execEngineIdleGate
  try dsimp only
  repeat' first
    | with_reducible first
      | assumption
      | intro _
      | apply State.modEng_keeps
      | apply State.until_keeps
      | refine Keeps.ite ?_ ?_
      | refine KeepsO.ite ?_ ?_
      | refine KeepsO.next ?_
    | (with_reducible first | apply Keeps.mk_rest | apply Keeps.mk_mem | apply Keeps.mk_sec | apply Keeps.mk_mem_sec) <;> first
      | with_reducible first
        | assumption
        | apply State.modEng_keeps
        | apply State.until_keeps
        | refine Keeps.ite ?_ ?_
      | split
    | split
    | dsimp only

theorem execStealSearch_keeps {s₀ : State} (engine : Nat) (s : State) (hk : Keeps s₀ s) : KeepsO s₀ (execStealSearch engine s) := by
  unfold execStealSearch
  try dsimp only
  repeat' first
    | with_reducible first
      | assumption
      | intro _
      | apply State.modEng_keeps
      | refine Keeps.ite ?_ ?_
      | refine Keeps.ite_st ?_ ?_
      | refine KeepsO.ite ?_ ?_
      | refine KeepsO.next ?_
    | (with_reducible first | apply Keeps.mk_rest | apply Keeps.mk_mem | apply Keeps.mk_sec | apply Keeps.mk_mem_sec) <;> first
      | with_reducible first
        | assumption
        | apply State.modEng_keeps
        | refine Keeps.ite ?_ ?_
      | split
    | split
    | dsimp only

theorem takeFrom_keeps {s₀ : State} (s : State) (v : Victim) (t : Task) (hk : Keeps s₀ s) : Keeps s₀ (takeFrom s v t) := by
  unfold takeFrom
  try dsimp only
  repeat' first
    | with_reducible first
      | assumption
      | intro _
      | apply State.modVat_keeps
      | apply State.modEng_keeps
      | refine Keeps.ite ?_ ?_
      | refine Keeps.ite_snd ?_ ?_
      | refine Keeps.ite_st ?_ ?_
    | (with_reducible first | apply Keeps.mk_rest | apply Keeps.mk_mem | apply Keeps.mk_sec | apply Keeps.mk_mem_sec) <;> first
      | with_reducible first
        | assumption
        | apply State.modVat_keeps
        | apply State.modEng_keeps
        | refine Keeps.ite ?_ ?_
      | split
    | split
    | dsimp only

theorem claimOne_keeps {s₀ : State} (v : Victim) (s : State) (thief : Nat) (hk : Keeps s₀ s) : Keeps s₀ (claimOne v s thief) := by
  unfold claimOne
  try dsimp only
  repeat' first
    | with_reducible first
      | assumption
      | intro _
      | apply State.modEng_keeps
      | apply takeFrom_keeps
      | refine Keeps.ite ?_ ?_
      | refine Keeps.ite_st ?_ ?_
    | (with_reducible first | apply Keeps.mk_rest | apply Keeps.mk_mem | apply Keeps.mk_sec | apply Keeps.mk_mem_sec) <;> first
      | with_reducible first
        | assumption
        | apply State.modEng_keeps
        | apply takeFrom_keeps
        | refine Keeps.ite ?_ ?_
      | split
    | split
    | dsimp only

theorem execStealClaim_keeps {s₀ : State} (victim : Victim) (thieves : List Nat) (s : State) (hk : Keeps s₀ s) : KeepsO s₀ (execStealClaim victim thieves s) := by
  unfold execStealClaim
  try dsimp only
  repeat' first
    | with_reducible first
      | assumption
      | intro _
      | apply claimOne_keeps
      | refine KeepsO.next ?_
      | refine Keeps.foldl (fun _ _ _ => ?_) ?_
      | refine Keeps.foldl_snd (fun _ _ _ => ?_) ?_
    | dsimp only

theorem bothEngines_keeps {s₀ : State} (s : State) (d : DualSt) (f : EngSt → EngSt) (hk : Keeps s₀ s) : Keeps s₀ (bothEngines s d f) := by
  unfold bothEngines
  try dsimp only
  repeat' first
    | with_reducible first
      | assumption
      | intro _
      | apply State.modEng_keeps
    | dsimp only

theorem forget_keeps {s₀ : State} (s : State) (d : DualSt) (hk : Keeps s₀ s) : Keeps s₀ (forget s d) := by
  unfold forget
  try dsimp only
  repeat' first
    | with_reducible first
      | assumption
      | intro _
    | (with_reducible first | apply Keeps.mk_rest | apply Keeps.mk_mem | apply Keeps.mk_sec | apply Keeps.mk_mem_sec) <;> first
      | with_reducible first
        | assumption
    | dsimp only

theorem dualDone_keeps {s₀ : State} (s : State) (d : DualSt) (hk : Keeps s₀ s) : Keeps s₀ (dualDone s d) := by
  unfold dualDone
  try dsimp only
  repeat' first
    | with_reducible first
      | assumption
      | intro _
      | apply finishTask_keeps
      | apply forget_keeps
    | dsimp only

theorem execDualCompare_keeps {s₀ : State} (taskKey : Nat) (s : State) (hk : Keeps s₀ s) : KeepsO s₀ (execDualCompare taskKey s) := by
  unfold execDualCompare
  try dsimp only
  repeat' first
    | with_reducible first
      | assumption
      | intro _
      | apply State.modVat_keeps
      | apply failTask_keeps
      | apply setDual_keeps
      | apply placeSecondary_keeps
      | apply placeThird_keeps
      | apply fenceEngine_keeps
      | apply bothEngines_keeps
      | apply forget_keeps
      | apply dualDone_keeps
      | refine Keeps.ite ?_ ?_
      | refine KeepsO.ite ?_ ?_
      | refine KeepsO.next ?_
    | (with_reducible first | apply Keeps.mk_rest | apply Keeps.mk_mem | apply Keeps.mk_sec | apply Keeps.mk_mem_sec) <;> first
      | with_reducible first
        | assumption
        | apply State.modVat_keeps
        | apply failTask_keeps
        | apply setDual_keeps
        | apply placeSecondary_keeps
        | apply placeThird_keeps
        | apply fenceEngine_keeps
        | apply bothEngines_keeps
        | apply forget_keeps
        | apply dualDone_keeps
        | refine Keeps.ite ?_ ?_
      | split
    | split
    | dsimp only

theorem inbufBody_keeps {s₀ : State} (sess p : Nat) (arg : Octets) (s : State) (hk : Keeps s₀ s) : Keeps s₀ (inbufBody sess p arg s).st := by
  unfold inbufBody
  try dsimp only
  repeat' first
    | with_reducible first
      | assumption
      | intro _
      | apply refuse_keeps
      | apply stepPend_keeps
      | refine Keeps.ite ?_ ?_
      | refine Keeps.ite_st ?_ ?_
    | split
    | dsimp only

theorem inbufApply_keeps {s₀ : State} (p : Nat) (arg : Octets) (s : State) (hk : Keeps s₀ s) : Keeps s₀ (inbufApply p arg s).2 := by
  unfold inbufApply
  try dsimp only
  repeat' first
    | with_reducible first
      | assumption
      | intro _
      | refine Keeps.ite ?_ ?_
      | refine Keeps.ite_snd ?_ ?_
      | apply Keeps.ite_fst
    | (with_reducible first | apply Keeps.mk_rest | apply Keeps.mk_mem | apply Keeps.mk_sec | apply Keeps.mk_mem_sec) <;> first
      | with_reducible first
        | assumption
        | refine Keeps.ite ?_ ?_
      | split
    | split
    | dsimp only

theorem veInbufWrite_keeps (s₀ : State) (sess : Nat) (arg : Octets) (s : State) (h : Keeps s₀ s) : Keeps s₀ (veInbufWrite sess arg s).2 := by
  unfold veInbufWrite
  repeat' first
    | with_reducible first
      | assumption
      | intro _
      | apply cmdWrite_keeps
      | apply inbufBody_keeps
    | dsimp only

theorem execVeInbufSet_keeps {s₀ : State} (sess : Nat) (arg : Octets) (s : State) (hk : Keeps s₀ s) : KeepsO s₀ (execVeInbufSet sess arg s) := by
  unfold execVeInbufSet
  try dsimp only
  repeat' first
    | with_reducible first
      | assumption
      | intro _
      | apply cmdRow_keeps
      | apply veInbufWrite_keeps
      | refine KeepsO.next ?_
    | dsimp only

theorem dropRecord_keeps {s₀ : State} (s : State) (b part status : Nat) (hk : Keeps s₀ s) : Keeps s₀ (dropRecord s b part status) := by
  unfold dropRecord
  try dsimp only
  repeat' first
    | with_reducible first
      | assumption
      | intro _
      | apply State.writeErr_keeps
    | dsimp only

theorem putRecord_keeps {s₀ : State} (s : State) (b : Nat) (x : InBuf) (record : Octets) (hk : Keeps s₀ s) : Keeps s₀ (putRecord s b x record) := by
  unfold putRecord
  try dsimp only
  repeat' first
    | with_reducible first
      | assumption
      | intro _
      | apply memWrite_keeps
      | apply signal_keeps
      | apply dropRecord_keeps
      | refine Keeps.ite ?_ ?_
      | refine Keeps.ite_snd ?_ ?_
      | apply Keeps.ite_fst
    | (with_reducible first | apply Keeps.mk_rest | apply Keeps.mk_mem | apply Keeps.mk_sec | apply Keeps.mk_mem_sec) <;> first
      | with_reducible first
        | assumption
        | apply memWrite_keeps
        | apply signal_keeps
        | apply dropRecord_keeps
        | refine Keeps.ite ?_ ?_
      | split
    | split
    | dsimp only

theorem execInbufRecordArrival_keeps {s₀ : State} (sender : Agent) (part buffer : Nat) (record : Octets) (s : State) (hk : Keeps s₀ s) : KeepsO s₀ (execInbufRecordArrival sender part buffer record s) := by
  unfold execInbufRecordArrival
  try dsimp only
  repeat' first
    | with_reducible first
      | assumption
      | intro _
      | apply State.modArr_keeps
      | apply dropRecord_keeps
      | apply putRecord_keeps
      | refine Keeps.ite ?_ ?_
      | refine Keeps.ite_st ?_ ?_
      | refine KeepsO.ite ?_ ?_
      | refine KeepsO.next ?_
    | (with_reducible first | apply Keeps.mk_rest | apply Keeps.mk_mem | apply Keeps.mk_sec | apply Keeps.mk_mem_sec) <;> first
      | with_reducible first
        | assumption
        | apply State.modArr_keeps
        | apply dropRecord_keeps
        | apply putRecord_keeps
        | refine Keeps.ite ?_ ?_
      | split
    | split
    | dsimp only

theorem execInbufRecordWrite_keeps {s₀ : State} (buffer : Nat) (s : State) (hk : Keeps s₀ s) : KeepsO s₀ (execInbufRecordWrite buffer s) := by
  unfold execInbufRecordWrite
  try dsimp only
  repeat' first
    | with_reducible first
      | assumption
      | intro _
      | apply State.modArr_keeps
      | apply acceptWaiting_keeps
      | apply dropRecord_keeps
      | apply putRecord_keeps
      | refine Keeps.ite ?_ ?_
      | refine Keeps.ite_snd ?_ ?_
      | refine Keeps.ite_st ?_ ?_
      | apply Keeps.ite_fst
      | refine KeepsO.ite ?_ ?_
      | refine KeepsO.next ?_
    | (with_reducible first | apply Keeps.mk_rest | apply Keeps.mk_mem | apply Keeps.mk_sec | apply Keeps.mk_mem_sec) <;> first
      | with_reducible first
        | assumption
        | apply State.modArr_keeps
        | apply acceptWaiting_keeps
        | apply dropRecord_keeps
        | apply putRecord_keeps
        | refine Keeps.ite ?_ ?_
      | split
    | split
    | dsimp only

end Sys2Proof.Machine
end

