-- ==== Sys2Proof/Laws/KeepsKv.lean ====
section
/-! SUPPORT. Each operation of Machine/Kv.lean makes a change that `Keeps`. -/

namespace Sys2Proof.Machine

theorem seqEditBody_keeps {s₀ : State} (sess p : Nat) (arg : Octets) (s : State) (hk : Keeps s₀ s) : Keeps s₀ (seqEditBody sess p arg s).st := by
  unfold seqEditBody
  try dsimp only
  repeat' first
    | with_reducible first
      | assumption
      | intro _
      | apply refuse_keeps
      | apply stepPend_keeps
      | refine Keeps.ite ?_ ?_
      | refine Keeps.ite_st ?_ ?_
    | split
    | dsimp only

theorem seqEditWrite_keeps (s₀ : State) (sess : Nat) (arg : Octets) (s : State) (h : Keeps s₀ s) : Keeps s₀ (seqEditWrite sess arg s).2 := by
  unfold seqEditWrite
  repeat' first
    | with_reducible first
      | assumption
      | intro _
      | apply cmdWrite_keeps
      | apply seqEditBody_keeps
    | dsimp only

theorem execSeqEdit_keeps {s₀ : State} (sess : Nat) (arg : Octets) (s : State) (hk : Keeps s₀ s) : KeepsO s₀ (execSeqEdit sess arg s) := by
  unfold execSeqEdit
  try dsimp only
  repeat' first
    | with_reducible first
      | assumption
      | intro _
      | apply cmdRow_keeps
      | apply seqEditWrite_keeps
      | refine KeepsO.next ?_
    | dsimp only

theorem seqEditApply_keeps {s₀ : State} (p : Nat) (arg : Octets) (s : State) (hk : Keeps s₀ s) : Keeps s₀ (seqEditApply p arg s).2 := by
  unfold seqEditApply
  try dsimp only
  repeat' first
    | with_reducible first
      | assumption
      | intro _
      | refine Keeps.ite ?_ ?_
      | refine Keeps.ite_snd ?_ ?_
    | (with_reducible first | apply Keeps.mk_rest | apply Keeps.mk_mem | apply Keeps.mk_sec | apply Keeps.mk_mem_sec) <;> first
      | with_reducible first
        | assumption
        | refine Keeps.ite ?_ ?_
      | split
    | split
    | dsimp only

theorem commitAppends_keeps {s₀ : State} (s : State) (hk : Keeps s₀ s) : Keeps s₀ (commitAppends s) := by
  unfold commitAppends
  try dsimp only
  repeat' first
    | with_reducible first
      | assumption
      | intro _
      | refine Keeps.foldl (fun _ _ _ => ?_) ?_
      | refine Keeps.foldl_snd (fun _ _ _ => ?_) ?_
    | (with_reducible first | apply Keeps.mk_rest | apply Keeps.mk_mem | apply Keeps.mk_sec | apply Keeps.mk_mem_sec) <;> first
      | with_reducible first
        | assumption
        | refine Keeps.foldl (fun _ _ _ => ?_) ?_
    | dsimp only

theorem clearScales_keeps {s₀ : State} (s : State) (d : SeqD) (hk : Keeps s₀ s) : Keeps s₀ (clearScales s d) := by
  unfold clearScales
  try dsimp only
  repeat' first
    | with_reducible first
      | assumption
      | intro _
      | apply memWrite_keeps
      | refine Keeps.foldl (fun _ _ _ => ?_) ?_
      | refine Keeps.foldl_snd (fun _ _ _ => ?_) ?_
    | dsimp only

theorem clearSeqs_keeps {s₀ : State} (s : State) (ks : List Nat) (hk : Keeps s₀ s) : Keeps s₀ (clearSeqs s ks) := by
  unfold clearSeqs
  try dsimp only
  repeat' first
    | with_reducible first
      | assumption
      | intro _
      | apply clearScales_keeps
      | refine Keeps.ite ?_ ?_
      | refine Keeps.foldl (fun _ _ _ => ?_) ?_
      | refine Keeps.foldl_snd (fun _ _ _ => ?_) ?_
    | split
    | dsimp only

theorem snapshotSeqs_keeps {s₀ : State} (s : State) (hk : Keeps s₀ s) : Keeps s₀ (snapshotSeqs s) := by
  unfold snapshotSeqs
  try dsimp only
  repeat' first
    | with_reducible first
      | assumption
      | intro _
    | (with_reducible first | apply Keeps.mk_rest | apply Keeps.mk_mem | apply Keeps.mk_sec | apply Keeps.mk_mem_sec) <;> first
      | with_reducible first
        | assumption
    | dsimp only

end Sys2Proof.Machine
end

