-- ==== Sys2Proof/Laws/KeepsColl.lean ====
section
/-! SUPPORT. Each operation of Machine/Coll.lean makes a change that `Keeps`. -/

namespace Sys2Proof.Machine

theorem collCreateBody_keeps {s₀ : State} (peers : List PeerReport) (sess_ p : Nat) (arg : Octets) (s : State) (hk : Keeps s₀ s) : Keeps s₀ (collCreateBody peers sess_ p arg s).st := by
  unfold collCreateBody
  try dsimp only
  repeat' first
    | with_reducible first
      | assumption
      | intro _
      | apply refuse_keeps
      | apply doneAt_keeps
      | apply openChan_keeps
      | apply addPeers_keeps
      | refine Keeps.ite ?_ ?_
      | refine Keeps.ite_snd ?_ ?_
      | refine Keeps.ite_st ?_ ?_
      | apply Keeps.ite_fst
    | split
    | dsimp only

theorem collCreateWait_keeps (s₀ : State) (sess : Nat) (arg : Octets) (s : State) (h : Keeps s₀ s) : Keeps s₀ (collCreateWait sess arg s).2 := by
  unfold collCreateWait
  repeat' first
    | with_reducible first
      | assumption
      | intro _
      | apply cmdWrite_keeps
      | apply peerWaitBody_keeps
    | dsimp only

theorem execCollCreate_keeps {s₀ : State} (sess : Nat) (arg : Octets) (peers : List PeerReport) (s : State) (hk : Keeps s₀ s) : KeepsO s₀ (execCollCreate sess arg peers s) := by
  unfold execCollCreate
  try dsimp only
  repeat' first
    | with_reducible first
      | assumption
      | intro _
      | apply cmdWrite_keeps
      | apply peerRow_keeps
      | apply collCreateBody_keeps
      | refine KeepsO.next ?_
    | dsimp only

theorem destroyBody_keeps {s₀ s : State} (typ : Nat) (bad : State → Nat → Bool) (sess p : Nat) (arg : Octets)
    (hk : Keeps s₀ s) : Keeps s₀ (destroyBody typ bad sess p arg s).st := by
  unfold destroyBody
  dsimp only
  repeat' first
      | with_reducible first
        | assumption
        | intro _
        | apply refuse_keeps
        | apply doneAt_keeps
        | apply destroyChan_keeps
        | apply dropFrames_keeps
        | refine Keeps.ite ?_ ?_
        | refine Keeps.ite_snd ?_ ?_
        | refine Keeps.ite_st ?_ ?_
        | refine Keeps.foldl (fun _ _ _ => ?_) ?_
        | refine Keeps.foldl_snd (fun _ _ _ => ?_) ?_
      | (with_reducible first | apply Keeps.mk_rest | apply Keeps.mk_mem | apply Keeps.mk_sec | apply Keeps.mk_mem_sec) <;> first
        | with_reducible first
          | assumption
          | apply refuse_keeps
          | apply doneAt_keeps
          | apply destroyChan_keeps
          | apply dropFrames_keeps
          | refine Keeps.ite ?_ ?_
          | refine Keeps.foldl (fun _ _ _ => ?_) ?_
        | split
      | split
      | dsimp only

theorem collDestroyWrite_keeps (s₀ : State) (sess : Nat) (arg : Octets) (s : State) (h : Keeps s₀ s) : Keeps s₀ (collDestroyWrite sess arg s).2 := by
  unfold collDestroyWrite
  repeat' first
    | with_reducible first
      | assumption
      | intro _
      | apply cmdWrite_keeps
      | apply destroyBody_keeps
    | dsimp only

theorem execCollDestroy_keeps {s₀ : State} (sess : Nat) (arg : Octets) (s : State) (hk : Keeps s₀ s) : KeepsO s₀ (execCollDestroy sess arg s) := by
  unfold execCollDestroy
  try dsimp only
  repeat' first
    | with_reducible first
      | assumption
      | intro _
      | apply cmdRow_keeps
      | apply collDestroyWrite_keeps
      | refine KeepsO.next ?_
    | dsimp only

theorem setColl_keeps {s₀ : State} (s : State) (slot : Nat) (c : CollSt) (hk : Keeps s₀ s) : Keeps s₀ (setColl s slot c) := by
  unfold setColl
  try dsimp only
  repeat' first
    | with_reducible first
      | assumption
      | intro _
      | apply setChan_keeps
    | dsimp only

theorem writeResult_keeps {s₀ : State} (s : State) (slot k e : Nat) (d : Octets) (hk : Keeps s₀ s) : Keeps s₀ (writeResult s slot k e d) := by
  unfold writeResult
  try dsimp only
  repeat' first
    | with_reducible first
      | assumption
      | intro _
      | apply memWrite_keeps
      | apply State.writeErr_keeps
      | apply signal_keeps
      | apply setColl_keeps
      | refine Keeps.ite ?_ ?_
      | refine Keeps.ite_snd ?_ ?_
      | refine Keeps.ite_st ?_ ?_
      | apply Keeps.ite_fst
    | (with_reducible first | apply Keeps.mk_rest | apply Keeps.mk_mem | apply Keeps.mk_sec | apply Keeps.mk_mem_sec) <;> first
      | with_reducible first
        | assumption
        | apply memWrite_keeps
        | apply State.writeErr_keeps
        | apply signal_keeps
        | apply setColl_keeps
        | refine Keeps.ite ?_ ?_
      | split
    | split
    | dsimp only

theorem pressUnit_keeps {s₀ : State} (s : State) (k : Nat) (f : PressSt → PressSt) (hk : Keeps s₀ s) : Keeps s₀ (pressUnit s k f) := by
  unfold pressUnit
  try dsimp only
  repeat' first
    | with_reducible first
      | assumption
      | intro _
    | (with_reducible first | apply Keeps.mk_rest | apply Keeps.mk_mem | apply Keeps.mk_sec | apply Keeps.mk_mem_sec) <;> first
      | with_reducible first
        | assumption
    | dsimp only

theorem pressComplete_keeps {s₀ : State} (s : State) (slot k : Nat) (hk : Keeps s₀ s) : Keeps s₀ (pressComplete s slot k) := by
  unfold pressComplete
  try dsimp only
  repeat' first
    | with_reducible first
      | assumption
      | intro _
      | apply sendFrame_keeps
      | apply setColl_keeps
      | apply writeResult_keeps
      | apply pressUnit_keeps
      | refine Keeps.ite ?_ ?_
      | refine Keeps.ite_snd ?_ ?_
      | refine Keeps.foldl (fun _ _ _ => ?_) ?_
      | refine Keeps.foldl_snd (fun _ _ _ => ?_) ?_
    | (with_reducible first | apply Keeps.mk_rest | apply Keeps.mk_mem | apply Keeps.mk_sec | apply Keeps.mk_mem_sec) <;> first
      | with_reducible first
        | assumption
        | apply sendFrame_keeps
        | apply setColl_keeps
        | apply writeResult_keeps
        | apply pressUnit_keeps
        | refine Keeps.ite ?_ ?_
        | refine Keeps.foldl (fun _ _ _ => ?_) ?_
      | split
    | split
    | dsimp only

theorem pressReceive_keeps {s₀ : State} (s : State) (slot k e rank : Nat) (ws : List Word) (hk : Keeps s₀ s) : Keeps s₀ (pressReceive s slot k e rank ws).1 := by
  unfold pressReceive
  try dsimp only
  repeat' first
    | with_reducible first
      | assumption
      | intro _
      | apply setColl_keeps
      | apply pressUnit_keeps
      | apply pressComplete_keeps
      | refine Keeps.ite ?_ ?_
      | refine Keeps.ite_st ?_ ?_
      | apply Keeps.ite_fst
    | (with_reducible first | apply Keeps.mk_rest | apply Keeps.mk_mem | apply Keeps.mk_sec | apply Keeps.mk_mem_sec) <;> first
      | with_reducible first
        | assumption
        | apply setColl_keeps
        | apply pressUnit_keeps
        | apply pressComplete_keeps
        | refine Keeps.ite ?_ ?_
      | split
    | split
    | dsimp only

theorem contribute_keeps {s₀ : State} (slot p e : Nat) (s : State) (k : Nat) (hk : Keeps s₀ s) : Keeps s₀ (contribute slot p e s k) := by
  unfold contribute
  try dsimp only
  repeat' first
    | with_reducible first
      | assumption
      | intro _
      | apply State.writeErr_keeps
      | apply sendFrame_keeps
      | apply setColl_keeps
      | apply pressReceive_keeps
      | refine Keeps.ite ?_ ?_
      | apply Keeps.ite_fst
    | (with_reducible first | apply Keeps.mk_rest | apply Keeps.mk_mem | apply Keeps.mk_sec | apply Keeps.mk_mem_sec) <;> first
      | with_reducible first
        | assumption
        | apply State.writeErr_keeps
        | apply sendFrame_keeps
        | apply setColl_keeps
        | apply pressReceive_keeps
        | refine Keeps.ite ?_ ?_
      | split
    | split
    | dsimp only

theorem execCollInvocationStart_keeps {s₀ : State} (coll : Nat) (s : State) (hk : Keeps s₀ s) : KeepsO s₀ (execCollInvocationStart coll s) := by
  unfold execCollInvocationStart
  try dsimp only
  repeat' first
    | with_reducible first
      | assumption
      | intro _
      | apply started_keeps
      | apply setColl_keeps
      | apply contribute_keeps
      | refine Keeps.ite ?_ ?_
      | refine Keeps.ite_st ?_ ?_
      | refine KeepsO.ite ?_ ?_
      | refine KeepsO.next ?_
      | refine Keeps.foldl (fun _ _ _ => ?_) ?_
      | refine Keeps.foldl_snd (fun _ _ _ => ?_) ?_
    | (with_reducible first | apply Keeps.mk_rest | apply Keeps.mk_mem | apply Keeps.mk_sec | apply Keeps.mk_mem_sec) <;> first
      | with_reducible first
        | assumption
        | apply started_keeps
        | apply setColl_keeps
        | apply contribute_keeps
        | refine Keeps.ite ?_ ?_
        | refine Keeps.foldl (fun _ _ _ => ?_) ?_
      | split
    | split
    | dsimp only

theorem pressAck_keeps {s₀ : State} (s : State) (f : Frame) (hk : Keeps s₀ s) : Keeps s₀ (pressAck s f) := by
  unfold pressAck
  try dsimp only
  repeat' first
    | with_reducible first
      | assumption
      | intro _
      | apply sendEack_keeps
    | dsimp only

theorem refuseFrame_keeps {s₀ : State} (s : State) (f : Frame) (status : Nat) (hk : Keeps s₀ s) : Keeps s₀ (refuseFrame s f status) := by
  unfold refuseFrame
  try dsimp only
  repeat' first
    | with_reducible first
      | assumption
      | intro _
      | apply sendEack_keeps
    | dsimp only

theorem execPress_keeps {s₀ : State} (f : Frame) (s : State) (hk : Keeps s₀ s) : KeepsO s₀ (execPress f s) := by
  unfold execPress
  try dsimp only
  repeat' first
    | with_reducible first
      | assumption
      | intro _
      | apply frameArrives_keeps
      | apply pressReceive_keeps
      | apply pressAck_keeps
      | apply refuseFrame_keeps
      | refine Keeps.ite ?_ ?_
      | refine Keeps.ite_snd ?_ ?_
      | refine Keeps.ite_st ?_ ?_
      | apply Keeps.ite_fst
      | refine KeepsO.ite ?_ ?_
      | refine KeepsO.next ?_
    | split
    | dsimp only

theorem execPressResult_keeps {s₀ : State} (f : Frame) (s : State) (hk : Keeps s₀ s) : KeepsO s₀ (execPressResult f s) := by
  unfold execPressResult
  try dsimp only
  repeat' first
    | with_reducible first
      | assumption
      | intro _
      | apply frameArrives_keeps
      | apply writeResult_keeps
      | apply pressAck_keeps
      | apply refuseFrame_keeps
      | refine Keeps.ite ?_ ?_
      | refine Keeps.ite_snd ?_ ?_
      | refine Keeps.ite_st ?_ ?_
      | apply Keeps.ite_fst
      | refine KeepsO.ite ?_ ?_
      | refine KeepsO.next ?_
    | split
    | dsimp only

theorem execPressAck_keeps {s₀ : State} (f : Frame) (s : State) (hk : Keeps s₀ s) : KeepsO s₀ (execPressAck f s) := by
  unfold execPressAck
  try dsimp only
  repeat' first
    | with_reducible first
      | assumption
      | intro _
      | apply flushWaiting_keeps
      | apply frameArrives_keeps
      | apply setColl_keeps
      | refine Keeps.ite ?_ ?_
      | refine Keeps.ite_snd ?_ ?_
      | refine Keeps.ite_st ?_ ?_
      | apply Keeps.ite_fst
      | refine KeepsO.ite ?_ ?_
      | refine KeepsO.next ?_
    | (with_reducible first | apply Keeps.mk_rest | apply Keeps.mk_mem | apply Keeps.mk_sec | apply Keeps.mk_mem_sec) <;> first
      | with_reducible first
        | assumption
        | apply flushWaiting_keeps
        | apply frameArrives_keeps
        | apply setColl_keeps
        | refine Keeps.ite ?_ ?_
      | split
    | split
    | dsimp only

end Sys2Proof.Machine
end

