-- ==== Sys2Proof/Laws/KeepsSync.lean ====
section
/-! SUPPORT. Each operation of Machine/Sync.lean makes a change that `Keeps`. -/

namespace Sys2Proof.Machine

theorem agentSync_keeps {s₀ : State} (s : State) (a : Agent) (part addr : Nat) (op : SyncOp) (x y : Nat) (hk : Keeps s₀ s) : Keeps s₀ (agentSync s a part addr op x y) := by
  unfold agentSync
  try dsimp only
  repeat' first
    | with_reducible first
      | assumption
      | intro _
      | apply answerSync_keeps
      | apply syncDo_keeps
      | apply remoteSync_keeps
      | refine Keeps.ite ?_ ?_
      | refine Keeps.ite_snd ?_ ?_
      | apply Keeps.ite_fst
    | split
    | dsimp only

theorem applySync_keeps {s₀ : State} (f : Frame) (op : SyncOp) (part : Nat) (s : State) (hk : Keeps s₀ s) : Keeps s₀ (applySync f op part s).2 := by
  unfold applySync
  try dsimp only
  repeat' first
    | with_reducible first
      | assumption
      | intro _
      | apply answerSync_keeps
      | apply syncDo_keeps
      | refine Keeps.ite ?_ ?_
      | refine Keeps.ite_snd ?_ ?_
      | apply Keeps.ite_fst
    | split
    | dsimp only

theorem flowRelease_keeps {s₀ : State} (f : Frame) (op : SyncOp) (s : State) (hk : Keeps s₀ s) : Keeps s₀ (flowRelease f op s) := by
  unfold flowRelease
  try dsimp only
  repeat' first
    | with_reducible first
      | assumption
      | intro _
      | apply sendEack_keeps
      | apply syncDo_keeps
      | refine Keeps.ite ?_ ?_
      | refine Keeps.ite_snd ?_ ?_
      | refine Keeps.ite_st ?_ ?_
      | apply Keeps.ite_fst
    | split
    | dsimp only

theorem wireSync_keeps {s₀ : State} (f : Frame) (code : Nat) (s : State) (hk : Keeps s₀ s) : Keeps s₀ (wireSync f code s) := by
  unfold wireSync
  try dsimp only
  repeat' first
    | with_reducible first
      | assumption
      | intro _
      | apply State.writeErr_keeps
      | apply frameArrives_keeps
      | apply streamReceive_keeps
      | apply applySync_keeps
      | apply flowRelease_keeps
      | refine Keeps.ite ?_ ?_
      | refine Keeps.ite_snd ?_ ?_
      | refine Keeps.ite_st ?_ ?_
      | apply Keeps.ite_fst
    | split
    | dsimp only

theorem execSyncAdd_keeps {s₀ : State} (by_ : SyncBy) (addr a : Nat) (s : State) (hk : Keeps s₀ s) : KeepsO s₀ (execSyncAdd by_ addr a s) := by
  unfold execSyncAdd
  try dsimp only
  repeat' first
    | with_reducible first
      | assumption
      | intro _
      | apply agentSync_keeps
      | apply wireSync_keeps
      | refine Keeps.ite ?_ ?_
      | refine KeepsO.ite ?_ ?_
      | refine KeepsO.next ?_
    | split
    | dsimp only

theorem execSyncCmpSwap_keeps {s₀ : State} (by_ : SyncBy) (addr c v : Nat) (s : State) (hk : Keeps s₀ s) : KeepsO s₀ (execSyncCmpSwap by_ addr c v s) := by
  unfold execSyncCmpSwap
  try dsimp only
  repeat' first
    | with_reducible first
      | assumption
      | intro _
      | apply agentSync_keeps
      | apply wireSync_keeps
      | refine Keeps.ite ?_ ?_
      | refine KeepsO.ite ?_ ?_
      | refine KeepsO.next ?_
    | split
    | dsimp only

theorem execSyncRead_keeps {s₀ : State} (by_ : SyncBy) (addr : Nat) (s : State) (hk : Keeps s₀ s) : KeepsO s₀ (execSyncRead by_ addr s) := by
  unfold execSyncRead
  try dsimp only
  repeat' first
    | with_reducible first
      | assumption
      | intro _
      | apply agentSync_keeps
      | apply wireSync_keeps
      | refine Keeps.ite ?_ ?_
      | refine KeepsO.ite ?_ ?_
      | refine KeepsO.next ?_
    | split
    | dsimp only

theorem firingFails_keeps {s₀ : State} (s : State) (n status : Nat) (hk : Keeps s₀ s) : Keeps s₀ (firingFails s n status) := by
  unfold firingFails
  try dsimp only
  repeat' first
    | with_reducible first
      | assumption
      | intro _
      | apply State.writeErr_keeps
    | (with_reducible first | apply Keeps.mk_rest | apply Keeps.mk_mem | apply Keeps.mk_sec | apply Keeps.mk_mem_sec) <;> first
      | with_reducible first
        | assumption
        | apply State.writeErr_keeps
    | dsimp only

theorem deliverFiring_keeps {s₀ : State} (s : State) (n target v : Nat) (hk : Keeps s₀ s) : Keeps s₀ (deliverFiring s n target v) := by
  unfold deliverFiring
  try dsimp only
  repeat' first
    | with_reducible first
      | assumption
      | intro _
      | apply syncDo_keeps
      | apply sendSync_keeps
      | apply firingFails_keeps
      | refine Keeps.ite ?_ ?_
      | refine Keeps.ite_snd ?_ ?_
      | apply Keeps.ite_fst
    | split
    | dsimp only

theorem execSyncRelease_keeps {s₀ : State} (by_ : SyncBy) (addr v : Nat) (s : State) (hk : Keeps s₀ s) : KeepsO s₀ (execSyncRelease by_ addr v s) := by
  unfold execSyncRelease
  try dsimp only
  repeat' first
    | with_reducible first
      | assumption
      | intro _
      | apply agentSync_keeps
      | apply wireSync_keeps
      | apply deliverFiring_keeps
      | refine Keeps.ite ?_ ?_
      | refine KeepsO.ite ?_ ?_
      | refine KeepsO.next ?_
    | (with_reducible first | apply Keeps.mk_rest | apply Keeps.mk_mem | apply Keeps.mk_sec | apply Keeps.mk_mem_sec) <;> first
      | with_reducible first
        | assumption
        | apply agentSync_keeps
        | apply wireSync_keeps
        | apply deliverFiring_keeps
        | refine Keeps.ite ?_ ?_
      | split
    | split
    | dsimp only

theorem agentWait_keeps {s₀ : State} (s : State) (a : Agent) (part addr v timeoutUs : Nat) (hk : Keeps s₀ s) : Keeps s₀ (agentWait s a part addr v timeoutUs) := by
  unfold agentWait
  try dsimp only
  repeat' first
    | with_reducible first
      | assumption
      | intro _
      | apply answerSync_keeps
      | apply remoteSync_keeps
      | apply syncWait_keeps
      | refine Keeps.ite ?_ ?_
      | refine Keeps.ite_snd ?_ ?_
      | apply Keeps.ite_fst
    | split
    | dsimp only

theorem applyWait_keeps {s₀ : State} (f : Frame) (part : Nat) (s : State) (hk : Keeps s₀ s) : Keeps s₀ (applyWait f part s).2 := by
  unfold applyWait
  try dsimp only
  repeat' first
    | with_reducible first
      | assumption
      | intro _
      | apply syncWait_keeps
      | refine Keeps.ite ?_ ?_
      | refine Keeps.ite_snd ?_ ?_
    | split
    | dsimp only

theorem execSyncWait_keeps {s₀ : State} (by_ : SyncBy) (addr v timeoutUs : Nat) (s : State) (hk : Keeps s₀ s) : KeepsO s₀ (execSyncWait by_ addr v timeoutUs s) := by
  unfold execSyncWait
  try dsimp only
  repeat' first
    | with_reducible first
      | assumption
      | intro _
      | apply State.writeErr_keeps
      | apply frameArrives_keeps
      | apply streamReceive_keeps
      | apply agentWait_keeps
      | apply applyWait_keeps
      | refine Keeps.ite ?_ ?_
      | refine Keeps.ite_snd ?_ ?_
      | apply Keeps.ite_fst
      | refine KeepsO.ite ?_ ?_
      | refine KeepsO.next ?_
    | split
    | dsimp only

theorem execSyncWaitTimeout_keeps {s₀ : State} (waiter : Nat) (s : State) (hk : Keeps s₀ s) : KeepsO s₀ (execSyncWaitTimeout waiter s) := by
  unfold execSyncWaitTimeout
  try dsimp only
  repeat' first
    | with_reducible first
      | assumption
      | intro _
      | apply State.until_keeps
      | apply answerSync_keeps
      | refine Keeps.ite ?_ ?_
      | refine KeepsO.ite ?_ ?_
      | refine KeepsO.next ?_
    | (with_reducible first | apply Keeps.mk_rest | apply Keeps.mk_mem | apply Keeps.mk_sec | apply Keeps.mk_mem_sec) <;> first
      | with_reducible first
        | assumption
        | apply State.until_keeps
        | apply answerSync_keeps
        | refine Keeps.ite ?_ ?_
      | split
    | split
    | dsimp only

theorem applyResponse_keeps {s₀ : State} (f : Frame) (part_ : Nat) (s : State) (hk : Keeps s₀ s) : Keeps s₀ (applyResponse f part_ s).2 := by
  unfold applyResponse
  try dsimp only
  repeat' first
    | with_reducible first
      | assumption
      | intro _
      | apply answerSync_keeps
      | apply remoteSync_keeps
      | apply failRequest_keeps
      | refine Keeps.ite ?_ ?_
      | refine Keeps.ite_snd ?_ ?_
      | apply Keeps.ite_fst
    | (with_reducible first | apply Keeps.mk_rest | apply Keeps.mk_mem | apply Keeps.mk_sec | apply Keeps.mk_mem_sec) <;> first
      | with_reducible first
        | assumption
        | apply answerSync_keeps
        | apply remoteSync_keeps
        | apply failRequest_keeps
        | refine Keeps.ite ?_ ?_
      | split
    | split
    | dsimp only

theorem execSyncResponse_keeps {s₀ : State} (f : Frame) (s : State) (hk : Keeps s₀ s) : KeepsO s₀ (execSyncResponse f s) := by
  unfold execSyncResponse
  try dsimp only
  repeat' first
    | with_reducible first
      | assumption
      | intro _
      | apply State.writeErr_keeps
      | apply frameArrives_keeps
      | apply streamReceive_keeps
      | apply applyResponse_keeps
      | refine Keeps.ite ?_ ?_
      | refine Keeps.ite_snd ?_ ?_
      | apply Keeps.ite_fst
      | refine KeepsO.ite ?_ ?_
      | refine KeepsO.next ?_
    | split
    | dsimp only

theorem startFence_keeps {s₀ : State} (s : State) (a : Agent) (scope : Nat) (hk : Keeps s₀ s) : Keeps s₀ (startFence s a scope) := by
  unfold startFence
  try dsimp only
  repeat' first
    | with_reducible first
      | assumption
      | intro _
      | refine Keeps.ite ?_ ?_
    | (with_reducible first | apply Keeps.mk_rest | apply Keeps.mk_mem | apply Keeps.mk_sec | apply Keeps.mk_mem_sec) <;> first
      | with_reducible first
        | assumption
        | refine Keeps.ite ?_ ?_
      | split
    | split
    | dsimp only

theorem execFenceLocal_keeps {s₀ : State} (agent : Agent) (s : State) (hk : Keeps s₀ s) : KeepsO s₀ (execFenceLocal agent s) := by
  unfold execFenceLocal
  try dsimp only
  repeat' first
    | with_reducible first
      | assumption
      | intro _
      | apply startFence_keeps
      | refine Keeps.ite ?_ ?_
      | refine KeepsO.ite ?_ ?_
      | refine KeepsO.next ?_
    | split
    | dsimp only

theorem execFenceDie_keeps {s₀ : State} (agent : Agent) (s : State) (hk : Keeps s₀ s) : KeepsO s₀ (execFenceDie agent s) := by
  unfold execFenceDie
  try dsimp only
  repeat' first
    | with_reducible first
      | assumption
      | intro _
      | apply startFence_keeps
      | refine KeepsO.next ?_
    | dsimp only

theorem execFenceFabric_keeps {s₀ : State} (agent : Agent) (s : State) (hk : Keeps s₀ s) : KeepsO s₀ (execFenceFabric agent s) := by
  unfold execFenceFabric
  try dsimp only
  repeat' first
    | with_reducible first
      | assumption
      | intro _
      | apply startFence_keeps
      | refine KeepsO.next ?_
    | dsimp only

theorem execFenceComplete_keeps {s₀ : State} (agent : Agent) (s : State) (hk : Keeps s₀ s) : KeepsO s₀ (execFenceComplete agent s) := by
  unfold execFenceComplete
  try dsimp only
  repeat' first
    | with_reducible first
      | assumption
      | intro _
      | apply State.emit_keeps
      | apply State.until_keeps
      | refine Keeps.ite ?_ ?_
      | refine Keeps.ite_st ?_ ?_
      | apply Keeps.ite_fst
      | refine KeepsO.ite ?_ ?_
      | refine KeepsO.next ?_
    | (with_reducible first | apply Keeps.mk_rest | apply Keeps.mk_mem | apply Keeps.mk_sec | apply Keeps.mk_mem_sec) <;> first
      | with_reducible first
        | assumption
        | apply State.emit_keeps
        | apply State.until_keeps
        | refine Keeps.ite ?_ ?_
      | split
    | split
    | dsimp only

theorem syncAllocBody_keeps {s₀ : State} (sess_ p : Nat) (arg : Octets) (s : State) (hk : Keeps s₀ s) : Keeps s₀ (syncAllocBody sess_ p arg s).st := by
  unfold syncAllocBody
  try dsimp only
  repeat' first
    | with_reducible first
      | assumption
      | intro _
      | apply State.setObj_keeps
      | apply refuse_keeps
      | apply doneAt_keeps
      | refine Keeps.ite ?_ ?_
      | refine Keeps.ite_st ?_ ?_
      | refine Keeps.foldl (fun _ _ _ => ?_) ?_
      | refine Keeps.foldl_snd (fun _ _ _ => ?_) ?_
    | (with_reducible first | apply Keeps.mk_rest | apply Keeps.mk_mem | apply Keeps.mk_sec | apply Keeps.mk_mem_sec) <;> first
      | with_reducible first
        | assumption
        | apply State.setObj_keeps
        | apply refuse_keeps
        | apply doneAt_keeps
        | refine Keeps.ite ?_ ?_
        | refine Keeps.foldl (fun _ _ _ => ?_) ?_
      | split
    | split
    | dsimp only

theorem syncAllocWrite_keeps (s₀ : State) (sess : Nat) (arg : Octets) (s : State) (h : Keeps s₀ s) : Keeps s₀ (syncAllocWrite sess arg s).2 := by
  unfold syncAllocWrite
  repeat' first
    | with_reducible first
      | assumption
      | intro _
      | apply cmdWrite_keeps
      | apply syncAllocBody_keeps
    | dsimp only

theorem execSyncAlloc_keeps {s₀ : State} (sess : Nat) (arg : Octets) (s : State) (hk : Keeps s₀ s) : KeepsO s₀ (execSyncAlloc sess arg s) := by
  unfold execSyncAlloc
  try dsimp only
  repeat' first
    | with_reducible first
      | assumption
      | intro _
      | apply cmdRow_keeps
      | apply syncAllocWrite_keeps
      | refine KeepsO.next ?_
    | dsimp only

theorem syncFreeBody_keeps {s₀ : State} (sess_ p : Nat) (arg : Octets) (s : State) (hk : Keeps s₀ s) : Keeps s₀ (syncFreeBody sess_ p arg s).st := by
  unfold syncFreeBody
  try dsimp only
  repeat' first
    | with_reducible first
      | assumption
      | intro _
      | apply refuse_keeps
      | apply doneAt_keeps
      | apply freeObject_keeps
      | refine Keeps.ite ?_ ?_
      | refine Keeps.ite_st ?_ ?_
      | refine Keeps.foldl (fun _ _ _ => ?_) ?_
      | refine Keeps.foldl_snd (fun _ _ _ => ?_) ?_
    | split
    | dsimp only

theorem syncFreeWrite_keeps (s₀ : State) (sess : Nat) (arg : Octets) (s : State) (h : Keeps s₀ s) : Keeps s₀ (syncFreeWrite sess arg s).2 := by
  unfold syncFreeWrite
  repeat' first
    | with_reducible first
      | assumption
      | intro _
      | apply cmdWrite_keeps
      | apply syncFreeBody_keeps
    | dsimp only

theorem execSyncFree_keeps {s₀ : State} (sess : Nat) (arg : Octets) (s : State) (hk : Keeps s₀ s) : KeepsO s₀ (execSyncFree sess arg s) := by
  unfold execSyncFree
  try dsimp only
  repeat' first
    | with_reducible first
      | assumption
      | intro _
      | apply cmdRow_keeps
      | apply syncFreeWrite_keeps
      | refine KeepsO.next ?_
    | dsimp only

theorem configObj_keeps {s₀ : State} (s : State) (n : Nat) (armed : Bool) (stride thr target : Nat) (hk : Keeps s₀ s) : Keeps s₀ (configObj s n armed stride thr target) := by
  unfold configObj
  try dsimp only
  repeat' first
    | with_reducible first
      | assumption
      | intro _
      | apply State.setObj_keeps
      | apply objChanged_keeps
    | (with_reducible first | apply Keeps.mk_rest | apply Keeps.mk_mem | apply Keeps.mk_sec | apply Keeps.mk_mem_sec) <;> first
      | with_reducible first
        | assumption
        | apply State.setObj_keeps
        | apply objChanged_keeps
    | dsimp only

theorem syncConfigBody_keeps {s₀ : State} (sess_ p : Nat) (arg : Octets) (s : State) (hk : Keeps s₀ s) : Keeps s₀ (syncConfigBody sess_ p arg s).st := by
  unfold syncConfigBody
  try dsimp only
  repeat' first
    | with_reducible first
      | assumption
      | intro _
      | apply refuse_keeps
      | apply doneAt_keeps
      | apply configObj_keeps
      | refine Keeps.ite ?_ ?_
      | refine Keeps.ite_st ?_ ?_
    | split
    | dsimp only

theorem syncConfigWrite_keeps (s₀ : State) (sess : Nat) (arg : Octets) (s : State) (h : Keeps s₀ s) : Keeps s₀ (syncConfigWrite sess arg s).2 := by
  unfold syncConfigWrite
  repeat' first
    | with_reducible first
      | assumption
      | intro _
      | apply cmdWrite_keeps
      | apply syncConfigBody_keeps
    | dsimp only

theorem execSyncConfig_keeps {s₀ : State} (sess : Nat) (arg : Octets) (s : State) (hk : Keeps s₀ s) : KeepsO s₀ (execSyncConfig sess arg s) := by
  unfold execSyncConfig
  try dsimp only
  repeat' first
    | with_reducible first
      | assumption
      | intro _
      | apply cmdRow_keeps
      | apply syncConfigWrite_keeps
      | refine KeepsO.next ?_
    | dsimp only

theorem execSyncThreshHiWrite_keeps {s₀ : State} (agent : RegAgent) (obj value : Nat) (s : State) (hk : Keeps s₀ s) : KeepsO s₀ (execSyncThreshHiWrite agent obj value s) := by
  unfold execSyncThreshHiWrite
  try dsimp only
  repeat' first
    | with_reducible first
      | assumption
      | intro _
      | apply State.setObj_keeps
      | apply objChanged_keeps
      | apply regRow_keeps
      | refine Keeps.ite ?_ ?_
      | refine KeepsO.ite ?_ ?_
      | refine KeepsO.next ?_
    | (with_reducible first | apply Keeps.mk_rest | apply Keeps.mk_mem | apply Keeps.mk_sec | apply Keeps.mk_mem_sec) <;> first
      | with_reducible first
        | assumption
        | apply State.setObj_keeps
        | apply objChanged_keeps
        | apply regRow_keeps
        | refine Keeps.ite ?_ ?_
      | split
    | split
    | dsimp only

theorem execSyncTargetHiWrite_keeps {s₀ : State} (agent : RegAgent) (obj value : Nat) (s : State) (hk : Keeps s₀ s) : KeepsO s₀ (execSyncTargetHiWrite agent obj value s) := by
  unfold execSyncTargetHiWrite
  try dsimp only
  repeat' first
    | with_reducible first
      | assumption
      | intro _
      | apply State.setObj_keeps
      | apply regRow_keeps
      | refine Keeps.ite ?_ ?_
      | refine KeepsO.ite ?_ ?_
      | refine KeepsO.next ?_
    | (with_reducible first | apply Keeps.mk_rest | apply Keeps.mk_mem | apply Keeps.mk_sec | apply Keeps.mk_mem_sec) <;> first
      | with_reducible first
        | assumption
        | apply State.setObj_keeps
        | apply regRow_keeps
        | refine Keeps.ite ?_ ?_
      | split
    | split
    | dsimp only

end Sys2Proof.Machine
end

