-- ==== Sys2Proof/Laws/KeepsChans.lean ====
section
/-! SUPPORT. Each operation of Machine/Chans.lean makes a change that `Keeps`. -/

namespace Sys2Proof.Machine

theorem armRoot_keeps {s₀ : State} (s : State) (g : GroupSt) (hk : Keeps s₀ s) : Keeps s₀ (armRoot s g) := by
  unfold armRoot
  try dsimp only
  repeat' first
    | with_reducible first
      | assumption
      | intro _
      | apply State.setObj_keeps
      | apply objChanged_keeps
      | refine Keeps.ite ?_ ?_
    | (with_reducible first | apply Keeps.mk_rest | apply Keeps.mk_mem | apply Keeps.mk_sec | apply Keeps.mk_mem_sec) <;> first
      | with_reducible first
        | assumption
        | apply State.setObj_keeps
        | apply objChanged_keeps
        | refine Keeps.ite ?_ ?_
      | split
    | split
    | dsimp only

theorem groupCreateBody_keeps {s₀ : State} (peers : List PeerReport) (sess_ p : Nat) (arg : Octets) (s : State) (hk : Keeps s₀ s) : Keeps s₀ (groupCreateBody peers sess_ p arg s).st := by
  unfold groupCreateBody
  try dsimp only
  repeat' first
    | with_reducible first
      | assumption
      | intro _
      | apply refuse_keeps
      | apply doneAt_keeps
      | apply openChan_keeps
      | apply addPeers_keeps
      | apply armRoot_keeps
      | refine Keeps.ite ?_ ?_
      | refine Keeps.ite_snd ?_ ?_
      | refine Keeps.ite_st ?_ ?_
      | apply Keeps.ite_fst
    | split
    | dsimp only

theorem groupCreateWait_keeps (s₀ : State) (sess : Nat) (arg : Octets) (s : State) (h : Keeps s₀ s) : Keeps s₀ (groupCreateWait sess arg s).2 := by
  unfold groupCreateWait
  repeat' first
    | with_reducible first
      | assumption
      | intro _
      | apply cmdWrite_keeps
      | apply peerWaitBody_keeps
    | dsimp only

theorem execSyncGroupCreate_keeps {s₀ : State} (sess : Nat) (arg : Octets) (peers : List PeerReport) (s : State) (hk : Keeps s₀ s) : KeepsO s₀ (execSyncGroupCreate sess arg peers s) := by
  unfold execSyncGroupCreate
  try dsimp only
  repeat' first
    | with_reducible first
      | assumption
      | intro _
      | apply cmdWrite_keeps
      | apply peerRow_keeps
      | apply groupCreateBody_keeps
      | refine KeepsO.next ?_
    | dsimp only

theorem groupDestroyWrite_keeps (s₀ : State) (sess : Nat) (arg : Octets) (s : State) (h : Keeps s₀ s) : Keeps s₀ (groupDestroyWrite sess arg s).2 := by
  unfold groupDestroyWrite
  repeat' first
    | with_reducible first
      | assumption
      | intro _
      | apply cmdWrite_keeps
      | apply destroyBody_keeps
    | dsimp only

theorem execSyncGroupDestroy_keeps {s₀ : State} (sess : Nat) (arg : Octets) (s : State) (hk : Keeps s₀ s) : KeepsO s₀ (execSyncGroupDestroy sess arg s) := by
  unfold execSyncGroupDestroy
  try dsimp only
  repeat' first
    | with_reducible first
      | assumption
      | intro _
      | apply cmdRow_keeps
      | apply groupDestroyWrite_keeps
      | refine KeepsO.next ?_
    | dsimp only

theorem streamOpenBody_keeps {s₀ : State} (peer : PeerReport) (sess_ p : Nat) (arg : Octets) (s : State) (hk : Keeps s₀ s) : Keeps s₀ (streamOpenBody peer sess_ p arg s).st := by
  unfold streamOpenBody
  try dsimp only
  repeat' first
    | with_reducible first
      | assumption
      | intro _
      | apply refuse_keeps
      | apply doneAt_keeps
      | apply openChan_keeps
      | apply addPeers_keeps
      | refine Keeps.ite ?_ ?_
      | refine Keeps.ite_snd ?_ ?_
      | refine Keeps.ite_st ?_ ?_
      | apply Keeps.ite_fst
    | (with_reducible first | apply Keeps.mk_rest | apply Keeps.mk_mem | apply Keeps.mk_sec | apply Keeps.mk_mem_sec) <;> first
      | with_reducible first
        | assumption
        | apply refuse_keeps
        | apply doneAt_keeps
        | apply openChan_keeps
        | apply addPeers_keeps
        | refine Keeps.ite ?_ ?_
      | split
    | split
    | dsimp only

theorem streamOpenWait_keeps (s₀ : State) (sess : Nat) (arg : Octets) (s : State) (h : Keeps s₀ s) : Keeps s₀ (streamOpenWait sess arg s).2 := by
  unfold streamOpenWait
  repeat' first
    | with_reducible first
      | assumption
      | intro _
      | apply cmdWrite_keeps
      | apply peerWaitBody_keeps
    | dsimp only

theorem receiveEnd_keeps {s₀ : State} (s : State) (r : PeerReport) (part cls : Nat) (hk : Keeps s₀ s) : Keeps s₀ (receiveEnd s r part cls) := by
  unfold receiveEnd
  try dsimp only
  repeat' first
    | with_reducible first
      | assumption
      | intro _
      | apply openChan_keeps
      | apply addPeers_keeps
      | refine Keeps.ite ?_ ?_
      | refine Keeps.ite_snd ?_ ?_
      | refine Keeps.ite_st ?_ ?_
    | (with_reducible first | apply Keeps.mk_rest | apply Keeps.mk_mem | apply Keeps.mk_sec | apply Keeps.mk_mem_sec) <;> first
      | with_reducible first
        | assumption
        | apply openChan_keeps
        | apply addPeers_keeps
        | refine Keeps.ite ?_ ?_
      | split
    | split
    | dsimp only

theorem execStreamOpen_keeps {s₀ : State} (by_ : StreamOpener) (s : State) (hk : Keeps s₀ s) : KeepsO s₀ (execStreamOpen by_ s) := by
  unfold execStreamOpen
  try dsimp only
  repeat' first
    | with_reducible first
      | assumption
      | intro _
      | apply cmdWrite_keeps
      | apply peerRow_keeps
      | apply streamOpenBody_keeps
      | apply receiveEnd_keeps
      | refine Keeps.ite ?_ ?_
      | refine Keeps.ite_st ?_ ?_
      | refine KeepsO.ite ?_ ?_
      | refine KeepsO.next ?_
    | split
    | dsimp only

theorem streamCloseWrite_keeps (s₀ : State) (sess : Nat) (arg : Octets) (s : State) (h : Keeps s₀ s) : Keeps s₀ (streamCloseWrite sess arg s).2 := by
  unfold streamCloseWrite
  repeat' first
    | with_reducible first
      | assumption
      | intro _
      | apply cmdWrite_keeps
      | apply destroyBody_keeps
    | dsimp only

theorem execStreamClose_keeps {s₀ : State} (sess : Nat) (arg : Octets) (s : State) (hk : Keeps s₀ s) : KeepsO s₀ (execStreamClose sess arg s) := by
  unfold execStreamClose
  try dsimp only
  repeat' first
    | with_reducible first
      | assumption
      | intro _
      | apply cmdRow_keeps
      | apply streamCloseWrite_keeps
      | refine KeepsO.next ?_
    | dsimp only

theorem qpCreateBody_keeps {s₀ : State} (sess p : Nat) (arg : Octets) (s : State) (hk : Keeps s₀ s) : Keeps s₀ (qpCreateBody sess p arg s).st := by
  unfold qpCreateBody
  try dsimp only
  repeat' first
    | with_reducible first
      | assumption
      | intro _
      | apply State.modSess_keeps
      | apply State.fresh_keeps
      | apply refuse_keeps
      | apply doneAt_keeps
      | apply openChan_keeps
      | refine Keeps.ite ?_ ?_
      | refine Keeps.ite_snd ?_ ?_
      | refine Keeps.ite_st ?_ ?_
      | apply Keeps.ite_fst
    | (with_reducible first | apply Keeps.mk_rest | apply Keeps.mk_mem | apply Keeps.mk_sec | apply Keeps.mk_mem_sec) <;> first
      | with_reducible first
        | assumption
        | apply State.modSess_keeps
        | apply State.fresh_keeps
        | apply refuse_keeps
        | apply doneAt_keeps
        | apply openChan_keeps
        | refine Keeps.ite ?_ ?_
      | split
    | split
    | dsimp only

theorem qpCreateWrite_keeps (s₀ : State) (sess : Nat) (arg : Octets) (s : State) (h : Keeps s₀ s) : Keeps s₀ (qpCreateWrite sess arg s).2 := by
  unfold qpCreateWrite
  repeat' first
    | with_reducible first
      | assumption
      | intro _
      | apply cmdWrite_keeps
      | apply qpCreateBody_keeps
    | dsimp only

theorem execQpCreate_keeps {s₀ : State} (sess : Nat) (arg : Octets) (s : State) (hk : Keeps s₀ s) : KeepsO s₀ (execQpCreate sess arg s) := by
  unfold execQpCreate
  try dsimp only
  repeat' first
    | with_reducible first
      | assumption
      | intro _
      | apply cmdRow_keeps
      | apply qpCreateWrite_keeps
      | refine KeepsO.next ?_
    | dsimp only

theorem qpDestroyWrite_keeps (s₀ : State) (sess : Nat) (arg : Octets) (s : State) (h : Keeps s₀ s) : Keeps s₀ (qpDestroyWrite sess arg s).2 := by
  unfold qpDestroyWrite
  repeat' first
    | with_reducible first
      | assumption
      | intro _
      | apply cmdWrite_keeps
      | apply destroyBody_keeps
    | dsimp only

theorem execQpDestroy_keeps {s₀ : State} (sess : Nat) (arg : Octets) (s : State) (hk : Keeps s₀ s) : KeepsO s₀ (execQpDestroy sess arg s) := by
  unfold execQpDestroy
  try dsimp only
  repeat' first
    | with_reducible first
      | assumption
      | intro _
      | apply cmdRow_keeps
      | apply qpDestroyWrite_keeps
      | refine KeepsO.next ?_
    | dsimp only

theorem taskChanOpenBody_keeps {s₀ : State} (sess_ p : Nat) (arg : Octets) (s : State) (hk : Keeps s₀ s) : Keeps s₀ (taskChanOpenBody sess_ p arg s).st := by
  unfold taskChanOpenBody
  try dsimp only
  repeat' first
    | with_reducible first
      | assumption
      | intro _
      | apply refuse_keeps
      | apply doneAt_keeps
      | apply openChan_keeps
      | refine Keeps.ite ?_ ?_
      | refine Keeps.ite_snd ?_ ?_
      | refine Keeps.ite_st ?_ ?_
      | apply Keeps.ite_fst
    | split
    | dsimp only

theorem taskChanOpenWrite_keeps (s₀ : State) (sess : Nat) (arg : Octets) (s : State) (h : Keeps s₀ s) : Keeps s₀ (taskChanOpenWrite sess arg s).2 := by
  unfold taskChanOpenWrite
  repeat' first
    | with_reducible first
      | assumption
      | intro _
      | apply cmdWrite_keeps
      | apply taskChanOpenBody_keeps
    | dsimp only

theorem execTaskChanOpen_keeps {s₀ : State} (sess : Nat) (arg : Octets) (s : State) (hk : Keeps s₀ s) : KeepsO s₀ (execTaskChanOpen sess arg s) := by
  unfold execTaskChanOpen
  try dsimp only
  repeat' first
    | with_reducible first
      | assumption
      | intro _
      | apply cmdRow_keeps
      | apply taskChanOpenWrite_keeps
      | refine KeepsO.next ?_
    | dsimp only

theorem taskChanCloseWrite_keeps (s₀ : State) (sess : Nat) (arg : Octets) (s : State) (h : Keeps s₀ s) : Keeps s₀ (taskChanCloseWrite sess arg s).2 := by
  unfold taskChanCloseWrite
  repeat' first
    | with_reducible first
      | assumption
      | intro _
      | apply cmdWrite_keeps
      | apply destroyBody_keeps
    | dsimp only

theorem execTaskChanClose_keeps {s₀ : State} (sess : Nat) (arg : Octets) (s : State) (hk : Keeps s₀ s) : KeepsO s₀ (execTaskChanClose sess arg s) := by
  unfold execTaskChanClose
  try dsimp only
  repeat' first
    | with_reducible first
      | assumption
      | intro _
      | apply cmdRow_keeps
      | apply taskChanCloseWrite_keeps
      | refine KeepsO.next ?_
    | dsimp only

theorem descConsumed_keeps {s₀ : State} (s : State) (h p : Nat) (c : TaskChan) (hk : Keeps s₀ s) : Keeps s₀ (descConsumed s h p c) := by
  unfold descConsumed
  try dsimp only
  repeat' first
    | with_reducible first
      | assumption
      | intro _
      | apply setChan_keeps
      | apply signal_keeps
    | (with_reducible first | apply Keeps.mk_rest | apply Keeps.mk_mem | apply Keeps.mk_sec | apply Keeps.mk_mem_sec) <;> first
      | with_reducible first
        | assumption
        | apply setChan_keeps
        | apply signal_keeps
    | dsimp only

theorem descRefused_keeps {s₀ : State} (s : State) (vat p taskId status : Nat) (hk : Keeps s₀ s) : Keeps s₀ (descRefused s vat p taskId status) := by
  unfold descRefused
  try dsimp only
  repeat' first
    | with_reducible first
      | assumption
      | intro _
      | apply State.writeErr_keeps
    | (with_reducible first | apply Keeps.mk_rest | apply Keeps.mk_mem | apply Keeps.mk_sec | apply Keeps.mk_mem_sec) <;> first
      | with_reducible first
        | assumption
        | apply State.writeErr_keeps
    | dsimp only

theorem execTaskChanDescriptorRead_keeps {s₀ : State} (chan : Nat) (s : State) (hk : Keeps s₀ s) : KeepsO s₀ (execTaskChanDescriptorRead chan s) := by
  unfold execTaskChanDescriptorRead
  try dsimp only
  repeat' first
    | with_reducible first
      | assumption
      | intro _
      | apply State.modVat_keeps
      | apply postTask_keeps
      | apply descConsumed_keeps
      | apply descRefused_keeps
      | refine Keeps.ite ?_ ?_
      | refine Keeps.ite_snd ?_ ?_
      | apply Keeps.ite_fst
      | refine KeepsO.ite ?_ ?_
      | refine KeepsO.next ?_
    | (with_reducible first | apply Keeps.mk_rest | apply Keeps.mk_mem | apply Keeps.mk_sec | apply Keeps.mk_mem_sec) <;> first
      | with_reducible first
        | assumption
        | apply State.modVat_keeps
        | apply postTask_keeps
        | apply descConsumed_keeps
        | apply descRefused_keeps
        | refine Keeps.ite ?_ ?_
      | split
    | split
    | dsimp only

end Sys2Proof.Machine
end

