-- ==== Sys2Proof/Laws/KeepsMailbox.lean ====
section
/-! SUPPORT. Each operation of Machine/Mailbox.lean makes a change that `Keeps`. -/

namespace Sys2Proof.Machine

theorem mbxWrong_keeps {s₀ : State} (s : State) (m : Nat) (hk : Keeps s₀ s) : Keeps s₀ (mbxWrong s m) := by
  unfold mbxWrong
  try dsimp only
  repeat' first
    | with_reducible first
      | assumption
      | intro _
      | apply State.setMbx_keeps
    | (with_reducible first | apply Keeps.mk_rest | apply Keeps.mk_mem | apply Keeps.mk_sec | apply Keeps.mk_mem_sec) <;> first
      | with_reducible first
        | assumption
        | apply State.setMbx_keeps
    | dsimp only

theorem mbxPutWords_keeps {s₀ : State} (s : State) (m : Nat) (e : MbxEnd) (ws : List (Nat × Word)) (hk : Keeps s₀ s) : Keeps s₀ (mbxPutWords s m e ws).2 := by
  unfold mbxPutWords
  try dsimp only
  repeat' first
    | with_reducible first
      | assumption
      | intro _
      | apply State.setMbx_keeps
      | apply mbxWrong_keeps
      | refine Keeps.ite ?_ ?_
      | refine Keeps.ite_snd ?_ ?_
      | apply Keeps.ite_fst
      | refine Keeps.foldl (fun _ _ _ => ?_) ?_
      | refine Keeps.foldl_snd (fun _ _ _ => ?_) ?_
    | (with_reducible first | apply Keeps.mk_rest | apply Keeps.mk_mem | apply Keeps.mk_sec | apply Keeps.mk_mem_sec) <;> first
      | with_reducible first
        | assumption
        | apply State.setMbx_keeps
        | apply mbxWrong_keeps
        | refine Keeps.ite ?_ ?_
        | refine Keeps.foldl (fun _ _ _ => ?_) ?_
      | split
    | split
    | dsimp only

theorem mbxAnswer_keeps {s₀ : State} (e : MbxEnd) (k : Nat) {r : Nat × State} (h : Keeps s₀ r.2) :
    Keeps s₀ (mbxAnswer e k r) := by
  unfold mbxAnswer
  split
  · exact Keeps.ite (fun _ => State.emit_keeps _ h) (fun _ => h)
  · exact h

theorem execMbxMsgWrite_keeps {s₀ : State} (mbx : Nat) (end_ : MbxEnd) (word value : Nat) (s : State) (hk : Keeps s₀ s) : KeepsO s₀ (execMbxMsgWrite mbx end_ word value s) := by
  unfold execMbxMsgWrite
  try dsimp only
  repeat' first
    | with_reducible first
      | assumption
      | intro _
      | apply mbxPutWords_keeps
      | apply mbxAnswer_keeps
      | refine Keeps.ite ?_ ?_
      | refine KeepsO.ite ?_ ?_
      | refine KeepsO.next ?_
    | split
    | dsimp only

theorem mbxRing_keeps {s₀ : State} (s : State) (m : Nat) (e : MbxEnd) (len : Nat) (hk : Keeps s₀ s) : Keeps s₀ (mbxRing s m e len).2 := by
  unfold mbxRing
  try dsimp only
  repeat' first
    | with_reducible first
      | assumption
      | intro _
      | apply State.setMbx_keeps
      | apply wake_keeps
      | apply mbxWrong_keeps
      | refine Keeps.ite ?_ ?_
      | refine Keeps.ite_snd ?_ ?_
    | (with_reducible first | apply Keeps.mk_rest | apply Keeps.mk_mem | apply Keeps.mk_sec | apply Keeps.mk_mem_sec) <;> first
      | with_reducible first
        | assumption
        | apply State.setMbx_keeps
        | apply wake_keeps
        | apply mbxWrong_keeps
        | refine Keeps.ite ?_ ?_
      | split
    | split
    | dsimp only

theorem execMbxDoorbell_keeps {s₀ : State} (mbx : Nat) (end_ : MbxEnd) (len : Nat) (s : State) (hk : Keeps s₀ s) : KeepsO s₀ (execMbxDoorbell mbx end_ len s) := by
  unfold execMbxDoorbell
  try dsimp only
  repeat' first
    | with_reducible first
      | assumption
      | intro _
      | apply mbxAnswer_keeps
      | apply mbxRing_keeps
      | refine Keeps.ite ?_ ?_
      | refine KeepsO.ite ?_ ?_
      | refine KeepsO.next ?_
    | split
    | dsimp only

theorem execMbxInterrupt_keeps {s₀ : State} (mbx : Nat) (s : State) (hk : Keeps s₀ s) : KeepsO s₀ (execMbxInterrupt mbx s) := by
  unfold execMbxInterrupt
  try dsimp only
  repeat' first
    | with_reducible first
      | assumption
      | intro _
      | apply State.modVat_keeps
      | apply State.setMbx_keeps
      | apply State.emit_keeps
      | refine Keeps.ite ?_ ?_
      | refine KeepsO.ite ?_ ?_
      | refine KeepsO.next ?_
    | (with_reducible first | apply Keeps.mk_rest | apply Keeps.mk_mem | apply Keeps.mk_sec | apply Keeps.mk_mem_sec) <;> first
      | with_reducible first
        | assumption
        | apply State.modVat_keeps
        | apply State.setMbx_keeps
        | apply State.emit_keeps
        | refine Keeps.ite ?_ ?_
      | split
    | split
    | dsimp only

theorem execMbxAck_keeps {s₀ : State} (mbx : Nat) (end_ : MbxEnd) (rc : Nat) (s : State) (hk : Keeps s₀ s) : KeepsO s₀ (execMbxAck mbx end_ rc s) := by
  unfold execMbxAck
  try dsimp only
  repeat' first
    | with_reducible first
      | assumption
      | intro _
      | apply State.setMbx_keeps
      | apply mbxWrong_keeps
      | apply mbxAnswer_keeps
      | refine Keeps.ite ?_ ?_
      | refine Keeps.ite_st ?_ ?_
      | refine KeepsO.ite ?_ ?_
      | refine KeepsO.next ?_
    | (with_reducible first | apply Keeps.mk_rest | apply Keeps.mk_mem | apply Keeps.mk_sec | apply Keeps.mk_mem_sec) <;> first
      | with_reducible first
        | assumption
        | apply State.setMbx_keeps
        | apply mbxWrong_keeps
        | apply mbxAnswer_keeps
        | refine Keeps.ite ?_ ?_
      | split
    | split
    | dsimp only

end Sys2Proof.Machine
end

