-- ==== Sys2Proof/Laws/KeepsPower.lean ====
section
/-! SUPPORT. Each operation of Machine/Power.lean makes a change that `Keeps`. -/

namespace Sys2Proof.Machine

theorem beginEntry_keeps {s₀ : State} (s : State) (t : PState) (hk : Keeps s₀ s) : Keeps s₀ (beginEntry s t) := Keeps.mk_rest hk

theorem pwrStateBody_keeps {s₀ : State} (sess p_ : Nat) (arg : Octets) (s : State) (hk : Keeps s₀ s) : Keeps s₀ (pwrStateBody sess p_ arg s).st := by
  unfold pwrStateBody
  try dsimp only
  repeat' first
    | with_reducible first
      | assumption
      | intro _
      | apply refuse_keeps
      | apply doneAt_keeps
      | apply started_keeps
      | apply wake_keeps
      | apply beginEntry_keeps
      | refine Keeps.ite ?_ ?_
      | refine Keeps.ite_st ?_ ?_
    | (with_reducible first | apply Keeps.mk_rest | apply Keeps.mk_mem | apply Keeps.mk_sec | apply Keeps.mk_mem_sec) <;> first
      | with_reducible first
        | assumption
        | apply refuse_keeps
        | apply doneAt_keeps
        | apply started_keeps
        | apply wake_keeps
        | apply beginEntry_keeps
        | refine Keeps.ite ?_ ?_
      | split
    | split
    | dsimp only

theorem pwrStateWrite_keeps (s₀ : State) (sess : Nat) (arg : Octets) (s : State) (h : Keeps s₀ s) : Keeps s₀ (pwrStateWrite sess arg s).2 := by
  unfold pwrStateWrite
  repeat' first
    | with_reducible first
      | assumption
      | intro _
      | apply cmdWrite_keeps
      | apply pwrStateBody_keeps
    | dsimp only

theorem execPwrStateReq_keeps {s₀ : State} (sess : Nat) (arg : Octets) (s : State) (hk : Keeps s₀ s) : KeepsO s₀ (execPwrStateReq sess arg s) := by
  unfold execPwrStateReq
  try dsimp only
  repeat' first
    | with_reducible first
      | assumption
      | intro _
      | apply cmdRow_keeps
      | apply pwrStateWrite_keeps
      | refine KeepsO.next ?_
    | dsimp only

theorem execAutoS1Entry_keeps {s₀ : State} (s : State) (hk : Keeps s₀ s) : KeepsO s₀ (execAutoS1Entry s) := by
  unfold execAutoS1Entry
  try dsimp only
  repeat' first
    | with_reducible first
      | assumption
      | intro _
      | apply State.until_keeps
      | apply beginEntry_keeps
      | refine Keeps.ite ?_ ?_
      | refine Keeps.ite_st ?_ ?_
      | refine KeepsO.ite ?_ ?_
      | refine KeepsO.next ?_
    | split
    | dsimp only

theorem actOnKept_keeps {s₀ : State} (s : State) (hk : Keeps s₀ s) : Keeps s₀ (actOnKept s) := by
  unfold actOnKept
  try dsimp only
  repeat' first
    | with_reducible first
      | assumption
      | intro _
      | refine Keeps.ite ?_ ?_
    | (with_reducible first | apply Keeps.mk_rest | apply Keeps.mk_mem | apply Keeps.mk_sec | apply Keeps.mk_mem_sec) <;> first
      | with_reducible first
        | assumption
        | refine Keeps.ite ?_ ?_
      | split
    | split
    | dsimp only

theorem entryDone_keeps {s₀ : State} (s : State) (hk : Keeps s₀ s) : Keeps s₀ (entryDone s) := by
  unfold entryDone
  try dsimp only
  repeat' first
    | with_reducible first
      | assumption
      | intro _
      | apply cmdEnd_keeps
      | apply actOnKept_keeps
      | refine Keeps.ite ?_ ?_
      | refine Keeps.ite_st ?_ ?_
    | (with_reducible first | apply Keeps.mk_rest | apply Keeps.mk_mem | apply Keeps.mk_sec | apply Keeps.mk_mem_sec) <;> first
      | with_reducible first
        | assumption
        | apply cmdEnd_keeps
        | apply actOnKept_keeps
        | refine Keeps.ite ?_ ?_
      | split
    | split
    | dsimp only

theorem execPowerStateEntryDone_keeps {s₀ : State} (s : State) (hk : Keeps s₀ s) : KeepsO s₀ (execPowerStateEntryDone s) := by
  unfold execPowerStateEntryDone
  try dsimp only
  repeat' first
    | with_reducible first
      | assumption
      | intro _
      | apply enterS3_keeps
      | apply enterS1_keeps
      | apply enterS2_keeps
      | apply orderedEnd_keeps
      | apply entryDone_keeps
      | refine Keeps.ite ?_ ?_
      | refine Keeps.ite_st ?_ ?_
      | refine KeepsO.ite ?_ ?_
      | refine KeepsO.next ?_
    | split
    | dsimp only

theorem execWakeEvent_keeps {s₀ : State} (w : Wake) (s : State) (hk : Keeps s₀ s) : KeepsO s₀ (execWakeEvent w s) := by
  unfold execWakeEvent
  try dsimp only
  repeat' first
    | with_reducible first
      | assumption
      | intro _
      | apply wake_keeps
      | refine Keeps.ite ?_ ?_
      | refine Keeps.ite_st ?_ ?_
      | refine KeepsO.ite ?_ ?_
      | refine KeepsO.next ?_
    | split
    | dsimp only

theorem execPowerStateExitDone_keeps {s₀ : State} (s : State) (hk : Keeps s₀ s) : KeepsO s₀ (execPowerStateExitDone s) := by
  unfold execPowerStateExitDone
  try dsimp only
  repeat' first
    | with_reducible first
      | assumption
      | intro _
      | apply exitToS0_keeps
      | refine Keeps.ite ?_ ?_
      | refine Keeps.ite_st ?_ ?_
      | refine KeepsO.ite ?_ ?_
      | refine KeepsO.next ?_
    | split
    | dsimp only

theorem execRefclkLoss_keeps {s₀ : State} (s : State) (hk : Keeps s₀ s) : KeepsO s₀ (execRefclkLoss s) := by
  unfold execRefclkLoss
  try dsimp only
  repeat' first
    | with_reducible first
      | assumption
      | intro _
      | apply State.writeErr_keeps
      | apply subDown_keeps
      | refine Keeps.ite ?_ ?_
      | refine KeepsO.ite ?_ ?_
      | refine KeepsO.next ?_
      | refine Keeps.foldl (fun _ _ _ => ?_) ?_
      | refine Keeps.foldl_snd (fun _ _ _ => ?_) ?_
    | (with_reducible first | apply Keeps.mk_rest | apply Keeps.mk_mem | apply Keeps.mk_sec | apply Keeps.mk_mem_sec) <;> first
      | with_reducible first
        | assumption
        | apply State.writeErr_keeps
        | apply subDown_keeps
        | refine Keeps.ite ?_ ?_
        | refine Keeps.foldl (fun _ _ _ => ?_) ?_
      | split
    | split
    | dsimp only

theorem execRefclkRestored_keeps {s₀ : State} (s : State) (hk : Keeps s₀ s) : KeepsO s₀ (execRefclkRestored s) := by
  unfold execRefclkRestored
  try dsimp only
  repeat' first
    | with_reducible first
      | assumption
      | intro _
      | apply trainAll_keeps
      | refine Keeps.ite ?_ ?_
      | refine KeepsO.ite ?_ ?_
      | refine KeepsO.next ?_
    | (with_reducible first | apply Keeps.mk_rest | apply Keeps.mk_mem | apply Keeps.mk_sec | apply Keeps.mk_mem_sec) <;> first
      | with_reducible first
        | assumption
        | apply trainAll_keeps
        | refine Keeps.ite ?_ ?_
      | split
    | split
    | dsimp only

theorem replayTask_keeps {s₀ : State} (s : State) (n : Nat) (hk : Keeps s₀ s) : Keeps s₀ (replayTask s n) := by
  unfold replayTask
  try dsimp only
  repeat' first
    | with_reducible first
      | assumption
      | intro _
      | apply State.modEng_keeps
      | apply placeCopy_keeps
      | apply endDual_keeps
      | refine Keeps.ite ?_ ?_
    | (with_reducible first | apply Keeps.mk_rest | apply Keeps.mk_mem | apply Keeps.mk_sec | apply Keeps.mk_mem_sec) <;> first
      | with_reducible first
        | assumption
        | apply State.modEng_keeps
        | apply placeCopy_keeps
        | apply endDual_keeps
        | refine Keeps.ite ?_ ?_
      | split
    | split
    | dsimp only

theorem execCorePllLockLoss_keeps {s₀ : State} (s : State) (hk : Keeps s₀ s) : KeepsO s₀ (execCorePllLockLoss s) := by
  unfold execCorePllLockLoss
  try dsimp only
  repeat' first
    | with_reducible first
      | assumption
      | intro _
      | apply State.writeErr_keeps
      | apply restartProducts_keeps
      | apply replayTask_keeps
      | refine Keeps.ite ?_ ?_
      | refine Keeps.ite_snd ?_ ?_
      | apply Keeps.ite_fst
      | refine KeepsO.ite ?_ ?_
      | refine KeepsO.next ?_
      | refine Keeps.foldl (fun _ _ _ => ?_) ?_
      | refine Keeps.foldl_snd (fun _ _ _ => ?_) ?_
    | (with_reducible first | apply Keeps.mk_rest | apply Keeps.mk_mem | apply Keeps.mk_sec | apply Keeps.mk_mem_sec) <;> first
      | with_reducible first
        | assumption
        | apply State.writeErr_keeps
        | apply restartProducts_keeps
        | apply replayTask_keeps
        | refine Keeps.ite ?_ ?_
        | refine Keeps.foldl (fun _ _ _ => ?_) ?_
      | split
    | split
    | dsimp only

theorem execCorePllRelock_keeps {s₀ : State} (s : State) (hk : Keeps s₀ s) : KeepsO s₀ (execCorePllRelock s) := by
  unfold execCorePllRelock
  try dsimp only
  repeat' first
    | with_reducible first
      | assumption
      | intro _
      | refine Keeps.ite ?_ ?_
      | refine Keeps.ite_st ?_ ?_
      | refine KeepsO.ite ?_ ?_
      | refine KeepsO.next ?_
    | (with_reducible first | apply Keeps.mk_rest | apply Keeps.mk_mem | apply Keeps.mk_sec | apply Keeps.mk_mem_sec) <;> first
      | with_reducible first
        | assumption
        | refine Keeps.ite ?_ ?_
      | split
    | split
    | dsimp only

theorem execPowerCapTick_keeps {s₀ : State} (inputWatts : Nat) (s : State) (hk : Keeps s₀ s) : KeepsO s₀ (execPowerCapTick inputWatts s) := by
  unfold execPowerCapTick
  try dsimp only
  repeat' first
    | with_reducible first
      | assumption
      | intro _
      | apply State.until_keeps
      | apply throttle_keeps
      | refine Keeps.ite ?_ ?_
      | refine Keeps.ite_st ?_ ?_
      | refine KeepsO.ite ?_ ?_
      | refine KeepsO.next ?_
    | (with_reducible first | apply Keeps.mk_rest | apply Keeps.mk_mem | apply Keeps.mk_sec | apply Keeps.mk_mem_sec) <;> first
      | with_reducible first
        | assumption
        | apply State.until_keeps
        | apply throttle_keeps
        | refine Keeps.ite ?_ ?_
      | split
    | split
    | dsimp only

theorem execBrakeAssert_keeps {s₀ : State} (s : State) (hk : Keeps s₀ s) : KeepsO s₀ (execBrakeAssert s) := by
  unfold execBrakeAssert
  try dsimp only
  repeat' first
    | with_reducible first
      | assumption
      | intro _
      | apply State.writeErr_keeps
      | apply applyBrake_keeps
      | refine Keeps.ite ?_ ?_
      | refine Keeps.ite_st ?_ ?_
      | refine KeepsO.ite ?_ ?_
      | refine KeepsO.next ?_
    | (with_reducible first | apply Keeps.mk_rest | apply Keeps.mk_mem | apply Keeps.mk_sec | apply Keeps.mk_mem_sec) <;> first
      | with_reducible first
        | assumption
        | apply State.writeErr_keeps
        | apply applyBrake_keeps
        | refine Keeps.ite ?_ ?_
      | split
    | split
    | dsimp only

theorem execBrakeRelease_keeps {s₀ : State} (s : State) (hk : Keeps s₀ s) : KeepsO s₀ (execBrakeRelease s) := by
  unfold execBrakeRelease
  try dsimp only
  repeat' first
    | with_reducible first
      | assumption
      | intro _
      | refine KeepsO.next ?_
    | (with_reducible first | apply Keeps.mk_rest | apply Keeps.mk_mem | apply Keeps.mk_sec | apply Keeps.mk_mem_sec) <;> first
      | with_reducible first
        | assumption
    | dsimp only

theorem execBrakeRampTick_keeps {s₀ : State} (s : State) (hk : Keeps s₀ s) : KeepsO s₀ (execBrakeRampTick s) := by
  unfold execBrakeRampTick
  try dsimp only
  repeat' first
    | with_reducible first
      | assumption
      | intro _
      | apply State.until_keeps
      | apply throttle_keeps
      | refine Keeps.ite ?_ ?_
      | refine Keeps.ite_st ?_ ?_
      | refine KeepsO.ite ?_ ?_
      | refine KeepsO.next ?_
    | (with_reducible first | apply Keeps.mk_rest | apply Keeps.mk_mem | apply Keeps.mk_sec | apply Keeps.mk_mem_sec) <;> first
      | with_reducible first
        | assumption
        | apply State.until_keeps
        | apply throttle_keeps
        | refine Keeps.ite ?_ ?_
      | split
    | split
    | dsimp only

end Sys2Proof.Machine
end

