-- ==== Sys2Proof/Laws/KeepsSecurity.lean ====
section
/-! SUPPORT. Each operation of Machine/Security.lean makes a change that `Keeps`. -/

namespace Sys2Proof.Machine

theorem lcBody_keeps {s₀ : State} (sess p_ : Nat) (arg : Octets) (s : State) (hk : Keeps s₀ s) : Keeps s₀ (lcBody sess p_ arg s).st := by
  unfold lcBody
  try dsimp only
  repeat' first
    | with_reducible first
      | assumption
      | intro _
      | apply refuse_keeps
      | apply doneAt_keeps
      | apply started_keeps
      | apply beginRelease_keeps
      | apply lcBlow_keeps
      | refine Keeps.ite ?_ ?_
      | refine Keeps.ite_st ?_ ?_
      | refine Keeps.foldl (fun _ _ _ => ?_) ?_
      | refine Keeps.foldl_snd (fun _ _ _ => ?_) ?_
    | (with_reducible first | apply Keeps.mk_rest | apply Keeps.mk_mem | apply Keeps.mk_sec | apply Keeps.mk_mem_sec) <;> first
      | with_reducible first
        | assumption
        | apply refuse_keeps
        | apply doneAt_keeps
        | apply started_keeps
        | apply beginRelease_keeps
        | apply lcBlow_keeps
        | refine Keeps.ite ?_ ?_
        | refine Keeps.foldl (fun _ _ _ => ?_) ?_
      | split
    | split
    | dsimp only

theorem lcWrite_keeps (s₀ : State) (sess : Nat) (arg : Octets) (s : State) (h : Keeps s₀ s) : Keeps s₀ (lcWrite sess arg s).2 := by
  unfold lcWrite
  repeat' first
    | with_reducible first
      | assumption
      | intro _
      | apply cmdWrite_keeps
      | apply lcBody_keeps
    | dsimp only

theorem execLcTransition_keeps {s₀ : State} (sess : Nat) (arg : Octets) (s : State) (hk : Keeps s₀ s) : KeepsO s₀ (execLcTransition sess arg s) := by
  unfold execLcTransition
  try dsimp only
  repeat' first
    | with_reducible first
      | assumption
      | intro _
      | apply cmdRow_keeps
      | apply lcWrite_keeps
      | refine KeepsO.next ?_
    | dsimp only

theorem execLcEffectDone_keeps {s₀ : State} (s : State) (hk : Keeps s₀ s) : KeepsO s₀ (execLcEffectDone s) := by
  unfold execLcEffectDone
  try dsimp only
  repeat' first
    | with_reducible first
      | assumption
      | intro _
      | apply cmdEnd_keeps
      | apply lcBlow_keeps
      | apply lcErase_keeps
      | refine Keeps.ite ?_ ?_
      | refine KeepsO.ite ?_ ?_
      | refine KeepsO.next ?_
    | split
    | dsimp only

theorem partCreateBody_keeps {s₀ : State} (sess_ p_ : Nat) (arg : Octets) (s : State) (hk : Keeps s₀ s) : Keeps s₀ (partCreateBody sess_ p_ arg s).st := by
  unfold partCreateBody
  try dsimp only
  repeat' first
    | with_reducible first
      | assumption
      | intro _
      | apply State.setPart_keeps
      | apply refuse_keeps
      | apply doneAt_keeps
      | refine Keeps.ite ?_ ?_
      | refine Keeps.ite_st ?_ ?_
    | (with_reducible first | apply Keeps.mk_rest | apply Keeps.mk_mem | apply Keeps.mk_sec | apply Keeps.mk_mem_sec) <;> first
      | with_reducible first
        | assumption
        | apply State.setPart_keeps
        | apply refuse_keeps
        | apply doneAt_keeps
        | refine Keeps.ite ?_ ?_
      | split
    | split
    | dsimp only

theorem partCreateWrite_keeps (s₀ : State) (sess : Nat) (arg : Octets) (s : State) (h : Keeps s₀ s) : Keeps s₀ (partCreateWrite sess arg s).2 := by
  unfold partCreateWrite
  repeat' first
    | with_reducible first
      | assumption
      | intro _
      | apply cmdWrite_keeps
      | apply partCreateBody_keeps
    | dsimp only

theorem execSecPartCreate_keeps {s₀ : State} (sess : Nat) (arg : Octets) (s : State) (hk : Keeps s₀ s) : KeepsO s₀ (execSecPartCreate sess arg s) := by
  unfold execSecPartCreate
  try dsimp only
  repeat' first
    | with_reducible first
      | assumption
      | intro _
      | apply cmdRow_keeps
      | apply partCreateWrite_keeps
      | refine KeepsO.next ?_
    | dsimp only

theorem partAssignBody_keeps {s₀ : State} (sess p : Nat) (arg : Octets) (s : State) (hk : Keeps s₀ s) : Keeps s₀ (partAssignBody sess p arg s).st := by
  unfold partAssignBody
  try dsimp only
  repeat' first
    | with_reducible first
      | assumption
      | intro _
      | apply refuse_keeps
      | apply stepPend_keeps
      | apply plannedAssigns_keeps
      | refine Keeps.ite ?_ ?_
      | refine Keeps.ite_st ?_ ?_
    | split
    | dsimp only

theorem partAssignWrite_keeps (s₀ : State) (sess : Nat) (arg : Octets) (s : State) (h : Keeps s₀ s) : Keeps s₀ (partAssignWrite sess arg s).2 := by
  unfold partAssignWrite
  repeat' first
    | with_reducible first
      | assumption
      | intro _
      | apply cmdWrite_keeps
      | apply partAssignBody_keeps
    | dsimp only

theorem execSecPartAssign_keeps {s₀ : State} (sess : Nat) (arg : Octets) (s : State) (hk : Keeps s₀ s) : KeepsO s₀ (execSecPartAssign sess arg s) := by
  unfold execSecPartAssign
  try dsimp only
  repeat' first
    | with_reducible first
      | assumption
      | intro _
      | apply cmdRow_keeps
      | apply partAssignWrite_keeps
      | refine KeepsO.next ?_
    | dsimp only

theorem partReleaseBody_keeps {s₀ : State} (sess_ p_ : Nat) (arg : Octets) (s : State) (hk : Keeps s₀ s) : Keeps s₀ (partReleaseBody sess_ p_ arg s).st := by
  unfold partReleaseBody
  try dsimp only
  repeat' first
    | with_reducible first
      | assumption
      | intro _
      | apply refuse_keeps
      | apply started_keeps
      | apply beginRelease_keeps
      | refine Keeps.ite ?_ ?_
      | refine Keeps.ite_st ?_ ?_
    | split
    | dsimp only

theorem partReleaseWrite_keeps (s₀ : State) (sess : Nat) (arg : Octets) (s : State) (h : Keeps s₀ s) : Keeps s₀ (partReleaseWrite sess arg s).2 := by
  unfold partReleaseWrite
  repeat' first
    | with_reducible first
      | assumption
      | intro _
      | apply cmdWrite_keeps
      | apply partReleaseBody_keeps
    | dsimp only

theorem execSecPartRelease_keeps {s₀ : State} (sess : Nat) (arg : Octets) (s : State) (hk : Keeps s₀ s) : KeepsO s₀ (execSecPartRelease sess arg s) := by
  unfold execSecPartRelease
  try dsimp only
  repeat' first
    | with_reducible first
      | assumption
      | intro _
      | apply cmdRow_keeps
      | apply partReleaseWrite_keeps
      | refine KeepsO.next ?_
    | dsimp only

theorem execSecDebugChallenge_keeps {s₀ : State} (sess : Nat) (nonce : Octets) (s : State) (hk : Keeps s₀ s) : KeepsO s₀ (execSecDebugChallenge sess nonce s) := by
  unfold execSecDebugChallenge
  try dsimp only
  repeat' first
    | with_reducible first
      | assumption
      | intro _
      | apply State.emit_keeps
      | apply readChallenge_keeps
      | refine Keeps.ite ?_ ?_
      | refine Keeps.ite_snd ?_ ?_
      | apply Keeps.ite_fst
      | refine KeepsO.ite ?_ ?_
      | refine KeepsO.next ?_
    | split
    | dsimp only

theorem unlockBody_keeps {s₀ : State} (signer : TokenSigner) (sess p : Nat) (arg : Octets) (s : State) (hk : Keeps s₀ s) :
    Keeps s₀ (unlockBody signer sess p arg s).st := by
  unfold unlockBody
  dsimp only
  refine Keeps.ite_st (fun _ => refuse_keeps _ _ hk) (fun h => doneAt_keeps _ _ ?_)
  have hs : scrapBlown s = false := by
    cases hb : scrapBlown s with
    | false => rfl
    | true =>
      have := lifecycleOf_scrapped hb
      simp [unlockStatus, firstBad, this] at h
  have he : Keeps s₀ (if 2 ≤ tokenLevel arg then eraseRetained s else s) :=
    Keeps.ite (fun _ => eraseRetained_keeps _ hk) (fun _ => hk)
  refine setDebug_level_keeps _ _ (fun hb => ?_) (Keeps.mk_sec he)
  have : scrapBlown s = true := by
    by_cases ht : 2 ≤ tokenLevel arg
    · rw [if_pos ht] at hb; exact hb
    · rw [if_neg ht] at hb; exact hb
  rw [hs] at this
  cases this

theorem unlockWait_keeps (s₀ : State) (sess : Nat) (arg : Octets) (s : State) (h : Keeps s₀ s) : Keeps s₀ (unlockWait sess arg s).2 := by
  unfold unlockWait
  repeat' first
    | with_reducible first
      | assumption
      | intro _
      | apply cmdWrite_keeps
      | apply peerWaitBody_keeps
    | dsimp only

theorem execSecDebugUnlock_keeps {s₀ : State} (sess : Nat) (arg : Octets) (signer : TokenSigner) (s : State) (hk : Keeps s₀ s) : KeepsO s₀ (execSecDebugUnlock sess arg signer s) := by
  unfold execSecDebugUnlock
  try dsimp only
  repeat' first
    | with_reducible first
      | assumption
      | intro _
      | apply cmdWrite_keeps
      | apply peerRow_keeps
      | apply unlockBody_keeps
      | refine KeepsO.next ?_
    | dsimp only

theorem debugCloseBody_keeps {s₀ : State} (sess_ p_ : Nat) (u1 : Octets) (s : State) (hk : Keeps s₀ s) : Keeps s₀ (debugCloseBody sess_ p_ u1 s).st := by
  unfold debugCloseBody
  try dsimp only
  repeat' first
    | with_reducible first
      | assumption
      | intro _
      | apply doneAt_keeps
      | apply setDebug_keeps
    | dsimp only

theorem debugCloseWrite_keeps (s₀ : State) (sess : Nat) (arg : Octets) (s : State) (h : Keeps s₀ s) : Keeps s₀ (debugCloseWrite sess arg s).2 := by
  unfold debugCloseWrite
  repeat' first
    | with_reducible first
      | assumption
      | intro _
      | apply cmdWrite_keeps
      | apply debugCloseBody_keeps
    | dsimp only

theorem execSecDebugClose_keeps {s₀ : State} (sess : Nat) (arg : Octets) (s : State) (hk : Keeps s₀ s) : KeepsO s₀ (execSecDebugClose sess arg s) := by
  unfold execSecDebugClose
  try dsimp only
  repeat' first
    | with_reducible first
      | assumption
      | intro _
      | apply cmdRow_keeps
      | apply debugCloseWrite_keeps
      | refine KeepsO.next ?_
    | dsimp only

theorem execDebugExpiry_keeps {s₀ : State} (s : State) (hk : Keeps s₀ s) : KeepsO s₀ (execDebugExpiry s) := by
  unfold execDebugExpiry
  try dsimp only
  repeat' first
    | with_reducible first
      | assumption
      | intro _
      | apply State.until_keeps
      | apply setDebug_keeps
      | refine Keeps.ite ?_ ?_
      | refine Keeps.ite_st ?_ ?_
      | refine KeepsO.ite ?_ ?_
      | refine KeepsO.next ?_
    | split
    | dsimp only

theorem execCoreHalt_keeps {s₀ : State} (core : Nat) (s : State) (hk : Keeps s₀ s) : KeepsO s₀ (execCoreHalt core s) := by
  unfold execCoreHalt
  try dsimp only
  repeat' first
    | with_reducible first
      | assumption
      | intro _
      | refine Keeps.ite ?_ ?_
      | refine KeepsO.ite ?_ ?_
      | refine KeepsO.next ?_
    | (with_reducible first | apply Keeps.mk_rest | apply Keeps.mk_mem | apply Keeps.mk_sec | apply Keeps.mk_mem_sec) <;> first
      | with_reducible first
        | assumption
        | refine Keeps.ite ?_ ?_
      | split
    | split
    | dsimp only

theorem execCoreSingleStep_keeps {s₀ : State} (core : Nat) (s : State) (hk : Keeps s₀ s) : KeepsO s₀ (execCoreSingleStep core s) := by
  unfold execCoreSingleStep
  try dsimp only
  repeat' first
    | with_reducible first
      | assumption
      | intro _
      | refine Keeps.ite ?_ ?_
      | refine KeepsO.ite ?_ ?_
      | refine KeepsO.next ?_
    | (with_reducible first | apply Keeps.mk_rest | apply Keeps.mk_mem | apply Keeps.mk_sec | apply Keeps.mk_mem_sec) <;> first
      | with_reducible first
        | assumption
        | refine Keeps.ite ?_ ?_
      | split
    | split
    | dsimp only

theorem execCoreResume_keeps {s₀ : State} (core : Nat) (s : State) (hk : Keeps s₀ s) : KeepsO s₀ (execCoreResume core s) := by
  unfold execCoreResume
  try dsimp only
  repeat' first
    | with_reducible first
      | assumption
      | intro _
      | refine Keeps.ite ?_ ?_
      | refine KeepsO.ite ?_ ?_
      | refine KeepsO.next ?_
    | (with_reducible first | apply Keeps.mk_rest | apply Keeps.mk_mem | apply Keeps.mk_sec | apply Keeps.mk_mem_sec) <;> first
      | with_reducible first
        | assumption
        | refine Keeps.ite ?_ ?_
      | split
    | split
    | dsimp only

theorem pkgLoadBody_keeps {s₀ : State} (c : ImageCrypto) (sess p : Nat) (u1 : Octets) (s : State) (hk : Keeps s₀ s) : Keeps s₀ (pkgLoadBody c sess p u1 s).st := by
  unfold pkgLoadBody
  try dsimp only
  repeat' first
    | with_reducible first
      | assumption
      | intro _
      | apply refuse_keeps
      | apply stepPend_keeps
      | refine Keeps.ite ?_ ?_
      | refine Keeps.ite_st ?_ ?_
    | split
    | dsimp only

theorem pkgLoadWait_keeps (s₀ : State) (sess : Nat) (arg : Octets) (s : State) (h : Keeps s₀ s) : Keeps s₀ (pkgLoadWait sess arg s).2 := by
  unfold pkgLoadWait
  repeat' first
    | with_reducible first
      | assumption
      | intro _
      | apply cmdWrite_keeps
      | apply peerWaitBody_keeps
    | dsimp only

theorem execSecPkgLoad_keeps {s₀ : State} (sess : Nat) (arg : Octets) (crypto : ImageCrypto) (s : State) (hk : Keeps s₀ s) : KeepsO s₀ (execSecPkgLoad sess arg crypto s) := by
  unfold execSecPkgLoad
  try dsimp only
  repeat' first
    | with_reducible first
      | assumption
      | intro _
      | apply cmdWrite_keeps
      | apply peerRow_keeps
      | apply pkgLoadBody_keeps
      | refine KeepsO.next ?_
    | dsimp only

theorem enrollWrite_keeps {s₀ : State} (row : Nat) (rows : List Octets) (s : State) (hk : Keeps s₀ s) : Keeps s₀ (enrollWrite row rows s).2 := by
  unfold enrollWrite
  try dsimp only
  repeat' first
    | with_reducible first
      | assumption
      | intro _
      | apply enrollApply_keeps
      | refine Keeps.ite ?_ ?_
      | refine Keeps.ite_snd ?_ ?_
    | split
    | dsimp only

theorem execSecEnrollWrite_keeps {s₀ : State} (sess row : Nat) (rows : List Octets) (s : State) (hk : Keeps s₀ s) : KeepsO s₀ (execSecEnrollWrite sess row rows s) := by
  unfold execSecEnrollWrite
  try dsimp only
  repeat' first
    | with_reducible first
      | assumption
      | intro _
      | apply cmdAnswer_keeps
      | apply enrollWrite_keeps
      | refine Keeps.ite ?_ ?_
      | refine KeepsO.ite ?_ ?_
      | refine KeepsO.next ?_
    | split
    | dsimp only

theorem execSecKeyLoad_keeps {s₀ : State} (agent : RegAgent) (slot : Nat) (s : State) (hk : Keeps s₀ s) : KeepsO s₀ (execSecKeyLoad agent slot s) := by
  unfold execSecKeyLoad
  try dsimp only
  repeat' first
    | with_reducible first
      | assumption
      | intro _
      | apply regRow_keeps
      | apply keyRegWrite_keeps
      | refine KeepsO.next ?_
    | dsimp only

theorem execSecKeyClear_keeps {s₀ : State} (agent : RegAgent) (slot : Nat) (s : State) (hk : Keeps s₀ s) : KeepsO s₀ (execSecKeyClear agent slot s) := by
  unfold execSecKeyClear
  try dsimp only
  repeat' first
    | with_reducible first
      | assumption
      | intro _
      | apply regRow_keeps
      | apply keyRegWrite_keeps
      | refine KeepsO.next ?_
    | dsimp only

theorem execFwSelfTestDone_keeps {s₀ : State} (s : State) (hk : Keeps s₀ s) : KeepsO s₀ (execFwSelfTestDone s) := by
  unfold execFwSelfTestDone
  dsimp only
  refine KeepsO.ite (fun _ => KeepsO.next hk) (fun _ => KeepsO.next (hk.trans ?_))
  refine ⟨rfl, id, ⟨by simp, ?_⟩, fun _ => ⟨rfl, rfl, rfl, rfl, rfl, rfl, rfl, rfl, rfl, rfl⟩, id, ⟨[], rfl⟩, Nat.le_refl _⟩
  show s.fuse.rollback ≤ if _ then _ else _
  split
  · rename_i h
    simp only [Bool.and_eq_true, decide_eq_true_eq] at h
    exact Nat.le_of_lt h.1
  · exact Nat.le_refl _

end Sys2Proof.Machine
end

