-- ==== Sys2Proof/Laws/KeepsThermal.lean ====
section
/-! SUPPORT. Each operation of Machine/Thermal.lean makes a change that `Keeps`. -/

namespace Sys2Proof.Machine

theorem sensorFails_keeps {s₀ : State} (s : State) (i : Nat) (hk : Keeps s₀ s) : Keeps s₀ (sensorFails s i) := by
  unfold sensorFails
  try dsimp only
  repeat' first
    | with_reducible first
      | assumption
      | intro _
      | apply State.writeErr_keeps
      | apply fenceArray_keeps
      | refine Keeps.ite ?_ ?_
      | refine Keeps.foldl (fun _ _ _ => ?_) ?_
      | refine Keeps.foldl_snd (fun _ _ _ => ?_) ?_
    | (with_reducible first | apply Keeps.mk_rest | apply Keeps.mk_mem | apply Keeps.mk_sec | apply Keeps.mk_mem_sec) <;> first
      | with_reducible first
        | assumption
        | apply State.writeErr_keeps
        | apply fenceArray_keeps
        | refine Keeps.ite ?_ ?_
        | refine Keeps.foldl (fun _ _ _ => ?_) ?_
      | split
    | split
    | dsimp only

theorem takeSample_keeps {s₀ : State} (s : State) (rs : List (Nat × Int)) (hk : Keeps s₀ s) : Keeps s₀ (takeSample s rs) := by
  unfold takeSample
  try dsimp only
  repeat' first
    | with_reducible first
      | assumption
      | intro _
      | refine Keeps.ite ?_ ?_
      | refine Keeps.ite_snd ?_ ?_
      | apply Keeps.ite_fst
      | refine Keeps.foldl (fun _ _ _ => ?_) ?_
      | refine Keeps.foldl_snd (fun _ _ _ => ?_) ?_
    | (with_reducible first | apply Keeps.mk_rest | apply Keeps.mk_mem | apply Keeps.mk_sec | apply Keeps.mk_mem_sec) <;> first
      | with_reducible first
        | assumption
        | refine Keeps.ite ?_ ?_
        | refine Keeps.foldl (fun _ _ _ => ?_) ?_
      | split
    | split
    | dsimp only

theorem execThermalSample_keeps {s₀ : State} (readings : List (Nat × Int)) (s : State) (hk : Keeps s₀ s) : KeepsO s₀ (execThermalSample readings s) := by
  unfold execThermalSample
  try dsimp only
  repeat' first
    | with_reducible first
      | assumption
      | intro _
      | apply State.until_keeps
      | apply throttle_keeps
      | apply thermalStop_keeps
      | apply holdOff_keeps
      | apply sensorFails_keeps
      | apply takeSample_keeps
      | refine Keeps.ite ?_ ?_
      | refine Keeps.ite_st ?_ ?_
      | apply Keeps.ite_fst
      | refine KeepsO.ite ?_ ?_
      | refine KeepsO.next ?_
      | refine Keeps.foldl (fun _ _ _ => ?_) ?_
      | refine Keeps.foldl_snd (fun _ _ _ => ?_) ?_
    | (with_reducible first | apply Keeps.mk_rest | apply Keeps.mk_mem | apply Keeps.mk_sec | apply Keeps.mk_mem_sec) <;> first
      | with_reducible first
        | assumption
        | apply State.until_keeps
        | apply throttle_keeps
        | apply thermalStop_keeps
        | apply holdOff_keeps
        | apply sensorFails_keeps
        | apply takeSample_keeps
        | refine Keeps.ite ?_ ?_
        | refine Keeps.foldl (fun _ _ _ => ?_) ?_
      | split
    | split
    | dsimp only

theorem execOrderedStopTimeout_keeps {s₀ : State} (s : State) (hk : Keeps s₀ s) : KeepsO s₀ (execOrderedStopTimeout s) := by
  unfold execOrderedStopTimeout
  try dsimp only
  repeat' first
    | with_reducible first
      | assumption
      | intro _
      | apply State.until_keeps
      | apply fastStop_keeps
      | refine Keeps.ite ?_ ?_
      | refine Keeps.ite_st ?_ ?_
      | refine KeepsO.ite ?_ ?_
      | refine KeepsO.next ?_
    | split
    | dsimp only

theorem askUrgent_keeps {s₀ : State} (s : State) (hk : Keeps s₀ s) : Keeps s₀ (askUrgent s) := by
  unfold askUrgent
  try dsimp only
  repeat' first
    | with_reducible first
      | assumption
      | intro _
      | refine Keeps.ite ?_ ?_
    | (with_reducible first | apply Keeps.mk_rest | apply Keeps.mk_mem | apply Keeps.mk_sec | apply Keeps.mk_mem_sec) <;> first
      | with_reducible first
        | assumption
        | refine Keeps.ite ?_ ?_
      | split
    | split
    | dsimp only

theorem execRailExcursion_keeps {s₀ : State} (vat : Nat) (s : State) (hk : Keeps s₀ s) : KeepsO s₀ (execRailExcursion vat s) := by
  unfold execRailExcursion
  try dsimp only
  repeat' first
    | with_reducible first
      | assumption
      | intro _
      | apply State.modVat_keeps
      | apply askUrgent_keeps
      | refine Keeps.ite ?_ ?_
      | refine Keeps.ite_st ?_ ?_
      | refine KeepsO.ite ?_ ?_
      | refine KeepsO.next ?_
    | (with_reducible first | apply Keeps.mk_rest | apply Keeps.mk_mem | apply Keeps.mk_sec | apply Keeps.mk_mem_sec) <;> first
      | with_reducible first
        | assumption
        | apply State.modVat_keeps
        | apply askUrgent_keeps
        | refine Keeps.ite ?_ ?_
      | split
    | split
    | dsimp only

theorem execRailRecovered_keeps {s₀ : State} (vat : Nat) (s : State) (hk : Keeps s₀ s) : KeepsO s₀ (execRailRecovered vat s) := by
  unfold execRailRecovered
  try dsimp only
  repeat' first
    | with_reducible first
      | assumption
      | intro _
      | apply State.modVat_keeps
      | refine KeepsO.next ?_
    | (with_reducible first | apply Keeps.mk_rest | apply Keeps.mk_mem | apply Keeps.mk_sec | apply Keeps.mk_mem_sec) <;> first
      | with_reducible first
        | assumption
        | apply State.modVat_keeps
    | dsimp only

theorem execUrgentConversion_keeps {s₀ : State} (requester : UrgentBy) (input code : Nat) (s : State) (hk : Keeps s₀ s) : KeepsO s₀ (execUrgentConversion requester input code s) := by
  unfold execUrgentConversion
  try dsimp only
  repeat' first
    | with_reducible first
      | assumption
      | intro _
      | apply State.emit_keeps
      | apply State.writeErr_keeps
      | apply State.until_keeps
      | refine Keeps.ite ?_ ?_
      | refine Keeps.ite_st ?_ ?_
      | refine KeepsO.ite ?_ ?_
      | refine KeepsO.next ?_
    | (with_reducible first | apply Keeps.mk_rest | apply Keeps.mk_mem | apply Keeps.mk_sec | apply Keeps.mk_mem_sec) <;> first
      | with_reducible first
        | assumption
        | apply State.emit_keeps
        | apply State.writeErr_keeps
        | apply State.until_keeps
        | refine Keeps.ite ?_ ?_
      | split
    | split
    | dsimp only

end Sys2Proof.Machine
end

