-- ==== Sys2Proof/Laws/KeepsRegAccess.lean ====
section
/-! SUPPORT. Each operation of Machine/RegAccess.lean makes a change that `Keeps`. -/

namespace Sys2Proof.Machine

theorem regLoad_keeps {s₀ : State} (s : State) (a : RegAgent) (addr : Nat) (r : RegRef) (hk : Keeps s₀ s) : Keeps s₀ (regLoad s a addr r).2 := by
  unfold regLoad
  try dsimp only
  repeat' first
    | with_reducible first
      | assumption
      | intro _
      | refine Keeps.ite ?_ ?_
      | refine Keeps.ite_snd ?_ ?_
      | apply Keeps.ite_fst
      | refine Keeps.foldl (fun _ _ _ => ?_) ?_
      | refine Keeps.foldl_snd (fun _ _ _ => ?_) ?_
    | (with_reducible first | apply Keeps.mk_rest | apply Keeps.mk_mem | apply Keeps.mk_sec | apply Keeps.mk_mem_sec) <;> first
      | with_reducible first
        | assumption
        | refine Keeps.ite ?_ ?_
        | refine Keeps.foldl (fun _ _ _ => ?_) ?_
      | split
    | split
    | dsimp only

theorem arrRegWrite_keeps {s₀ : State} (s : State) (n off w : Nat) (hk : Keeps s₀ s) : Keeps s₀ (arrRegWrite s n off w) := by
  unfold arrRegWrite
  try dsimp only
  repeat' first
    | with_reducible first
      | assumption
      | intro _
      | apply State.modArr_keeps
      | refine Keeps.ite ?_ ?_
    | (with_reducible first | apply Keeps.mk_rest | apply Keeps.mk_mem | apply Keeps.mk_sec | apply Keeps.mk_mem_sec) <;> first
      | with_reducible first
        | assumption
        | apply State.modArr_keeps
        | refine Keeps.ite ?_ ?_
      | split
    | split
    | dsimp only

theorem ccRegWrite_keeps {s₀ : State} (s : State) (n off w : Nat) (hk : Keeps s₀ s) : Keeps s₀ (ccRegWrite s n off w) := by
  unfold ccRegWrite
  try dsimp only
  repeat' first
    | with_reducible first
      | assumption
      | intro _
      | apply State.modArr_keeps
      | refine Keeps.ite ?_ ?_
    | (with_reducible first | apply Keeps.mk_rest | apply Keeps.mk_mem | apply Keeps.mk_sec | apply Keeps.mk_mem_sec) <;> first
      | with_reducible first
        | assumption
        | apply State.modArr_keeps
        | refine Keeps.ite ?_ ?_
      | split
    | split
    | dsimp only

theorem ccVatRegWrite_keeps {s₀ : State} (s : State) (v off w : Nat) (hk : Keeps s₀ s) : Keeps s₀ (ccVatRegWrite s v off w) := by
  unfold ccVatRegWrite
  try dsimp only
  repeat' first
    | with_reducible first
      | assumption
      | intro _
      | apply State.modVat_keeps
      | apply ccVatControl_keeps
      | refine Keeps.ite ?_ ?_
    | (with_reducible first | apply Keeps.mk_rest | apply Keeps.mk_mem | apply Keeps.mk_sec | apply Keeps.mk_mem_sec) <;> first
      | with_reducible first
        | assumption
        | apply State.modVat_keeps
        | apply ccVatControl_keeps
        | refine Keeps.ite ?_ ?_
      | split
    | split
    | dsimp only

theorem veRegWrite_keeps {s₀ : State} (s : State) (n off w : Nat) (hk : Keeps s₀ s) : Keeps s₀ (veRegWrite s n off w) := by
  unfold veRegWrite
  try dsimp only
  repeat' first
    | with_reducible first
      | assumption
      | intro _
      | apply State.modEng_keeps
      | refine Keeps.ite ?_ ?_
    | (with_reducible first | apply Keeps.mk_rest | apply Keeps.mk_mem | apply Keeps.mk_sec | apply Keeps.mk_mem_sec) <;> first
      | with_reducible first
        | assumption
        | apply State.modEng_keeps
        | refine Keeps.ite ?_ ?_
      | split
    | split
    | dsimp only

theorem portRegWrite_keeps {s₀ : State} (s : State) (p off w : Nat) (hk : Keeps s₀ s) : Keeps s₀ (portRegWrite s p off w) := by
  unfold portRegWrite
  try dsimp only
  repeat' first
    | with_reducible first
      | assumption
      | intro _
      | apply State.modPort_keeps
      | apply portCfg_keeps
      | refine Keeps.ite ?_ ?_
      | refine Keeps.ite_snd ?_ ?_
      | apply Keeps.ite_fst
    | (with_reducible first | apply Keeps.mk_rest | apply Keeps.mk_mem | apply Keeps.mk_sec | apply Keeps.mk_mem_sec) <;> first
      | with_reducible first
        | assumption
        | apply State.modPort_keeps
        | apply portCfg_keeps
        | refine Keeps.ite ?_ ?_
      | split
    | split
    | dsimp only

theorem mbxRegWrite_keeps {s₀ : State} (s : State) (a : RegAgent) (m off w : Nat) (hk : Keeps s₀ s) : Keeps s₀ (mbxRegWrite s a m off w) := by
  unfold mbxRegWrite
  try dsimp only
  repeat' first
    | with_reducible first
      | assumption
      | intro _
      | apply State.setMbx_keeps
      | apply mbxWrong_keeps
      | apply mbxPutWords_keeps
      | apply mbxRing_keeps
      | refine Keeps.ite ?_ ?_
      | refine Keeps.ite_snd ?_ ?_
      | refine Keeps.ite_st ?_ ?_
    | (with_reducible first | apply Keeps.mk_rest | apply Keeps.mk_mem | apply Keeps.mk_sec | apply Keeps.mk_mem_sec) <;> first
      | with_reducible first
        | assumption
        | apply State.setMbx_keeps
        | apply mbxWrong_keeps
        | apply mbxPutWords_keeps
        | apply mbxRing_keeps
        | refine Keeps.ite ?_ ?_
      | split
    | split
    | dsimp only

theorem syncRegWrite_keeps {s₀ : State} (s : State) (n off w : Nat) (hk : Keeps s₀ s) : Keeps s₀ (syncRegWrite s n off w) := by
  unfold syncRegWrite
  try dsimp only
  repeat' first
    | with_reducible first
      | assumption
      | intro _
      | apply State.setObj_keeps
      | apply objChanged_keeps
      | refine Keeps.ite ?_ ?_
    | (with_reducible first | apply Keeps.mk_rest | apply Keeps.mk_mem | apply Keeps.mk_sec | apply Keeps.mk_mem_sec) <;> first
      | with_reducible first
        | assumption
        | apply State.setObj_keeps
        | apply objChanged_keeps
        | refine Keeps.ite ?_ ?_
      | split
    | split
    | dsimp only

theorem memRegWrite_keeps {s₀ : State} (s : State) (k off w : Nat) (hk : Keeps s₀ s) : Keeps s₀ (memRegWrite s k off w) := by
  unfold memRegWrite
  try dsimp only
  repeat' first
    | with_reducible first
      | assumption
      | intro _
      | apply State.setSlice_keeps
      | refine Keeps.ite ?_ ?_
    | (with_reducible first | apply Keeps.mk_rest | apply Keeps.mk_mem | apply Keeps.mk_sec | apply Keeps.mk_mem_sec) <;> first
      | with_reducible first
        | assumption
        | apply State.setSlice_keeps
        | refine Keeps.ite ?_ ?_
      | split
    | split
    | dsimp only

theorem regStore_keeps {s₀ : State} (s : State) (a : RegAgent) (r : RegRef) (w : Nat) (hk : Keeps s₀ s) : Keeps s₀ (regStore s a r w) := by
  unfold regStore
  try dsimp only
  repeat' first
    | with_reducible first
      | assumption
      | intro _
      | apply monRegWrite_keeps
      | apply keyRegWrite_keeps
      | apply arrRegWrite_keeps
      | apply ccRegWrite_keeps
      | apply ccVatRegWrite_keeps
      | apply veRegWrite_keeps
      | apply portRegWrite_keeps
      | apply mbxRegWrite_keeps
      | apply syncRegWrite_keeps
      | apply memRegWrite_keeps
      | refine Keeps.ite ?_ ?_
    | (with_reducible first | apply Keeps.mk_rest | apply Keeps.mk_mem | apply Keeps.mk_sec | apply Keeps.mk_mem_sec) <;> first
      | with_reducible first
        | assumption
        | apply monRegWrite_keeps
        | apply keyRegWrite_keeps
        | apply arrRegWrite_keeps
        | apply ccRegWrite_keeps
        | apply ccVatRegWrite_keeps
        | apply veRegWrite_keeps
        | apply portRegWrite_keeps
        | apply mbxRegWrite_keeps
        | apply syncRegWrite_keeps
        | apply memRegWrite_keeps
        | refine Keeps.ite ?_ ?_
      | split
    | split
    | dsimp only

theorem execRegisterWrite_keeps {s₀ : State} (agent : RegAgent) (addr width value : Nat) (s : State) (hk : Keeps s₀ s) : KeepsO s₀ (execRegisterWrite agent addr width value s) := by
  unfold execRegisterWrite
  try dsimp only
  repeat' first
    | with_reducible first
      | assumption
      | intro _
      | apply busError_keeps
      | apply regStore_keeps
      | refine Keeps.ite ?_ ?_
      | refine Keeps.ite_st ?_ ?_
      | refine KeepsO.ite ?_ ?_
      | refine KeepsO.next ?_
    | split
    | dsimp only

theorem winLoad_keeps {s₀ : State} (s : State) (addr : Nat) (hk : Keeps s₀ s) (w : Word) (t : State)
    (h : winLoad s addr = .ok (w, t)) : Keeps s₀ t := by
  unfold winLoad at h
  dsimp only at h
  split at h
  · cases h
  · split at h
    · cases h
    · split at h
      · injection h with h
        have : t = (regLoad s .window addr _).2 := (congrArg Prod.snd h).symm
        rw [this]
        exact regLoad_keeps _ _ _ _ hk
      · cases h

theorem winLoad_pair_keeps {s₀ s : State} {addr : Nat} {r : Word × State} (hk : Keeps s₀ s) (h : winLoad s addr = .ok r) :
    Keeps s₀ r.2 := winLoad_keeps s addr hk r.1 r.2 h

theorem winStore_keeps {s₀ : State} (s : State) (addr w : Nat) (hk : Keeps s₀ s) : Keeps s₀ (winStore s addr w).2 := by
  unfold winStore
  try dsimp only
  repeat' first
    | with_reducible first
      | assumption
      | intro _
      | apply regStore_keeps
      | refine Keeps.ite ?_ ?_
      | refine Keeps.ite_snd ?_ ?_
    | split
    | dsimp only

theorem winBulk_keeps {s₀ : State} (k addr : Nat) (s : State) (hk : Keeps s₀ s) : Keeps s₀ (winBulk k addr s).2.2 := by
  induction k generalizing s addr with
  | zero => exact hk
  | succ k ih =>
    unfold winBulk
    have hw := winLoad_keeps (s₀ := s₀) s addr hk
    split
    · exact hk
    · rename_i h
      exact ih _ _ (hw _ _ h)

theorem winAnswer_keeps {s₀ : State} (s : State) (sess op k status : Nat) (d : Octets) (hk : Keeps s₀ s) : Keeps s₀ (winAnswer s sess op k status d) := by
  unfold winAnswer
  try dsimp only
  repeat' first
    | with_reducible first
      | assumption
      | intro _
      | apply State.emit_keeps
    | dsimp only

theorem execRegWinData_keeps {s₀ : State} (sess : Nat) (write : Option Nat) (s : State) (hk : Keeps s₀ s) : KeepsO s₀ (execRegWinData sess write s) := by
  unfold execRegWinData
  try dsimp only
  repeat' first
    | with_reducible first
      | assumption
      | intro _
      | apply winStore_keeps
      | apply winAnswer_keeps
      | exact winLoad_pair_keeps (by with_reducible assumption) (by assumption)
      | refine Keeps.ite ?_ ?_
      | refine Keeps.ite_snd ?_ ?_
      | apply Keeps.ite_fst
      | refine KeepsO.ite ?_ ?_
      | refine KeepsO.next ?_
    | split
    | dsimp only

theorem execRegWinBulk_keeps {s₀ : State} (sess count : Nat) (s : State) (hk : Keeps s₀ s) : KeepsO s₀ (execRegWinBulk sess count s) := by
  unfold execRegWinBulk
  try dsimp only
  repeat' first
    | with_reducible first
      | assumption
      | intro _
      | apply winBulk_keeps
      | apply winAnswer_keeps
      | refine Keeps.ite ?_ ?_
      | refine Keeps.ite_snd ?_ ?_
      | apply Keeps.ite_fst
      | refine KeepsO.ite ?_ ?_
      | refine KeepsO.next ?_
    | split
    | dsimp only

end Sys2Proof.Machine
end

