-- ==== Sys2Proof/Laws/KeepsObjWrite.lean ====
section
/-! SUPPORT. Each operation of Machine/ObjWrite.lean makes a change that `Keeps`. -/

namespace Sys2Proof.Machine

theorem pendPut_keeps {s₀ : State} (s : State) (key : Nat) (pt : Point) (v : Octets) (hk : Keeps s₀ s) : Keeps s₀ (pendPut s key pt v) := by
  unfold pendPut
  try dsimp only
  repeat' first
    | with_reducible first
      | assumption
      | intro _
    | (with_reducible first | apply Keeps.mk_rest | apply Keeps.mk_mem | apply Keeps.mk_sec | apply Keeps.mk_mem_sec) <;> first
      | with_reducible first
        | assumption
    | dsimp only

theorem bootPut_keeps {s₀ : State} (s : State) (key : Nat) (v : Octets) (hk : Keeps s₀ s) : Keeps s₀ (bootPut s key v) := by
  unfold bootPut
  try dsimp only
  repeat' first
    | with_reducible first
      | assumption
      | intro _
      | apply boot_keeps
    | (with_reducible first | apply Keeps.mk_rest | apply Keeps.mk_mem | apply Keeps.mk_sec | apply Keeps.mk_mem_sec) <;> first
      | with_reducible first
        | assumption
        | apply boot_keeps
    | dsimp only

theorem holderNamed_keeps {s₀ : State} (s : State) (i : Nat) (hk : Keeps s₀ s) : Keeps s₀ (holderNamed s i) := by
  unfold holderNamed
  try dsimp only
  repeat' first
    | with_reducible first
      | assumption
      | intro _
      | apply pushAgain_keeps
      | refine Keeps.ite ?_ ?_
    | (with_reducible first | apply Keeps.mk_rest | apply Keeps.mk_mem | apply Keeps.mk_sec | apply Keeps.mk_mem_sec) <;> first
      | with_reducible first
        | assumption
        | apply pushAgain_keeps
        | refine Keeps.ite ?_ ?_
      | split
    | split
    | dsimp only

theorem afterImm_keeps {s₀ : State} (s : State) (k : Nat) (hk : Keeps s₀ s) : Keeps s₀ (afterImm s k) := by
  unfold afterImm
  try dsimp only
  repeat' first
    | with_reducible first
      | assumption
      | intro _
      | apply trainAll_keeps
      | apply holderNamed_keeps
      | refine Keeps.ite ?_ ?_
    | split
    | dsimp only

theorem putSetting_keeps {s₀ : State} (s : State) (r : ObjRow) (p k : Nat) (v : Octets) (hk : Keeps s₀ s) : Keeps s₀ (putSetting s r p k v) := by
  unfold putSetting
  try dsimp only
  repeat' first
    | with_reducible first
      | assumption
      | intro _
      | apply cfgPut_keeps
      | apply pendPut_keeps
      | apply bootPut_keeps
      | apply afterImm_keeps
      | refine Keeps.ite ?_ ?_
      | refine Keeps.ite_st ?_ ?_
    | split
    | dsimp only

theorem writeInt_keeps {s₀ : State} (s : State) (n : Nat) (r : ObjRow) (k : Nat) (v : Octets) (hk : Keeps s₀ s) : Keeps s₀ (writeInt s n r k v).2 := by
  unfold writeInt
  try dsimp only
  repeat' first
    | with_reducible first
      | assumption
      | intro _
      | apply State.modPort_keeps
      | apply State.modSess_keeps
      | apply portCfg_keeps
      | apply winStore_keeps
      | apply putSetting_keeps
      | refine Keeps.ite ?_ ?_
      | refine Keeps.ite_snd ?_ ?_
      | apply Keeps.ite_fst
    | (with_reducible first | apply Keeps.mk_rest | apply Keeps.mk_mem | apply Keeps.mk_sec | apply Keeps.mk_mem_sec) <;> first
      | with_reducible first
        | assumption
        | apply State.modPort_keeps
        | apply State.modSess_keeps
        | apply portCfg_keeps
        | apply winStore_keeps
        | apply putSetting_keeps
        | refine Keeps.ite ?_ ?_
      | split
    | split
    | dsimp only

theorem writeOctets_keeps {s₀ : State} (s : State) (n k : Nat) (v : Octets) (hk : Keeps s₀ s) : Keeps s₀ (writeOctets s n k v).2 := by
  unfold writeOctets
  try dsimp only
  repeat' first
    | with_reducible first
      | assumption
      | intro _
      | apply State.modSess_keeps
      | apply cfgPut_keeps
      | apply seqCfgPut_keeps
      | apply mbxPutWords_keeps
      | apply bootPut_keeps
      | refine Keeps.ite ?_ ?_
      | refine Keeps.ite_snd ?_ ?_
    | (with_reducible first | apply Keeps.mk_rest | apply Keeps.mk_mem | apply Keeps.mk_sec | apply Keeps.mk_mem_sec) <;> first
      | with_reducible first
        | assumption
        | apply State.modSess_keeps
        | apply cfgPut_keeps
        | apply seqCfgPut_keeps
        | apply mbxPutWords_keeps
        | apply bootPut_keeps
        | refine Keeps.ite ?_ ?_
      | split
    | split
    | dsimp only

theorem writeRoutes_keeps {s₀ : State} (s : State) (row : Nat) (v : Octets) (hk : Keeps s₀ s) : Keeps s₀ (writeRoutes s row v).2 := by
  unfold writeRoutes
  try dsimp only
  repeat' first
    | with_reducible first
      | assumption
      | intro _
      | apply flushWaiting_keeps
      | refine Keeps.ite ?_ ?_
      | refine Keeps.ite_snd ?_ ?_
      | refine Keeps.foldl (fun _ _ _ => ?_) ?_
      | refine Keeps.foldl_snd (fun _ _ _ => ?_) ?_
    | (with_reducible first | apply Keeps.mk_rest | apply Keeps.mk_mem | apply Keeps.mk_sec | apply Keeps.mk_mem_sec) <;> first
      | with_reducible first
        | assumption
        | apply flushWaiting_keeps
        | refine Keeps.ite ?_ ?_
        | refine Keeps.foldl (fun _ _ _ => ?_) ?_
      | split
    | split
    | dsimp only

theorem writeGroup_keeps {s₀ : State} (s : State) (off : Nat) (v : Octets) (hk : Keeps s₀ s) : Keeps s₀ (writeGroup s off v).2 := by
  unfold writeGroup
  try dsimp only
  repeat' first
    | with_reducible first
      | assumption
      | intro _
      | apply pendPut_keeps
      | refine Keeps.ite ?_ ?_
      | refine Keeps.ite_snd ?_ ?_
      | refine Keeps.ite_st ?_ ?_
    | split
    | dsimp only

theorem writeTable_keeps {s₀ : State} (s : State) (r : ObjRow) (k off : Nat) (v : Octets) (hk : Keeps s₀ s) : Keeps s₀ (writeTable s r k off v).2 := by
  unfold writeTable
  try dsimp only
  repeat' first
    | with_reducible first
      | assumption
      | intro _
      | apply enrollWrite_keeps
      | apply writeRoutes_keeps
      | apply writeGroup_keeps
      | refine Keeps.ite ?_ ?_
      | refine Keeps.ite_snd ?_ ?_
    | split
    | dsimp only

end Sys2Proof.Machine
end

