-- ==== Sys2Proof/Laws/KeepsFirmware.lean ====
section
/-! SUPPORT. Each operation of Machine/Firmware.lean makes a change that `Keeps`. -/

namespace Sys2Proof.Machine

theorem fwActivateBody_keeps {s₀ : State} (c : ImageCrypto) (sess p_ : Nat) (u1 : Octets) (s : State) (hk : Keeps s₀ s) : Keeps s₀ (fwActivateBody c sess p_ u1 s).st := by
  unfold fwActivateBody
  try dsimp only
  repeat' first
    | with_reducible first
      | assumption
      | intro _
      | apply refuse_keeps
      | apply doneAt_keeps
      | refine Keeps.ite ?_ ?_
      | refine Keeps.ite_st ?_ ?_
    | (with_reducible first | apply Keeps.mk_rest | apply Keeps.mk_mem | apply Keeps.mk_sec | apply Keeps.mk_mem_sec) <;> first
      | with_reducible first
        | assumption
        | apply refuse_keeps
        | apply doneAt_keeps
        | refine Keeps.ite ?_ ?_
      | split
    | split
    | dsimp only

theorem fwActivateWait_keeps (s₀ : State) (sess : Nat) (arg : Octets) (s : State) (h : Keeps s₀ s) : Keeps s₀ (fwActivateWait sess arg s).2 := by
  unfold fwActivateWait
  repeat' first
    | with_reducible first
      | assumption
      | intro _
      | apply cmdWrite_keeps
      | apply peerWaitBody_keeps
    | dsimp only

theorem execFwActivate_keeps {s₀ : State} (sess : Nat) (arg : Octets) (crypto : ImageCrypto) (s : State) (hk : Keeps s₀ s) : KeepsO s₀ (execFwActivate sess arg crypto s) := by
  unfold execFwActivate
  try dsimp only
  repeat' first
    | with_reducible first
      | assumption
      | intro _
      | apply cmdWrite_keeps
      | apply peerRow_keeps
      | apply fwActivateBody_keeps
      | refine KeepsO.next ?_
    | dsimp only

theorem cfgDefaultsBody_keeps {s₀ : State} (sess_ p_ : Nat) (u1 : Octets) (s : State) (hk : Keeps s₀ s) : Keeps s₀ (cfgDefaultsBody sess_ p_ u1 s).st := by
  unfold cfgDefaultsBody
  try dsimp only
  repeat' first
    | with_reducible first
      | assumption
      | intro _
      | apply doneAt_keeps
    | (with_reducible first | apply Keeps.mk_rest | apply Keeps.mk_mem | apply Keeps.mk_sec | apply Keeps.mk_mem_sec) <;> first
      | with_reducible first
        | assumption
        | apply doneAt_keeps
    | dsimp only

theorem cfgDefaultsWrite_keeps (s₀ : State) (sess : Nat) (arg : Octets) (s : State) (h : Keeps s₀ s) : Keeps s₀ (cfgDefaultsWrite sess arg s).2 := by
  unfold cfgDefaultsWrite
  repeat' first
    | with_reducible first
      | assumption
      | intro _
      | apply cmdWrite_keeps
      | apply cfgDefaultsBody_keeps
    | dsimp only

theorem execCfgDefaults_keeps {s₀ : State} (sess : Nat) (arg : Octets) (s : State) (hk : Keeps s₀ s) : KeepsO s₀ (execCfgDefaults sess arg s) := by
  unfold execCfgDefaults
  try dsimp only
  repeat' first
    | with_reducible first
      | assumption
      | intro _
      | apply cmdRow_keeps
      | apply cfgDefaultsWrite_keeps
      | refine KeepsO.next ?_
    | dsimp only

theorem tableLoadBody_keeps {s₀ : State} (sess p : Nat) (arg : Octets) (s : State) (hk : Keeps s₀ s) : Keeps s₀ (tableLoadBody sess p arg s).st := by
  unfold tableLoadBody
  try dsimp only
  repeat' first
    | with_reducible first
      | assumption
      | intro _
      | apply refuse_keeps
      | apply stepPend_keeps
      | refine Keeps.ite ?_ ?_
      | refine Keeps.ite_st ?_ ?_
    | split
    | dsimp only

theorem tableLoadWrite_keeps (s₀ : State) (sess : Nat) (arg : Octets) (s : State) (h : Keeps s₀ s) : Keeps s₀ (tableLoadWrite sess arg s).2 := by
  unfold tableLoadWrite
  repeat' first
    | with_reducible first
      | assumption
      | intro _
      | apply cmdWrite_keeps
      | apply tableLoadBody_keeps
    | dsimp only

theorem execPerTableLoad_keeps {s₀ : State} (sess : Nat) (arg : Octets) (s : State) (hk : Keeps s₀ s) : KeepsO s₀ (execPerTableLoad sess arg s) := by
  unfold execPerTableLoad
  try dsimp only
  repeat' first
    | with_reducible first
      | assumption
      | intro _
      | apply cmdRow_keeps
      | apply tableLoadWrite_keeps
      | refine KeepsO.next ?_
    | dsimp only

theorem tableLoadApply_keeps {s₀ : State} (p : Nat) (arg : Octets) (s : State) (hk : Keeps s₀ s) : Keeps s₀ (tableLoadApply p arg s).2 := by
  unfold tableLoadApply
  try dsimp only
  repeat' first
    | with_reducible first
      | assumption
      | intro _
      | apply State.modVat_keeps
      | refine Keeps.ite ?_ ?_
      | refine Keeps.ite_snd ?_ ?_
    | (with_reducible first | apply Keeps.mk_rest | apply Keeps.mk_mem | apply Keeps.mk_sec | apply Keeps.mk_mem_sec) <;> first
      | with_reducible first
        | assumption
        | apply State.modVat_keeps
        | refine Keeps.ite ?_ ?_
      | split
    | split
    | dsimp only

theorem moduleTelemetry_keeps {s₀ : State} (s : State) (hk : Keeps s₀ s) : Keeps s₀ (moduleTelemetry s) := by
  unfold moduleTelemetry
  try dsimp only
  repeat' first
    | with_reducible first
      | assumption
      | intro _
    | (with_reducible first | apply Keeps.mk_rest | apply Keeps.mk_mem | apply Keeps.mk_sec | apply Keeps.mk_mem_sec) <;> first
      | with_reducible first
        | assumption
    | dsimp only

theorem partTelemetry_keeps {s₀ : State} (s : State) (hk : Keeps s₀ s) : Keeps s₀ (partTelemetry s) := by
  unfold partTelemetry
  try dsimp only
  repeat' first
    | with_reducible first
      | assumption
      | intro _
      | refine Keeps.foldl (fun _ _ _ => ?_) ?_
      | refine Keeps.foldl_snd (fun _ _ _ => ?_) ?_
    | (with_reducible first | apply Keeps.mk_rest | apply Keeps.mk_mem | apply Keeps.mk_sec | apply Keeps.mk_mem_sec) <;> first
      | with_reducible first
        | assumption
        | refine Keeps.foldl (fun _ _ _ => ?_) ?_
    | dsimp only

theorem execTelemetryUpdate_keeps {s₀ : State} (s : State) (hk : Keeps s₀ s) : KeepsO s₀ (execTelemetryUpdate s) := by
  unfold execTelemetryUpdate
  try dsimp only
  repeat' first
    | with_reducible first
      | assumption
      | intro _
      | apply State.until_keeps
      | apply moduleTelemetry_keeps
      | apply partTelemetry_keeps
      | refine Keeps.ite ?_ ?_
      | refine Keeps.ite_st ?_ ?_
      | refine KeepsO.ite ?_ ?_
      | refine KeepsO.next ?_
    | split
    | dsimp only

end Sys2Proof.Machine
end

