-- ==== Sys2Proof/Laws/KeepsBoundary.lean ====
section
/-! SUPPORT. Each operation of Machine/Boundary.lean makes a change that `Keeps`. -/

namespace Sys2Proof.Machine

theorem nameTruncated_keeps {s₀ : State} (s : State) (hk : Keeps s₀ s) : Keeps s₀ (nameTruncated s) := by
  unfold nameTruncated
  try dsimp only
  repeat' first
    | with_reducible first
      | assumption
      | intro _
      | refine Keeps.ite ?_ ?_
      | refine Keeps.foldl (fun _ _ _ => ?_) ?_
      | refine Keeps.foldl_snd (fun _ _ _ => ?_) ?_
    | (with_reducible first | apply Keeps.mk_rest | apply Keeps.mk_mem | apply Keeps.mk_sec | apply Keeps.mk_mem_sec) <;> first
      | with_reducible first
        | assumption
        | refine Keeps.ite ?_ ?_
        | refine Keeps.foldl (fun _ _ _ => ?_) ?_
      | split
    | split
    | dsimp only

theorem cutTruncated_keeps {s₀ : State} (s : State) (hk : Keeps s₀ s) : Keeps s₀ (cutTruncated s) := by
  unfold cutTruncated
  try dsimp only
  repeat' first
    | with_reducible first
      | assumption
      | intro _
      | refine Keeps.ite ?_ ?_
      | refine Keeps.foldl (fun _ _ _ => ?_) ?_
      | refine Keeps.foldl_snd (fun _ _ _ => ?_) ?_
    | (with_reducible first | apply Keeps.mk_rest | apply Keeps.mk_mem | apply Keeps.mk_sec | apply Keeps.mk_mem_sec) <;> first
      | with_reducible first
        | assumption
        | refine Keeps.ite ?_ ?_
        | refine Keeps.foldl (fun _ _ _ => ?_) ?_
      | split
    | split
    | dsimp only

theorem armApply_keeps {s₀ : State} (p : Nat) (s : State) (hk : Keeps s₀ s) : Keeps s₀ (armApply p s).2 := by
  unfold armApply
  try dsimp only
  repeat' first
    | with_reducible first
      | assumption
      | intro _
      | apply State.modWhl_keeps
      | refine Keeps.ite ?_ ?_
      | refine Keeps.ite_snd ?_ ?_
      | refine Keeps.ite_st ?_ ?_
    | (with_reducible first | apply Keeps.mk_rest | apply Keeps.mk_mem | apply Keeps.mk_sec | apply Keeps.mk_mem_sec) <;> first
      | with_reducible first
        | assumption
        | apply State.modWhl_keeps
        | refine Keeps.ite ?_ ?_
      | split
    | split
    | dsimp only

theorem stepCmdApply_keeps {s₀ : State} (c : StepCmd) (s : State) (hk : Keeps s₀ s) : Keeps s₀ (stepCmdApply c s).2 := by
  unfold stepCmdApply
  try dsimp only
  repeat' first
    | with_reducible first
      | assumption
      | intro _
      | apply memRegionApply_keeps
      | apply embEditApply_keeps
      | apply invalApply_keeps
      | apply pinApply_keeps
      | apply recReplaceApply_keeps
      | apply partAssignApply_keeps
      | apply pkgLoadApply_keeps
      | apply seqEditApply_keeps
      | apply tableLoadApply_keeps
      | apply inbufApply_keeps
      | apply armApply_keeps
      | refine Keeps.ite ?_ ?_
      | refine Keeps.ite_snd ?_ ?_
    | split
    | dsimp only

theorem stepCmdRun_keeps {s₀ : State} (s : State) (c : StepCmd) (hk : Keeps s₀ s) : Keeps s₀ (stepCmdRun s c) := by
  unfold stepCmdRun
  try dsimp only
  repeat' first
    | with_reducible first
      | assumption
      | intro _
      | apply stepDone_keeps
      | apply stepCmdApply_keeps
    | dsimp only

theorem stepValue_keeps {s₀ : State} (s : State) (v : PendVal) (hk : Keeps s₀ s) : Keeps s₀ (stepValue s v) := by
  unfold stepValue
  try dsimp only
  repeat' first
    | with_reducible first
      | assumption
      | intro _
      | apply State.setPart_keeps
      | apply cfgPut_keeps
      | apply setUnits_keeps
      | refine Keeps.ite ?_ ?_
    | (with_reducible first | apply Keeps.mk_rest | apply Keeps.mk_mem | apply Keeps.mk_sec | apply Keeps.mk_mem_sec) <;> first
      | with_reducible first
        | assumption
        | apply State.setPart_keeps
        | apply cfgPut_keeps
        | apply setUnits_keeps
        | refine Keeps.ite ?_ ?_
      | split
    | split
    | dsimp only

theorem applyInOrder_keeps {s₀ : State} (vs : List PendVal) (i : Nat) (l : List StepCmd) (s : State) (hk : Keeps s₀ s) :
    Keeps s₀ (applyInOrder vs i l s) := by
  induction l generalizing s i with
  | nil => exact Keeps.foldl (fun _ _ h => stepValue_keeps _ _ h) hk
  | cons c t ih =>
    unfold applyInOrder
    dsimp only
    repeat' first
      | with_reducible first
        | assumption
        | intro _
        | apply ih
        | apply stepCmdRun_keeps
        | apply stepValue_keeps
        | refine Keeps.ite ?_ ?_
        | refine Keeps.ite_snd ?_ ?_
        | refine Keeps.ite_st ?_ ?_
        | refine Keeps.foldl (fun _ _ _ => ?_) ?_
        | refine Keeps.foldl_snd (fun _ _ _ => ?_) ?_
      | (with_reducible first | apply Keeps.mk_rest | apply Keeps.mk_mem | apply Keeps.mk_sec | apply Keeps.mk_mem_sec) <;> first
        | with_reducible first
          | assumption
          | apply ih
          | apply stepCmdRun_keeps
          | apply stepValue_keeps
          | refine Keeps.ite ?_ ?_
          | refine Keeps.foldl (fun _ _ _ => ?_) ?_
        | split
      | split
      | dsimp only

theorem applyPending_keeps {s₀ : State} (s : State) (hk : Keeps s₀ s) : Keeps s₀ (applyPending s) := by
  unfold applyPending
  try dsimp only
  repeat' first
    | with_reducible first
      | assumption
      | intro _
      | apply stepCmdRun_keeps
      | apply applyInOrder_keeps
      | refine Keeps.foldl (fun _ _ _ => ?_) ?_
      | refine Keeps.foldl_snd (fun _ _ _ => ?_) ?_
    | (with_reducible first | apply Keeps.mk_rest | apply Keeps.mk_mem | apply Keeps.mk_sec | apply Keeps.mk_mem_sec) <;> first
      | with_reducible first
        | assumption
        | apply stepCmdRun_keeps
        | apply applyInOrder_keeps
        | refine Keeps.foldl (fun _ _ _ => ?_) ?_
    | dsimp only

theorem checkGroup_keeps {s₀ : State} (s : State) (n : Nat) (hk : Keeps s₀ s) : Keeps s₀ (checkGroup s n) := by
  unfold checkGroup
  try dsimp only
  repeat' first
    | with_reducible first
      | assumption
      | intro _
      | apply State.modArr_keeps
      | apply State.writeErr_keeps
      | refine Keeps.ite ?_ ?_
      | refine Keeps.foldl (fun _ _ _ => ?_) ?_
      | refine Keeps.foldl_snd (fun _ _ _ => ?_) ?_
    | (with_reducible first | apply Keeps.mk_rest | apply Keeps.mk_mem | apply Keeps.mk_sec | apply Keeps.mk_mem_sec) <;> first
      | with_reducible first
        | assumption
        | apply State.modArr_keeps
        | apply State.writeErr_keeps
        | refine Keeps.ite ?_ ?_
        | refine Keeps.foldl (fun _ _ _ => ?_) ?_
      | split
    | split
    | dsimp only

theorem applySettings_keeps {s₀ : State} (s : State) (hk : Keeps s₀ s) : Keeps s₀ (applySettings s) := by
  unfold applySettings
  try dsimp only
  repeat' first
    | with_reducible first
      | assumption
      | intro _
      | apply checkGroup_keeps
      | refine Keeps.foldl (fun _ _ _ => ?_) ?_
      | refine Keeps.foldl_snd (fun _ _ _ => ?_) ?_
    | dsimp only

theorem applyPools_keeps {s₀ : State} (s : State) (hk : Keeps s₀ s) : Keeps s₀ (applyPools s) := by
  unfold applyPools
  try dsimp only
  repeat' first
    | with_reducible first
      | assumption
      | intro _
    | (with_reducible first | apply Keeps.mk_rest | apply Keeps.mk_mem | apply Keeps.mk_sec | apply Keeps.mk_mem_sec) <;> first
      | with_reducible first
        | assumption
    | dsimp only

theorem trackerBoundary_keeps {s₀ : State} (s : State) (hk : Keeps s₀ s) : Keeps s₀ (trackerBoundary s) := by
  unfold trackerBoundary
  try dsimp only
  repeat' first
    | with_reducible first
      | assumption
      | intro _
      | apply endNow_keeps
      | refine Keeps.foldl (fun _ _ _ => ?_) ?_
      | refine Keeps.foldl_snd (fun _ _ _ => ?_) ?_
    | (with_reducible first | apply Keeps.mk_rest | apply Keeps.mk_mem | apply Keeps.mk_sec | apply Keeps.mk_mem_sec) <;> first
      | with_reducible first
        | assumption
        | apply endNow_keeps
        | refine Keeps.foldl (fun _ _ _ => ?_) ?_
    | dsimp only

theorem boundaryWork_keeps {s₀ : State} (ks : List Nat) (s : State) (hk : Keeps s₀ s) : Keeps s₀ (boundaryWork ks s) := by
  unfold boundaryWork
  try dsimp only
  repeat' first
    | with_reducible first
      | assumption
      | intro _
      | apply finishCopies_keeps
      | apply promoteAll_keeps
      | apply snapshotEmb_keeps
      | apply countDecay_keeps
      | apply clearSeqs_keeps
      | apply snapshotSeqs_keeps
      | apply cutTruncated_keeps
      | apply applySettings_keeps
      | apply applyPools_keeps
      | apply trackerBoundary_keeps
    | dsimp only

theorem countLive_keeps {s₀ : State} (s : State) (hk : Keeps s₀ s) : Keeps s₀ (countLive s) := by
  unfold countLive
  try dsimp only
  repeat' first
    | with_reducible first
      | assumption
      | intro _
      | refine Keeps.foldl (fun _ _ _ => ?_) ?_
      | refine Keeps.foldl_snd (fun _ _ _ => ?_) ?_
    | (with_reducible first | apply Keeps.mk_rest | apply Keeps.mk_mem | apply Keeps.mk_sec | apply Keeps.mk_mem_sec) <;> first
      | with_reducible first
        | assumption
        | refine Keeps.foldl (fun _ _ _ => ?_) ?_
    | dsimp only

theorem stepBoundary_keeps {s₀ : State} (s : State) (hk : Keeps s₀ s) : Keeps s₀ (stepBoundary s).2 := by
  unfold stepBoundary
  try dsimp only
  repeat' first
    | with_reducible first
      | assumption
      | intro _
      | apply commitAppends_keeps
      | apply nameTruncated_keeps
      | apply applyPending_keeps
      | apply boundaryWork_keeps
    | dsimp only

theorem rotatePools_keeps {s₀ : State} (s : State) (hk : Keeps s₀ s) : Keeps s₀ (rotatePools s) := by
  unfold rotatePools
  try dsimp only
  repeat' first
    | with_reducible first
      | assumption
      | intro _
      | apply State.modVat_keeps
      | refine Keeps.foldl (fun _ _ _ => ?_) ?_
      | refine Keeps.foldl_snd (fun _ _ _ => ?_) ?_
    | (with_reducible first | apply Keeps.mk_rest | apply Keeps.mk_mem | apply Keeps.mk_sec | apply Keeps.mk_mem_sec) <;> first
      | with_reducible first
        | assumption
        | apply State.modVat_keeps
        | refine Keeps.foldl (fun _ _ _ => ?_) ?_
    | dsimp only

theorem leadBoundary_keeps {s₀ : State} (s : State) (hk : Keeps s₀ s) : Keeps s₀ (leadBoundary s) := by
  unfold leadBoundary
  try dsimp only
  repeat' first
    | with_reducible first
      | assumption
      | intro _
      | apply leadStep_keeps
      | apply countLive_keeps
      | apply stepBoundary_keeps
      | apply rotatePools_keeps
      | refine Keeps.ite ?_ ?_
      | refine Keeps.ite_snd ?_ ?_
      | apply Keeps.ite_fst
    | (with_reducible first | apply Keeps.mk_rest | apply Keeps.mk_mem | apply Keeps.mk_sec | apply Keeps.mk_mem_sec) <;> first
      | with_reducible first
        | assumption
        | apply leadStep_keeps
        | apply countLive_keeps
        | apply stepBoundary_keeps
        | apply rotatePools_keeps
        | refine Keeps.ite ?_ ?_
      | split
    | split
    | dsimp only

theorem loneBoundary_keeps {s₀ : State} (s : State) (hk : Keeps s₀ s) : Keeps s₀ (loneBoundary s) := by
  unfold loneBoundary
  try dsimp only
  repeat' first
    | with_reducible first
      | assumption
      | intro _
      | apply countLive_keeps
      | apply stepBoundary_keeps
      | apply rotatePools_keeps
      | refine Keeps.ite ?_ ?_
      | refine Keeps.ite_snd ?_ ?_
      | refine Keeps.ite_st ?_ ?_
    | (with_reducible first | apply Keeps.mk_rest | apply Keeps.mk_mem | apply Keeps.mk_sec | apply Keeps.mk_mem_sec) <;> first
      | with_reducible first
        | assumption
        | apply countLive_keeps
        | apply stepBoundary_keeps
        | apply rotatePools_keeps
        | refine Keeps.ite ?_ ?_
      | split
    | split
    | dsimp only

theorem memberStart_keeps {s₀ : State} (part : Nat) (s : State) (hk : Keeps s₀ s) : Keeps s₀ (memberStart part s) := by
  unfold memberStart
  try dsimp only
  repeat' first
    | with_reducible first
      | assumption
      | intro _
      | apply State.writeErr_keeps
      | apply memberStep_keeps
      | apply countLive_keeps
      | apply stepBoundary_keeps
      | apply rotatePools_keeps
      | refine Keeps.ite ?_ ?_
      | refine Keeps.ite_snd ?_ ?_
      | refine Keeps.ite_st ?_ ?_
      | apply Keeps.ite_fst
      | refine Keeps.foldl (fun _ _ _ => ?_) ?_
      | refine Keeps.foldl_snd (fun _ _ _ => ?_) ?_
    | (with_reducible first | apply Keeps.mk_rest | apply Keeps.mk_mem | apply Keeps.mk_sec | apply Keeps.mk_mem_sec) <;> first
      | with_reducible first
        | assumption
        | apply State.writeErr_keeps
        | apply memberStep_keeps
        | apply countLive_keeps
        | apply stepBoundary_keeps
        | apply rotatePools_keeps
        | refine Keeps.ite ?_ ?_
        | refine Keeps.foldl (fun _ _ _ => ?_) ?_
      | split
    | split
    | dsimp only

theorem execStepBoundary_keeps {s₀ : State} (s : State) (hk : Keeps s₀ s) : KeepsO s₀ (execStepBoundary s) := by
  unfold execStepBoundary
  try dsimp only
  repeat' first
    | with_reducible first
      | assumption
      | intro _
      | apply leadBoundary_keeps
      | apply loneBoundary_keeps
      | apply memberStart_keeps
      | refine Keeps.ite ?_ ?_
      | refine KeepsO.ite ?_ ?_
      | refine KeepsO.next ?_
    | split
    | dsimp only

theorem execMemberStepStart_keeps {s₀ : State} (part : Nat) (s : State) (hk : Keeps s₀ s) : KeepsO s₀ (execMemberStepStart part s) := by
  unfold execMemberStepStart
  try dsimp only
  repeat' first
    | with_reducible first
      | assumption
      | intro _
      | apply memberStart_keeps
      | refine Keeps.ite ?_ ?_
      | refine KeepsO.ite ?_ ?_
      | refine KeepsO.next ?_
    | split
    | dsimp only

theorem execIdleStepBoundary_keeps {s₀ : State} (s : State) (hk : Keeps s₀ s) : KeepsO s₀ (execIdleStepBoundary s) := by
  unfold execIdleStepBoundary
  try dsimp only
  repeat' first
    | with_reducible first
      | assumption
      | intro _
      | apply applyPending_keeps
      | apply boundaryWork_keeps
      | apply countLive_keeps
      | refine Keeps.ite ?_ ?_
      | refine KeepsO.ite ?_ ?_
      | refine KeepsO.next ?_
    | split
    | dsimp only

end Sys2Proof.Machine
end

