-- ==== Sys2Proof/Laws/KeepsFabric.lean ====
section
/-! SUPPORT. Each operation of Machine/Fabric.lean makes a change that `Keeps`. -/

namespace Sys2Proof.Machine

theorem execPortEnableWrite_keeps {s₀ : State} (agent : RegAgent) (port value : Nat) (s : State) (hk : Keeps s₀ s) : KeepsO s₀ (execPortEnableWrite agent port value s) := by
  unfold execPortEnableWrite
  try dsimp only
  repeat' first
    | with_reducible first
      | assumption
      | intro _
      | apply State.modPort_keeps
      | apply regRow_keeps
      | apply portCfg_keeps
      | refine KeepsO.next ?_
    | (with_reducible first | apply Keeps.mk_rest | apply Keeps.mk_mem | apply Keeps.mk_sec | apply Keeps.mk_mem_sec) <;> first
      | with_reducible first
        | assumption
        | apply State.modPort_keeps
        | apply regRow_keeps
        | apply portCfg_keeps
    | dsimp only

theorem execLinkTrainingDone_keeps {s₀ : State} (port sub : Nat) (accepted : Bool) (s : State) (hk : Keeps s₀ s) : KeepsO s₀ (execLinkTrainingDone port sub accepted s) := by
  unfold execLinkTrainingDone
  try dsimp only
  repeat' first
    | with_reducible first
      | assumption
      | intro _
      | apply State.setSub_keeps
      | apply State.writeErr_keeps
      | refine Keeps.ite ?_ ?_
      | refine Keeps.ite_st ?_ ?_
      | refine KeepsO.ite ?_ ?_
      | refine KeepsO.next ?_
    | (with_reducible first | apply Keeps.mk_rest | apply Keeps.mk_mem | apply Keeps.mk_sec | apply Keeps.mk_mem_sec) <;> first
      | with_reducible first
        | assumption
        | apply State.setSub_keeps
        | apply State.writeErr_keeps
        | refine Keeps.ite ?_ ?_
      | split
    | split
    | dsimp only

theorem linkReady_keeps {s₀ : State} (s : State) (p k : Nat) (hk : Keeps s₀ s) : Keeps s₀ (linkReady s p k) := by
  unfold linkReady
  try dsimp only
  repeat' first
    | with_reducible first
      | assumption
      | intro _
      | apply State.modSub_keeps
      | apply goUp_keeps
      | refine Keeps.ite ?_ ?_
    | (with_reducible first | apply Keeps.mk_rest | apply Keeps.mk_mem | apply Keeps.mk_sec | apply Keeps.mk_mem_sec) <;> first
      | with_reducible first
        | assumption
        | apply State.modSub_keeps
        | apply goUp_keeps
        | refine Keeps.ite ?_ ?_
      | split
    | split
    | dsimp only

theorem execPcsLock_keeps {s₀ : State} (port sub : Nat) (s : State) (hk : Keeps s₀ s) : KeepsO s₀ (execPcsLock port sub s) := by
  unfold execPcsLock
  try dsimp only
  repeat' first
    | with_reducible first
      | assumption
      | intro _
      | apply State.setSub_keeps
      | apply linkReady_keeps
      | refine Keeps.ite ?_ ?_
      | refine Keeps.ite_st ?_ ?_
      | refine KeepsO.ite ?_ ?_
      | refine KeepsO.next ?_
    | (with_reducible first | apply Keeps.mk_rest | apply Keeps.mk_mem | apply Keeps.mk_sec | apply Keeps.mk_mem_sec) <;> first
      | with_reducible first
        | assumption
        | apply State.setSub_keeps
        | apply linkReady_keeps
        | refine Keeps.ite ?_ ?_
      | split
    | split
    | dsimp only

theorem execPreemptVerifyDone_keeps {s₀ : State} (port sub : Nat) (verified : Bool) (s : State) (hk : Keeps s₀ s) : KeepsO s₀ (execPreemptVerifyDone port sub verified s) := by
  unfold execPreemptVerifyDone
  try dsimp only
  repeat' first
    | with_reducible first
      | assumption
      | intro _
      | apply State.setSub_keeps
      | apply verified_keeps
      | apply linkReady_keeps
      | refine Keeps.ite ?_ ?_
      | refine Keeps.ite_st ?_ ?_
      | refine KeepsO.ite ?_ ?_
      | refine KeepsO.next ?_
    | (with_reducible first | apply Keeps.mk_rest | apply Keeps.mk_mem | apply Keeps.mk_sec | apply Keeps.mk_mem_sec) <;> first
      | with_reducible first
        | assumption
        | apply State.setSub_keeps
        | apply verified_keeps
        | apply linkReady_keeps
        | refine Keeps.ite ?_ ?_
      | split
    | split
    | dsimp only

theorem helloDirect_keeps {s₀ : State} (s : State) (p k : Nat) (h : HelloMsg) (hk : Keeps s₀ s) : Keeps s₀ (helloDirect s p k h) := by
  unfold helloDirect
  try dsimp only
  repeat' first
    | with_reducible first
      | assumption
      | intro _
      | apply State.setSub_keeps
      | apply State.writeErr_keeps
      | apply goUp_keeps
      | refine Keeps.ite ?_ ?_
      | refine Keeps.ite_snd ?_ ?_
      | refine Keeps.ite_st ?_ ?_
      | apply Keeps.ite_fst
    | (with_reducible first | apply Keeps.mk_rest | apply Keeps.mk_mem | apply Keeps.mk_sec | apply Keeps.mk_mem_sec) <;> first
      | with_reducible first
        | assumption
        | apply State.setSub_keeps
        | apply State.writeErr_keeps
        | apply goUp_keeps
        | refine Keeps.ite ?_ ?_
      | split
    | split
    | dsimp only

theorem helloSwitched_keeps {s₀ : State} (s : State) (p k chip : Nat) (h : HelloMsg) (hk : Keeps s₀ s) : Keeps s₀ (helloSwitched s p k chip h) := by
  unfold helloSwitched
  try dsimp only
  repeat' first
    | with_reducible first
      | assumption
      | intro _
      | apply State.writeErr_keeps
      | apply sendHelloTo_keeps
      | apply flushWaiting_keeps
      | apply foundAgain_keeps
      | refine Keeps.ite ?_ ?_
      | refine Keeps.ite_snd ?_ ?_
      | refine Keeps.ite_st ?_ ?_
      | apply Keeps.ite_fst
    | (with_reducible first | apply Keeps.mk_rest | apply Keeps.mk_mem | apply Keeps.mk_sec | apply Keeps.mk_mem_sec) <;> first
      | with_reducible first
        | assumption
        | apply State.writeErr_keeps
        | apply sendHelloTo_keeps
        | apply flushWaiting_keeps
        | apply foundAgain_keeps
        | refine Keeps.ite ?_ ?_
      | split
    | split
    | dsimp only

theorem execHello_keeps {s₀ : State} (port sub : Nat) (srcChip : Nat) (payload : Octets) (s : State) (hk : Keeps s₀ s) : KeepsO s₀ (execHello port sub srcChip payload s) := by
  unfold execHello
  try dsimp only
  repeat' first
    | with_reducible first
      | assumption
      | intro _
      | apply State.setSub_keeps
      | apply State.writeErr_keeps
      | apply heardFrom_keeps
      | apply helloDirect_keeps
      | apply helloSwitched_keeps
      | refine Keeps.ite ?_ ?_
      | refine Keeps.ite_st ?_ ?_
      | refine KeepsO.ite ?_ ?_
      | refine KeepsO.next ?_
    | (with_reducible first | apply Keeps.mk_rest | apply Keeps.mk_mem | apply Keeps.mk_sec | apply Keeps.mk_mem_sec) <;> first
      | with_reducible first
        | assumption
        | apply State.setSub_keeps
        | apply State.writeErr_keeps
        | apply heardFrom_keeps
        | apply helloDirect_keeps
        | apply helloSwitched_keeps
        | refine Keeps.ite ?_ ?_
      | split
    | split
    | dsimp only

theorem execHelloSendTimer_keeps {s₀ : State} (port sub : Nat) (s : State) (hk : Keeps s₀ s) : KeepsO s₀ (execHelloSendTimer port sub s) := by
  unfold execHelloSendTimer
  try dsimp only
  repeat' first
    | with_reducible first
      | assumption
      | intro _
      | apply State.modSub_keeps
      | apply State.emit_keeps
      | apply State.until_keeps
      | apply frameStart_keeps
      | apply goUp_keeps
      | refine Keeps.ite ?_ ?_
      | refine Keeps.ite_st ?_ ?_
      | refine KeepsO.ite ?_ ?_
      | refine KeepsO.next ?_
    | (with_reducible first | apply Keeps.mk_rest | apply Keeps.mk_mem | apply Keeps.mk_sec | apply Keeps.mk_mem_sec) <;> first
      | with_reducible first
        | assumption
        | apply State.modSub_keeps
        | apply State.emit_keeps
        | apply State.until_keeps
        | apply frameStart_keeps
        | apply goUp_keeps
        | refine Keeps.ite ?_ ?_
      | split
    | split
    | dsimp only

theorem execHelloTimeout_keeps {s₀ : State} (port sub : Nat) (s : State) (hk : Keeps s₀ s) : KeepsO s₀ (execHelloTimeout port sub s) := by
  unfold execHelloTimeout
  try dsimp only
  repeat' first
    | with_reducible first
      | assumption
      | intro _
      | apply State.setSub_keeps
      | apply State.writeErr_keeps
      | apply State.until_keeps
      | refine Keeps.ite ?_ ?_
      | refine Keeps.ite_st ?_ ?_
      | refine KeepsO.ite ?_ ?_
      | refine KeepsO.next ?_
    | (with_reducible first | apply Keeps.mk_rest | apply Keeps.mk_mem | apply Keeps.mk_sec | apply Keeps.mk_mem_sec) <;> first
      | with_reducible first
        | assumption
        | apply State.setSub_keeps
        | apply State.writeErr_keeps
        | apply State.until_keeps
        | refine Keeps.ite ?_ ?_
      | split
    | split
    | dsimp only

theorem applyData_keeps {s₀ : State} (f : Frame) (part : Nat) (s : State) (hk : Keeps s₀ s) : Keeps s₀ (applyData f part s).2 := by
  unfold applyData
  try dsimp only
  repeat' first
    | with_reducible first
      | assumption
      | intro _
      | apply expWrite_keeps
      | refine Keeps.ite ?_ ?_
      | refine Keeps.ite_snd ?_ ?_
    | split
    | dsimp only

theorem execDataWrite_keeps {s₀ : State} (f : Frame) (s : State) (hk : Keeps s₀ s) : KeepsO s₀ (execDataWrite f s) := by
  unfold execDataWrite
  try dsimp only
  repeat' first
    | with_reducible first
      | assumption
      | intro _
      | apply frameArrives_keeps
      | apply streamReceive_keeps
      | apply applyData_keeps
      | refine Keeps.ite ?_ ?_
      | refine Keeps.ite_snd ?_ ?_
      | apply Keeps.ite_fst
      | refine KeepsO.ite ?_ ?_
      | refine KeepsO.next ?_
    | split
    | dsimp only

theorem execDataReadResp_keeps {s₀ : State} (f : Frame) (s : State) (hk : Keeps s₀ s) : KeepsO s₀ (execDataReadResp f s) := by
  unfold execDataReadResp
  try dsimp only
  repeat' first
    | with_reducible first
      | assumption
      | intro _
      | apply frameArrives_keeps
      | apply streamReceive_keeps
      | apply applyData_keeps
      | refine Keeps.ite ?_ ?_
      | refine Keeps.ite_snd ?_ ?_
      | apply Keeps.ite_fst
      | refine KeepsO.ite ?_ ?_
      | refine KeepsO.next ?_
    | split
    | dsimp only

theorem sendPieces_keeps {s₀ : State} (h offset eseq : Nat) (l : List (Nat × Octets)) (s : State) (hk : Keeps s₀ s) :
    Keeps s₀ (sendPieces h offset eseq l s) := by
  induction l generalizing s with
  | nil => exact hk
  | cons r t ih => exact ih _ (sendStream_keeps _ _ _ _ _ _ _ _ _ hk)

theorem applyRead_keeps {s₀ : State} (f : Frame) (part : Nat) (s : State) (hk : Keeps s₀ s) : Keeps s₀ (applyRead f part s).2 := by
  unfold applyRead
  try dsimp only
  repeat' first
    | with_reducible first
      | assumption
      | intro _
      | apply sendPieces_keeps
      | refine Keeps.ite ?_ ?_
      | refine Keeps.ite_snd ?_ ?_
      | refine Keeps.ite_st ?_ ?_
    | split
    | dsimp only

theorem execDataReadReq_keeps {s₀ : State} (f : Frame) (s : State) (hk : Keeps s₀ s) : KeepsO s₀ (execDataReadReq f s) := by
  unfold execDataReadReq
  try dsimp only
  repeat' first
    | with_reducible first
      | assumption
      | intro _
      | apply State.writeErr_keeps
      | apply frameArrives_keeps
      | apply streamReceive_keeps
      | apply applyRead_keeps
      | refine Keeps.ite ?_ ?_
      | refine Keeps.ite_snd ?_ ?_
      | apply Keeps.ite_fst
      | refine KeepsO.ite ?_ ?_
      | refine KeepsO.next ?_
    | split
    | dsimp only

theorem released_keeps {s₀ : State} (s : State) (gone : SentFrame → Bool) (hk : Keeps s₀ s) : Keeps s₀ (released s gone) := by
  unfold released
  try dsimp only
  repeat' first
    | with_reducible first
      | assumption
      | intro _
      | apply flushWaiting_keeps
    | (with_reducible first | apply Keeps.mk_rest | apply Keeps.mk_mem | apply Keeps.mk_sec | apply Keeps.mk_mem_sec) <;> first
      | with_reducible first
        | assumption
        | apply flushWaiting_keeps
    | dsimp only

theorem closeIfDone_keeps {s₀ : State} (s : State) (h : Nat) (hk : Keeps s₀ s) : Keeps s₀ (closeIfDone s h) := by
  unfold closeIfDone
  try dsimp only
  repeat' first
    | with_reducible first
      | assumption
      | intro _
      | apply closeStream_keeps
      | refine Keeps.ite ?_ ?_
      | refine Keeps.ite_st ?_ ?_
    | split
    | dsimp only

theorem execEackAck_keeps {s₀ : State} (f : Frame) (s : State) (hk : Keeps s₀ s) : KeepsO s₀ (execEackAck f s) := by
  unfold execEackAck
  try dsimp only
  repeat' first
    | with_reducible first
      | assumption
      | intro _
      | apply frameArrives_keeps
      | apply released_keeps
      | apply closeIfDone_keeps
      | refine Keeps.ite ?_ ?_
      | refine Keeps.ite_snd ?_ ?_
      | refine Keeps.ite_st ?_ ?_
      | apply Keeps.ite_fst
      | refine KeepsO.ite ?_ ?_
      | refine KeepsO.next ?_
    | split
    | dsimp only

theorem execEackRefuse_keeps {s₀ : State} (f : Frame) (s : State) (hk : Keeps s₀ s) : KeepsO s₀ (execEackRefuse f s) := by
  unfold execEackRefuse
  try dsimp only
  repeat' first
    | with_reducible first
      | assumption
      | intro _
      | apply frameArrives_keeps
      | apply failFrame_keeps
      | apply failRequest_keeps
      | apply endChan_keeps
      | apply released_keeps
      | apply closeIfDone_keeps
      | refine Keeps.ite ?_ ?_
      | refine Keeps.ite_snd ?_ ?_
      | refine Keeps.ite_st ?_ ?_
      | apply Keeps.ite_fst
      | refine KeepsO.ite ?_ ?_
      | refine KeepsO.next ?_
    | split
    | dsimp only

theorem linkFrame_keeps {p k : Nat} {g : State → State} (hg : ∀ s₀ s, Keeps s₀ s → Keeps s₀ (g s)) {s₀ s : State}
    (hk : Keeps s₀ s) : Keeps s₀ (linkFrame s p k g) :=
  Keeps.ite (fun _ => hg _ _ (heardFrom_keeps _ _ _ _ hk)) (fun _ => hk)

theorem replayLink_keeps {s₀ : State} (s : State) (p k : Nat) (hk : Keeps s₀ s) : Keeps s₀ (replayLink s p k) := by
  unfold replayLink
  try dsimp only
  repeat' first
    | with_reducible first
      | assumption
      | intro _
      | apply State.modPort_keeps
      | apply State.setSub_keeps
      | apply State.emit_keeps
      | apply frameStart_keeps
      | apply subDown_keeps
      | refine Keeps.ite ?_ ?_
      | refine Keeps.ite_st ?_ ?_
      | refine Keeps.foldl (fun _ _ _ => ?_) ?_
      | refine Keeps.foldl_snd (fun _ _ _ => ?_) ?_
    | (with_reducible first | apply Keeps.mk_rest | apply Keeps.mk_mem | apply Keeps.mk_sec | apply Keeps.mk_mem_sec) <;> first
      | with_reducible first
        | assumption
        | apply State.modPort_keeps
        | apply State.setSub_keeps
        | apply State.emit_keeps
        | apply frameStart_keeps
        | apply subDown_keeps
        | refine Keeps.ite ?_ ?_
        | refine Keeps.foldl (fun _ _ _ => ?_) ?_
      | split
    | split
    | dsimp only

theorem execLinkAck_keeps {s₀ : State} (port sub lack : Nat) (s : State) (hk : Keeps s₀ s) : KeepsO s₀ (execLinkAck port sub lack s) := by
  unfold execLinkAck
  try dsimp only
  repeat' first
    | with_reducible first
      | assumption
      | intro _
      | apply linkAcked_keeps
      | apply linkFrame_keeps
      | refine KeepsO.next ?_
    | dsimp only

theorem execLinkNak_keeps {s₀ : State} (port sub lack : Nat) (s : State) (hk : Keeps s₀ s) : KeepsO s₀ (execLinkNak port sub lack s) := by
  unfold execLinkNak
  try dsimp only
  repeat' first
    | with_reducible first
      | assumption
      | intro _
      | apply linkAcked_keeps
      | apply linkFrame_keeps
      | apply replayLink_keeps
      | refine KeepsO.next ?_
    | dsimp only

theorem execLinkCredit_keeps {s₀ : State} (port sub cls units : Nat) (s : State) (hk : Keeps s₀ s) : KeepsO s₀ (execLinkCredit port sub cls units s) := by
  unfold execLinkCredit
  try dsimp only
  repeat' first
    | with_reducible first
      | assumption
      | intro _
      | apply creditBack_keeps
      | apply linkFrame_keeps
      | refine KeepsO.next ?_
    | dsimp only

theorem execLinkKeepalive_keeps {s₀ : State} (port sub srcChip : Nat) (s : State) (hk : Keeps s₀ s) : KeepsO s₀ (execLinkKeepalive port sub srcChip s) := by
  unfold execLinkKeepalive
  try dsimp only
  repeat' first
    | with_reducible first
      | assumption
      | intro _
      | apply State.emit_keeps
      | apply heardFrom_keeps
      | refine Keeps.ite ?_ ?_
      | refine KeepsO.ite ?_ ?_
      | refine KeepsO.next ?_
    | (with_reducible first | apply Keeps.mk_rest | apply Keeps.mk_mem | apply Keeps.mk_sec | apply Keeps.mk_mem_sec) <;> first
      | with_reducible first
        | assumption
        | apply State.emit_keeps
        | apply heardFrom_keeps
        | refine Keeps.ite ?_ ?_
      | split
    | split
    | dsimp only

theorem execDozeReq_keeps {s₀ : State} (port sub : Nat) (s : State) (hk : Keeps s₀ s) : KeepsO s₀ (execDozeReq port sub s) := by
  unfold execDozeReq
  try dsimp only
  repeat' first
    | with_reducible first
      | assumption
      | intro _
      | apply State.modSub_keeps
      | apply sendLink_keeps
      | apply linkFrame_keeps
      | refine Keeps.ite ?_ ?_
      | refine KeepsO.ite ?_ ?_
      | refine KeepsO.next ?_
    | (with_reducible first | apply Keeps.mk_rest | apply Keeps.mk_mem | apply Keeps.mk_sec | apply Keeps.mk_mem_sec) <;> first
      | with_reducible first
        | assumption
        | apply State.modSub_keeps
        | apply sendLink_keeps
        | apply linkFrame_keeps
        | refine Keeps.ite ?_ ?_
      | split
    | split
    | dsimp only

theorem execDozeAck_keeps {s₀ : State} (port sub : Nat) (s : State) (hk : Keeps s₀ s) : KeepsO s₀ (execDozeAck port sub s) := by
  unfold execDozeAck
  try dsimp only
  repeat' first
    | with_reducible first
      | assumption
      | intro _
      | apply State.setSub_keeps
      | apply linkFrame_keeps
      | refine Keeps.ite ?_ ?_
      | refine KeepsO.ite ?_ ?_
      | refine KeepsO.next ?_
    | (with_reducible first | apply Keeps.mk_rest | apply Keeps.mk_mem | apply Keeps.mk_sec | apply Keeps.mk_mem_sec) <;> first
      | with_reducible first
        | assumption
        | apply State.setSub_keeps
        | apply linkFrame_keeps
        | refine Keeps.ite ?_ ?_
      | split
    | split
    | dsimp only

theorem execLinkWake_keeps {s₀ : State} (port sub : Nat) (s : State) (hk : Keeps s₀ s) : KeepsO s₀ (execLinkWake port sub s) := by
  unfold execLinkWake
  try dsimp only
  repeat' first
    | with_reducible first
      | assumption
      | intro _
      | apply State.setSub_keeps
      | apply flushWaiting_keeps
      | apply linkFrame_keeps
      | refine Keeps.ite ?_ ?_
      | refine Keeps.ite_st ?_ ?_
      | refine KeepsO.ite ?_ ?_
      | refine KeepsO.next ?_
    | (with_reducible first | apply Keeps.mk_rest | apply Keeps.mk_mem | apply Keeps.mk_sec | apply Keeps.mk_mem_sec) <;> first
      | with_reducible first
        | assumption
        | apply State.setSub_keeps
        | apply flushWaiting_keeps
        | apply linkFrame_keeps
        | refine Keeps.ite ?_ ?_
      | split
    | split
    | dsimp only

theorem execLinkAckTimer_keeps {s₀ : State} (port sub : Nat) (s : State) (hk : Keeps s₀ s) : KeepsO s₀ (execLinkAckTimer port sub s) := by
  unfold execLinkAckTimer
  try dsimp only
  repeat' first
    | with_reducible first
      | assumption
      | intro _
      | apply sendLink_keeps
      | refine Keeps.ite ?_ ?_
      | refine KeepsO.ite ?_ ?_
      | refine KeepsO.next ?_
    | split
    | dsimp only

theorem execLinkReplayTimeout_keeps {s₀ : State} (port sub : Nat) (s : State) (hk : Keeps s₀ s) : KeepsO s₀ (execLinkReplayTimeout port sub s) := by
  unfold execLinkReplayTimeout
  try dsimp only
  repeat' first
    | with_reducible first
      | assumption
      | intro _
      | apply State.until_keeps
      | apply replayLink_keeps
      | refine Keeps.ite ?_ ?_
      | refine KeepsO.ite ?_ ?_
      | refine KeepsO.next ?_
    | split
    | dsimp only

theorem execKeepaliveSendTimer_keeps {s₀ : State} (port sub : Nat) (s : State) (hk : Keeps s₀ s) : KeepsO s₀ (execKeepaliveSendTimer port sub s) := by
  unfold execKeepaliveSendTimer
  try dsimp only
  repeat' first
    | with_reducible first
      | assumption
      | intro _
      | apply State.until_keeps
      | apply sendLink_keeps
      | refine Keeps.ite ?_ ?_
      | refine Keeps.ite_st ?_ ?_
      | refine KeepsO.ite ?_ ?_
      | refine KeepsO.next ?_
    | split
    | dsimp only

theorem execPortKeepaliveTimeout_keeps {s₀ : State} (port sub : Nat) (s : State) (hk : Keeps s₀ s) : KeepsO s₀ (execPortKeepaliveTimeout port sub s) := by
  unfold execPortKeepaliveTimeout
  try dsimp only
  repeat' first
    | with_reducible first
      | assumption
      | intro _
      | apply State.until_keeps
      | apply subDown_keeps
      | refine Keeps.ite ?_ ?_
      | refine Keeps.ite_st ?_ ?_
      | refine KeepsO.ite ?_ ?_
      | refine KeepsO.next ?_
    | split
    | dsimp only

theorem execPcsLockLoss_keeps {s₀ : State} (port sub : Nat) (s : State) (hk : Keeps s₀ s) : KeepsO s₀ (execPcsLockLoss port sub s) := by
  unfold execPcsLockLoss
  try dsimp only
  repeat' first
    | with_reducible first
      | assumption
      | intro _
      | apply subDown_keeps
      | refine Keeps.ite ?_ ?_
      | refine KeepsO.ite ?_ ?_
      | refine KeepsO.next ?_
    | split
    | dsimp only

theorem execE2eAckTimer_keeps {s₀ : State} (stream : Nat) (s : State) (hk : Keeps s₀ s) : KeepsO s₀ (execE2eAckTimer stream s) := by
  unfold execE2eAckTimer
  try dsimp only
  repeat' first
    | with_reducible first
      | assumption
      | intro _
      | apply sendAck_keeps
      | refine Keeps.ite ?_ ?_
      | refine Keeps.ite_st ?_ ?_
      | refine KeepsO.ite ?_ ?_
      | refine KeepsO.next ?_
    | split
    | dsimp only

theorem execE2eRetransmitTimeout_keeps {s₀ : State} (stream eseq : Nat) (s : State) (hk : Keeps s₀ s) : KeepsO s₀ (execE2eRetransmitTimeout stream eseq s) := by
  unfold execE2eRetransmitTimeout
  try dsimp only
  repeat' first
    | with_reducible first
      | assumption
      | intro _
      | apply State.until_keeps
      | apply resend_keeps
      | apply chipIsLost_keeps
      | refine Keeps.ite ?_ ?_
      | refine KeepsO.ite ?_ ?_
      | refine KeepsO.next ?_
    | split
    | dsimp only

theorem execE2eKeepaliveTimer_keeps {s₀ : State} (chip : Nat) (s : State) (hk : Keeps s₀ s) : KeepsO s₀ (execE2eKeepaliveTimer chip s) := by
  unfold execE2eKeepaliveTimer
  try dsimp only
  repeat' first
    | with_reducible first
      | assumption
      | intro _
      | apply State.emit_keeps
      | apply State.until_keeps
      | refine Keeps.ite ?_ ?_
      | refine KeepsO.ite ?_ ?_
      | refine KeepsO.next ?_
    | (with_reducible first | apply Keeps.mk_rest | apply Keeps.mk_mem | apply Keeps.mk_sec | apply Keeps.mk_mem_sec) <;> first
      | with_reducible first
        | assumption
        | apply State.emit_keeps
        | apply State.until_keeps
        | refine Keeps.ite ?_ ?_
      | split
    | split
    | dsimp only

theorem execPeerTimeout_keeps {s₀ : State} (chip : Nat) (s : State) (hk : Keeps s₀ s) : KeepsO s₀ (execPeerTimeout chip s) := by
  unfold execPeerTimeout
  try dsimp only
  repeat' first
    | with_reducible first
      | assumption
      | intro _
      | apply State.until_keeps
      | apply chipIsLost_keeps
      | refine Keeps.ite ?_ ?_
      | refine KeepsO.ite ?_ ?_
      | refine KeepsO.next ?_
    | split
    | dsimp only

theorem formatDrop_keeps {s₀ : State} (s : State) (r : RawFrame) (hk : Keeps s₀ s) : Keeps s₀ (formatDrop s r) := by
  unfold formatDrop
  try dsimp only
  repeat' first
    | with_reducible first
      | assumption
      | intro _
      | apply State.writeErr_keeps
      | apply linkReceive_keeps
      | refine Keeps.ite ?_ ?_
      | apply Keeps.ite_fst
    | split
    | dsimp only

theorem fcsDrop_keeps {s₀ : State} (s : State) (p k : Nat) (hk : Keeps s₀ s) : Keeps s₀ (fcsDrop s p k) := by
  unfold fcsDrop
  try dsimp only
  repeat' first
    | with_reducible first
      | assumption
      | intro _
      | apply State.modPort_keeps
      | apply State.setSub_keeps
      | apply sendLink_keeps
      | refine Keeps.ite ?_ ?_
    | (with_reducible first | apply Keeps.mk_rest | apply Keeps.mk_mem | apply Keeps.mk_sec | apply Keeps.mk_mem_sec) <;> first
      | with_reducible first
        | assumption
        | apply State.modPort_keeps
        | apply State.setSub_keeps
        | apply sendLink_keeps
        | refine Keeps.ite ?_ ?_
      | split
    | split
    | dsimp only

theorem execFrameCheckDrop_keeps {s₀ : State} (port sub : Nat) (raw : RawFrame) (s : State) (hk : Keeps s₀ s) : KeepsO s₀ (execFrameCheckDrop port sub raw s) := by
  unfold execFrameCheckDrop
  try dsimp only
  repeat' first
    | with_reducible first
      | assumption
      | intro _
      | apply State.writeErr_keeps
      | apply linkReceive_keeps
      | apply dropFrame_keeps
      | apply formatDrop_keeps
      | apply fcsDrop_keeps
      | refine Keeps.ite ?_ ?_
      | refine Keeps.ite_snd ?_ ?_
      | apply Keeps.ite_fst
      | refine KeepsO.ite ?_ ?_
      | refine KeepsO.next ?_
    | (with_reducible first | apply Keeps.mk_rest | apply Keeps.mk_mem | apply Keeps.mk_sec | apply Keeps.mk_mem_sec) <;> first
      | with_reducible first
        | assumption
        | apply State.writeErr_keeps
        | apply linkReceive_keeps
        | apply dropFrame_keeps
        | apply formatDrop_keeps
        | apply fcsDrop_keeps
        | refine Keeps.ite ?_ ?_
      | split
    | split
    | dsimp only

end Sys2Proof.Machine
end

