-- ==== Sys2Proof/Laws/KeepsFap.lean ====
section
/-! SUPPORT. Each operation of Machine/Fap.lean makes a change that `Keeps`. -/

namespace Sys2Proof.Machine

theorem sessUpd_keeps {s₀ : State} (s : State) (n : Nat) (f : Session → Session) (hk : Keeps s₀ s) : Keeps s₀ (sessUpd s n f) := by
  unfold sessUpd
  try dsimp only
  repeat' first
    | with_reducible first
      | assumption
      | intro _
      | apply State.modSess_keeps
      | refine Keeps.ite ?_ ?_
    | split
    | dsimp only

theorem sessLimit_keeps {s₀ : State} (s : State) (n : Nat) (hk : Keeps s₀ s) : Keeps s₀ (sessLimit s n) := by
  unfold sessLimit
  try dsimp only
  repeat' first
    | with_reducible first
      | assumption
      | intro _
      | apply endSession_keeps
      | refine Keeps.ite ?_ ?_
    | split
    | dsimp only

theorem authFailed_keeps {s₀ : State} (s : State) (n : Nat) (hk : Keeps s₀ s) : Keeps s₀ (authFailed s n) := by
  unfold authFailed
  try dsimp only
  repeat' first
    | with_reducible first
      | assumption
      | intro _
      | apply State.modSess_keeps
      | apply endSession_keeps
      | refine Keeps.ite ?_ ?_
    | (with_reducible first | apply Keeps.mk_rest | apply Keeps.mk_mem | apply Keeps.mk_sec | apply Keeps.mk_mem_sec) <;> first
      | with_reducible first
        | assumption
        | apply State.modSess_keeps
        | apply endSession_keeps
        | refine Keeps.ite ?_ ?_
      | split
    | split
    | dsimp only

theorem replayed_keeps {s₀ : State} (s : State) (hk : Keeps s₀ s) : Keeps s₀ (replayed s) := by
  unfold replayed
  try dsimp only
  repeat' first
    | with_reducible first
      | assumption
      | intro _
    | (with_reducible first | apply Keeps.mk_rest | apply Keeps.mk_mem | apply Keeps.mk_sec | apply Keeps.mk_mem_sec) <;> first
      | with_reducible first
        | assumption
    | dsimp only

theorem execFapDatagramDrop_keeps {s₀ : State} (d : BadDatagram) (s : State) (hk : Keeps s₀ s) : KeepsO s₀ (execFapDatagramDrop d s) := by
  unfold execFapDatagramDrop
  try dsimp only
  repeat' first
    | with_reducible first
      | assumption
      | intro _
      | apply State.modSess_keeps
      | apply sessLimit_keeps
      | apply authFailed_keeps
      | apply replayed_keeps
      | refine Keeps.ite ?_ ?_
      | refine KeepsO.ite ?_ ?_
      | refine KeepsO.next ?_
    | split
    | dsimp only

theorem fapSend_keeps {s₀ : State} (s : State) (n : Nat) (r : FapResp) (hk : Keeps s₀ s) : Keeps s₀ (fapSend s n r) := by
  unfold fapSend
  try dsimp only
  repeat' first
    | with_reducible first
      | assumption
      | intro _
      | apply State.emit_keeps
      | apply sessUpd_keeps
    | (with_reducible first | apply Keeps.mk_rest | apply Keeps.mk_mem | apply Keeps.mk_sec | apply Keeps.mk_mem_sec) <;> first
      | with_reducible first
        | assumption
        | apply State.emit_keeps
        | apply sessUpd_keeps
    | dsimp only

theorem fapKeep_keeps {s₀ : State} (s : State) (n : Nat) (r : FapResp) (hk : Keeps s₀ s) : Keeps s₀ (fapKeep s n r) := by
  unfold fapKeep
  try dsimp only
  repeat' first
    | with_reducible first
      | assumption
      | intro _
      | apply sessUpd_keeps
    | (with_reducible first | apply Keeps.mk_rest | apply Keeps.mk_mem | apply Keeps.mk_sec | apply Keeps.mk_mem_sec) <;> first
      | with_reducible first
        | assumption
        | apply sessUpd_keeps
    | dsimp only

theorem fapRun_keeps {op : Nat} {g : Nat → FapMsg → State → FapResp × State}
    (hg : ∀ s₀ n m s, Keeps s₀ s → Keeps s₀ (g n m s).2) {s₀ s : State} (n q : Nat) (m : FapMsg) (hk : Keeps s₀ s) :
    Keeps s₀ (fapRun op g n q m s) := by
  unfold fapRun
  dsimp only
  repeat' first
      | with_reducible first
        | assumption
        | intro _
        | apply authFailed_keeps
        | apply replayed_keeps
        | apply State.modSess_keeps
        | apply sessLimit_keeps
        | apply fapSend_keeps
        | apply fapKeep_keeps
        | apply hg
        | refine Keeps.ite ?_ ?_
        | refine Keeps.ite_snd ?_ ?_
        | refine Keeps.ite_st ?_ ?_
        | refine Keeps.foldl (fun _ _ _ => ?_) ?_
        | refine Keeps.foldl_snd (fun _ _ _ => ?_) ?_
      | (with_reducible first | apply Keeps.mk_rest | apply Keeps.mk_mem | apply Keeps.mk_sec | apply Keeps.mk_mem_sec) <;> first
        | with_reducible first
          | assumption
          | apply authFailed_keeps
          | apply replayed_keeps
          | apply State.modSess_keeps
          | apply sessLimit_keeps
          | apply fapSend_keeps
          | apply fapKeep_keeps
          | apply hg
          | refine Keeps.ite ?_ ?_
          | refine Keeps.foldl (fun _ _ _ => ?_) ?_
        | split
      | split
      | dsimp only

theorem readOctets_keeps {s₀ : State} (s : State) (n : Nat) (r : ObjRow) (k off count : Nat) (hk : Keeps s₀ s) : Keeps s₀ (readOctets s n r k off count).2.2 := by
  unfold readOctets
  try dsimp only
  repeat' first
    | with_reducible first
      | assumption
      | intro _
      | apply readChallenge_keeps
      | apply winBulk_keeps
      | exact winLoad_pair_keeps (by with_reducible assumption) (by assumption)
      | refine Keeps.ite ?_ ?_
      | refine Keeps.ite_snd ?_ ?_
      | apply Keeps.ite_fst
    | split
    | dsimp only

theorem fapRead_keeps {s₀ : State} (n : Nat) (m : FapMsg) (s : State) (hk : Keeps s₀ s) : Keeps s₀ (fapRead n m s).2 := by
  unfold fapRead
  try dsimp only
  repeat' first
    | with_reducible first
      | assumption
      | intro _
      | apply readOctets_keeps
      | refine Keeps.ite ?_ ?_
      | refine Keeps.ite_snd ?_ ?_
      | apply Keeps.ite_fst
    | split
    | dsimp only

theorem execFapRead_keeps {s₀ : State} (sess seq : Nat) (m : FapMsg) (s : State) (hk : Keeps s₀ s) : KeepsO s₀ (execFapRead sess seq m s) := by
  unfold execFapRead
  try dsimp only
  repeat' first
    | with_reducible first
      | assumption
      | intro _
      | apply fapRun_keeps
      | apply fapRead_keeps
      | refine KeepsO.next ?_
    | dsimp only

theorem doorbellWrite_keeps {s₀ : State} (n : Nat) (arg : Octets) (s : State) (hk : Keeps s₀ s) : Keeps s₀ (doorbellWrite n arg s).2 := by
  unfold doorbellWrite
  try dsimp only
  repeat' first
    | with_reducible first
      | assumption
      | intro _
      | apply mbxRing_keeps
      | refine Keeps.ite ?_ ?_
      | refine Keeps.ite_snd ?_ ?_
    | split
    | dsimp only

/-- A write of a command object keeps. -/
def WriterKeeps (w : Nat → Octets → State → Nat × State) : Prop :=
  ∀ s₀ sess arg s, Keeps s₀ s → Keeps s₀ (w sess arg s).2

theorem fapCommands_keep : ∀ c ∈ fapCommands, WriterKeeps c.2 := by
  unfold fapCommands
  simp only [List.cons_append, List.nil_append, List.forall_mem_cons]
  exact ⟨fun _ _ _ _ h => fwActivateWait_keeps _ _ _ _ h, fun _ _ _ _ h => cfgDefaultsWrite_keeps _ _ _ _ h, fun _ _ _ _ h => doorbellWrite_keeps _ _ _ h, fun _ _ _ _ h => arrCalWrite_keeps _ _ _ _ h, fun _ _ _ _ h => tableLoadWrite_keeps _ _ _ _ h, fun _ _ _ _ h => veInbufWrite_keeps _ _ _ _ h, fun _ _ _ _ h => collCreateWait_keeps _ _ _ _ h, fun _ _ _ _ h => collDestroyWrite_keeps _ _ _ _ h, fun _ _ _ _ h => syncAllocWrite_keeps _ _ _ _ h, fun _ _ _ _ h => syncFreeWrite_keeps _ _ _ _ h, fun _ _ _ _ h => syncConfigWrite_keeps _ _ _ _ h, fun _ _ _ _ h => groupCreateWait_keeps _ _ _ _ h, fun _ _ _ _ h => groupDestroyWrite_keeps _ _ _ _ h, fun _ _ _ _ h => streamOpenWait_keeps _ _ _ _ h, fun _ _ _ _ h => streamCloseWrite_keeps _ _ _ _ h, fun _ _ _ _ h => qpCreateWrite_keeps _ _ _ _ h, fun _ _ _ _ h => qpDestroyWrite_keeps _ _ _ _ h, fun _ _ _ _ h => taskChanOpenWrite_keeps _ _ _ _ h, fun _ _ _ _ h => taskChanCloseWrite_keeps _ _ _ _ h, fun _ _ _ _ h => memRegionWrite_keeps _ _ _ _ h, fun _ _ _ _ h => whlStageWrite_keeps _ _ _ _ h, fun _ _ _ _ h => whlVerifyWrite_keeps _ _ _ _ h, fun _ _ _ _ h => whlPlaceWrite_keeps _ _ _ _ h, fun _ _ _ _ h => whlArmWrite_keeps _ _ _ _ h, fun _ _ _ _ h => whlCancelWrite_keeps _ _ _ _ h, fun _ _ _ _ h => openWriteWrite_keeps _ _ _ _ h, fun _ _ _ _ h => seqEditWrite_keeps _ _ _ _ h, fun _ _ _ _ h => embTableEditWrite_keeps _ _ _ _ h, fun _ _ _ _ h => embInvalidateWrite_keeps _ _ _ _ h, fun _ _ _ _ h => embPinWrite_keeps _ _ _ _ h, fun _ _ _ _ h => reqOpenWrite_keeps _ _ _ _ h, fun _ _ _ _ h => reqCloseWrite_keeps _ _ _ _ h, fun _ _ _ _ h => pwrStateWrite_keeps _ _ _ _ h, fun _ _ _ _ h => monCalWrite_keeps _ _ _ _ h, fun _ _ _ _ h => monClearWrite_keeps _ _ _ _ h, fun _ _ _ _ h => healthFenceWrite_keeps _ _ _ _ h, fun _ _ _ _ h => healthReadmitWrite_keeps _ _ _ _ h, fun _ _ _ _ h => healthClearWrite_keeps _ _ _ _ h, fun _ _ _ _ h => recAdoptWait_keeps _ _ _ _ h, fun _ _ _ _ h => recReplaceWrite_keeps _ _ _ _ h, fun _ _ _ _ h => recRebindWrite_keeps _ _ _ _ h, fun _ _ _ _ h => partCreateWrite_keeps _ _ _ _ h, fun _ _ _ _ h => partAssignWrite_keeps _ _ _ _ h, fun _ _ _ _ h => partReleaseWrite_keeps _ _ _ _ h, fun _ _ _ _ h => lcWrite_keeps _ _ _ _ h, fun _ _ _ _ h => unlockWait_keeps _ _ _ _ h, fun _ _ _ _ h => debugCloseWrite_keeps _ _ _ _ h, fun _ _ _ _ h => pkgLoadWait_keeps _ _ _ _ h, fun _ h => nomatch h⟩

theorem fapCommand_keeps {s₀ : State} (k n : Nat) (arg : Octets) (s : State) (hk : Keeps s₀ s) :
    Keeps s₀ (fapCommand k n arg s).2 := by
  unfold fapCommand
  split
  · exact fapCommands_keep _ (List.mem_of_find?_eq_some ‹_›) _ _ _ _ hk
  · exact hk

theorem holdSet_keeps {s₀ : State} (s : State) (n : Nat) (h : Option (Nat × Nat × Octets)) (hk : Keeps s₀ s) : Keeps s₀ (holdSet s n h) := by
  unfold holdSet
  try dsimp only
  repeat' first
    | with_reducible first
      | assumption
      | intro _
      | apply sessUpd_keeps
    | (with_reducible first | apply Keeps.mk_rest | apply Keeps.mk_mem | apply Keeps.mk_sec | apply Keeps.mk_mem_sec) <;> first
      | with_reducible first
        | assumption
        | apply sessUpd_keeps
    | dsimp only

theorem writeWhole_keeps {s₀ : State} (s : State) (n : Nat) (r : ObjRow) (k : Nat) (v : Octets) (hk : Keeps s₀ s) : Keeps s₀ (writeWhole s n r k v).2 := by
  unfold writeWhole
  try dsimp only
  repeat' first
    | with_reducible first
      | assumption
      | intro _
      | apply writeOctets_keeps
      | apply fapCommand_keeps
      | refine Keeps.ite ?_ ?_
      | refine Keeps.ite_snd ?_ ?_
    | split
    | dsimp only

theorem writeObject_keeps {s₀ : State} (s : State) (n : Nat) (r : ObjRow) (k off : Nat) (d : Octets) (more : Bool) (hk : Keeps s₀ s) : Keeps s₀ (writeObject s n r k off d more).2 := by
  unfold writeObject
  try dsimp only
  repeat' first
    | with_reducible first
      | assumption
      | intro _
      | apply writeInt_keeps
      | apply writeTable_keeps
      | apply holdSet_keeps
      | apply writeWhole_keeps
      | refine Keeps.ite ?_ ?_
      | refine Keeps.ite_snd ?_ ?_
      | apply Keeps.ite_fst
    | split
    | dsimp only

theorem fapWrite_keeps {s₀ : State} (n : Nat) (m : FapMsg) (s : State) (hk : Keeps s₀ s) : Keeps s₀ (fapWrite n m s).2 := by
  unfold fapWrite
  try dsimp only
  repeat' first
    | with_reducible first
      | assumption
      | intro _
      | apply holdSet_keeps
      | apply writeObject_keeps
      | refine Keeps.ite ?_ ?_
      | refine Keeps.ite_snd ?_ ?_
      | apply Keeps.ite_fst
    | split
    | dsimp only

theorem execFapWrite_keeps {s₀ : State} (sess seq : Nat) (m : FapMsg) (s : State) (hk : Keeps s₀ s) : KeepsO s₀ (execFapWrite sess seq m s) := by
  unfold execFapWrite
  try dsimp only
  repeat' first
    | with_reducible first
      | assumption
      | intro _
      | apply fapRun_keeps
      | apply fapWrite_keeps
      | refine KeepsO.next ?_
    | dsimp only

theorem fapDescribe_keeps {s₀ : State} (n : Nat) (m : FapMsg) (s : State) (hk : Keeps s₀ s) : Keeps s₀ (fapDescribe n m s).2 := by
  unfold fapDescribe
  try dsimp only
  repeat' first
    | with_reducible first
      | assumption
      | intro _
      | refine Keeps.ite ?_ ?_
      | refine Keeps.ite_snd ?_ ?_
    | split
    | dsimp only

theorem execFapDescribe_keeps {s₀ : State} (sess seq : Nat) (m : FapMsg) (s : State) (hk : Keeps s₀ s) : KeepsO s₀ (execFapDescribe sess seq m s) := by
  unfold execFapDescribe
  try dsimp only
  repeat' first
    | with_reducible first
      | assumption
      | intro _
      | apply fapRun_keeps
      | apply fapDescribe_keeps
      | refine KeepsO.next ?_
    | dsimp only

theorem fapNext_keeps {s₀ : State} (n : Nat) (m : FapMsg) (s : State) (hk : Keeps s₀ s) : Keeps s₀ (fapNext n m s).2 := by
  unfold fapNext
  try dsimp only
  repeat' first
    | with_reducible first
      | assumption
      | intro _
      | refine Keeps.ite ?_ ?_
      | refine Keeps.ite_snd ?_ ?_
    | split
    | dsimp only

theorem execFapNext_keeps {s₀ : State} (sess seq : Nat) (m : FapMsg) (s : State) (hk : Keeps s₀ s) : KeepsO s₀ (execFapNext sess seq m s) := by
  unfold execFapNext
  try dsimp only
  repeat' first
    | with_reducible first
      | assumption
      | intro _
      | apply fapRun_keeps
      | apply fapNext_keeps
      | refine KeepsO.next ?_
    | dsimp only

theorem fapKeepalive_keeps {s₀ : State} (u1 : Nat) (m : FapMsg) (s : State) (hk : Keeps s₀ s) : Keeps s₀ (fapKeepalive u1 m s).2 := by
  unfold fapKeepalive
  try dsimp only
  repeat' first
    | with_reducible first
      | assumption
      | intro _
    | dsimp only

theorem execFapKeepalive_keeps {s₀ : State} (sess seq : Nat) (m : FapMsg) (s : State) (hk : Keeps s₀ s) : KeepsO s₀ (execFapKeepalive sess seq m s) := by
  unfold execFapKeepalive
  try dsimp only
  repeat' first
    | with_reducible first
      | assumption
      | intro _
      | apply fapRun_keeps
      | apply fapKeepalive_keeps
      | refine KeepsO.next ?_
    | dsimp only

theorem fapClose_keeps {s₀ : State} (n : Nat) (m : FapMsg) (s : State) (hk : Keeps s₀ s) : Keeps s₀ (fapClose n m s).2 := by
  unfold fapClose
  try dsimp only
  repeat' first
    | with_reducible first
      | assumption
      | intro _
      | apply endSession_keeps
    | dsimp only

theorem execFapClose_keeps {s₀ : State} (sess seq : Nat) (m : FapMsg) (s : State) (hk : Keeps s₀ s) : KeepsO s₀ (execFapClose sess seq m s) := by
  unfold execFapClose
  try dsimp only
  repeat' first
    | with_reducible first
      | assumption
      | intro _
      | apply fapRun_keeps
      | apply fapClose_keeps
      | refine KeepsO.next ?_
    | dsimp only

theorem execFapSessionIdleTimeout_keeps {s₀ : State} (sess : Nat) (s : State) (hk : Keeps s₀ s) : KeepsO s₀ (execFapSessionIdleTimeout sess s) := by
  unfold execFapSessionIdleTimeout
  try dsimp only
  repeat' first
    | with_reducible first
      | assumption
      | intro _
      | apply State.until_keeps
      | apply endSession_keeps
      | refine Keeps.ite ?_ ?_
      | refine KeepsO.ite ?_ ?_
      | refine KeepsO.next ?_
    | split
    | dsimp only

theorem execMgmtPortArpNdIcmp_keeps {s₀ : State} (k : MgmtFrame) (s : State) (hk : Keeps s₀ s) : KeepsO s₀ (execMgmtPortArpNdIcmp k s) := by
  unfold execMgmtPortArpNdIcmp
  try dsimp only
  repeat' first
    | with_reducible first
      | assumption
      | intro _
      | apply State.emit_keeps
      | refine Keeps.ite ?_ ?_
      | refine KeepsO.ite ?_ ?_
      | refine KeepsO.next ?_
    | split
    | dsimp only

end Sys2Proof.Machine
end

