-- ==== Sys2Proof/Laws/KeepsKernels.lean ====
section
/-! SUPPORT. Each operation of Machine/Kernels.lean makes a change that `Keeps`. -/

namespace Sys2Proof.Machine

theorem gemm_keeps {s₀ : State} (s : State) (x : Running) (hk : Keeps s₀ s) : Keeps s₀ (gemm s x).st := by
  unfold gemm
  try dsimp only
  repeat' first
    | with_reducible assumption
    | intro _
    | with_reducible apply kres_keeps
    | with_reducible apply kfail_keeps
    | with_reducible refine KeepsE.throw _
    | with_reducible refine KeepsE.ite ?_ ?_
    | with_reducible refine KeepsE.bind ?_
    | with_reducible refine KeepsE.pure ?_
    | (with_reducible apply Keeps.mk_rest) <;> with_reducible assumption
    | split
    | dsimp only

theorem execGemm_keeps {s₀ : State} (engine busyNs : Nat) (upset : Option EngineUpset) (s : State) (hk : Keeps s₀ s) : KeepsO s₀ (execGemm engine busyNs upset s) := by
  unfold execGemm
  try dsimp only
  repeat' first
    | with_reducible first
      | assumption
      | intro _
      | apply runKernel_keeps
      | apply gemm_keeps
      | refine KeepsO.next ?_
    | dsimp only

theorem norm_keeps {s₀ : State} (s : State) (x : Running) (hk : Keeps s₀ s) : Keeps s₀ (norm s x).st := by
  unfold norm
  try dsimp only
  repeat' first
    | with_reducible assumption
    | intro _
    | with_reducible apply kres_keeps
    | with_reducible apply kfail_keeps
    | with_reducible refine KeepsE.throw _
    | with_reducible refine KeepsE.ite ?_ ?_
    | with_reducible refine KeepsE.bind ?_
    | with_reducible refine KeepsE.pure ?_
    | (with_reducible apply Keeps.mk_rest) <;> with_reducible assumption
    | split
    | dsimp only

theorem execNorm_keeps {s₀ : State} (engine busyNs : Nat) (upset : Option EngineUpset) (s : State) (hk : Keeps s₀ s) : KeepsO s₀ (execNorm engine busyNs upset s) := by
  unfold execNorm
  try dsimp only
  repeat' first
    | with_reducible first
      | assumption
      | intro _
      | apply runKernel_keeps
      | apply norm_keeps
      | refine KeepsO.next ?_
    | dsimp only

theorem openQuant_keeps {s₀ : State} (s : State) (r : Running) (hk : Keeps s₀ s) : Keeps s₀ (openQuant s r).st := by
  unfold openQuant
  try dsimp only
  repeat' first
    | with_reducible first
      | assumption
      | intro _
      | apply State.setWhl_keeps
      | apply kfail_keeps
      | refine Keeps.ite ?_ ?_
      | refine Keeps.ite_st ?_ ?_
    | (with_reducible first | apply Keeps.mk_rest | apply Keeps.mk_mem | apply Keeps.mk_sec | apply Keeps.mk_mem_sec) <;> first
      | with_reducible first
        | assumption
        | apply State.setWhl_keeps
        | apply kfail_keeps
        | refine Keeps.ite ?_ ?_
      | split
    | split
    | dsimp only

theorem execOpenQuant_keeps {s₀ : State} (engine busyNs : Nat) (upset : Option EngineUpset) (s : State) (hk : Keeps s₀ s) : KeepsO s₀ (execOpenQuant engine busyNs upset s) := by
  unfold execOpenQuant
  try dsimp only
  repeat' first
    | with_reducible first
      | assumption
      | intro _
      | apply runKernel_keeps
      | apply openQuant_keeps
      | refine KeepsO.next ?_
    | dsimp only

theorem packageKernel_keeps {s₀ : State} (s : State) (x : Running) (hk : Keeps s₀ s) : Keeps s₀ (packageKernel s x).st := by
  unfold packageKernel
  try dsimp only
  repeat' first
    | with_reducible assumption
    | intro _
    | with_reducible apply kres_keeps
    | with_reducible apply kfail_keeps
    | with_reducible refine KeepsE.throw _
    | with_reducible refine KeepsE.ite ?_ ?_
    | with_reducible refine KeepsE.bind ?_
    | with_reducible refine KeepsE.pure ?_
    | (with_reducible apply Keeps.mk_rest) <;> with_reducible assumption
    | split
    | dsimp only

theorem execPackageKernel_keeps {s₀ : State} (engine busyNs : Nat) (upset : Option EngineUpset) (s : State) (hk : Keeps s₀ s) : KeepsO s₀ (execPackageKernel engine busyNs upset s) := by
  unfold execPackageKernel
  try dsimp only
  repeat' first
    | with_reducible first
      | assumption
      | intro _
      | apply runKernel_keeps
      | apply packageKernel_keeps
      | refine KeepsO.next ?_
    | dsimp only

end Sys2Proof.Machine
end

