-- ==== Sys2Proof/Laws/KeepsRoce.lean ====
section
/-! SUPPORT. Each operation of Machine/Roce.lean makes a change that `Keeps`. -/

namespace Sys2Proof.Machine

theorem noteCe_keeps {s₀ : State} (s : State) (h : Nat) (q : QpSt) (ce : Bool) (hk : Keeps s₀ s) : Keeps s₀ (noteCe s h q ce) := by
  unfold noteCe
  try dsimp only
  repeat' first
    | with_reducible first
      | assumption
      | intro _
      | apply State.emit_keeps
      | apply setChan_keeps
      | refine Keeps.ite ?_ ?_
    | (with_reducible first | apply Keeps.mk_rest | apply Keeps.mk_mem | apply Keeps.mk_sec | apply Keeps.mk_mem_sec) <;> first
      | with_reducible first
        | assumption
        | apply State.emit_keeps
        | apply setChan_keeps
        | refine Keeps.ite ?_ ?_
      | split
    | split
    | dsimp only

theorem responder_heardOn_keeps {s₀ s : State} (p : Nat) (hk : Keeps s₀ s) : Keeps s₀ (responder.heardOn s p) :=
  State.modPort_keeps _ _ _ hk

theorem responder_keeps {f : Nat → QpSt → State → Except Nat Octets × State}
    (hf : ∀ s₀ p q s, Keeps s₀ s → Keeps s₀ (f p q s).2) {s₀ s : State} (h psn n : Nat) (ce : Bool) (hk : Keeps s₀ s) :
    Keeps s₀ (responder s h psn n ce f) := by
  unfold responder
  dsimp only
  repeat' first
      | with_reducible first
        | assumption
        | intro _
        | apply State.emit_keeps
        | apply setChan_keeps
        | apply hf
        | apply noteCe_keeps
        | apply responder_heardOn_keeps
        | refine Keeps.ite ?_ ?_
        | refine Keeps.ite_snd ?_ ?_
        | refine Keeps.ite_st ?_ ?_
        | refine Keeps.foldl (fun _ _ _ => ?_) ?_
        | refine Keeps.foldl_snd (fun _ _ _ => ?_) ?_
      | (with_reducible first | apply Keeps.mk_rest | apply Keeps.mk_mem | apply Keeps.mk_sec | apply Keeps.mk_mem_sec) <;> first
        | with_reducible first
          | assumption
          | apply State.emit_keeps
          | apply setChan_keeps
          | apply hf
          | apply noteCe_keeps
          | apply responder_heardOn_keeps
          | refine Keeps.ite ?_ ?_
          | refine Keeps.foldl (fun _ _ _ => ?_) ?_
        | split
      | split
      | dsimp only

theorem execRoceSend_keeps {s₀ : State} (qp psn : Nat) (data : Octets) (ce : Bool) (s : State) (hk : Keeps s₀ s) : KeepsO s₀ (execRoceSend qp psn data ce s) := by
  unfold execRoceSend
  try dsimp only
  repeat' first
    | with_reducible first
      | assumption
      | intro _
      | apply responder_keeps
      | refine KeepsO.next ?_
    | dsimp only

theorem stageWrite_keeps {s₀ : State} (s : State) (p addr : Nat) (d : Octets) (hk : Keeps s₀ s) : Keeps s₀ (stageWrite s p addr d).2 := by
  unfold stageWrite
  try dsimp only
  repeat' first
    | with_reducible first
      | assumption
      | intro _
      | apply State.modWhl_keeps
      | refine Keeps.ite ?_ ?_
      | refine Keeps.ite_snd ?_ ?_
      | refine Keeps.ite_st ?_ ?_
    | (with_reducible first | apply Keeps.mk_rest | apply Keeps.mk_mem | apply Keeps.mk_sec | apply Keeps.mk_mem_sec) <;> first
      | with_reducible first
        | assumption
        | apply State.modWhl_keeps
        | refine Keeps.ite ?_ ?_
      | split
    | split
    | dsimp only

theorem rdmaApply_keeps {s₀ : State} (addr rkey : Nat) (d : Octets) (p : Nat) (q : QpSt) (s : State) (hk : Keeps s₀ s) : Keeps s₀ (rdmaApply addr rkey d p q s).2 := by
  unfold rdmaApply
  try dsimp only
  repeat' first
    | with_reducible first
      | assumption
      | intro _
      | apply expWrite_keeps
      | apply stageWrite_keeps
      | refine Keeps.ite ?_ ?_
      | refine Keeps.ite_snd ?_ ?_
      | apply Keeps.ite_fst
    | split
    | dsimp only

theorem execRoceWrite_keeps {s₀ : State} (qp psn addr rkey : Nat) (data : Octets) (imm_ : Option Nat) (ce : Bool) (s : State) (hk : Keeps s₀ s) : KeepsO s₀ (execRoceWrite qp psn addr rkey data imm_ ce s) := by
  unfold execRoceWrite
  try dsimp only
  repeat' first
    | with_reducible first
      | assumption
      | intro _
      | apply responder_keeps
      | apply rdmaApply_keeps
      | refine KeepsO.next ?_
    | dsimp only

theorem rdmaRead_keeps {s₀ : State} (addr rkey len : Nat) (p : Nat) (q : QpSt) (s : State) (hk : Keeps s₀ s) : Keeps s₀ (rdmaRead addr rkey len p q s).2 := by
  unfold rdmaRead
  try dsimp only
  repeat' first
    | with_reducible first
      | assumption
      | intro _
      | refine Keeps.ite ?_ ?_
      | refine Keeps.ite_snd ?_ ?_
    | split
    | dsimp only

theorem execRoceRead_keeps {s₀ : State} (qp psn addr rkey len : Nat) (ce : Bool) (s : State) (hk : Keeps s₀ s) : KeepsO s₀ (execRoceRead qp psn addr rkey len ce s) := by
  unfold execRoceRead
  try dsimp only
  repeat' first
    | with_reducible first
      | assumption
      | intro _
      | apply responder_keeps
      | apply rdmaRead_keeps
      | refine KeepsO.next ?_
    | dsimp only

theorem roceAtomic_keeps {s₀ : State} (addr rkey : Nat) (op : SyncOp) (p : Nat) (q : QpSt) (s : State) (hk : Keeps s₀ s) : Keeps s₀ (roceAtomic addr rkey op p q s).2 := by
  unfold roceAtomic
  try dsimp only
  repeat' first
    | with_reducible first
      | assumption
      | intro _
      | apply syncDo_keeps
      | refine Keeps.ite ?_ ?_
      | refine Keeps.ite_snd ?_ ?_
      | apply Keeps.ite_fst
    | split
    | dsimp only

theorem execRoceFetchAdd_keeps {s₀ : State} (qp psn addr rkey a : Nat) (ce : Bool) (s : State) (hk : Keeps s₀ s) : KeepsO s₀ (execRoceFetchAdd qp psn addr rkey a ce s) := by
  unfold execRoceFetchAdd
  try dsimp only
  repeat' first
    | with_reducible first
      | assumption
      | intro _
      | apply responder_keeps
      | apply roceAtomic_keeps
      | refine KeepsO.next ?_
    | dsimp only

theorem execRoceCmpSwap_keeps {s₀ : State} (qp psn addr rkey c v : Nat) (ce : Bool) (s : State) (hk : Keeps s₀ s) : KeepsO s₀ (execRoceCmpSwap qp psn addr rkey c v ce s) := by
  unfold execRoceCmpSwap
  try dsimp only
  repeat' first
    | with_reducible first
      | assumption
      | intro _
      | apply responder_keeps
      | apply roceAtomic_keeps
      | refine KeepsO.next ?_
    | dsimp only

theorem execRoceCnp_keeps {s₀ : State} (qp : Nat) (s : State) (hk : Keeps s₀ s) : KeepsO s₀ (execRoceCnp qp s) := by
  unfold execRoceCnp
  try dsimp only
  repeat' first
    | with_reducible first
      | assumption
      | intro _
      | apply setChan_keeps
      | refine Keeps.ite ?_ ?_
      | refine KeepsO.ite ?_ ?_
      | refine KeepsO.next ?_
    | (with_reducible first | apply Keeps.mk_rest | apply Keeps.mk_mem | apply Keeps.mk_sec | apply Keeps.mk_mem_sec) <;> first
      | with_reducible first
        | assumption
        | apply setChan_keeps
        | refine Keeps.ite ?_ ?_
      | split
    | split
    | dsimp only

theorem execRoceRateRecovery_keeps {s₀ : State} (qp : Nat) (s : State) (hk : Keeps s₀ s) : KeepsO s₀ (execRoceRateRecovery qp s) := by
  unfold execRoceRateRecovery
  try dsimp only
  repeat' first
    | with_reducible first
      | assumption
      | intro _
      | apply State.until_keeps
      | apply setChan_keeps
      | refine Keeps.ite ?_ ?_
      | refine KeepsO.ite ?_ ?_
      | refine KeepsO.next ?_
    | (with_reducible first | apply Keeps.mk_rest | apply Keeps.mk_mem | apply Keeps.mk_sec | apply Keeps.mk_mem_sec) <;> first
      | with_reducible first
        | assumption
        | apply State.until_keeps
        | apply setChan_keeps
        | refine Keeps.ite ?_ ?_
      | split
    | split
    | dsimp only

theorem execPfcFrame_keeps {s₀ : State} (port sub priority : Nat) (pause : Bool) (s : State) (hk : Keeps s₀ s) : KeepsO s₀ (execPfcFrame port sub priority pause s) := by
  unfold execPfcFrame
  try dsimp only
  repeat' first
    | with_reducible first
      | assumption
      | intro _
      | apply State.setSub_keeps
      | apply flushWaiting_keeps
      | refine Keeps.ite ?_ ?_
      | refine Keeps.ite_st ?_ ?_
      | refine KeepsO.ite ?_ ?_
      | refine KeepsO.next ?_
    | (with_reducible first | apply Keeps.mk_rest | apply Keeps.mk_mem | apply Keeps.mk_sec | apply Keeps.mk_mem_sec) <;> first
      | with_reducible first
        | assumption
        | apply State.setSub_keeps
        | apply flushWaiting_keeps
        | refine Keeps.ite ?_ ?_
      | split
    | split
    | dsimp only

theorem execRoceAcknowledge_keeps {s₀ : State} (qp : Nat) (ack : RoceAck) (s : State) (hk : Keeps s₀ s) : KeepsO s₀ (execRoceAcknowledge qp ack s) := by
  unfold execRoceAcknowledge
  try dsimp only
  repeat' first
    | with_reducible first
      | assumption
      | intro _
      | apply setChan_keeps
      | apply qpFails_keeps
      | refine Keeps.ite ?_ ?_
      | refine KeepsO.ite ?_ ?_
      | refine KeepsO.next ?_
    | (with_reducible first | apply Keeps.mk_rest | apply Keeps.mk_mem | apply Keeps.mk_sec | apply Keeps.mk_mem_sec) <;> first
      | with_reducible first
        | assumption
        | apply setChan_keeps
        | apply qpFails_keeps
        | refine Keeps.ite ?_ ?_
      | split
    | split
    | dsimp only

end Sys2Proof.Machine
end

