-- ==== Sys2Proof/Laws/KeepsSample.lean ====
section
/-! SUPPORT. Each operation of Machine/Sample.lean makes a change that `Keeps`. -/

namespace Sys2Proof.Machine

theorem sampleShard_keeps {s₀ : State} (s : State) (t : Task) (a : SampleArg) (ps : List RowParam) (hk : Keeps s₀ s) :
    KeepsE s₀ (sampleShard s t a ps) := by
  unfold sampleShard
  try dsimp only
  repeat' first
    | with_reducible assumption
    | intro _
    | with_reducible apply kres_keeps
    | with_reducible apply kfail_keeps
    | with_reducible refine KeepsE.throw _
    | with_reducible refine KeepsE.ite ?_ ?_
    | with_reducible refine KeepsE.bind ?_
    | with_reducible refine KeepsE.pure ?_
    | (with_reducible apply Keeps.mk_rest) <;> with_reducible assumption
    | split
    | dsimp only

theorem sampleMerge_keeps {s₀ : State} (s : State) (t : Task) (a : SampleArg) (ps : List RowParam) (hk : Keeps s₀ s) :
    KeepsE s₀ (sampleMerge s t a ps) := by
  unfold sampleMerge
  try dsimp only
  repeat' first
    | with_reducible assumption
    | intro _
    | with_reducible apply kres_keeps
    | with_reducible apply kfail_keeps
    | with_reducible refine KeepsE.throw _
    | with_reducible refine KeepsE.ite ?_ ?_
    | with_reducible refine KeepsE.bind ?_
    | with_reducible refine KeepsE.pure ?_
    | (with_reducible apply Keeps.mk_rest) <;> with_reducible assumption
    | split
    | dsimp only

theorem sample_keeps {s₀ : State} (s : State) (x : Running) (hk : Keeps s₀ s) : Keeps s₀ (sample s x).st := by
  unfold sample
  try dsimp only
  repeat' first
    | with_reducible assumption
    | intro _
    | with_reducible apply kres_keeps
    | with_reducible apply kfail_keeps
    | with_reducible refine KeepsE.throw _
    | with_reducible refine KeepsE.ite ?_ ?_
    | with_reducible refine KeepsE.bind ?_
    | with_reducible refine KeepsE.pure ?_
    | with_reducible apply sampleShard_keeps
    | with_reducible apply sampleMerge_keeps
    | (with_reducible apply Keeps.mk_rest) <;> with_reducible assumption
    | split
    | dsimp only

theorem execSample_keeps {s₀ : State} (engine busyNs : Nat) (upset : Option EngineUpset) (s : State) (hk : Keeps s₀ s) : KeepsO s₀ (execSample engine busyNs upset s) := by
  unfold execSample
  try dsimp only
  repeat' first
    | with_reducible first
      | assumption
      | intro _
      | apply runKernel_keeps
      | apply sample_keeps
      | refine KeepsO.next ?_
    | dsimp only

theorem specVerify_keeps {s₀ : State} (s : State) (x : Running) (hk : Keeps s₀ s) : Keeps s₀ (specVerify s x).st := by
  unfold specVerify
  try dsimp only
  repeat' first
    | with_reducible assumption
    | intro _
    | with_reducible apply kres_keeps
    | with_reducible apply kfail_keeps
    | with_reducible refine KeepsE.throw _
    | with_reducible refine KeepsE.ite ?_ ?_
    | with_reducible refine KeepsE.bind ?_
    | with_reducible refine KeepsE.pure ?_
    | (with_reducible apply Keeps.mk_rest) <;> with_reducible assumption
    | split
    | dsimp only

theorem execSpecVerify_keeps {s₀ : State} (engine busyNs : Nat) (upset : Option EngineUpset) (s : State) (hk : Keeps s₀ s) : KeepsO s₀ (execSpecVerify engine busyNs upset s) := by
  unfold execSpecVerify
  try dsimp only
  repeat' first
    | with_reducible first
      | assumption
      | intro _
      | apply runKernel_keeps
      | apply specVerify_keeps
      | refine KeepsO.next ?_
    | dsimp only

end Sys2Proof.Machine
end

