-- ==== Sys2Proof/Laws/KeepsSpdm.lean ====
section
/-! SUPPORT. Each operation of Machine/Spdm.lean makes a change that `Keeps`. -/

namespace Sys2Proof.Machine

theorem execSpdmKeyExchange_keeps {s₀ : State} (renzelRoot : Bool) (keyDigests : List Octets) (s : State) (hk : Keeps s₀ s) : KeepsO s₀ (execSpdmKeyExchange renzelRoot keyDigests s) := by
  unfold execSpdmKeyExchange
  try dsimp only
  repeat' first
    | with_reducible first
      | assumption
      | intro _
      | apply State.setSess_keeps
      | apply State.emit_keeps
      | apply State.writeErr_keeps
      | refine Keeps.ite ?_ ?_
      | refine KeepsO.ite ?_ ?_
      | refine KeepsO.next ?_
    | (with_reducible first | apply Keeps.mk_rest | apply Keeps.mk_mem | apply Keeps.mk_sec | apply Keeps.mk_mem_sec) <;> first
      | with_reducible first
        | assumption
        | apply State.setSess_keeps
        | apply State.emit_keeps
        | apply State.writeErr_keeps
        | refine Keeps.ite ?_ ?_
      | split
    | split
    | dsimp only

theorem execSpdmFinish_keeps {s₀ : State} (sess : Nat) (s : State) (hk : Keeps s₀ s) : KeepsO s₀ (execSpdmFinish sess s) := by
  unfold execSpdmFinish
  try dsimp only
  repeat' first
    | with_reducible first
      | assumption
      | intro _
      | apply State.modSess_keeps
      | apply State.emit_keeps
      | refine Keeps.ite ?_ ?_
      | refine KeepsO.ite ?_ ?_
      | refine KeepsO.next ?_
    | (with_reducible first | apply Keeps.mk_rest | apply Keeps.mk_mem | apply Keeps.mk_sec | apply Keeps.mk_mem_sec) <;> first
      | with_reducible first
        | assumption
        | apply State.modSess_keeps
        | apply State.emit_keeps
        | refine Keeps.ite ?_ ?_
      | split
    | split
    | dsimp only

theorem execSpdmEndSession_keeps {s₀ : State} (sess : Nat) (s : State) (hk : Keeps s₀ s) : KeepsO s₀ (execSpdmEndSession sess s) := by
  unfold execSpdmEndSession
  try dsimp only
  repeat' first
    | with_reducible first
      | assumption
      | intro _
      | apply State.emit_keeps
      | apply endSession_keeps
      | refine Keeps.ite ?_ ?_
      | refine KeepsO.ite ?_ ?_
      | refine KeepsO.next ?_
    | split
    | dsimp only

theorem execSpdmKeyUpdate_keeps {s₀ : State} (sess : Nat) (s : State) (hk : Keeps s₀ s) : KeepsO s₀ (execSpdmKeyUpdate sess s) := by
  unfold execSpdmKeyUpdate
  try dsimp only
  repeat' first
    | with_reducible first
      | assumption
      | intro _
      | apply State.modSess_keeps
      | apply State.emit_keeps
      | refine Keeps.ite ?_ ?_
      | refine KeepsO.ite ?_ ?_
      | refine KeepsO.next ?_
    | (with_reducible first | apply Keeps.mk_rest | apply Keeps.mk_mem | apply Keeps.mk_sec | apply Keeps.mk_mem_sec) <;> first
      | with_reducible first
        | assumption
        | apply State.modSess_keeps
        | apply State.emit_keeps
        | refine Keeps.ite ?_ ?_
      | split
    | split
    | dsimp only

theorem execSpdmGetMeasurements_keeps {s₀ : State} (sess : Nat) (nonce : Octets) (s : State) (hk : Keeps s₀ s) : KeepsO s₀ (execSpdmGetMeasurements sess nonce s) := by
  unfold execSpdmGetMeasurements
  try dsimp only
  repeat' first
    | with_reducible first
      | assumption
      | intro _
      | apply State.modSess_keeps
      | apply State.emit_keeps
      | refine Keeps.ite ?_ ?_
      | refine KeepsO.ite ?_ ?_
      | refine KeepsO.next ?_
    | (with_reducible first | apply Keeps.mk_rest | apply Keeps.mk_mem | apply Keeps.mk_sec | apply Keeps.mk_mem_sec) <;> first
      | with_reducible first
        | assumption
        | apply State.modSess_keeps
        | apply State.emit_keeps
        | refine Keeps.ite ?_ ?_
      | split
    | split
    | dsimp only

theorem execSpdmGetCertificate_keeps {s₀ : State} (sess : Nat) (s : State) (hk : Keeps s₀ s) : KeepsO s₀ (execSpdmGetCertificate sess s) := by
  unfold execSpdmGetCertificate
  try dsimp only
  repeat' first
    | with_reducible first
      | assumption
      | intro _
      | apply State.emit_keeps
      | refine Keeps.ite ?_ ?_
      | refine KeepsO.ite ?_ ?_
      | refine KeepsO.next ?_
    | split
    | dsimp only

end Sys2Proof.Machine
end

