-- ==== Sys2Proof/Laws/Exec.lean ====
section
/-! SUPPORT. The effect of every command `Keeps`: one case per constructor, each by the law of its own meaning. -/

namespace Sys2Proof.Machine

/-- Whatever the command: if it answers a next state, that state keeps what `Keeps` says of the state before it. -/
theorem exec_keeps (c : Instr) (s : State) : KeepsO s (exec c s) := by
  cases c with
  | stepBoundary => exact execStepBoundary_keeps s (Keeps.refl s)
  | idleStepBoundary => exact execIdleStepBoundary_keeps s (Keeps.refl s)
  | registerWrite agent addr width value => exact execRegisterWrite_keeps agent addr width value s (Keeps.refl s)
  | fapRead sess seq m => exact execFapRead_keeps sess seq m s (Keeps.refl s)
  | fapWrite sess seq m => exact execFapWrite_keeps sess seq m s (Keeps.refl s)
  | fapDescribe sess seq m => exact execFapDescribe_keeps sess seq m s (Keeps.refl s)
  | fapNext sess seq m => exact execFapNext_keeps sess seq m s (Keeps.refl s)
  | fapKeepalive sess seq m => exact execFapKeepalive_keeps sess seq m s (Keeps.refl s)
  | fapClose sess seq m => exact execFapClose_keeps sess seq m s (Keeps.refl s)
  | fapSessionIdleTimeout sess => exact execFapSessionIdleTimeout_keeps sess s (Keeps.refl s)
  | spdmKeyExchange renzelRoot keyDigests => exact execSpdmKeyExchange_keeps renzelRoot keyDigests s (Keeps.refl s)
  | spdmFinish sess => exact execSpdmFinish_keeps sess s (Keeps.refl s)
  | spdmEndSession sess => exact execSpdmEndSession_keeps sess s (Keeps.refl s)
  | spdmKeyUpdate sess => exact execSpdmKeyUpdate_keeps sess s (Keeps.refl s)
  | spdmGetMeasurements sess nonce => exact execSpdmGetMeasurements_keeps sess nonce s (Keeps.refl s)
  | arrayInputRecord sender vat slot record poisoned => exact execArrayInputRecord_keeps sender vat slot record poisoned s (Keeps.refl s)
  | arrayWake array => exact execArrayWake_keeps array s (Keeps.refl s)
  | passGrant vat => exact execPassGrant_keeps vat s (Keeps.refl s)
  | arrayPassLaunch array => exact execArrayPassLaunch_keeps array s (Keeps.refl s)
  | split array => exact execSplit_keeps array s (Keeps.refl s)
  | passCountsReady array reports residueFail => exact execPassCountsReady_keeps array reports residueFail s (Keeps.refl s)
  | chainPartialSum array => exact execChainPartialSum_keeps array s (Keeps.refl s)
  | pairJoin array => exact execPairJoin_keeps array s (Keeps.refl s)
  | outputRelease array => exact execOutputRelease_keeps array s (Keeps.refl s)
  | arrayIdleGate array => exact execArrayIdleGate_keeps array s (Keeps.refl s)
  | arrCalStart sess arg => exact execArrCalStart_keeps sess arg s (Keeps.refl s)
  | ccVatStart agent vat value => exact execCcVatStart_keeps agent vat value s (Keeps.refl s)
  | converterCalResult array segment column runs => exact execConverterCalResult_keeps array segment column runs s (Keeps.refl s)
  | refLineCalResult vat line taps => exact execRefLineCalResult_keeps vat line taps s (Keeps.refl s)
  | calRunDone vat stepFs => exact execCalRunDone_keeps vat stepFs s (Keeps.refl s)
  | driftCalibration array => exact execDriftCalibration_keeps array s (Keeps.refl s)
  | perTableLoad sess arg => exact execPerTableLoad_keeps sess arg s (Keeps.refl s)
  | whlStage sess arg => exact execWhlStage_keeps sess arg s (Keeps.refl s)
  | whlVerify sess arg crypto => exact execWhlVerify_keeps sess arg crypto s (Keeps.refl s)
  | whlPlace sess arg => exact execWhlPlace_keeps sess arg s (Keeps.refl s)
  | whlArm sess arg => exact execWhlArm_keeps sess arg s (Keeps.refl s)
  | whlCancel sess arg => exact execWhlCancel_keeps sess arg s (Keeps.refl s)
  | openWrite sess arg => exact execOpenWrite_keeps sess arg s (Keeps.refl s)
  | replicaStore chip part epoch envelope => exact execReplicaStore_keeps chip part epoch envelope s (Keeps.refl s)
  | replicaPushAck part holder status => exact execReplicaPushAck_keeps part holder status s (Keeps.refl s)
  | replicaFetchDone part envelope crypto => exact execReplicaFetchDone_keeps part envelope crypto s (Keeps.refl s)
  | programRow array verified => exact execProgramRow_keeps array verified s (Keeps.refl s)
  | arrayProgramDone array raisedTest => exact execArrayProgramDone_keeps array raisedTest s (Keeps.refl s)
  | swapArrive part => exact execSwapArrive_keeps part s (Keeps.refl s)
  | swapDecision part value => exact execSwapDecision_keeps part value s (Keeps.refl s)
  | swapHoldAlarm part => exact execSwapHoldAlarm_keeps part s (Keeps.refl s)
  | rewriteDone part => exact execRewriteDone_keeps part s (Keeps.refl s)
  | rewriteRollbackDone part => exact execRewriteRollbackDone_keeps part s (Keeps.refl s)
  | overflowLayerLoad part layer => exact execOverflowLayerLoad_keeps part layer s (Keeps.refl s)
  | retentionAgeTick array tempC milliHours => exact execRetentionAgeTick_keeps array tempC milliHours s (Keeps.refl s)
  | taskPost poster desc => exact execTaskPost_keeps poster desc s (Keeps.refl s)
  | taskStart engine dual => exact execTaskStart_keeps engine dual s (Keeps.refl s)
  | engineWake engine => exact execEngineWake_keeps engine s (Keeps.refl s)
  | engineIdleGate engine => exact execEngineIdleGate_keeps engine s (Keeps.refl s)
  | stealSearch engine => exact execStealSearch_keeps engine s (Keeps.refl s)
  | stealClaim victim thieves => exact execStealClaim_keeps victim thieves s (Keeps.refl s)
  | dualCompare taskKey => exact execDualCompare_keeps taskKey s (Keeps.refl s)
  | veInbufSet sess arg => exact execVeInbufSet_keeps sess arg s (Keeps.refl s)
  | inbufRecordArrival sender part buffer record => exact execInbufRecordArrival_keeps sender part buffer record s (Keeps.refl s)
  | inbufRecordWrite buffer => exact execInbufRecordWrite_keeps buffer s (Keeps.refl s)
  | gemm engine busyNs upset => exact execGemm_keeps engine busyNs upset s (Keeps.refl s)
  | norm engine busyNs upset => exact execNorm_keeps engine busyNs upset s (Keeps.refl s)
  | attnDecode engine busyNs upset => exact execAttnDecode_keeps engine busyNs upset s (Keeps.refl s)
  | attnPrefill engine busyNs upset => exact execAttnPrefill_keeps engine busyNs upset s (Keeps.refl s)
  | kvAppend engine busyNs upset => exact execKvAppend_keeps engine busyNs upset s (Keeps.refl s)
  | gatherPool engine busyNs upset => exact execGatherPool_keeps engine busyNs upset s (Keeps.refl s)
  | sample engine busyNs upset => exact execSample_keeps engine busyNs upset s (Keeps.refl s)
  | specVerify engine busyNs upset => exact execSpecVerify_keeps engine busyNs upset s (Keeps.refl s)
  | openQuant engine busyNs upset => exact execOpenQuant_keeps engine busyNs upset s (Keeps.refl s)
  | packageKernel engine busyNs upset => exact execPackageKernel_keeps engine busyNs upset s (Keeps.refl s)
  | seqEdit sess arg => exact execSeqEdit_keeps sess arg s (Keeps.refl s)
  | embTableEdit sess arg => exact execEmbTableEdit_keeps sess arg s (Keeps.refl s)
  | embInvalidate sess arg => exact execEmbInvalidate_keeps sess arg s (Keeps.refl s)
  | embPin sess arg => exact execEmbPin_keeps sess arg s (Keeps.refl s)
  | hotRowCopy dirSet way => exact execHotRowCopy_keeps dirSet way s (Keeps.refl s)
  | hotRowCopyDone dirSet way => exact execHotRowCopyDone_keeps dirSet way s (Keeps.refl s)
  | directoryDecay part => exact execDirectoryDecay_keeps part s (Keeps.refl s)
  | planReceive part plan => exact execPlanReceive_keeps part plan s (Keeps.refl s)
  | memberStepStart part => exact execMemberStepStart_keeps part s (Keeps.refl s)
  | seqInvalidReport part seq chip => exact execSeqInvalidReport_keeps part seq chip s (Keeps.refl s)
  | reqChanOpen sess arg => exact execReqChanOpen_keeps sess arg s (Keeps.refl s)
  | reqChanClose sess arg => exact execReqChanClose_keeps sess arg s (Keeps.refl s)
  | submit chan => exact execSubmit_keeps chan s (Keeps.refl s)
  | cancel chan => exact execCancel_keeps chan s (Keeps.refl s)
  | qpTransportError qp => exact execQpTransportError_keeps qp s (Keeps.refl s)
  | draftMessage part seq drafts => exact execDraftMessage_keeps part seq drafts s (Keeps.refl s)
  | commitFence vat outcomes => exact execCommitFence_keeps vat outcomes s (Keeps.refl s)
  | journalRecord lead record => exact execJournalRecord_keeps lead record s (Keeps.refl s)
  | journalAck holder seqno status => exact execJournalAck_keeps holder seqno status s (Keeps.refl s)
  | completionRecordWrite chan => exact execCompletionRecordWrite_keeps chan s (Keeps.refl s)
  | memRegionSet sess arg => exact execMemRegionSet_keeps sess arg s (Keeps.refl s)
  | patrolScrub slice line err => exact execPatrolScrub_keeps slice line err s (Keeps.refl s)
  | memoryZeroDone job => exact execMemoryZeroDone_keeps job s (Keeps.refl s)
  | replicaLostNotice chip => exact execReplicaLostNotice_keeps chip s (Keeps.refl s)
  | portEnableWrite agent port value => exact execPortEnableWrite_keeps agent port value s (Keeps.refl s)
  | linkTrainingDone port sub accepted => exact execLinkTrainingDone_keeps port sub accepted s (Keeps.refl s)
  | pcsLock port sub => exact execPcsLock_keeps port sub s (Keeps.refl s)
  | preemptVerifyDone port sub verified => exact execPreemptVerifyDone_keeps port sub verified s (Keeps.refl s)
  | hello port sub srcChip payload => exact execHello_keeps port sub srcChip payload s (Keeps.refl s)
  | helloSendTimer port sub => exact execHelloSendTimer_keeps port sub s (Keeps.refl s)
  | helloTimeout port sub => exact execHelloTimeout_keeps port sub s (Keeps.refl s)
  | dataWrite f => exact execDataWrite_keeps f s (Keeps.refl s)
  | dataReadReq f => exact execDataReadReq_keeps f s (Keeps.refl s)
  | dataReadResp f => exact execDataReadResp_keeps f s (Keeps.refl s)
  | syncAdd by_ addr a => exact execSyncAdd_keeps by_ addr a s (Keeps.refl s)
  | syncCmpSwap by_ addr c v => exact execSyncCmpSwap_keeps by_ addr c v s (Keeps.refl s)
  | syncRelease by_ addr v => exact execSyncRelease_keeps by_ addr v s (Keeps.refl s)
  | syncRead by_ addr => exact execSyncRead_keeps by_ addr s (Keeps.refl s)
  | syncWait by_ addr v timeoutUs => exact execSyncWait_keeps by_ addr v timeoutUs s (Keeps.refl s)
  | syncWaitTimeout waiter => exact execSyncWaitTimeout_keeps waiter s (Keeps.refl s)
  | syncResponse f => exact execSyncResponse_keeps f s (Keeps.refl s)
  | press f => exact execPress_keeps f s (Keeps.refl s)
  | pressResult f => exact execPressResult_keeps f s (Keeps.refl s)
  | pressAck f => exact execPressAck_keeps f s (Keeps.refl s)
  | eackAck f => exact execEackAck_keeps f s (Keeps.refl s)
  | eackRefuse f => exact execEackRefuse_keeps f s (Keeps.refl s)
  | linkAck port sub lack => exact execLinkAck_keeps port sub lack s (Keeps.refl s)
  | linkNak port sub lack => exact execLinkNak_keeps port sub lack s (Keeps.refl s)
  | linkCredit port sub cls units => exact execLinkCredit_keeps port sub cls units s (Keeps.refl s)
  | linkKeepalive port sub srcChip => exact execLinkKeepalive_keeps port sub srcChip s (Keeps.refl s)
  | dozeReq port sub => exact execDozeReq_keeps port sub s (Keeps.refl s)
  | dozeAck port sub => exact execDozeAck_keeps port sub s (Keeps.refl s)
  | linkWake port sub => exact execLinkWake_keeps port sub s (Keeps.refl s)
  | linkAckTimer port sub => exact execLinkAckTimer_keeps port sub s (Keeps.refl s)
  | linkReplayTimeout port sub => exact execLinkReplayTimeout_keeps port sub s (Keeps.refl s)
  | keepaliveSendTimer port sub => exact execKeepaliveSendTimer_keeps port sub s (Keeps.refl s)
  | portKeepaliveTimeout port sub => exact execPortKeepaliveTimeout_keeps port sub s (Keeps.refl s)
  | pcsLockLoss port sub => exact execPcsLockLoss_keeps port sub s (Keeps.refl s)
  | e2eAckTimer stream => exact execE2eAckTimer_keeps stream s (Keeps.refl s)
  | e2eRetransmitTimeout stream eseq => exact execE2eRetransmitTimeout_keeps stream eseq s (Keeps.refl s)
  | e2eKeepaliveTimer chip => exact execE2eKeepaliveTimer_keeps chip s (Keeps.refl s)
  | peerTimeout chip => exact execPeerTimeout_keeps chip s (Keeps.refl s)
  | collCreate sess arg peers => exact execCollCreate_keeps sess arg peers s (Keeps.refl s)
  | collDestroy sess arg => exact execCollDestroy_keeps sess arg s (Keeps.refl s)
  | collInvocationStart coll => exact execCollInvocationStart_keeps coll s (Keeps.refl s)
  | roceSend qp psn data ce => exact execRoceSend_keeps qp psn data ce s (Keeps.refl s)
  | roceWrite qp psn addr rkey data imm ce => exact execRoceWrite_keeps qp psn addr rkey data imm ce s (Keeps.refl s)
  | roceRead qp psn addr rkey len ce => exact execRoceRead_keeps qp psn addr rkey len ce s (Keeps.refl s)
  | roceFetchAdd qp psn addr rkey a ce => exact execRoceFetchAdd_keeps qp psn addr rkey a ce s (Keeps.refl s)
  | roceCmpSwap qp psn addr rkey c v ce => exact execRoceCmpSwap_keeps qp psn addr rkey c v ce s (Keeps.refl s)
  | roceCnp qp => exact execRoceCnp_keeps qp s (Keeps.refl s)
  | roceRateRecovery qp => exact execRoceRateRecovery_keeps qp s (Keeps.refl s)
  | pfcFrame port sub priority pause => exact execPfcFrame_keeps port sub priority pause s (Keeps.refl s)
  | fenceLocal agent => exact execFenceLocal_keeps agent s (Keeps.refl s)
  | fenceDie agent => exact execFenceDie_keeps agent s (Keeps.refl s)
  | fenceFabric agent => exact execFenceFabric_keeps agent s (Keeps.refl s)
  | fenceComplete agent => exact execFenceComplete_keeps agent s (Keeps.refl s)
  | syncAlloc sess arg => exact execSyncAlloc_keeps sess arg s (Keeps.refl s)
  | syncFree sess arg => exact execSyncFree_keeps sess arg s (Keeps.refl s)
  | syncConfig sess arg => exact execSyncConfig_keeps sess arg s (Keeps.refl s)
  | syncThreshHiWrite agent obj value => exact execSyncThreshHiWrite_keeps agent obj value s (Keeps.refl s)
  | syncTargetHiWrite agent obj value => exact execSyncTargetHiWrite_keeps agent obj value s (Keeps.refl s)
  | syncGroupCreate sess arg peers => exact execSyncGroupCreate_keeps sess arg peers s (Keeps.refl s)
  | syncGroupDestroy sess arg => exact execSyncGroupDestroy_keeps sess arg s (Keeps.refl s)
  | streamOpen by_ => exact execStreamOpen_keeps by_ s (Keeps.refl s)
  | streamClose sess arg => exact execStreamClose_keeps sess arg s (Keeps.refl s)
  | qpCreate sess arg => exact execQpCreate_keeps sess arg s (Keeps.refl s)
  | qpDestroy sess arg => exact execQpDestroy_keeps sess arg s (Keeps.refl s)
  | taskChanOpen sess arg => exact execTaskChanOpen_keeps sess arg s (Keeps.refl s)
  | taskChanClose sess arg => exact execTaskChanClose_keeps sess arg s (Keeps.refl s)
  | taskChanDescriptorRead chan => exact execTaskChanDescriptorRead_keeps chan s (Keeps.refl s)
  | mbxMsgWrite mbx end_ word value => exact execMbxMsgWrite_keeps mbx end_ word value s (Keeps.refl s)
  | mbxDoorbell mbx end_ len => exact execMbxDoorbell_keeps mbx end_ len s (Keeps.refl s)
  | mbxInterrupt mbx => exact execMbxInterrupt_keeps mbx s (Keeps.refl s)
  | mbxAck mbx end_ rc => exact execMbxAck_keeps mbx end_ rc s (Keeps.refl s)
  | cfgDefaults sess arg => exact execCfgDefaults_keeps sess arg s (Keeps.refl s)
  | fwActivate sess arg crypto => exact execFwActivate_keeps sess arg crypto s (Keeps.refl s)
  | regWinData sess write => exact execRegWinData_keeps sess write s (Keeps.refl s)
  | regWinBulk sess count => exact execRegWinBulk_keeps sess count s (Keeps.refl s)
  | vatHeartbeat vat => exact execVatHeartbeat_keeps vat s (Keeps.refl s)
  | vatWatchdog vat => exact execVatWatchdog_keeps vat s (Keeps.refl s)
  | vatFenceGate vat => exact execVatFenceGate_keeps vat s (Keeps.refl s)
  | mgmtCoreReset => exact execMgmtCoreReset_keeps s (Keeps.refl s)
  | mgmtCoreResetDone => exact execMgmtCoreResetDone_keeps s (Keeps.refl s)
  | mgmtRecoveryTimeout => exact execMgmtRecoveryTimeout_keeps s (Keeps.refl s)
  | errorRecordPersist => exact execErrorRecordPersist_keeps s (Keeps.refl s)
  | brineSliceStart u => exact execBrineSliceStart_keeps u s (Keeps.refl s)
  | brineSliceDone u result => exact execBrineSliceDone_keeps u result s (Keeps.refl s)
  | healthFence sess arg => exact execHealthFence_keeps sess arg s (Keeps.refl s)
  | healthReadmit sess arg => exact execHealthReadmit_keeps sess arg s (Keeps.refl s)
  | healthClear sess arg => exact execHealthClear_keeps sess arg s (Keeps.refl s)
  | recAdopt sess arg fetch => exact execRecAdopt_keeps sess arg fetch s (Keeps.refl s)
  | recReplace sess arg => exact execRecReplace_keeps sess arg s (Keeps.refl s)
  | recRebind sess arg => exact execRecRebind_keeps sess arg s (Keeps.refl s)
  | rebindTimeout oldChip oldHandle => exact execRebindTimeout_keeps oldChip oldHandle s (Keeps.refl s)
  | pwrStateReq sess arg => exact execPwrStateReq_keeps sess arg s (Keeps.refl s)
  | autoS1Entry => exact execAutoS1Entry_keeps s (Keeps.refl s)
  | powerStateEntryDone => exact execPowerStateEntryDone_keeps s (Keeps.refl s)
  | wakeEvent w => exact execWakeEvent_keeps w s (Keeps.refl s)
  | powerStateExitDone => exact execPowerStateExitDone_keeps s (Keeps.refl s)
  | refclkLoss => exact execRefclkLoss_keeps s (Keeps.refl s)
  | refclkRestored => exact execRefclkRestored_keeps s (Keeps.refl s)
  | corePllLockLoss => exact execCorePllLockLoss_keeps s (Keeps.refl s)
  | corePllRelock => exact execCorePllRelock_keeps s (Keeps.refl s)
  | powerCapTick inputWatts => exact execPowerCapTick_keeps inputWatts s (Keeps.refl s)
  | brakeAssert => exact execBrakeAssert_keeps s (Keeps.refl s)
  | brakeRelease => exact execBrakeRelease_keeps s (Keeps.refl s)
  | brakeRampTick => exact execBrakeRampTick_keeps s (Keeps.refl s)
  | thermalSample readings => exact execThermalSample_keeps readings s (Keeps.refl s)
  | orderedStopTimeout => exact execOrderedStopTimeout_keeps s (Keeps.refl s)
  | thermalTrip sensor => exact execThermalTrip_keeps sensor s (Keeps.refl s)
  | railExcursion vat => exact execRailExcursion_keeps vat s (Keeps.refl s)
  | railRecovered vat => exact execRailRecovered_keeps vat s (Keeps.refl s)
  | urgentConversion requester input code => exact execUrgentConversion_keeps requester input code s (Keeps.refl s)
  | monTimerTrigger seq => exact execMonTimerTrigger_keeps seq s (Keeps.refl s)
  | monVrSync controller => exact execMonVrSync_keeps controller s (Keeps.refl s)
  | monConversionDone seq raw => exact execMonConversionDone_keeps seq raw s (Keeps.refl s)
  | monCalStart by_ => exact execMonCalStart_keeps by_ s (Keeps.refl s)
  | monCalDone converter runs => exact execMonCalDone_keeps converter runs s (Keeps.refl s)
  | monClear by_ => exact execMonClear_keeps by_ s (Keeps.refl s)
  | lcTransition sess arg => exact execLcTransition_keeps sess arg s (Keeps.refl s)
  | lcEffectDone => exact execLcEffectDone_keeps s (Keeps.refl s)
  | secPartCreate sess arg => exact execSecPartCreate_keeps sess arg s (Keeps.refl s)
  | secPartAssign sess arg => exact execSecPartAssign_keeps sess arg s (Keeps.refl s)
  | secPartRelease sess arg => exact execSecPartRelease_keeps sess arg s (Keeps.refl s)
  | secDebugChallenge sess nonce => exact execSecDebugChallenge_keeps sess nonce s (Keeps.refl s)
  | secDebugUnlock sess arg signer => exact execSecDebugUnlock_keeps sess arg signer s (Keeps.refl s)
  | secDebugClose sess arg => exact execSecDebugClose_keeps sess arg s (Keeps.refl s)
  | debugExpiry => exact execDebugExpiry_keeps s (Keeps.refl s)
  | coreHalt core => exact execCoreHalt_keeps core s (Keeps.refl s)
  | coreSingleStep core => exact execCoreSingleStep_keeps core s (Keeps.refl s)
  | coreResume core => exact execCoreResume_keeps core s (Keeps.refl s)
  | secPkgLoad sess arg crypto => exact execSecPkgLoad_keeps sess arg crypto s (Keeps.refl s)
  | secEnrollWrite sess row rows => exact execSecEnrollWrite_keeps sess row rows s (Keeps.refl s)
  | secKeyLoad agent slot => exact execSecKeyLoad_keeps agent slot s (Keeps.refl s)
  | secKeyClear agent slot => exact execSecKeyClear_keeps agent slot s (Keeps.refl s)
  | fwSelfTestDone => exact execFwSelfTestDone_keeps s (Keeps.refl s)
  | fwSelfTestTimeout => exact execFwSelfTestTimeout_keeps s (Keeps.refl s)
  | powerUp straps check => exact execPowerUp_keeps straps check s (Keeps.refl s)
  | supplyLoss overvoltage => exact execSupplyLoss_keeps overvoltage s (Keeps.refl s)
  | resetAssert => exact execResetAssert_keeps s (Keeps.refl s)
  | resetRelease straps check => exact execResetRelease_keeps straps check s (Keeps.refl s)
  | jtagIdcode => exact execJtagIdcode_keeps s (Keeps.refl s)
  | jtagBypass => exact execJtagBypass_keeps s (Keeps.refl s)
  | jtagSamplePreload => exact execJtagSamplePreload_keeps s (Keeps.refl s)
  | jtagExtest => exact execJtagExtest_keeps s (Keeps.refl s)
  | jtagFuseProgram f => exact execJtagFuseProgram_keeps f s (Keeps.refl s)
  | jtagTapReset => exact execJtagTapReset_keeps s (Keeps.refl s)
  | frameCheckDrop port sub raw => exact execFrameCheckDrop_keeps port sub raw s (Keeps.refl s)
  | fapDatagramDrop d => exact execFapDatagramDrop_keeps d s (Keeps.refl s)
  | mgmtPortArpNdIcmp k => exact execMgmtPortArpNdIcmp_keeps k s (Keeps.refl s)
  | spdmGetCertificate sess => exact execSpdmGetCertificate_keeps sess s (Keeps.refl s)
  | roceAcknowledge qp ack => exact execRoceAcknowledge_keeps qp ack s (Keeps.refl s)
  | idleCalibrationSlice array cut => exact execIdleCalibrationSlice_keeps array cut s (Keeps.refl s)
  | envelopeVerifyDone part crypto => exact execEnvelopeVerifyDone_keeps part crypto s (Keeps.refl s)
  | slotIdChange straps => exact execSlotIdChange_keeps straps s (Keeps.refl s)
  | thermTripLatchClear => exact execThermTripLatchClear_keeps s (Keeps.refl s)
  | overvoltageLockoutRelease straps check => exact execOvervoltageLockoutRelease_keeps straps check s (Keeps.refl s)
  | telemetryUpdate => exact execTelemetryUpdate_keeps s (Keeps.refl s)

end Sys2Proof.Machine
end

