-- ==== Sys2Proof/Laws/State.lean ====
section
/-! SUPPORT. Reading a field of the state after an update: one lemma per field per update, so that no proof unfolds a record
update, and reading back the entry of a bank that was written. -/

namespace Sys2Proof.Machine

/-! ## `setArr` -/

@[simp] theorem State.setArr_fuse (s : State) (n : Nat) (a : ArrSt) : (s.setArr n a).fuse = s.fuse := rfl
@[simp] theorem State.setArr_dic (s : State) (n : Nat) (a : ArrSt) : (s.setArr n a).dic = s.dic := rfl
@[simp] theorem State.setArr_vat (s : State) (n : Nat) (a : ArrSt) : (s.setArr n a).vat = s.vat := rfl
@[simp] theorem State.setArr_eng (s : State) (n : Nat) (a : ArrSt) : (s.setArr n a).eng = s.eng := rfl
@[simp] theorem State.setArr_whl (s : State) (n : Nat) (a : ArrSt) : (s.setArr n a).whl = s.whl := rfl
@[simp] theorem State.setArr_kv (s : State) (n : Nat) (a : ArrSt) : (s.setArr n a).kv = s.kv := rfl
@[simp] theorem State.setArr_emb (s : State) (n : Nat) (a : ArrSt) : (s.setArr n a).emb = s.emb := rfl
@[simp] theorem State.setArr_srv (s : State) (n : Nat) (a : ArrSt) : (s.setArr n a).srv = s.srv := rfl
@[simp] theorem State.setArr_mem (s : State) (n : Nat) (a : ArrSt) : (s.setArr n a).mem = s.mem := rfl
@[simp] theorem State.setArr_fab (s : State) (n : Nat) (a : ArrSt) : (s.setArr n a).fab = s.fab := rfl
@[simp] theorem State.setArr_syn (s : State) (n : Nat) (a : ArrSt) : (s.setArr n a).syn = s.syn := rfl
@[simp] theorem State.setArr_flt (s : State) (n : Nat) (a : ArrSt) : (s.setArr n a).flt = s.flt := rfl
@[simp] theorem State.setArr_pwr (s : State) (n : Nat) (a : ArrSt) : (s.setArr n a).pwr = s.pwr := rfl
@[simp] theorem State.setArr_sec (s : State) (n : Nat) (a : ArrSt) : (s.setArr n a).sec = s.sec := rfl
@[simp] theorem State.setArr_pin (s : State) (n : Nat) (a : ArrSt) : (s.setArr n a).pin = s.pin := rfl
@[simp] theorem State.setArr_time (s : State) (n : Nat) (a : ArrSt) : (s.setArr n a).time = s.time := rfl
@[simp] theorem State.setArr_powered (s : State) (n : Nat) (a : ArrSt) : (s.setArr n a).powered = s.powered := rfl
@[simp] theorem State.setArr_free (s : State) (n : Nat) (a : ArrSt) : (s.setArr n a).free = s.free := rfl
@[simp] theorem State.setArr_out (s : State) (n : Nat) (a : ArrSt) : (s.setArr n a).out = s.out := rfl
@[simp] theorem State.setArr_pending (s : State) (n : Nat) (a : ArrSt) : (s.setArr n a).pending = s.pending := rfl
theorem State.arrAt_setArr_same (s : State) (n : Nat) (a : ArrSt) (h : twf {} s.arr = true) : (s.setArr n a).arrAt n = a :=
  tget_tput_same _ _ _ h
theorem State.arrAt_setArr_ne (s : State) (n k : Nat) (a : ArrSt) (h : k ≠ n) : (s.setArr n a).arrAt k = s.arrAt k :=
  tget_tput_ne _ _ _ _ h
@[simp] theorem State.modArr_fuse (s : State) (n : Nat) (f : ArrSt → ArrSt) : (s.modArr n f).fuse = s.fuse := rfl
@[simp] theorem State.modArr_dic (s : State) (n : Nat) (f : ArrSt → ArrSt) : (s.modArr n f).dic = s.dic := rfl
@[simp] theorem State.modArr_vat (s : State) (n : Nat) (f : ArrSt → ArrSt) : (s.modArr n f).vat = s.vat := rfl
@[simp] theorem State.modArr_eng (s : State) (n : Nat) (f : ArrSt → ArrSt) : (s.modArr n f).eng = s.eng := rfl
@[simp] theorem State.modArr_whl (s : State) (n : Nat) (f : ArrSt → ArrSt) : (s.modArr n f).whl = s.whl := rfl
@[simp] theorem State.modArr_kv (s : State) (n : Nat) (f : ArrSt → ArrSt) : (s.modArr n f).kv = s.kv := rfl
@[simp] theorem State.modArr_emb (s : State) (n : Nat) (f : ArrSt → ArrSt) : (s.modArr n f).emb = s.emb := rfl
@[simp] theorem State.modArr_srv (s : State) (n : Nat) (f : ArrSt → ArrSt) : (s.modArr n f).srv = s.srv := rfl
@[simp] theorem State.modArr_mem (s : State) (n : Nat) (f : ArrSt → ArrSt) : (s.modArr n f).mem = s.mem := rfl
@[simp] theorem State.modArr_fab (s : State) (n : Nat) (f : ArrSt → ArrSt) : (s.modArr n f).fab = s.fab := rfl
@[simp] theorem State.modArr_syn (s : State) (n : Nat) (f : ArrSt → ArrSt) : (s.modArr n f).syn = s.syn := rfl
@[simp] theorem State.modArr_flt (s : State) (n : Nat) (f : ArrSt → ArrSt) : (s.modArr n f).flt = s.flt := rfl
@[simp] theorem State.modArr_pwr (s : State) (n : Nat) (f : ArrSt → ArrSt) : (s.modArr n f).pwr = s.pwr := rfl
@[simp] theorem State.modArr_sec (s : State) (n : Nat) (f : ArrSt → ArrSt) : (s.modArr n f).sec = s.sec := rfl
@[simp] theorem State.modArr_pin (s : State) (n : Nat) (f : ArrSt → ArrSt) : (s.modArr n f).pin = s.pin := rfl
@[simp] theorem State.modArr_time (s : State) (n : Nat) (f : ArrSt → ArrSt) : (s.modArr n f).time = s.time := rfl
@[simp] theorem State.modArr_powered (s : State) (n : Nat) (f : ArrSt → ArrSt) : (s.modArr n f).powered = s.powered := rfl
@[simp] theorem State.modArr_free (s : State) (n : Nat) (f : ArrSt → ArrSt) : (s.modArr n f).free = s.free := rfl
@[simp] theorem State.modArr_out (s : State) (n : Nat) (f : ArrSt → ArrSt) : (s.modArr n f).out = s.out := rfl
@[simp] theorem State.modArr_pending (s : State) (n : Nat) (f : ArrSt → ArrSt) : (s.modArr n f).pending = s.pending := rfl
theorem State.arrAt_modArr_same (s : State) (n : Nat) (f : ArrSt → ArrSt) (h : twf {} s.arr = true) :
    (s.modArr n f).arrAt n = f (s.arrAt n) := tget_tput_same _ _ _ h

/-! ## `setVat` -/

@[simp] theorem State.setVat_fuse (s : State) (n : Nat) (a : VatSt) : (s.setVat n a).fuse = s.fuse := rfl
@[simp] theorem State.setVat_dic (s : State) (n : Nat) (a : VatSt) : (s.setVat n a).dic = s.dic := rfl
@[simp] theorem State.setVat_arr (s : State) (n : Nat) (a : VatSt) : (s.setVat n a).arr = s.arr := rfl
@[simp] theorem State.setVat_eng (s : State) (n : Nat) (a : VatSt) : (s.setVat n a).eng = s.eng := rfl
@[simp] theorem State.setVat_whl (s : State) (n : Nat) (a : VatSt) : (s.setVat n a).whl = s.whl := rfl
@[simp] theorem State.setVat_kv (s : State) (n : Nat) (a : VatSt) : (s.setVat n a).kv = s.kv := rfl
@[simp] theorem State.setVat_emb (s : State) (n : Nat) (a : VatSt) : (s.setVat n a).emb = s.emb := rfl
@[simp] theorem State.setVat_srv (s : State) (n : Nat) (a : VatSt) : (s.setVat n a).srv = s.srv := rfl
@[simp] theorem State.setVat_mem (s : State) (n : Nat) (a : VatSt) : (s.setVat n a).mem = s.mem := rfl
@[simp] theorem State.setVat_fab (s : State) (n : Nat) (a : VatSt) : (s.setVat n a).fab = s.fab := rfl
@[simp] theorem State.setVat_syn (s : State) (n : Nat) (a : VatSt) : (s.setVat n a).syn = s.syn := rfl
@[simp] theorem State.setVat_flt (s : State) (n : Nat) (a : VatSt) : (s.setVat n a).flt = s.flt := rfl
@[simp] theorem State.setVat_pwr (s : State) (n : Nat) (a : VatSt) : (s.setVat n a).pwr = s.pwr := rfl
@[simp] theorem State.setVat_sec (s : State) (n : Nat) (a : VatSt) : (s.setVat n a).sec = s.sec := rfl
@[simp] theorem State.setVat_pin (s : State) (n : Nat) (a : VatSt) : (s.setVat n a).pin = s.pin := rfl
@[simp] theorem State.setVat_time (s : State) (n : Nat) (a : VatSt) : (s.setVat n a).time = s.time := rfl
@[simp] theorem State.setVat_powered (s : State) (n : Nat) (a : VatSt) : (s.setVat n a).powered = s.powered := rfl
@[simp] theorem State.setVat_free (s : State) (n : Nat) (a : VatSt) : (s.setVat n a).free = s.free := rfl
@[simp] theorem State.setVat_out (s : State) (n : Nat) (a : VatSt) : (s.setVat n a).out = s.out := rfl
@[simp] theorem State.setVat_pending (s : State) (n : Nat) (a : VatSt) : (s.setVat n a).pending = s.pending := rfl
theorem State.vatAt_setVat_same (s : State) (n : Nat) (a : VatSt) (h : twf {} s.vat = true) : (s.setVat n a).vatAt n = a :=
  tget_tput_same _ _ _ h
theorem State.vatAt_setVat_ne (s : State) (n k : Nat) (a : VatSt) (h : k ≠ n) : (s.setVat n a).vatAt k = s.vatAt k :=
  tget_tput_ne _ _ _ _ h
@[simp] theorem State.modVat_fuse (s : State) (n : Nat) (f : VatSt → VatSt) : (s.modVat n f).fuse = s.fuse := rfl
@[simp] theorem State.modVat_dic (s : State) (n : Nat) (f : VatSt → VatSt) : (s.modVat n f).dic = s.dic := rfl
@[simp] theorem State.modVat_arr (s : State) (n : Nat) (f : VatSt → VatSt) : (s.modVat n f).arr = s.arr := rfl
@[simp] theorem State.modVat_eng (s : State) (n : Nat) (f : VatSt → VatSt) : (s.modVat n f).eng = s.eng := rfl
@[simp] theorem State.modVat_whl (s : State) (n : Nat) (f : VatSt → VatSt) : (s.modVat n f).whl = s.whl := rfl
@[simp] theorem State.modVat_kv (s : State) (n : Nat) (f : VatSt → VatSt) : (s.modVat n f).kv = s.kv := rfl
@[simp] theorem State.modVat_emb (s : State) (n : Nat) (f : VatSt → VatSt) : (s.modVat n f).emb = s.emb := rfl
@[simp] theorem State.modVat_srv (s : State) (n : Nat) (f : VatSt → VatSt) : (s.modVat n f).srv = s.srv := rfl
@[simp] theorem State.modVat_mem (s : State) (n : Nat) (f : VatSt → VatSt) : (s.modVat n f).mem = s.mem := rfl
@[simp] theorem State.modVat_fab (s : State) (n : Nat) (f : VatSt → VatSt) : (s.modVat n f).fab = s.fab := rfl
@[simp] theorem State.modVat_syn (s : State) (n : Nat) (f : VatSt → VatSt) : (s.modVat n f).syn = s.syn := rfl
@[simp] theorem State.modVat_flt (s : State) (n : Nat) (f : VatSt → VatSt) : (s.modVat n f).flt = s.flt := rfl
@[simp] theorem State.modVat_pwr (s : State) (n : Nat) (f : VatSt → VatSt) : (s.modVat n f).pwr = s.pwr := rfl
@[simp] theorem State.modVat_sec (s : State) (n : Nat) (f : VatSt → VatSt) : (s.modVat n f).sec = s.sec := rfl
@[simp] theorem State.modVat_pin (s : State) (n : Nat) (f : VatSt → VatSt) : (s.modVat n f).pin = s.pin := rfl
@[simp] theorem State.modVat_time (s : State) (n : Nat) (f : VatSt → VatSt) : (s.modVat n f).time = s.time := rfl
@[simp] theorem State.modVat_powered (s : State) (n : Nat) (f : VatSt → VatSt) : (s.modVat n f).powered = s.powered := rfl
@[simp] theorem State.modVat_free (s : State) (n : Nat) (f : VatSt → VatSt) : (s.modVat n f).free = s.free := rfl
@[simp] theorem State.modVat_out (s : State) (n : Nat) (f : VatSt → VatSt) : (s.modVat n f).out = s.out := rfl
@[simp] theorem State.modVat_pending (s : State) (n : Nat) (f : VatSt → VatSt) : (s.modVat n f).pending = s.pending := rfl
theorem State.vatAt_modVat_same (s : State) (n : Nat) (f : VatSt → VatSt) (h : twf {} s.vat = true) :
    (s.modVat n f).vatAt n = f (s.vatAt n) := tget_tput_same _ _ _ h

/-! ## `setEng` -/

@[simp] theorem State.setEng_fuse (s : State) (n : Nat) (a : EngSt) : (s.setEng n a).fuse = s.fuse := rfl
@[simp] theorem State.setEng_dic (s : State) (n : Nat) (a : EngSt) : (s.setEng n a).dic = s.dic := rfl
@[simp] theorem State.setEng_arr (s : State) (n : Nat) (a : EngSt) : (s.setEng n a).arr = s.arr := rfl
@[simp] theorem State.setEng_vat (s : State) (n : Nat) (a : EngSt) : (s.setEng n a).vat = s.vat := rfl
@[simp] theorem State.setEng_whl (s : State) (n : Nat) (a : EngSt) : (s.setEng n a).whl = s.whl := rfl
@[simp] theorem State.setEng_kv (s : State) (n : Nat) (a : EngSt) : (s.setEng n a).kv = s.kv := rfl
@[simp] theorem State.setEng_emb (s : State) (n : Nat) (a : EngSt) : (s.setEng n a).emb = s.emb := rfl
@[simp] theorem State.setEng_srv (s : State) (n : Nat) (a : EngSt) : (s.setEng n a).srv = s.srv := rfl
@[simp] theorem State.setEng_mem (s : State) (n : Nat) (a : EngSt) : (s.setEng n a).mem = s.mem := rfl
@[simp] theorem State.setEng_fab (s : State) (n : Nat) (a : EngSt) : (s.setEng n a).fab = s.fab := rfl
@[simp] theorem State.setEng_syn (s : State) (n : Nat) (a : EngSt) : (s.setEng n a).syn = s.syn := rfl
@[simp] theorem State.setEng_flt (s : State) (n : Nat) (a : EngSt) : (s.setEng n a).flt = s.flt := rfl
@[simp] theorem State.setEng_pwr (s : State) (n : Nat) (a : EngSt) : (s.setEng n a).pwr = s.pwr := rfl
@[simp] theorem State.setEng_sec (s : State) (n : Nat) (a : EngSt) : (s.setEng n a).sec = s.sec := rfl
@[simp] theorem State.setEng_pin (s : State) (n : Nat) (a : EngSt) : (s.setEng n a).pin = s.pin := rfl
@[simp] theorem State.setEng_time (s : State) (n : Nat) (a : EngSt) : (s.setEng n a).time = s.time := rfl
@[simp] theorem State.setEng_powered (s : State) (n : Nat) (a : EngSt) : (s.setEng n a).powered = s.powered := rfl
@[simp] theorem State.setEng_free (s : State) (n : Nat) (a : EngSt) : (s.setEng n a).free = s.free := rfl
@[simp] theorem State.setEng_out (s : State) (n : Nat) (a : EngSt) : (s.setEng n a).out = s.out := rfl
@[simp] theorem State.setEng_pending (s : State) (n : Nat) (a : EngSt) : (s.setEng n a).pending = s.pending := rfl
theorem State.engAt_setEng_same (s : State) (n : Nat) (a : EngSt) (h : twf {} s.eng.eng = true) : (s.setEng n a).engAt n = a :=
  tget_tput_same _ _ _ h
theorem State.engAt_setEng_ne (s : State) (n k : Nat) (a : EngSt) (h : k ≠ n) : (s.setEng n a).engAt k = s.engAt k :=
  tget_tput_ne _ _ _ _ h
@[simp] theorem State.modEng_fuse (s : State) (n : Nat) (f : EngSt → EngSt) : (s.modEng n f).fuse = s.fuse := rfl
@[simp] theorem State.modEng_dic (s : State) (n : Nat) (f : EngSt → EngSt) : (s.modEng n f).dic = s.dic := rfl
@[simp] theorem State.modEng_arr (s : State) (n : Nat) (f : EngSt → EngSt) : (s.modEng n f).arr = s.arr := rfl
@[simp] theorem State.modEng_vat (s : State) (n : Nat) (f : EngSt → EngSt) : (s.modEng n f).vat = s.vat := rfl
@[simp] theorem State.modEng_whl (s : State) (n : Nat) (f : EngSt → EngSt) : (s.modEng n f).whl = s.whl := rfl
@[simp] theorem State.modEng_kv (s : State) (n : Nat) (f : EngSt → EngSt) : (s.modEng n f).kv = s.kv := rfl
@[simp] theorem State.modEng_emb (s : State) (n : Nat) (f : EngSt → EngSt) : (s.modEng n f).emb = s.emb := rfl
@[simp] theorem State.modEng_srv (s : State) (n : Nat) (f : EngSt → EngSt) : (s.modEng n f).srv = s.srv := rfl
@[simp] theorem State.modEng_mem (s : State) (n : Nat) (f : EngSt → EngSt) : (s.modEng n f).mem = s.mem := rfl
@[simp] theorem State.modEng_fab (s : State) (n : Nat) (f : EngSt → EngSt) : (s.modEng n f).fab = s.fab := rfl
@[simp] theorem State.modEng_syn (s : State) (n : Nat) (f : EngSt → EngSt) : (s.modEng n f).syn = s.syn := rfl
@[simp] theorem State.modEng_flt (s : State) (n : Nat) (f : EngSt → EngSt) : (s.modEng n f).flt = s.flt := rfl
@[simp] theorem State.modEng_pwr (s : State) (n : Nat) (f : EngSt → EngSt) : (s.modEng n f).pwr = s.pwr := rfl
@[simp] theorem State.modEng_sec (s : State) (n : Nat) (f : EngSt → EngSt) : (s.modEng n f).sec = s.sec := rfl
@[simp] theorem State.modEng_pin (s : State) (n : Nat) (f : EngSt → EngSt) : (s.modEng n f).pin = s.pin := rfl
@[simp] theorem State.modEng_time (s : State) (n : Nat) (f : EngSt → EngSt) : (s.modEng n f).time = s.time := rfl
@[simp] theorem State.modEng_powered (s : State) (n : Nat) (f : EngSt → EngSt) : (s.modEng n f).powered = s.powered := rfl
@[simp] theorem State.modEng_free (s : State) (n : Nat) (f : EngSt → EngSt) : (s.modEng n f).free = s.free := rfl
@[simp] theorem State.modEng_out (s : State) (n : Nat) (f : EngSt → EngSt) : (s.modEng n f).out = s.out := rfl
@[simp] theorem State.modEng_pending (s : State) (n : Nat) (f : EngSt → EngSt) : (s.modEng n f).pending = s.pending := rfl
theorem State.engAt_modEng_same (s : State) (n : Nat) (f : EngSt → EngSt) (h : twf {} s.eng.eng = true) :
    (s.modEng n f).engAt n = f (s.engAt n) := tget_tput_same _ _ _ h

/-! ## `setPart` -/

@[simp] theorem State.setPart_fuse (s : State) (n : Nat) (a : PartSt) : (s.setPart n a).fuse = s.fuse := rfl
@[simp] theorem State.setPart_dic (s : State) (n : Nat) (a : PartSt) : (s.setPart n a).dic = s.dic := rfl
@[simp] theorem State.setPart_arr (s : State) (n : Nat) (a : PartSt) : (s.setPart n a).arr = s.arr := rfl
@[simp] theorem State.setPart_vat (s : State) (n : Nat) (a : PartSt) : (s.setPart n a).vat = s.vat := rfl
@[simp] theorem State.setPart_eng (s : State) (n : Nat) (a : PartSt) : (s.setPart n a).eng = s.eng := rfl
@[simp] theorem State.setPart_whl (s : State) (n : Nat) (a : PartSt) : (s.setPart n a).whl = s.whl := rfl
@[simp] theorem State.setPart_kv (s : State) (n : Nat) (a : PartSt) : (s.setPart n a).kv = s.kv := rfl
@[simp] theorem State.setPart_emb (s : State) (n : Nat) (a : PartSt) : (s.setPart n a).emb = s.emb := rfl
@[simp] theorem State.setPart_srv (s : State) (n : Nat) (a : PartSt) : (s.setPart n a).srv = s.srv := rfl
@[simp] theorem State.setPart_mem (s : State) (n : Nat) (a : PartSt) : (s.setPart n a).mem = s.mem := rfl
@[simp] theorem State.setPart_fab (s : State) (n : Nat) (a : PartSt) : (s.setPart n a).fab = s.fab := rfl
@[simp] theorem State.setPart_syn (s : State) (n : Nat) (a : PartSt) : (s.setPart n a).syn = s.syn := rfl
@[simp] theorem State.setPart_flt (s : State) (n : Nat) (a : PartSt) : (s.setPart n a).flt = s.flt := rfl
@[simp] theorem State.setPart_pwr (s : State) (n : Nat) (a : PartSt) : (s.setPart n a).pwr = s.pwr := rfl
@[simp] theorem State.setPart_pin (s : State) (n : Nat) (a : PartSt) : (s.setPart n a).pin = s.pin := rfl
@[simp] theorem State.setPart_time (s : State) (n : Nat) (a : PartSt) : (s.setPart n a).time = s.time := rfl
@[simp] theorem State.setPart_powered (s : State) (n : Nat) (a : PartSt) : (s.setPart n a).powered = s.powered := rfl
@[simp] theorem State.setPart_free (s : State) (n : Nat) (a : PartSt) : (s.setPart n a).free = s.free := rfl
@[simp] theorem State.setPart_out (s : State) (n : Nat) (a : PartSt) : (s.setPart n a).out = s.out := rfl
@[simp] theorem State.setPart_pending (s : State) (n : Nat) (a : PartSt) : (s.setPart n a).pending = s.pending := rfl
theorem State.partAt_setPart_same (s : State) (n : Nat) (a : PartSt) (h : twf {} s.sec.parts = true) : (s.setPart n a).partAt n = a :=
  tget_tput_same _ _ _ h
theorem State.partAt_setPart_ne (s : State) (n k : Nat) (a : PartSt) (h : k ≠ n) : (s.setPart n a).partAt k = s.partAt k :=
  tget_tput_ne _ _ _ _ h

/-! ## `setWhl` -/

@[simp] theorem State.setWhl_fuse (s : State) (n : Nat) (a : WhlSt) : (s.setWhl n a).fuse = s.fuse := rfl
@[simp] theorem State.setWhl_dic (s : State) (n : Nat) (a : WhlSt) : (s.setWhl n a).dic = s.dic := rfl
@[simp] theorem State.setWhl_arr (s : State) (n : Nat) (a : WhlSt) : (s.setWhl n a).arr = s.arr := rfl
@[simp] theorem State.setWhl_vat (s : State) (n : Nat) (a : WhlSt) : (s.setWhl n a).vat = s.vat := rfl
@[simp] theorem State.setWhl_eng (s : State) (n : Nat) (a : WhlSt) : (s.setWhl n a).eng = s.eng := rfl
@[simp] theorem State.setWhl_kv (s : State) (n : Nat) (a : WhlSt) : (s.setWhl n a).kv = s.kv := rfl
@[simp] theorem State.setWhl_emb (s : State) (n : Nat) (a : WhlSt) : (s.setWhl n a).emb = s.emb := rfl
@[simp] theorem State.setWhl_srv (s : State) (n : Nat) (a : WhlSt) : (s.setWhl n a).srv = s.srv := rfl
@[simp] theorem State.setWhl_mem (s : State) (n : Nat) (a : WhlSt) : (s.setWhl n a).mem = s.mem := rfl
@[simp] theorem State.setWhl_fab (s : State) (n : Nat) (a : WhlSt) : (s.setWhl n a).fab = s.fab := rfl
@[simp] theorem State.setWhl_syn (s : State) (n : Nat) (a : WhlSt) : (s.setWhl n a).syn = s.syn := rfl
@[simp] theorem State.setWhl_flt (s : State) (n : Nat) (a : WhlSt) : (s.setWhl n a).flt = s.flt := rfl
@[simp] theorem State.setWhl_pwr (s : State) (n : Nat) (a : WhlSt) : (s.setWhl n a).pwr = s.pwr := rfl
@[simp] theorem State.setWhl_sec (s : State) (n : Nat) (a : WhlSt) : (s.setWhl n a).sec = s.sec := rfl
@[simp] theorem State.setWhl_pin (s : State) (n : Nat) (a : WhlSt) : (s.setWhl n a).pin = s.pin := rfl
@[simp] theorem State.setWhl_time (s : State) (n : Nat) (a : WhlSt) : (s.setWhl n a).time = s.time := rfl
@[simp] theorem State.setWhl_powered (s : State) (n : Nat) (a : WhlSt) : (s.setWhl n a).powered = s.powered := rfl
@[simp] theorem State.setWhl_free (s : State) (n : Nat) (a : WhlSt) : (s.setWhl n a).free = s.free := rfl
@[simp] theorem State.setWhl_out (s : State) (n : Nat) (a : WhlSt) : (s.setWhl n a).out = s.out := rfl
@[simp] theorem State.setWhl_pending (s : State) (n : Nat) (a : WhlSt) : (s.setWhl n a).pending = s.pending := rfl
theorem State.whlAt_setWhl_same (s : State) (n : Nat) (a : WhlSt) (h : twf {} s.whl.parts = true) : (s.setWhl n a).whlAt n = a :=
  tget_tput_same _ _ _ h
theorem State.whlAt_setWhl_ne (s : State) (n k : Nat) (a : WhlSt) (h : k ≠ n) : (s.setWhl n a).whlAt k = s.whlAt k :=
  tget_tput_ne _ _ _ _ h
@[simp] theorem State.modWhl_fuse (s : State) (n : Nat) (f : WhlSt → WhlSt) : (s.modWhl n f).fuse = s.fuse := rfl
@[simp] theorem State.modWhl_dic (s : State) (n : Nat) (f : WhlSt → WhlSt) : (s.modWhl n f).dic = s.dic := rfl
@[simp] theorem State.modWhl_arr (s : State) (n : Nat) (f : WhlSt → WhlSt) : (s.modWhl n f).arr = s.arr := rfl
@[simp] theorem State.modWhl_vat (s : State) (n : Nat) (f : WhlSt → WhlSt) : (s.modWhl n f).vat = s.vat := rfl
@[simp] theorem State.modWhl_eng (s : State) (n : Nat) (f : WhlSt → WhlSt) : (s.modWhl n f).eng = s.eng := rfl
@[simp] theorem State.modWhl_kv (s : State) (n : Nat) (f : WhlSt → WhlSt) : (s.modWhl n f).kv = s.kv := rfl
@[simp] theorem State.modWhl_emb (s : State) (n : Nat) (f : WhlSt → WhlSt) : (s.modWhl n f).emb = s.emb := rfl
@[simp] theorem State.modWhl_srv (s : State) (n : Nat) (f : WhlSt → WhlSt) : (s.modWhl n f).srv = s.srv := rfl
@[simp] theorem State.modWhl_mem (s : State) (n : Nat) (f : WhlSt → WhlSt) : (s.modWhl n f).mem = s.mem := rfl
@[simp] theorem State.modWhl_fab (s : State) (n : Nat) (f : WhlSt → WhlSt) : (s.modWhl n f).fab = s.fab := rfl
@[simp] theorem State.modWhl_syn (s : State) (n : Nat) (f : WhlSt → WhlSt) : (s.modWhl n f).syn = s.syn := rfl
@[simp] theorem State.modWhl_flt (s : State) (n : Nat) (f : WhlSt → WhlSt) : (s.modWhl n f).flt = s.flt := rfl
@[simp] theorem State.modWhl_pwr (s : State) (n : Nat) (f : WhlSt → WhlSt) : (s.modWhl n f).pwr = s.pwr := rfl
@[simp] theorem State.modWhl_sec (s : State) (n : Nat) (f : WhlSt → WhlSt) : (s.modWhl n f).sec = s.sec := rfl
@[simp] theorem State.modWhl_pin (s : State) (n : Nat) (f : WhlSt → WhlSt) : (s.modWhl n f).pin = s.pin := rfl
@[simp] theorem State.modWhl_time (s : State) (n : Nat) (f : WhlSt → WhlSt) : (s.modWhl n f).time = s.time := rfl
@[simp] theorem State.modWhl_powered (s : State) (n : Nat) (f : WhlSt → WhlSt) : (s.modWhl n f).powered = s.powered := rfl
@[simp] theorem State.modWhl_free (s : State) (n : Nat) (f : WhlSt → WhlSt) : (s.modWhl n f).free = s.free := rfl
@[simp] theorem State.modWhl_out (s : State) (n : Nat) (f : WhlSt → WhlSt) : (s.modWhl n f).out = s.out := rfl
@[simp] theorem State.modWhl_pending (s : State) (n : Nat) (f : WhlSt → WhlSt) : (s.modWhl n f).pending = s.pending := rfl
theorem State.whlAt_modWhl_same (s : State) (n : Nat) (f : WhlSt → WhlSt) (h : twf {} s.whl.parts = true) :
    (s.modWhl n f).whlAt n = f (s.whlAt n) := tget_tput_same _ _ _ h

/-! ## `setSlice` -/

@[simp] theorem State.setSlice_fuse (s : State) (n : Nat) (a : SliceSt) : (s.setSlice n a).fuse = s.fuse := rfl
@[simp] theorem State.setSlice_dic (s : State) (n : Nat) (a : SliceSt) : (s.setSlice n a).dic = s.dic := rfl
@[simp] theorem State.setSlice_arr (s : State) (n : Nat) (a : SliceSt) : (s.setSlice n a).arr = s.arr := rfl
@[simp] theorem State.setSlice_vat (s : State) (n : Nat) (a : SliceSt) : (s.setSlice n a).vat = s.vat := rfl
@[simp] theorem State.setSlice_eng (s : State) (n : Nat) (a : SliceSt) : (s.setSlice n a).eng = s.eng := rfl
@[simp] theorem State.setSlice_whl (s : State) (n : Nat) (a : SliceSt) : (s.setSlice n a).whl = s.whl := rfl
@[simp] theorem State.setSlice_kv (s : State) (n : Nat) (a : SliceSt) : (s.setSlice n a).kv = s.kv := rfl
@[simp] theorem State.setSlice_emb (s : State) (n : Nat) (a : SliceSt) : (s.setSlice n a).emb = s.emb := rfl
@[simp] theorem State.setSlice_srv (s : State) (n : Nat) (a : SliceSt) : (s.setSlice n a).srv = s.srv := rfl
@[simp] theorem State.setSlice_fab (s : State) (n : Nat) (a : SliceSt) : (s.setSlice n a).fab = s.fab := rfl
@[simp] theorem State.setSlice_syn (s : State) (n : Nat) (a : SliceSt) : (s.setSlice n a).syn = s.syn := rfl
@[simp] theorem State.setSlice_flt (s : State) (n : Nat) (a : SliceSt) : (s.setSlice n a).flt = s.flt := rfl
@[simp] theorem State.setSlice_pwr (s : State) (n : Nat) (a : SliceSt) : (s.setSlice n a).pwr = s.pwr := rfl
@[simp] theorem State.setSlice_sec (s : State) (n : Nat) (a : SliceSt) : (s.setSlice n a).sec = s.sec := rfl
@[simp] theorem State.setSlice_pin (s : State) (n : Nat) (a : SliceSt) : (s.setSlice n a).pin = s.pin := rfl
@[simp] theorem State.setSlice_time (s : State) (n : Nat) (a : SliceSt) : (s.setSlice n a).time = s.time := rfl
@[simp] theorem State.setSlice_powered (s : State) (n : Nat) (a : SliceSt) : (s.setSlice n a).powered = s.powered := rfl
@[simp] theorem State.setSlice_free (s : State) (n : Nat) (a : SliceSt) : (s.setSlice n a).free = s.free := rfl
@[simp] theorem State.setSlice_out (s : State) (n : Nat) (a : SliceSt) : (s.setSlice n a).out = s.out := rfl
@[simp] theorem State.setSlice_pending (s : State) (n : Nat) (a : SliceSt) : (s.setSlice n a).pending = s.pending := rfl
theorem State.sliceAt_setSlice_same (s : State) (n : Nat) (a : SliceSt) (h : twf {} s.mem.slices = true) : (s.setSlice n a).sliceAt n = a :=
  tget_tput_same _ _ _ h
theorem State.sliceAt_setSlice_ne (s : State) (n k : Nat) (a : SliceSt) (h : k ≠ n) : (s.setSlice n a).sliceAt k = s.sliceAt k :=
  tget_tput_ne _ _ _ _ h

/-! ## `setObj` -/

@[simp] theorem State.setObj_fuse (s : State) (n : Nat) (a : SyncObj) : (s.setObj n a).fuse = s.fuse := rfl
@[simp] theorem State.setObj_dic (s : State) (n : Nat) (a : SyncObj) : (s.setObj n a).dic = s.dic := rfl
@[simp] theorem State.setObj_arr (s : State) (n : Nat) (a : SyncObj) : (s.setObj n a).arr = s.arr := rfl
@[simp] theorem State.setObj_vat (s : State) (n : Nat) (a : SyncObj) : (s.setObj n a).vat = s.vat := rfl
@[simp] theorem State.setObj_eng (s : State) (n : Nat) (a : SyncObj) : (s.setObj n a).eng = s.eng := rfl
@[simp] theorem State.setObj_whl (s : State) (n : Nat) (a : SyncObj) : (s.setObj n a).whl = s.whl := rfl
@[simp] theorem State.setObj_kv (s : State) (n : Nat) (a : SyncObj) : (s.setObj n a).kv = s.kv := rfl
@[simp] theorem State.setObj_emb (s : State) (n : Nat) (a : SyncObj) : (s.setObj n a).emb = s.emb := rfl
@[simp] theorem State.setObj_srv (s : State) (n : Nat) (a : SyncObj) : (s.setObj n a).srv = s.srv := rfl
@[simp] theorem State.setObj_mem (s : State) (n : Nat) (a : SyncObj) : (s.setObj n a).mem = s.mem := rfl
@[simp] theorem State.setObj_fab (s : State) (n : Nat) (a : SyncObj) : (s.setObj n a).fab = s.fab := rfl
@[simp] theorem State.setObj_flt (s : State) (n : Nat) (a : SyncObj) : (s.setObj n a).flt = s.flt := rfl
@[simp] theorem State.setObj_pwr (s : State) (n : Nat) (a : SyncObj) : (s.setObj n a).pwr = s.pwr := rfl
@[simp] theorem State.setObj_sec (s : State) (n : Nat) (a : SyncObj) : (s.setObj n a).sec = s.sec := rfl
@[simp] theorem State.setObj_pin (s : State) (n : Nat) (a : SyncObj) : (s.setObj n a).pin = s.pin := rfl
@[simp] theorem State.setObj_time (s : State) (n : Nat) (a : SyncObj) : (s.setObj n a).time = s.time := rfl
@[simp] theorem State.setObj_powered (s : State) (n : Nat) (a : SyncObj) : (s.setObj n a).powered = s.powered := rfl
@[simp] theorem State.setObj_free (s : State) (n : Nat) (a : SyncObj) : (s.setObj n a).free = s.free := rfl
@[simp] theorem State.setObj_out (s : State) (n : Nat) (a : SyncObj) : (s.setObj n a).out = s.out := rfl
@[simp] theorem State.setObj_pending (s : State) (n : Nat) (a : SyncObj) : (s.setObj n a).pending = s.pending := rfl
theorem State.objAt_setObj_same (s : State) (n : Nat) (a : SyncObj) (h : twf {} s.syn.objs = true) : (s.setObj n a).objAt n = a :=
  tget_tput_same _ _ _ h
theorem State.objAt_setObj_ne (s : State) (n k : Nat) (a : SyncObj) (h : k ≠ n) : (s.setObj n a).objAt k = s.objAt k :=
  tget_tput_ne _ _ _ _ h

/-! ## `setSlot` -/

@[simp] theorem State.setSlot_fuse (s : State) (n : Nat) (a : ChanSlot) : (s.setSlot n a).fuse = s.fuse := rfl
@[simp] theorem State.setSlot_dic (s : State) (n : Nat) (a : ChanSlot) : (s.setSlot n a).dic = s.dic := rfl
@[simp] theorem State.setSlot_arr (s : State) (n : Nat) (a : ChanSlot) : (s.setSlot n a).arr = s.arr := rfl
@[simp] theorem State.setSlot_vat (s : State) (n : Nat) (a : ChanSlot) : (s.setSlot n a).vat = s.vat := rfl
@[simp] theorem State.setSlot_eng (s : State) (n : Nat) (a : ChanSlot) : (s.setSlot n a).eng = s.eng := rfl
@[simp] theorem State.setSlot_whl (s : State) (n : Nat) (a : ChanSlot) : (s.setSlot n a).whl = s.whl := rfl
@[simp] theorem State.setSlot_kv (s : State) (n : Nat) (a : ChanSlot) : (s.setSlot n a).kv = s.kv := rfl
@[simp] theorem State.setSlot_emb (s : State) (n : Nat) (a : ChanSlot) : (s.setSlot n a).emb = s.emb := rfl
@[simp] theorem State.setSlot_srv (s : State) (n : Nat) (a : ChanSlot) : (s.setSlot n a).srv = s.srv := rfl
@[simp] theorem State.setSlot_mem (s : State) (n : Nat) (a : ChanSlot) : (s.setSlot n a).mem = s.mem := rfl
@[simp] theorem State.setSlot_fab (s : State) (n : Nat) (a : ChanSlot) : (s.setSlot n a).fab = s.fab := rfl
@[simp] theorem State.setSlot_flt (s : State) (n : Nat) (a : ChanSlot) : (s.setSlot n a).flt = s.flt := rfl
@[simp] theorem State.setSlot_pwr (s : State) (n : Nat) (a : ChanSlot) : (s.setSlot n a).pwr = s.pwr := rfl
@[simp] theorem State.setSlot_sec (s : State) (n : Nat) (a : ChanSlot) : (s.setSlot n a).sec = s.sec := rfl
@[simp] theorem State.setSlot_pin (s : State) (n : Nat) (a : ChanSlot) : (s.setSlot n a).pin = s.pin := rfl
@[simp] theorem State.setSlot_time (s : State) (n : Nat) (a : ChanSlot) : (s.setSlot n a).time = s.time := rfl
@[simp] theorem State.setSlot_powered (s : State) (n : Nat) (a : ChanSlot) : (s.setSlot n a).powered = s.powered := rfl
@[simp] theorem State.setSlot_free (s : State) (n : Nat) (a : ChanSlot) : (s.setSlot n a).free = s.free := rfl
@[simp] theorem State.setSlot_out (s : State) (n : Nat) (a : ChanSlot) : (s.setSlot n a).out = s.out := rfl
@[simp] theorem State.setSlot_pending (s : State) (n : Nat) (a : ChanSlot) : (s.setSlot n a).pending = s.pending := rfl
theorem State.slotAt_setSlot_same (s : State) (n : Nat) (a : ChanSlot) (h : twf {} s.syn.slots = true) : (s.setSlot n a).slotAt n = a :=
  tget_tput_same _ _ _ h
theorem State.slotAt_setSlot_ne (s : State) (n k : Nat) (a : ChanSlot) (h : k ≠ n) : (s.setSlot n a).slotAt k = s.slotAt k :=
  tget_tput_ne _ _ _ _ h

/-! ## `setMbx` -/

@[simp] theorem State.setMbx_fuse (s : State) (n : Nat) (a : Mbx) : (s.setMbx n a).fuse = s.fuse := rfl
@[simp] theorem State.setMbx_dic (s : State) (n : Nat) (a : Mbx) : (s.setMbx n a).dic = s.dic := rfl
@[simp] theorem State.setMbx_arr (s : State) (n : Nat) (a : Mbx) : (s.setMbx n a).arr = s.arr := rfl
@[simp] theorem State.setMbx_vat (s : State) (n : Nat) (a : Mbx) : (s.setMbx n a).vat = s.vat := rfl
@[simp] theorem State.setMbx_eng (s : State) (n : Nat) (a : Mbx) : (s.setMbx n a).eng = s.eng := rfl
@[simp] theorem State.setMbx_whl (s : State) (n : Nat) (a : Mbx) : (s.setMbx n a).whl = s.whl := rfl
@[simp] theorem State.setMbx_kv (s : State) (n : Nat) (a : Mbx) : (s.setMbx n a).kv = s.kv := rfl
@[simp] theorem State.setMbx_emb (s : State) (n : Nat) (a : Mbx) : (s.setMbx n a).emb = s.emb := rfl
@[simp] theorem State.setMbx_srv (s : State) (n : Nat) (a : Mbx) : (s.setMbx n a).srv = s.srv := rfl
@[simp] theorem State.setMbx_mem (s : State) (n : Nat) (a : Mbx) : (s.setMbx n a).mem = s.mem := rfl
@[simp] theorem State.setMbx_fab (s : State) (n : Nat) (a : Mbx) : (s.setMbx n a).fab = s.fab := rfl
@[simp] theorem State.setMbx_flt (s : State) (n : Nat) (a : Mbx) : (s.setMbx n a).flt = s.flt := rfl
@[simp] theorem State.setMbx_pwr (s : State) (n : Nat) (a : Mbx) : (s.setMbx n a).pwr = s.pwr := rfl
@[simp] theorem State.setMbx_sec (s : State) (n : Nat) (a : Mbx) : (s.setMbx n a).sec = s.sec := rfl
@[simp] theorem State.setMbx_pin (s : State) (n : Nat) (a : Mbx) : (s.setMbx n a).pin = s.pin := rfl
@[simp] theorem State.setMbx_time (s : State) (n : Nat) (a : Mbx) : (s.setMbx n a).time = s.time := rfl
@[simp] theorem State.setMbx_powered (s : State) (n : Nat) (a : Mbx) : (s.setMbx n a).powered = s.powered := rfl
@[simp] theorem State.setMbx_free (s : State) (n : Nat) (a : Mbx) : (s.setMbx n a).free = s.free := rfl
@[simp] theorem State.setMbx_out (s : State) (n : Nat) (a : Mbx) : (s.setMbx n a).out = s.out := rfl
@[simp] theorem State.setMbx_pending (s : State) (n : Nat) (a : Mbx) : (s.setMbx n a).pending = s.pending := rfl
theorem State.mbxAt_setMbx_same (s : State) (n : Nat) (a : Mbx) (h : twf {} s.syn.mbx = true) : (s.setMbx n a).mbxAt n = a :=
  tget_tput_same _ _ _ h
theorem State.mbxAt_setMbx_ne (s : State) (n k : Nat) (a : Mbx) (h : k ≠ n) : (s.setMbx n a).mbxAt k = s.mbxAt k :=
  tget_tput_ne _ _ _ _ h

/-! ## `setPort` -/

@[simp] theorem State.setPort_fuse (s : State) (n : Nat) (a : PortSt) : (s.setPort n a).fuse = s.fuse := rfl
@[simp] theorem State.setPort_dic (s : State) (n : Nat) (a : PortSt) : (s.setPort n a).dic = s.dic := rfl
@[simp] theorem State.setPort_arr (s : State) (n : Nat) (a : PortSt) : (s.setPort n a).arr = s.arr := rfl
@[simp] theorem State.setPort_vat (s : State) (n : Nat) (a : PortSt) : (s.setPort n a).vat = s.vat := rfl
@[simp] theorem State.setPort_eng (s : State) (n : Nat) (a : PortSt) : (s.setPort n a).eng = s.eng := rfl
@[simp] theorem State.setPort_whl (s : State) (n : Nat) (a : PortSt) : (s.setPort n a).whl = s.whl := rfl
@[simp] theorem State.setPort_kv (s : State) (n : Nat) (a : PortSt) : (s.setPort n a).kv = s.kv := rfl
@[simp] theorem State.setPort_emb (s : State) (n : Nat) (a : PortSt) : (s.setPort n a).emb = s.emb := rfl
@[simp] theorem State.setPort_srv (s : State) (n : Nat) (a : PortSt) : (s.setPort n a).srv = s.srv := rfl
@[simp] theorem State.setPort_mem (s : State) (n : Nat) (a : PortSt) : (s.setPort n a).mem = s.mem := rfl
@[simp] theorem State.setPort_syn (s : State) (n : Nat) (a : PortSt) : (s.setPort n a).syn = s.syn := rfl
@[simp] theorem State.setPort_flt (s : State) (n : Nat) (a : PortSt) : (s.setPort n a).flt = s.flt := rfl
@[simp] theorem State.setPort_pwr (s : State) (n : Nat) (a : PortSt) : (s.setPort n a).pwr = s.pwr := rfl
@[simp] theorem State.setPort_sec (s : State) (n : Nat) (a : PortSt) : (s.setPort n a).sec = s.sec := rfl
@[simp] theorem State.setPort_pin (s : State) (n : Nat) (a : PortSt) : (s.setPort n a).pin = s.pin := rfl
@[simp] theorem State.setPort_time (s : State) (n : Nat) (a : PortSt) : (s.setPort n a).time = s.time := rfl
@[simp] theorem State.setPort_powered (s : State) (n : Nat) (a : PortSt) : (s.setPort n a).powered = s.powered := rfl
@[simp] theorem State.setPort_free (s : State) (n : Nat) (a : PortSt) : (s.setPort n a).free = s.free := rfl
@[simp] theorem State.setPort_out (s : State) (n : Nat) (a : PortSt) : (s.setPort n a).out = s.out := rfl
@[simp] theorem State.setPort_pending (s : State) (n : Nat) (a : PortSt) : (s.setPort n a).pending = s.pending := rfl
theorem State.portAt_setPort_same (s : State) (n : Nat) (a : PortSt) (h : twf {} s.fab.ports = true) : (s.setPort n a).portAt n = a :=
  tget_tput_same _ _ _ h
theorem State.portAt_setPort_ne (s : State) (n k : Nat) (a : PortSt) (h : k ≠ n) : (s.setPort n a).portAt k = s.portAt k :=
  tget_tput_ne _ _ _ _ h
@[simp] theorem State.modPort_fuse (s : State) (n : Nat) (f : PortSt → PortSt) : (s.modPort n f).fuse = s.fuse := rfl
@[simp] theorem State.modPort_dic (s : State) (n : Nat) (f : PortSt → PortSt) : (s.modPort n f).dic = s.dic := rfl
@[simp] theorem State.modPort_arr (s : State) (n : Nat) (f : PortSt → PortSt) : (s.modPort n f).arr = s.arr := rfl
@[simp] theorem State.modPort_vat (s : State) (n : Nat) (f : PortSt → PortSt) : (s.modPort n f).vat = s.vat := rfl
@[simp] theorem State.modPort_eng (s : State) (n : Nat) (f : PortSt → PortSt) : (s.modPort n f).eng = s.eng := rfl
@[simp] theorem State.modPort_whl (s : State) (n : Nat) (f : PortSt → PortSt) : (s.modPort n f).whl = s.whl := rfl
@[simp] theorem State.modPort_kv (s : State) (n : Nat) (f : PortSt → PortSt) : (s.modPort n f).kv = s.kv := rfl
@[simp] theorem State.modPort_emb (s : State) (n : Nat) (f : PortSt → PortSt) : (s.modPort n f).emb = s.emb := rfl
@[simp] theorem State.modPort_srv (s : State) (n : Nat) (f : PortSt → PortSt) : (s.modPort n f).srv = s.srv := rfl
@[simp] theorem State.modPort_mem (s : State) (n : Nat) (f : PortSt → PortSt) : (s.modPort n f).mem = s.mem := rfl
@[simp] theorem State.modPort_syn (s : State) (n : Nat) (f : PortSt → PortSt) : (s.modPort n f).syn = s.syn := rfl
@[simp] theorem State.modPort_flt (s : State) (n : Nat) (f : PortSt → PortSt) : (s.modPort n f).flt = s.flt := rfl
@[simp] theorem State.modPort_pwr (s : State) (n : Nat) (f : PortSt → PortSt) : (s.modPort n f).pwr = s.pwr := rfl
@[simp] theorem State.modPort_sec (s : State) (n : Nat) (f : PortSt → PortSt) : (s.modPort n f).sec = s.sec := rfl
@[simp] theorem State.modPort_pin (s : State) (n : Nat) (f : PortSt → PortSt) : (s.modPort n f).pin = s.pin := rfl
@[simp] theorem State.modPort_time (s : State) (n : Nat) (f : PortSt → PortSt) : (s.modPort n f).time = s.time := rfl
@[simp] theorem State.modPort_powered (s : State) (n : Nat) (f : PortSt → PortSt) : (s.modPort n f).powered = s.powered := rfl
@[simp] theorem State.modPort_free (s : State) (n : Nat) (f : PortSt → PortSt) : (s.modPort n f).free = s.free := rfl
@[simp] theorem State.modPort_out (s : State) (n : Nat) (f : PortSt → PortSt) : (s.modPort n f).out = s.out := rfl
@[simp] theorem State.modPort_pending (s : State) (n : Nat) (f : PortSt → PortSt) : (s.modPort n f).pending = s.pending := rfl
theorem State.portAt_modPort_same (s : State) (n : Nat) (f : PortSt → PortSt) (h : twf {} s.fab.ports = true) :
    (s.modPort n f).portAt n = f (s.portAt n) := tget_tput_same _ _ _ h

/-! ## `setSess` -/

@[simp] theorem State.setSess_fuse (s : State) (n : Nat) (a : Session) : (s.setSess n a).fuse = s.fuse := rfl
@[simp] theorem State.setSess_arr (s : State) (n : Nat) (a : Session) : (s.setSess n a).arr = s.arr := rfl
@[simp] theorem State.setSess_vat (s : State) (n : Nat) (a : Session) : (s.setSess n a).vat = s.vat := rfl
@[simp] theorem State.setSess_eng (s : State) (n : Nat) (a : Session) : (s.setSess n a).eng = s.eng := rfl
@[simp] theorem State.setSess_whl (s : State) (n : Nat) (a : Session) : (s.setSess n a).whl = s.whl := rfl
@[simp] theorem State.setSess_kv (s : State) (n : Nat) (a : Session) : (s.setSess n a).kv = s.kv := rfl
@[simp] theorem State.setSess_emb (s : State) (n : Nat) (a : Session) : (s.setSess n a).emb = s.emb := rfl
@[simp] theorem State.setSess_srv (s : State) (n : Nat) (a : Session) : (s.setSess n a).srv = s.srv := rfl
@[simp] theorem State.setSess_mem (s : State) (n : Nat) (a : Session) : (s.setSess n a).mem = s.mem := rfl
@[simp] theorem State.setSess_fab (s : State) (n : Nat) (a : Session) : (s.setSess n a).fab = s.fab := rfl
@[simp] theorem State.setSess_syn (s : State) (n : Nat) (a : Session) : (s.setSess n a).syn = s.syn := rfl
@[simp] theorem State.setSess_flt (s : State) (n : Nat) (a : Session) : (s.setSess n a).flt = s.flt := rfl
@[simp] theorem State.setSess_pwr (s : State) (n : Nat) (a : Session) : (s.setSess n a).pwr = s.pwr := rfl
@[simp] theorem State.setSess_sec (s : State) (n : Nat) (a : Session) : (s.setSess n a).sec = s.sec := rfl
@[simp] theorem State.setSess_pin (s : State) (n : Nat) (a : Session) : (s.setSess n a).pin = s.pin := rfl
@[simp] theorem State.setSess_time (s : State) (n : Nat) (a : Session) : (s.setSess n a).time = s.time := rfl
@[simp] theorem State.setSess_powered (s : State) (n : Nat) (a : Session) : (s.setSess n a).powered = s.powered := rfl
@[simp] theorem State.setSess_free (s : State) (n : Nat) (a : Session) : (s.setSess n a).free = s.free := rfl
@[simp] theorem State.setSess_out (s : State) (n : Nat) (a : Session) : (s.setSess n a).out = s.out := rfl
@[simp] theorem State.setSess_pending (s : State) (n : Nat) (a : Session) : (s.setSess n a).pending = s.pending := rfl
theorem State.sessAt_setSess_same (s : State) (n : Nat) (a : Session) (h : twf dfltSession s.dic.sessions = true) : (s.setSess n a).sessAt n = a :=
  tget_tput_same _ _ _ h
theorem State.sessAt_setSess_ne (s : State) (n k : Nat) (a : Session) (h : k ≠ n) : (s.setSess n a).sessAt k = s.sessAt k :=
  tget_tput_ne _ _ _ _ h
@[simp] theorem State.modSess_fuse (s : State) (n : Nat) (f : Session → Session) : (s.modSess n f).fuse = s.fuse := rfl
@[simp] theorem State.modSess_arr (s : State) (n : Nat) (f : Session → Session) : (s.modSess n f).arr = s.arr := rfl
@[simp] theorem State.modSess_vat (s : State) (n : Nat) (f : Session → Session) : (s.modSess n f).vat = s.vat := rfl
@[simp] theorem State.modSess_eng (s : State) (n : Nat) (f : Session → Session) : (s.modSess n f).eng = s.eng := rfl
@[simp] theorem State.modSess_whl (s : State) (n : Nat) (f : Session → Session) : (s.modSess n f).whl = s.whl := rfl
@[simp] theorem State.modSess_kv (s : State) (n : Nat) (f : Session → Session) : (s.modSess n f).kv = s.kv := rfl
@[simp] theorem State.modSess_emb (s : State) (n : Nat) (f : Session → Session) : (s.modSess n f).emb = s.emb := rfl
@[simp] theorem State.modSess_srv (s : State) (n : Nat) (f : Session → Session) : (s.modSess n f).srv = s.srv := rfl
@[simp] theorem State.modSess_mem (s : State) (n : Nat) (f : Session → Session) : (s.modSess n f).mem = s.mem := rfl
@[simp] theorem State.modSess_fab (s : State) (n : Nat) (f : Session → Session) : (s.modSess n f).fab = s.fab := rfl
@[simp] theorem State.modSess_syn (s : State) (n : Nat) (f : Session → Session) : (s.modSess n f).syn = s.syn := rfl
@[simp] theorem State.modSess_flt (s : State) (n : Nat) (f : Session → Session) : (s.modSess n f).flt = s.flt := rfl
@[simp] theorem State.modSess_pwr (s : State) (n : Nat) (f : Session → Session) : (s.modSess n f).pwr = s.pwr := rfl
@[simp] theorem State.modSess_sec (s : State) (n : Nat) (f : Session → Session) : (s.modSess n f).sec = s.sec := rfl
@[simp] theorem State.modSess_pin (s : State) (n : Nat) (f : Session → Session) : (s.modSess n f).pin = s.pin := rfl
@[simp] theorem State.modSess_time (s : State) (n : Nat) (f : Session → Session) : (s.modSess n f).time = s.time := rfl
@[simp] theorem State.modSess_powered (s : State) (n : Nat) (f : Session → Session) : (s.modSess n f).powered = s.powered := rfl
@[simp] theorem State.modSess_free (s : State) (n : Nat) (f : Session → Session) : (s.modSess n f).free = s.free := rfl
@[simp] theorem State.modSess_out (s : State) (n : Nat) (f : Session → Session) : (s.modSess n f).out = s.out := rfl
@[simp] theorem State.modSess_pending (s : State) (n : Nat) (f : Session → Session) : (s.modSess n f).pending = s.pending := rfl
theorem State.sessAt_modSess_same (s : State) (n : Nat) (f : Session → Session) (h : twf dfltSession s.dic.sessions = true) :
    (s.modSess n f).sessAt n = f (s.sessAt n) := tget_tput_same _ _ _ h

/-! ## `setSub`: a sub-port is a part of its port -/

@[simp] theorem State.setSub_fuse (s : State) (p k : Nat) (a : SubSt) : (s.setSub p k a).fuse = s.fuse := rfl
@[simp] theorem State.setSub_dic (s : State) (p k : Nat) (a : SubSt) : (s.setSub p k a).dic = s.dic := rfl
@[simp] theorem State.setSub_arr (s : State) (p k : Nat) (a : SubSt) : (s.setSub p k a).arr = s.arr := rfl
@[simp] theorem State.setSub_vat (s : State) (p k : Nat) (a : SubSt) : (s.setSub p k a).vat = s.vat := rfl
@[simp] theorem State.setSub_eng (s : State) (p k : Nat) (a : SubSt) : (s.setSub p k a).eng = s.eng := rfl
@[simp] theorem State.setSub_whl (s : State) (p k : Nat) (a : SubSt) : (s.setSub p k a).whl = s.whl := rfl
@[simp] theorem State.setSub_kv (s : State) (p k : Nat) (a : SubSt) : (s.setSub p k a).kv = s.kv := rfl
@[simp] theorem State.setSub_emb (s : State) (p k : Nat) (a : SubSt) : (s.setSub p k a).emb = s.emb := rfl
@[simp] theorem State.setSub_srv (s : State) (p k : Nat) (a : SubSt) : (s.setSub p k a).srv = s.srv := rfl
@[simp] theorem State.setSub_mem (s : State) (p k : Nat) (a : SubSt) : (s.setSub p k a).mem = s.mem := rfl
@[simp] theorem State.setSub_syn (s : State) (p k : Nat) (a : SubSt) : (s.setSub p k a).syn = s.syn := rfl
@[simp] theorem State.setSub_flt (s : State) (p k : Nat) (a : SubSt) : (s.setSub p k a).flt = s.flt := rfl
@[simp] theorem State.setSub_pwr (s : State) (p k : Nat) (a : SubSt) : (s.setSub p k a).pwr = s.pwr := rfl
@[simp] theorem State.setSub_sec (s : State) (p k : Nat) (a : SubSt) : (s.setSub p k a).sec = s.sec := rfl
@[simp] theorem State.setSub_pin (s : State) (p k : Nat) (a : SubSt) : (s.setSub p k a).pin = s.pin := rfl
@[simp] theorem State.setSub_time (s : State) (p k : Nat) (a : SubSt) : (s.setSub p k a).time = s.time := rfl
@[simp] theorem State.setSub_powered (s : State) (p k : Nat) (a : SubSt) : (s.setSub p k a).powered = s.powered := rfl
@[simp] theorem State.setSub_free (s : State) (p k : Nat) (a : SubSt) : (s.setSub p k a).free = s.free := rfl
@[simp] theorem State.setSub_out (s : State) (p k : Nat) (a : SubSt) : (s.setSub p k a).out = s.out := rfl
@[simp] theorem State.setSub_pending (s : State) (p k : Nat) (a : SubSt) : (s.setSub p k a).pending = s.pending := rfl
@[simp] theorem State.modSub_fuse (s : State) (p k : Nat) (f : SubSt → SubSt) : (s.modSub p k f).fuse = s.fuse := rfl
@[simp] theorem State.modSub_dic (s : State) (p k : Nat) (f : SubSt → SubSt) : (s.modSub p k f).dic = s.dic := rfl
@[simp] theorem State.modSub_arr (s : State) (p k : Nat) (f : SubSt → SubSt) : (s.modSub p k f).arr = s.arr := rfl
@[simp] theorem State.modSub_vat (s : State) (p k : Nat) (f : SubSt → SubSt) : (s.modSub p k f).vat = s.vat := rfl
@[simp] theorem State.modSub_eng (s : State) (p k : Nat) (f : SubSt → SubSt) : (s.modSub p k f).eng = s.eng := rfl
@[simp] theorem State.modSub_whl (s : State) (p k : Nat) (f : SubSt → SubSt) : (s.modSub p k f).whl = s.whl := rfl
@[simp] theorem State.modSub_kv (s : State) (p k : Nat) (f : SubSt → SubSt) : (s.modSub p k f).kv = s.kv := rfl
@[simp] theorem State.modSub_emb (s : State) (p k : Nat) (f : SubSt → SubSt) : (s.modSub p k f).emb = s.emb := rfl
@[simp] theorem State.modSub_srv (s : State) (p k : Nat) (f : SubSt → SubSt) : (s.modSub p k f).srv = s.srv := rfl
@[simp] theorem State.modSub_mem (s : State) (p k : Nat) (f : SubSt → SubSt) : (s.modSub p k f).mem = s.mem := rfl
@[simp] theorem State.modSub_syn (s : State) (p k : Nat) (f : SubSt → SubSt) : (s.modSub p k f).syn = s.syn := rfl
@[simp] theorem State.modSub_flt (s : State) (p k : Nat) (f : SubSt → SubSt) : (s.modSub p k f).flt = s.flt := rfl
@[simp] theorem State.modSub_pwr (s : State) (p k : Nat) (f : SubSt → SubSt) : (s.modSub p k f).pwr = s.pwr := rfl
@[simp] theorem State.modSub_sec (s : State) (p k : Nat) (f : SubSt → SubSt) : (s.modSub p k f).sec = s.sec := rfl
@[simp] theorem State.modSub_pin (s : State) (p k : Nat) (f : SubSt → SubSt) : (s.modSub p k f).pin = s.pin := rfl
@[simp] theorem State.modSub_time (s : State) (p k : Nat) (f : SubSt → SubSt) : (s.modSub p k f).time = s.time := rfl
@[simp] theorem State.modSub_powered (s : State) (p k : Nat) (f : SubSt → SubSt) : (s.modSub p k f).powered = s.powered := rfl
@[simp] theorem State.modSub_free (s : State) (p k : Nat) (f : SubSt → SubSt) : (s.modSub p k f).free = s.free := rfl
@[simp] theorem State.modSub_out (s : State) (p k : Nat) (f : SubSt → SubSt) : (s.modSub p k f).out = s.out := rfl
@[simp] theorem State.modSub_pending (s : State) (p k : Nat) (f : SubSt → SubSt) : (s.modSub p k f).pending = s.pending := rfl
theorem State.subAt_setSub_same (s : State) (p k : Nat) (a : SubSt) (h : twf {} s.fab.ports = true)
    (hp : twf {} (s.portAt p).subs = true) : (s.setSub p k a).subAt p k = a := by
  unfold State.setSub State.subAt
  rw [State.portAt_modPort_same s p _ h]
  exact tget_tput_same _ _ _ hp

/-! ## `emit` and `emits` -/

@[simp] theorem State.emit_fuse (s : State) (o : Out) : (s.emit o).fuse = s.fuse := rfl
@[simp] theorem State.emits_fuse (s : State) (l : List Out) : (s.emits l).fuse = s.fuse := rfl
@[simp] theorem State.emit_dic (s : State) (o : Out) : (s.emit o).dic = s.dic := rfl
@[simp] theorem State.emits_dic (s : State) (l : List Out) : (s.emits l).dic = s.dic := rfl
@[simp] theorem State.emit_arr (s : State) (o : Out) : (s.emit o).arr = s.arr := rfl
@[simp] theorem State.emits_arr (s : State) (l : List Out) : (s.emits l).arr = s.arr := rfl
@[simp] theorem State.emit_vat (s : State) (o : Out) : (s.emit o).vat = s.vat := rfl
@[simp] theorem State.emits_vat (s : State) (l : List Out) : (s.emits l).vat = s.vat := rfl
@[simp] theorem State.emit_eng (s : State) (o : Out) : (s.emit o).eng = s.eng := rfl
@[simp] theorem State.emits_eng (s : State) (l : List Out) : (s.emits l).eng = s.eng := rfl
@[simp] theorem State.emit_whl (s : State) (o : Out) : (s.emit o).whl = s.whl := rfl
@[simp] theorem State.emits_whl (s : State) (l : List Out) : (s.emits l).whl = s.whl := rfl
@[simp] theorem State.emit_kv (s : State) (o : Out) : (s.emit o).kv = s.kv := rfl
@[simp] theorem State.emits_kv (s : State) (l : List Out) : (s.emits l).kv = s.kv := rfl
@[simp] theorem State.emit_emb (s : State) (o : Out) : (s.emit o).emb = s.emb := rfl
@[simp] theorem State.emits_emb (s : State) (l : List Out) : (s.emits l).emb = s.emb := rfl
@[simp] theorem State.emit_srv (s : State) (o : Out) : (s.emit o).srv = s.srv := rfl
@[simp] theorem State.emits_srv (s : State) (l : List Out) : (s.emits l).srv = s.srv := rfl
@[simp] theorem State.emit_mem (s : State) (o : Out) : (s.emit o).mem = s.mem := rfl
@[simp] theorem State.emits_mem (s : State) (l : List Out) : (s.emits l).mem = s.mem := rfl
@[simp] theorem State.emit_fab (s : State) (o : Out) : (s.emit o).fab = s.fab := rfl
@[simp] theorem State.emits_fab (s : State) (l : List Out) : (s.emits l).fab = s.fab := rfl
@[simp] theorem State.emit_syn (s : State) (o : Out) : (s.emit o).syn = s.syn := rfl
@[simp] theorem State.emits_syn (s : State) (l : List Out) : (s.emits l).syn = s.syn := rfl
@[simp] theorem State.emit_flt (s : State) (o : Out) : (s.emit o).flt = s.flt := rfl
@[simp] theorem State.emits_flt (s : State) (l : List Out) : (s.emits l).flt = s.flt := rfl
@[simp] theorem State.emit_pwr (s : State) (o : Out) : (s.emit o).pwr = s.pwr := rfl
@[simp] theorem State.emits_pwr (s : State) (l : List Out) : (s.emits l).pwr = s.pwr := rfl
@[simp] theorem State.emit_sec (s : State) (o : Out) : (s.emit o).sec = s.sec := rfl
@[simp] theorem State.emits_sec (s : State) (l : List Out) : (s.emits l).sec = s.sec := rfl
@[simp] theorem State.emit_pin (s : State) (o : Out) : (s.emit o).pin = s.pin := rfl
@[simp] theorem State.emits_pin (s : State) (l : List Out) : (s.emits l).pin = s.pin := rfl
@[simp] theorem State.emit_time (s : State) (o : Out) : (s.emit o).time = s.time := rfl
@[simp] theorem State.emits_time (s : State) (l : List Out) : (s.emits l).time = s.time := rfl
@[simp] theorem State.emit_powered (s : State) (o : Out) : (s.emit o).powered = s.powered := rfl
@[simp] theorem State.emits_powered (s : State) (l : List Out) : (s.emits l).powered = s.powered := rfl
@[simp] theorem State.emit_free (s : State) (o : Out) : (s.emit o).free = s.free := rfl
@[simp] theorem State.emits_free (s : State) (l : List Out) : (s.emits l).free = s.free := rfl
@[simp] theorem State.emit_pending (s : State) (o : Out) : (s.emit o).pending = s.pending := rfl
@[simp] theorem State.emits_pending (s : State) (l : List Out) : (s.emits l).pending = s.pending := rfl
@[simp] theorem State.emit_out (s : State) (o : Out) : (s.emit o).out = o :: s.out := rfl
@[simp] theorem State.emits_out (s : State) (l : List Out) : (s.emits l).out = l.reverse ++ s.out := rfl

/-! ## `until` -/

@[simp] theorem State.until_fuse (s : State) (t : Nat) : (s.until t).fuse = s.fuse := by unfold State.until; split <;> rfl
@[simp] theorem State.until_dic (s : State) (t : Nat) : (s.until t).dic = s.dic := by unfold State.until; split <;> rfl
@[simp] theorem State.until_arr (s : State) (t : Nat) : (s.until t).arr = s.arr := by unfold State.until; split <;> rfl
@[simp] theorem State.until_vat (s : State) (t : Nat) : (s.until t).vat = s.vat := by unfold State.until; split <;> rfl
@[simp] theorem State.until_eng (s : State) (t : Nat) : (s.until t).eng = s.eng := by unfold State.until; split <;> rfl
@[simp] theorem State.until_whl (s : State) (t : Nat) : (s.until t).whl = s.whl := by unfold State.until; split <;> rfl
@[simp] theorem State.until_kv (s : State) (t : Nat) : (s.until t).kv = s.kv := by unfold State.until; split <;> rfl
@[simp] theorem State.until_emb (s : State) (t : Nat) : (s.until t).emb = s.emb := by unfold State.until; split <;> rfl
@[simp] theorem State.until_srv (s : State) (t : Nat) : (s.until t).srv = s.srv := by unfold State.until; split <;> rfl
@[simp] theorem State.until_mem (s : State) (t : Nat) : (s.until t).mem = s.mem := by unfold State.until; split <;> rfl
@[simp] theorem State.until_fab (s : State) (t : Nat) : (s.until t).fab = s.fab := by unfold State.until; split <;> rfl
@[simp] theorem State.until_syn (s : State) (t : Nat) : (s.until t).syn = s.syn := by unfold State.until; split <;> rfl
@[simp] theorem State.until_flt (s : State) (t : Nat) : (s.until t).flt = s.flt := by unfold State.until; split <;> rfl
@[simp] theorem State.until_pwr (s : State) (t : Nat) : (s.until t).pwr = s.pwr := by unfold State.until; split <;> rfl
@[simp] theorem State.until_sec (s : State) (t : Nat) : (s.until t).sec = s.sec := by unfold State.until; split <;> rfl
@[simp] theorem State.until_pin (s : State) (t : Nat) : (s.until t).pin = s.pin := by unfold State.until; split <;> rfl
@[simp] theorem State.until_free (s : State) (t : Nat) : (s.until t).free = s.free := by unfold State.until; split <;> rfl
@[simp] theorem State.until_out (s : State) (t : Nat) : (s.until t).out = s.out := by unfold State.until; split <;> rfl
@[simp] theorem State.until_pending (s : State) (t : Nat) : (s.until t).pending = s.pending := by unfold State.until; split <;> rfl
theorem State.until_time (s : State) (t : Nat) : (s.until t).time = max s.time t := by
  unfold State.until
  split
  · exact (Nat.max_eq_right (Nat.le_of_lt (by assumption))).symm
  · exact (Nat.max_eq_left (Nat.le_of_not_lt (by assumption))).symm
theorem State.until_of_le (s : State) (t : Nat) (h : t ≤ s.time) : s.until t = s := by
  unfold State.until
  rw [if_neg (Nat.not_lt.2 h)]

end Sys2Proof.Machine
end

