-- ==== Sys2Proof/Laws/Fap.lean ====
section
/-! SUPPORT. The path of a FAP request, said once: an accepted request is performed on the session that has taken its SEQ. -/

namespace Sys2Proof.Machine

/-- The session that has accepted a message reads back. -/
theorem sessAt_accepted (s : State) (n q : Nat) :
    (s.modSess n (seqAccept s.time q)).sessAt n = seqAccept s.time q (s.sessAt n) := by
  refine tget_tput_of_ne _ _ _ fun h => ?_
  have := congrArg Session.rxCount h
  simp [seqAccept, dfltSession] at this

/-- An accepted request is performed. -/
theorem fapRun_open {op n q : Nat} {perform : Nat → FapMsg → State → FapResp × State} {m : FapMsg} {s : State}
    (h : fapOpen s n q m = true) (hop : m.op = op) :
    fapRun op perform n q m s = fapDone n (perform n m (s.modSess n (seqAccept s.time q))) := by
  unfold fapOpen at h
  simp only [Bool.and_eq_true, Option.isNone_iff_eq_none] at h
  obtain ⟨⟨⟨⟨h₁, h₂⟩, h₃⟩, h₄⟩, h₅⟩ := h
  have hk : ((s.modSess n (seqAccept s.time q)).sessAt n).kept = (s.sessAt n).kept := by rw [sessAt_accepted]; rfl
  simp [fapRun, h₁, h₂, h₃, h₄, hk, h₅, hop, fapDone]

end Sys2Proof.Machine
end

