-- ==== Sys2Proof/WellFormed.lean ====
section
/-! DEFINITION. Well-formed commands: every operand lies in the range its field or unit number has. What a command does with an
operand in range is the machine's; what no field can carry is no command. -/

namespace Sys2Proof

/-! ## Fields by their widths -/

abbrev u8 (n : Nat) : Bool := n < 2 ^ 8
abbrev u16 (n : Nat) : Bool := n < 2 ^ 16
abbrev u24 (n : Nat) : Bool := n < 2 ^ 24
abbrev u32 (n : Nat) : Bool := n < 2 ^ 32
abbrev u64 (n : Nat) : Bool := n < 2 ^ 64

def okOptU32 (o : Option Nat) : Bool := o.all (fun n => u32 n)
def okU32s (l : List Nat) : Bool := l.all (fun n => u32 n)

/-! ## Numbers of units -/

abbrev okPort (p : Nat) : Bool := p < 24
abbrev okSub (k : Nat) : Bool := k < 4
abbrev okVat (v : Nat) : Bool := v < 8
abbrev okArray (n : Nat) : Bool := n < 17408
abbrev okEngine (n : Nat) : Bool := n < 512
def okEngines (l : List Nat) : Bool := l.all (fun n => okEngine n)
abbrev okSlot (l : Nat) : Bool := l < 2048
abbrev okPart (p : Nat) : Bool := p < 256
abbrev okSlice (k : Nat) : Bool := k < 8
abbrev okMbx (m : Nat) : Bool := m < 64
abbrev okCore (c : Nat) : Bool := c < 10
abbrev okHolder (k : Nat) : Bool := k < 2
abbrev okWay (w : Nat) : Bool := w < 16
abbrev okStraps (x : Nat) : Bool := x < 64
abbrev okWidth (w : Nat) : Bool := w = 8 || w = 16 || w = 32 || w = 64
abbrev okSegment (k : Nat) : Bool := k < 8
abbrev okColumn (c : Nat) : Bool := c < 1136
abbrev okRefLine (k : Nat) : Bool := k < 2
abbrev okClass (c : Nat) : Bool := c < 8
abbrev okUnits (n : Nat) : Bool := n < 2 ^ 13
abbrev okPrio (p : Nat) : Bool := p < 8
abbrev okMsgWord (k : Nat) : Bool := k < 64
abbrev okMonInput (k : Nat) : Bool := k < 64
abbrev okConverter (c : Nat) : Bool := c < 4
abbrev okMonSeq (k : Nat) : Bool := k < 4
abbrev okEnrollRow (r : Nat) : Bool := r < 64

/-! ## Octet strings: none is longer than the largest object (R338) -/

def okOctets (o : Octets) : Bool := o.length ≤ 2 ^ 26
def okOptOctets (o : Option Octets) : Bool := o.all okOctets
def okOctetsList (l : List Octets) : Bool := l.all okOctets

/-! ## Operand types -/

def okRegAgent : RegAgent → Bool
  | .vat v => okVat v
  | .mgmt | .sec | .window => true

def okAgent : Agent → Bool
  | .engine n => okEngine n
  | .vatCore v => okVat v
  | .array n => okArray n
  | .qp h | .stream h => u32 h
  | .mgmt | .sec => true

/-- The fields of an inner message (R350). -/
def okFapMsg (m : FapMsg) : Bool :=
  u8 m.op && u8 m.flags && u16 m.tag && u16 m.status && u16 m.index && u8 m.sub && u24 m.rsv && u32 m.offset && u32 m.count &&
  m.data.length ≤ 1200

def okTap (t : TapPair) : Bool := t.delay < 64 && t.thresh < 16
def okTaps (l : List TapPair) : Bool := l.all okTap

def okReport (r : ConvReport) : Bool := r.half < 3 && okSegment r.segment && okColumn r.column && r.report.all (fun c => c < 256)
def okReports (l : List ConvReport) : Bool := l.all okReport

def okResidue (o : Option (Nat × Nat)) : Bool := o.all (fun r => u32 r.1 && u32 r.2)

def okEnvelope (c : EnvelopeCrypto) : Bool := okOptOctets c.plain && c.digest.length = 48

def okUpset (u : Option EngineUpset) : Bool :=
  u.all (fun x => match x with
    | .residue e f => u32 e && u32 f
    | .scratchUe o => u32 o
    | .silent b => u32 b
    | .scratchCe => true)

def okUnit : HealthUnit → Bool
  | .array n => okArray n
  | .engine n => okEngine n
  | .vat v => okVat v

def okBrine : BrineResult → Bool
  | .failed t => u8 t
  | .suspect g c => okSegment g && okColumn c
  | .interrupted | .passed => true

def okEcc (e : Option EccError) : Bool :=
  e.all (fun x => match x with
    | .corrected d => u8 d
    | .uncorrectable d => d.all (fun k => u8 k))

/-- The header fields of a frame and its payload of up to 4,096 octets (R271). -/
def okFrame (f : Frame) : Bool :=
  okPort f.port && okSub f.sub && f.ver < 16 && u8 f.flags && u16 f.srcChip && u16 f.dstChip && u32 f.lseq && u32 f.lack &&
  u32 f.stream && u32 f.eseq && f.offset < 2 ^ 48 && u8 f.op && f.hops < 16 && f.path < 16 && u16 f.credit && u32 f.aux &&
  f.payload.length ≤ 4096

def okRawFrame (r : RawFrame) : Bool :=
  u16 r.etherType && r.vid < 4096 && r.typ < 16 && u16 r.lengthField && u16 r.frameOctets && okFrame r.frame

def okSyncBy : SyncBy → Bool
  | .agent a p => okAgent a && okPart p
  | .wire f => okFrame f
  | .roce h => u32 h
  | .fired => true

def okPeer (p : PeerReport) : Bool := u16 p.chip && u8 p.lifecycle && p.debugLevel < 4 && okOptU32 p.handle
def okPeers (l : List PeerReport) : Bool := l.all okPeer

def okEntry (e : LenEntry) : Bool := u16 e.seq && u8 e.kind && u32 e.qpos && u32 e.qlen && u32 e.row

def okPlan (p : Plan) : Bool :=
  u64 p.step && u32 p.epoch && p.entries.all okEntry && okU32s p.tokens && p.named.all (fun n => u16 n.1 && u32 n.2)

def okOutcome (o : RowOutcome) : Bool := u16 o.seq && okU32s o.tokens && u8 o.accepted && u16 o.failure
def okOutcomes (l : List RowOutcome) : Bool := l.all okOutcome

def okJournalReq (j : JournalReq) : Bool :=
  u32 j.handle && okOctets j.entry && okOctets j.stops && okU32s j.ctx &&
  j.emitted.all (fun e => u64 e.1 && u32 e.2.1 && okU32s e.2.2) && j.ended.all (fun e => u16 e.1 && u8 e.2)

def okFetch (f : AdoptFetch) : Bool := okOptOctets f.envelope && okEnvelope f.crypto && f.journal.all okJournalReq

def okWake : Wake → Bool
  | .doorbell m => okMbx m
  | .frame p => okPort p
  | .stateReq | .fapCommand => true

def okUrgent : UrgentBy → Bool
  | .faultLine c => c < 12
  | .power v => okVat v
  | .sensorHub => true

def okMonCalBy : MonCalBy → Bool
  | .session n a => u32 n && okOctets a
  | .register a k v => okRegAgent a && okMonSeq k && u32 v

def okBootCheck (c : BootCheck) : Bool :=
  u8 c.markedStatus && u8 c.otherStatus && u8 c.slicesTrained && u24 c.portsTrained && c.distance.all (fun d => u16 d)

def okFuses (f : FuseImage) : Bool :=
  f.lot.length ≤ 8 && u8 f.wafer && u8 f.dieX && u8 f.dieY && u64 f.serial && f.mac.length = 6 && f.product.length ≤ 16 &&
  f.uds.length = 32

def okBadDatagram (d : BadDatagram) : Bool := u32 d.sess && u64 d.seq && d.innerOctets ≤ 1200

def okRoceAck : RoceAck → Bool
  | .ack p => u24 p
  | .nak p c => u24 p && u8 c
  | .response p d => u24 p && okOctets d

def okVictim : Victim → Bool
  | .queue n => okEngine n
  | .overflow v => okVat v

def okPoster : Poster → Bool
  | .vatCore v p => okVat v && okPart p
  | .mgmt p | .partition p => okPart p

def okOpener : StreamOpener → Bool
  | .session n a r => u32 n && okOctets a && okPeer r
  | .peer r p c => okPeer r && okPart p && c < 8

def okMbxEnd : MbxEnd → Bool
  | .vat v => okVat v
  | .session n => u32 n
  | .mgmt | .sec => true

def okReadings (l : List (Nat × Int)) : Bool := l.all (fun r => r.1 < 288 && -32768 ≤ r.2 && r.2 < 32768)

/-- Every operand of a command is in range. -/
def Instr.wf : Instr → Bool
  | .stepBoundary => true
  | .idleStepBoundary => true
  | .registerWrite agent addr width value => okRegAgent agent && u32 addr && okWidth width && u32 value
  | .fapRead sess seq m => u32 sess && u64 seq && okFapMsg m
  | .fapWrite sess seq m => u32 sess && u64 seq && okFapMsg m
  | .fapDescribe sess seq m => u32 sess && u64 seq && okFapMsg m
  | .fapNext sess seq m => u32 sess && u64 seq && okFapMsg m
  | .fapKeepalive sess seq m => u32 sess && u64 seq && okFapMsg m
  | .fapClose sess seq m => u32 sess && u64 seq && okFapMsg m
  | .fapSessionIdleTimeout sess => u32 sess
  | .spdmKeyExchange _ keyDigests => okOctetsList keyDigests
  | .spdmFinish sess => u32 sess
  | .spdmEndSession sess => u32 sess
  | .spdmKeyUpdate sess => u32 sess
  | .spdmGetMeasurements sess nonce => u32 sess && okOctets nonce
  | .arrayInputRecord sender vat slot record _ => okAgent sender && okVat vat && okSlot slot && okOctets record
  | .arrayWake array => okArray array
  | .passGrant vat => okVat vat
  | .arrayPassLaunch array => okArray array
  | .split array => okArray array
  | .passCountsReady array reports residueFail => okArray array && okReports reports && okResidue residueFail
  | .chainPartialSum array => okArray array
  | .pairJoin array => okArray array
  | .outputRelease array => okArray array
  | .arrayIdleGate array => okArray array
  | .arrCalStart sess arg => u32 sess && okOctets arg
  | .ccVatStart agent vat value => okRegAgent agent && okVat vat && u32 value
  | .converterCalResult array segment column runs => okArray array && okSegment segment && okColumn column && okTaps runs
  | .refLineCalResult vat line taps => okVat vat && okRefLine line && okTap taps
  | .calRunDone vat stepFs => okVat vat && u16 stepFs
  | .driftCalibration array => okArray array
  | .perTableLoad sess arg => u32 sess && okOctets arg
  | .whlStage sess arg => u32 sess && okOctets arg
  | .whlVerify sess arg crypto => u32 sess && okOctets arg && okEnvelope crypto
  | .whlPlace sess arg => u32 sess && okOctets arg
  | .whlArm sess arg => u32 sess && okOctets arg
  | .whlCancel sess arg => u32 sess && okOctets arg
  | .openWrite sess arg => u32 sess && okOctets arg
  | .replicaStore chip part epoch envelope => u16 chip && okPart part && u32 epoch && okOctets envelope
  | .replicaPushAck part holder status => okPart part && okHolder holder && u16 status
  | .replicaFetchDone part envelope crypto => okPart part && okOptOctets envelope && okEnvelope crypto
  | .programRow array _ => okArray array
  | .arrayProgramDone array raisedTest => okArray array && okOptU32 raisedTest
  | .swapArrive part => okPart part
  | .swapDecision part value => okPart part && u64 value
  | .swapHoldAlarm part => okPart part
  | .rewriteDone part => okPart part
  | .rewriteRollbackDone part => okPart part
  | .overflowLayerLoad part layer => okPart part && u16 layer
  | .retentionAgeTick array tempC milliHours => okArray array && u16 tempC && u64 milliHours
  | .taskPost poster desc => okPoster poster && okOctets desc
  | .taskStart engine _ => okEngine engine
  | .engineWake engine => okEngine engine
  | .engineIdleGate engine => okEngine engine
  | .stealSearch engine => okEngine engine
  | .stealClaim victim thieves => okVictim victim && okEngines thieves
  | .dualCompare taskKey => u64 taskKey
  | .veInbufSet sess arg => u32 sess && okOctets arg
  | .inbufRecordArrival sender part buffer record => okAgent sender && okPart part && u16 buffer && okOctets record
  | .inbufRecordWrite buffer => u16 buffer
  | .gemm engine busyNs upset => okEngine engine && u64 busyNs && okUpset upset
  | .norm engine busyNs upset => okEngine engine && u64 busyNs && okUpset upset
  | .attnDecode engine busyNs upset => okEngine engine && u64 busyNs && okUpset upset
  | .attnPrefill engine busyNs upset => okEngine engine && u64 busyNs && okUpset upset
  | .kvAppend engine busyNs upset => okEngine engine && u64 busyNs && okUpset upset
  | .gatherPool engine busyNs upset => okEngine engine && u64 busyNs && okUpset upset
  | .sample engine busyNs upset => okEngine engine && u64 busyNs && okUpset upset
  | .specVerify engine busyNs upset => okEngine engine && u64 busyNs && okUpset upset
  | .openQuant engine busyNs upset => okEngine engine && u64 busyNs && okUpset upset
  | .packageKernel engine busyNs upset => okEngine engine && u64 busyNs && okUpset upset
  | .seqEdit sess arg => u32 sess && okOctets arg
  | .embTableEdit sess arg => u32 sess && okOctets arg
  | .embInvalidate sess arg => u32 sess && okOctets arg
  | .embPin sess arg => u32 sess && okOctets arg
  | .hotRowCopy dirSet way => u16 dirSet && okWay way
  | .hotRowCopyDone dirSet way => u16 dirSet && okWay way
  | .directoryDecay part => okPart part
  | .planReceive part plan => okPart part && okPlan plan
  | .memberStepStart part => okPart part
  | .seqInvalidReport part seq chip => okPart part && u16 seq && u16 chip
  | .reqChanOpen sess arg => u32 sess && okOctets arg
  | .reqChanClose sess arg => u32 sess && okOctets arg
  | .submit chan => u32 chan
  | .cancel chan => u32 chan
  | .qpTransportError qp => u32 qp
  | .draftMessage part seq drafts => okPart part && u16 seq && okU32s drafts
  | .commitFence vat outcomes => okVat vat && okOutcomes outcomes
  | .journalRecord lead record => u16 lead && okOctets record
  | .journalAck holder seqno status => okHolder holder && u64 seqno && u16 status
  | .completionRecordWrite chan => u32 chan
  | .memRegionSet sess arg => u32 sess && okOctets arg
  | .patrolScrub slice line err => okSlice slice && u64 line && okEcc err
  | .memoryZeroDone job => u64 job
  | .replicaLostNotice chip => u16 chip
  | .portEnableWrite agent port value => okRegAgent agent && okPort port && u32 value
  | .linkTrainingDone port sub _ => okPort port && okSub sub
  | .pcsLock port sub => okPort port && okSub sub
  | .preemptVerifyDone port sub _ => okPort port && okSub sub
  | .hello port sub srcChip payload => okPort port && okSub sub && u16 srcChip && okOctets payload
  | .helloSendTimer port sub => okPort port && okSub sub
  | .helloTimeout port sub => okPort port && okSub sub
  | .dataWrite f => okFrame f
  | .dataReadReq f => okFrame f
  | .dataReadResp f => okFrame f
  | .syncAdd by_ addr a => okSyncBy by_ && u64 addr && u64 a
  | .syncCmpSwap by_ addr c v => okSyncBy by_ && u64 addr && u64 c && u64 v
  | .syncRelease by_ addr v => okSyncBy by_ && u64 addr && u64 v
  | .syncRead by_ addr => okSyncBy by_ && u64 addr
  | .syncWait by_ addr v timeoutUs => okSyncBy by_ && u64 addr && u64 v && u32 timeoutUs
  | .syncWaitTimeout waiter => u64 waiter
  | .syncResponse f => okFrame f
  | .press f => okFrame f
  | .pressResult f => okFrame f
  | .pressAck f => okFrame f
  | .eackAck f => okFrame f
  | .eackRefuse f => okFrame f
  | .linkAck port sub lack => okPort port && okSub sub && u32 lack
  | .linkNak port sub lack => okPort port && okSub sub && u32 lack
  | .linkCredit port sub cls units => okPort port && okSub sub && okClass cls && okUnits units
  | .linkKeepalive port sub srcChip => okPort port && okSub sub && u16 srcChip
  | .dozeReq port sub => okPort port && okSub sub
  | .dozeAck port sub => okPort port && okSub sub
  | .linkWake port sub => okPort port && okSub sub
  | .linkAckTimer port sub => okPort port && okSub sub
  | .linkReplayTimeout port sub => okPort port && okSub sub
  | .keepaliveSendTimer port sub => okPort port && okSub sub
  | .portKeepaliveTimeout port sub => okPort port && okSub sub
  | .pcsLockLoss port sub => okPort port && okSub sub
  | .e2eAckTimer stream => u32 stream
  | .e2eRetransmitTimeout stream eseq => u32 stream && u32 eseq
  | .e2eKeepaliveTimer chip => u16 chip
  | .peerTimeout chip => u16 chip
  | .collCreate sess arg peers => u32 sess && okOctets arg && okPeers peers
  | .collDestroy sess arg => u32 sess && okOctets arg
  | .collInvocationStart coll => u32 coll
  | .roceSend qp psn data _ => u32 qp && u24 psn && okOctets data
  | .roceWrite qp psn addr rkey data imm _ => u32 qp && u24 psn && u64 addr && u32 rkey && okOctets data && okOptU32 imm
  | .roceRead qp psn addr rkey len _ => u32 qp && u24 psn && u64 addr && u32 rkey && u32 len
  | .roceFetchAdd qp psn addr rkey a _ => u32 qp && u24 psn && u64 addr && u32 rkey && u64 a
  | .roceCmpSwap qp psn addr rkey c v _ => u32 qp && u24 psn && u64 addr && u32 rkey && u64 c && u64 v
  | .roceCnp qp => u32 qp
  | .roceRateRecovery qp => u32 qp
  | .pfcFrame port sub priority _ => okPort port && okSub sub && okPrio priority
  | .fenceLocal agent => okAgent agent
  | .fenceDie agent => okAgent agent
  | .fenceFabric agent => okAgent agent
  | .fenceComplete agent => okAgent agent
  | .syncAlloc sess arg => u32 sess && okOctets arg
  | .syncFree sess arg => u32 sess && okOctets arg
  | .syncConfig sess arg => u32 sess && okOctets arg
  | .syncThreshHiWrite agent obj value => okRegAgent agent && u16 obj && u32 value
  | .syncTargetHiWrite agent obj value => okRegAgent agent && u16 obj && u32 value
  | .syncGroupCreate sess arg peers => u32 sess && okOctets arg && okPeers peers
  | .syncGroupDestroy sess arg => u32 sess && okOctets arg
  | .streamOpen by_ => okOpener by_
  | .streamClose sess arg => u32 sess && okOctets arg
  | .qpCreate sess arg => u32 sess && okOctets arg
  | .qpDestroy sess arg => u32 sess && okOctets arg
  | .taskChanOpen sess arg => u32 sess && okOctets arg
  | .taskChanClose sess arg => u32 sess && okOctets arg
  | .taskChanDescriptorRead chan => u32 chan
  | .mbxMsgWrite mbx end_ word value => okMbx mbx && okMbxEnd end_ && okMsgWord word && u32 value
  | .mbxDoorbell mbx end_ len => okMbx mbx && okMbxEnd end_ && u16 len
  | .mbxInterrupt mbx => okMbx mbx
  | .mbxAck mbx end_ rc => okMbx mbx && okMbxEnd end_ && u8 rc
  | .cfgDefaults sess arg => u32 sess && okOctets arg
  | .fwActivate sess arg _ => u32 sess && okOctets arg
  | .regWinData sess write => u32 sess && okOptU32 write
  | .regWinBulk sess count => u32 sess && u32 count
  | .vatHeartbeat vat => okVat vat
  | .vatWatchdog vat => okVat vat
  | .vatFenceGate vat => okVat vat
  | .mgmtCoreReset => true
  | .mgmtCoreResetDone => true
  | .mgmtRecoveryTimeout => true
  | .errorRecordPersist => true
  | .brineSliceStart u => okUnit u
  | .brineSliceDone u result => okUnit u && okBrine result
  | .healthFence sess arg => u32 sess && okOctets arg
  | .healthReadmit sess arg => u32 sess && okOctets arg
  | .healthClear sess arg => u32 sess && okOctets arg
  | .recAdopt sess arg fetch => u32 sess && okOctets arg && okFetch fetch
  | .recReplace sess arg => u32 sess && okOctets arg
  | .recRebind sess arg => u32 sess && okOctets arg
  | .rebindTimeout oldChip oldHandle => u16 oldChip && u32 oldHandle
  | .pwrStateReq sess arg => u32 sess && okOctets arg
  | .autoS1Entry => true
  | .powerStateEntryDone => true
  | .wakeEvent w => okWake w
  | .powerStateExitDone => true
  | .refclkLoss => true
  | .refclkRestored => true
  | .corePllLockLoss => true
  | .corePllRelock => true
  | .powerCapTick inputWatts => u16 inputWatts
  | .brakeAssert => true
  | .brakeRelease => true
  | .brakeRampTick => true
  | .thermalSample readings => okReadings readings
  | .orderedStopTimeout => true
  | .thermalTrip sensor => okOptU32 sensor
  | .railExcursion vat => okVat vat
  | .railRecovered vat => okVat vat
  | .urgentConversion requester input code => okUrgent requester && okMonInput input && u16 code
  | .monTimerTrigger seq => okMonSeq seq
  | .monVrSync controller => u16 controller
  | .monConversionDone seq raw => okMonSeq seq && u16 raw
  | .monCalStart by_ => okMonCalBy by_
  | .monCalDone converter runs => okConverter converter && okTaps runs
  | .monClear by_ => okMonCalBy by_
  | .lcTransition sess arg => u32 sess && okOctets arg
  | .lcEffectDone => true
  | .secPartCreate sess arg => u32 sess && okOctets arg
  | .secPartAssign sess arg => u32 sess && okOctets arg
  | .secPartRelease sess arg => u32 sess && okOctets arg
  | .secDebugChallenge sess nonce => u32 sess && okOctets nonce
  | .secDebugUnlock sess arg _ => u32 sess && okOctets arg
  | .secDebugClose sess arg => u32 sess && okOctets arg
  | .debugExpiry => true
  | .coreHalt core => okCore core
  | .coreSingleStep core => okCore core
  | .coreResume core => okCore core
  | .secPkgLoad sess arg _ => u32 sess && okOctets arg
  | .secEnrollWrite sess row rows => u32 sess && okEnrollRow row && okOctetsList rows
  | .secKeyLoad agent slot => okRegAgent agent && u8 slot
  | .secKeyClear agent slot => okRegAgent agent && u8 slot
  | .fwSelfTestDone => true
  | .fwSelfTestTimeout => true
  | .powerUp straps check => okStraps straps && okBootCheck check
  | .supplyLoss _ => true
  | .resetAssert => true
  | .resetRelease straps check => okStraps straps && okBootCheck check
  | .jtagIdcode => true
  | .jtagBypass => true
  | .jtagSamplePreload => true
  | .jtagExtest => true
  | .jtagFuseProgram f => okFuses f
  | .jtagTapReset => true
  | .frameCheckDrop port sub raw => okPort port && okSub sub && okRawFrame raw
  | .fapDatagramDrop d => okBadDatagram d
  | .mgmtPortArpNdIcmp _ => true
  | .spdmGetCertificate sess => u32 sess
  | .roceAcknowledge qp ack => u32 qp && okRoceAck ack
  | .idleCalibrationSlice array _ => okArray array
  | .envelopeVerifyDone part crypto => okPart part && okEnvelope crypto
  | .slotIdChange straps => okStraps straps
  | .thermTripLatchClear => true
  | .overvoltageLockoutRelease straps check => okStraps straps && okBootCheck check
  | .telemetryUpdate => true

end Sys2Proof
end

