-- ==== Sys2Proof/Tests/Slice0.lean ====
section
/-! SUPPORT. Tests: ill-formed commands that the check refuses, worked examples of the specification, and for each statement with
hypotheses a state and operands that meet them. -/

namespace Sys2Proof.Tests
set_option Elab.async false
open Sys2Proof Sys2Proof.Machine


/-! ## States of the examples -/

/-- A deployed module in S0 with partition 1. -/
def exOn : State :=
  { State.reset with
    fuse := { State.reset.fuse with lifecycleBits := 0b00111 }
    pwr := { state := .s0, coreLock := true, refLock := true, nEff := 0, gV := 4 }
    pin := { State.reset.pin with input := true, heartbeat := true }
    sec := { State.reset.sec with selfTest := true, parts := [(1, { state := 1, rights := 7 })] } }

/-- An established session of a class. -/
def exSession (cls : Nat) : Session := { cls := cls, part := 1, row := none, digest := [], ready := true }

/-- The module with session 1 of a class; WHL_PARTITION is 1. -/
def exSess (cls : Nat) : State :=
  { exOn with dic := { sessions := [(1, exSession cls)], nextSess := 2, vals := [(Key.whlPartition, [1])] } }

/-- A request with no data. -/
def exMsg (op index sub : Nat) : FapMsg :=
  { op := op, flags := 0, tag := 9, status := 0, index := index, sub := sub, offset := 0, count := 0, rsv := 0, data := [] }

/-- A wheel with the array image of slot 0 of vat 0, alone in chain 0 of layer 0. -/
def exImage : ArrImg :=
  { vat := 0, pool := false, slot := 0, chain := 0, position := 0, ctrl := 0xC001, perCfg := 2, perOut := 256
    inScale := 0x3F800000, outScale := 0x3F800000, chainReg := 0, sw := [], b := [], rows := [(0, 5)] }
def exWheel : Wheel :=
  { cls := 0, wheelId := List.replicate 16 0, vatMask := 1
    layers := [{ layer := 0, kind := 0, draft := false, chainFirst := 0, chainCount := 1, openK := 0, openN := 0, openFmt := 0 }]
    chains := [{ chain := 0, pair := 0xFFFF, destKind := 0, destChip := 0, destIndex := 0, members := [(0, false, 0)] }]
    arrays := [exImage], tables := [], overflow := [], digest := List.replicate 32 0, ownerKey := [] }
/-- The module with the wheel in force for partition 1, which has the first 2048 slots of vat 0. -/
def exServing : State :=
  let s := exSess 4
  { s with
    sec := { s.sec with parts := [(1, { state := 1, rights := 7, arrays := [(0, (0, 2048))] })] }
    whl := { s.whl with parts := [(1, { state := 0, epoch := 1, inForce := some exWheel })] } }
/-- Array 0 in a state of its own. -/
def exArr (a : ArrSt) : State := exServing.setArr 0 a

/-- The module with partition 1's wheel engine in a state of its own, and an operator's session. -/
def exWhl (w : WhlSt) : State :=
  { exSess 2 with
    sec := { exOn.sec with parts := [(1, { state := 1, rights := 7, arrays := [(0, (0, 2048))] })] }
    mem := { exOn.mem with regions := [⟨1, 0, 0, 1, 0, 1⟩] }
    whl := { parts := [(1, w)], heldFor := [9] } }

def exOpenWheel : Wheel :=
  { exWheel with layers := [{ layer := 0, kind := 3, draft := false, chainFirst := 0, chainCount := 1, openK := 1, openN := 1, openFmt := 0 }] }

/-! ## What the statements assume can be met: part 1 -/

theorem wit_StepRunsFrontCommand :
    ({ exOn with pending := [.thermalTrip none, .supplyLoss true] } : State).pending = .thermalTrip none :: [.supplyLoss true] := rfl
theorem wit_StepOnEmptyQueueTicks :
    State.reset.pending = [] ∧ State.reset.pwr.state = .s4 ∧ exOn.pending = [] ∧ exOn.pwr.state ≠ .s4 ∧
    step exOn = .next { exOn with time := 1, powered := 1 } := ⟨rfl, rfl, rfl, by decide, rfl⟩
theorem wit_StepKeeps :
    Memory.wf exOn.mem.bytes = true ∧ lifecycleOf exOn ≠ Lc.scrapped ∧ exOn.fuse.lifecycleBits ≠ 0 ∧
    scrapBlown { exOn with fuse := { exOn.fuse with lifecycleBits := 0b11111 } } = true ∧
    step exOn = .next (tick exOn) := ⟨rfl, by decide, by decide, by decide, rfl⟩
theorem wit_StepKeepsScrappedClosed :
    scrappedClosed { exOn with fuse := { exOn.fuse with lifecycleBits := 0b11111 } } := fun _ => rfl
def exMem (poison : List Nat) : State := { exWhl {} with mem := { (exWhl {}).mem with poison := poison } }
theorem wit_AccessPastTheSpaceIsUnmapped :
    spaceSize (exMem []) 1 0 < 2 ^ 30 + 1 ∧ spaceSize (exMem []) 1 0 = 2 ^ 30 ∧ spaceSize (exMem []) 1 1 < 0 + 1 := by decide +kernel
theorem wit_PoisonedLineStopsPartialWritesAndReads :
    (lineOf (exMem []) 1 0 64).any (fun l => linePoisoned (exMem [l]) l && lineOf (exMem [l]) 1 0 64 == some l) = true ∧
    (64, false) ∈ linesOf 100 8 ∧ (64, true) ∈ linesOf 64 64 ∧ 100 + 8 ≤ spaceSize (exMem []) 1 0 := by decide +kernel
theorem wit_WritesStoreTheirOwnBytes :
    (spaceKeys (exMem []) 1 0 (2 ^ 30 - 1) 1).length = 1 ∧ 1 ∉ spaceKeys (exMem []) 1 0 (2 ^ 30 - 1) 1 := by decide +kernel
theorem wit_WritesStoreTheirOwnBytes_read :
    Memory.wf (exMem []).mem.bytes = true ∧ 2 ^ 30 - 1 + 1 ≤ spaceSize (exMem []) 1 0 ∧
    (spaceKey (exMem []) 1 0 (2 ^ 30 - 1)).any (fun k => !(linePoisoned (exMem []) (lineKey k))) = true ∧
    (∀ l ∈ lineOf (exMem []) 1 0 ((2 ^ 30 - 1) / 64 * 64), linePoisoned (exMem []) l = false) := by decide +kernel
theorem wit_LocalCommandsStoreNothing : staysLocal .brakeRelease = true ∧
    exec .brakeRelease exOn = .next { exOn with pin := { exOn.pin with brakeLow := false }, pwr := { exOn.pwr with brakeIn := false } } :=
  ⟨rfl, rfl⟩

/-! ## What the statements assume can be met: part 2 -/

def exRead : FapMsg := { exMsg Op.read 0x1000 1 with count := 32 }
def exSelectWrite : FapMsg :=
  { exMsg Op.write (Key.errSelect / 256) (Key.errSelect % 256) with count := 8, data := [3, 0, 0, 0, 0, 0, 0, 0] }
def exIntWrite : FapMsg := { exMsg Op.write (Key.pwrCapW / 256) (Key.pwrCapW % 256) with count := 2, data := [0xE8, 0x03] }
/-- The session has taken SEQ 0. -/
def exTaken : State := (exSess 2).modSess 1 (seqAccept 0 0)

theorem wit_FapRequestsComplete_read :
    fapOpen (exSess 2) 1 0 exRead = true ∧ exRead.op = Op.read ∧
    (rowFor exTaken 1 (fapKey exRead)).any (fun r => (objOctets exTaken 1 r (fapKey exRead) 0 32).toOption.isSome) = true ∧
    readStatus exTaken 1 (fapKey exRead) 0 32 = 0 ∧
    fapKey exRead ≠ Key.secDebugChallenge ∧ fapKey exRead ≠ Key.regWinData ∧ fapKey exRead ≠ Key.regWinBulk := by decide
theorem wit_FapRequestsComplete_write :
    (∀ m ∈ [exSelectWrite, exIntWrite], fapOpen (exSess 2) 1 0 m = true ∧ m.op = Op.write ∧ m.flags = 0 ∧ m.offset = 0 ∧
      (exTaken.sessAt 1).held = none ∧
      (rowFor exTaken 1 (fapKey m)).any (fun r => r.typ != 14 && !(segmented r) && m.data.length == r.size &&
        writeDenied exTaken 1 r (fapKey m) m.data == 0 && rangeStatus exTaken (fapKey m) (leNat m.data) == 0 &&
        !(bit r.flags 1) && (writeInt exTaken 1 r (fapKey m) m.data).1 == 0) = true) ∧
    isSelect (fapKey exSelectWrite) = true := by decide
theorem wit_FapRequestsComplete_rest :
    fapOpen (exSess 2) 1 0 (exMsg Op.describe 0x1000 1) = true ∧ fapOpen (exSess 2) 1 0 (exMsg Op.next 0x1000 0) = true ∧
    fapOpen (exSess 2) 1 0 (exMsg Op.keepalive 0 0) = true ∧ fapOpen (exSess 2) 1 0 (exMsg Op.close 0 0) = true ∧
    (rowFor exTaken 1 0x100001).any (fun r => admitted r.rights (exTaken.sessAt 1).cls) = true ∧
    nextObject (exTaken.sessAt 1) 0x100000 = some 0x100000 := by decide +kernel
theorem wit_FapDropsAndRepeats :
    fapServed (exSess 2) = true ∧ sessReady (exSess 2) 7 = false ∧ seqFresh (exTaken.sessAt 1) 0 = false ∧
    sessReady exTaken 1 = true ∧ fapServed exTaken = true ∧ exRead.op = Op.read ∧
    ((fapKeep (exSess 2) 1 (respOf exRead 0 [])).sessAt 1).kept.find? (fun e => e.1 = exRead.tag) = some (9, respOf exRead 0 []) ∧
    fapServed (fapKeep (exSess 2) 1 (respOf exRead 0 [])) = true ∧ sessReady (fapKeep (exSess 2) 1 (respOf exRead 0 [])) 1 = true ∧
    seqFresh ((fapKeep (exSess 2) 1 (respOf exRead 0 [])).sessAt 1) 0 = true ∧
    seqFresh (exTaken.sessAt (BadDatagram.mk true 1 true 0 20).sess) 0 = false := by decide
/-- Session 1 after fifteen failures. -/
def exFailed : State := (exSess 2).modSess 1 (fun x => { x with authFails := 15 })
theorem wit_SixteenAuthFailuresEndASession :
    sessOpen exFailed 1 = true ∧ 15 ≤ (exFailed.sessAt 1).authFails ∧ sessOpen (exSess 2) 1 = true ∧
    ((exSess 2).sessAt 1).authFails < 15 := by decide
/-- Session 1 before FINISH. -/
def exUnfinished : State := (exSess 2).modSess 1 (fun x => { x with ready := false })
theorem wit_SessionCommandsComplete :
    fapServed (exSess 2) = true ∧ (exSess 2).dic.sessions.length < 64 ∧ (sessionFor (exSess 2) true []).isSome = true ∧
    fapServed exUnfinished = true ∧ sessOpen exUnfinished 1 = true ∧ (exUnfinished.sessAt 1).ready = false ∧
    sessReady (exSess 2) 1 = true ∧
    sessOpen { exSess 2 with time := 10 ^ 12 } 1 = true ∧
    (({ exSess 2 with time := 10 ^ 12 } : State).sessAt 1).lastMsg + cfgNat (exSess 2) Key.fapIdleS * 10 ^ 9 ≤ 10 ^ 12 ∧
    MgmtFrame.arp ≠ MgmtFrame.other := by decide

/-! ## What the statements assume can be met: part 3 -/

/-- The module with a run of an object in a scope. -/
def exBusy (k scope : Nat) : State := cmdBegin (exSess 2) k scope 1
/-- The operator's command with its argument. -/
theorem wit_CommandGateRefuses :
    (objRow Key.healthFence).any (fun r => r.size == 8 && admitted r.rights 2 && !(admitted r.rights 4) && bit r.flags 3 == false &&
      cmdScope (exSess 2) r 1 == 0) = true ∧
    sessReady (exSess 2) 1 = true ∧ sessReady (exSess 4) 1 = true ∧ ((exSess 2).sessAt 1).cls = 2 ∧ ((exSess 4).sessAt 1).cls = 4 ∧
    cmdRunning (exSess 2) Key.healthFence 0 = false ∧ cmdRunning (exBusy Key.healthFence 0) Key.healthFence 0 = true ∧
    sessReady (exBusy Key.healthFence 0) 1 = true ∧
    unitRange (exSess 2) [9, 0, 0, 0, 0, 0, 0, 0] ≠ 0 ∧ unitRange (exSess 2) [1, 0, 0, 0, 0, 0, 0, 0] = 0 ∧
    sessReady { exSess 2 with pwr := { state := .s2 } } 1 = true := by decide +kernel
theorem wit_RunningCommandIsBusy :
    (objRow Key.healthFence).any (fun r => r.size == 8 && admitted r.rights ((exBusy Key.healthFence 0).sessAt 1).cls &&
      cmdRunning (exBusy Key.healthFence 0) Key.healthFence (cmdScope (exBusy Key.healthFence 0) r 1)) = true ∧
    sessReady (exBusy Key.healthFence 0) 1 = true ∧ unitRange (exBusy Key.healthFence 0) [1, 0, 0, 0, 0, 0, 0, 0] = 0 := by decide +kernel
theorem wit_BusErrorTouchesNoRegister :
    exOn.pwr.state ≠ .s4 ∧ RegAgent.mgmt ≠ .window ∧ busStatus exOn .mgmt 0x5000000 32 ≠ 0 ∧ busStatus exOn .mgmt 0x4002 32 ≠ 0 := by
  decide +kernel
theorem wit_RegisterWriteCompletes :
    exOn.pwr.state ≠ .s4 ∧ RegAgent.mgmt ≠ .window ∧
    (∀ a ∈ [0x4008, 0x30000 + 0x100 * 5 + 0x0C, 0x100000 + 0x40 * 511, 0x400000 + 0x80 * 17407 + 0x50, 0x400000 + 0x40,
      0x800000 + 0x40 * 65535 + 0x10, 0x2000, 0x3000, 0x21000, 0x42000], busStatus exOn .mgmt a 32 = 0) ∧
    bits 0 1 0 ≠ 3 ∧ arrRegStatus exOn 0x40 2 = 0 ∧ (exOn.objAt 65535).broken = false ∧ 7 % 2 ^ 32 ≠ 0 := by decide +kernel
/-- A vendor's session at DEBUG_LEVEL SCAN, with the window at a scrubber register. -/
def exScan : State :=
  { exSess 1 with sec := { exOn.sec with debug := 3, debugUntil := 10 ^ 12 }, dic := { (exSess 1).dic with winAddr := 0x3000C } }
theorem wit_WindowDefaultsAndTelemetryComplete :
    sessReady exScan 1 = true ∧ (locate exScan.dic.winAddr).any (fun r => r.blk != .sec) = true ∧ winAdmits exScan 1 = true ∧
    busStatus exScan .window exScan.dic.winAddr 32 = 0 ∧ exScan.sec.debug = 3 ∧
    sessReady (exSess 1) 1 = true ∧ (exSess 1).sec.debug ≠ 3 ∧ (locate (exSess 1).dic.winAddr).isNone = true ∧
    sessReady { exScan with dic := { exScan.dic with winAddr := 0x8000 } } 1 = true ∧
    (locate 0x8000).any (fun r => r.blk == .sec) = true ∧
    sessReady (exSess 2) 1 = true ∧ winAdmits (exSess 2) 1 = false := by decide +kernel
theorem wit_WindowDefaultsAndTelemetryComplete_telemetry :
    cmdReady (exSess 2) 1 Key.cfgDefaults [1] = true ∧ leNat [1] = 1 ∧ exOn.pwr.state ≠ .s4 ∧
    1000000 = (exOn.time / 1000000 + 1) * 1000000 ∧ 1000000 % 10000000 ≠ 0 ∧
    10000000 = (({ exOn with time := 9500000 } : State).time / 1000000 + 1) * 1000000 := by decide +kernel

/-! ## What the statements assume can be met: part 4 -/

theorem wit_SlotsAndSparesAtFirstBoot : vatPresent State.reset 0 = true ∧ vatPresent State.reset 7 = true := by decide
/-- An array of INT4 weights and INT8 inputs with two rows in use: output 1 holds −2 in row 0 and 7 in row 1. -/
def exInt4 : ArrSt := { ctrl := 0x0021, rows := [(0, 0xE0), (1, 0x70)] }
theorem wit_ArrayComputesItsProduct :
    rowsUsed exInt4 = 2 ∧ outputsOf (wFmt exInt4) = 256 ∧ planesOf exInt4 = 8 ∧ livePlanes exInt4 [5, -3] ≠ [] ∧
    productOf exInt4 [5, -3] 1 = 5 * -2 + -3 * 7 ∧ storedWeight exInt4 0 1 = -2 := by decide +kernel
def exProduct : Product := { tag := 1, sx := 0x3F800000, q := [], nonfinite := false, acceptedAt := 0, todo := [3], acc := [0] }
def exPartial : Partial :=
  { tag := 1, sx := 0x3F800000, sums := [0], sat := false, split := false, tol := false, nonfinite := false, tagConflict := false
    sxConflict := false, void := false, at_ := 0 }
def exRecord : Octets := [0, 0, 0, 0, 3, 0, 0, 0, 0, 0, 0x80, 0x3F, 0, 0, 0, 0]
def exReady : ArrSt := { ctrl := 1, awake := true, granted := true, products := [exProduct] }
def exIn : State := exArr { ctrl := 1 }
theorem wit_InputRecordCompletes :
    exIn.pwr.state = .s0 ∧ vatPresent exIn 0 = true ∧ vatFenced exIn 0 = false ∧ (exIn.vatAt 0).noTarget.contains 0 = false ∧
    (exIn.vatAt 0).remaps.any (fun r => r.slot = 0) = false ∧
    recordCheck (exIn.arrAt (physOf exIn 0 0)) (slotNamed exIn 0 0) exRecord = 0 ∧
    recordCheck (exIn.arrAt (physOf exIn 0 0)) (slotNamed exIn 0 0) [] ≠ 0 ∧ vatPresent exIn 8 = false := by decide +kernel
def exLate (a : ArrSt) : State := { exArr a with time := 1000000 }
theorem wit_PassesLaunch :
    running (exLate exReady) = true ∧ ((exLate { waking := some 5 }).arrAt 0).waking = some 5 ∧
    5 + 40 ≤ (exLate { waking := some 5 }).time ∧ ((exLate { waking := some 5 }).arrAt 0).fenced = false ∧
    running (exLate { waking := some 5 }) = true ∧ vatFenced (exLate exReady) 0 = false ∧
    ((exOn.setVat 0 { asking := [0] }).vatAt 0).asking = [0] ∧
    ((exOn.setVat 0 { asking := [0] }).vatAt 0).grants.length < exOn.pwr.gV ∧ running exOn = true ∧
    planeReady ((exLate exReady).arrAt 0) = some (0, 3) ∧ canLaunch (exLate exReady) 0 = true ∧
    ((exLate exReady).arrAt 0).products[0]? = some exProduct ∧ exProduct.acceptedAt + 2 ≤ 1000000 ∧
    splitReady { exReady with products := [{ exProduct with voids := [(3, 0)] }] } = some (0, 3, 0) ∧
    canLaunch (exLate { exReady with products := [{ exProduct with voids := [(3, 0)] }] }) 0 = true := by decide +kernel
def exFlying : ArrSt := { exReady with products := [{ exProduct with inFlight := [⟨3, false, 0⟩] }] }
theorem wit_PassCountsComplete :
    oldestInFlight ((exLate exFlying).arrAt 0) = some (0, { exProduct with inFlight := [⟨3, false, 0⟩] }, ⟨3, false, 0⟩) ∧
    ((exLate exFlying).arrAt 0).fenced = false ∧ running (exLate exFlying) = true ∧ 0 + 4 ≤ (exLate exFlying).time ∧
    firstOver (passReports exFlying [] 3 0 [⟨0, 0, 0, none⟩]) = some (0, 0) := by decide +kernel
theorem exFlying_counts : countsOf (passReports exFlying [] 3 0 []) = List.replicate 8 (List.replicate 1136 0) := by decide +kernel
theorem wit_PassCountsComplete_folded :
    firstOver (passReports exFlying [] 3 0 []) = none ∧
    (evaluate 2 3 0 exFlying (countsOf (passReports exFlying [] 3 0 []))).raised = none := by
  refine ⟨by decide +kernel, ?_⟩
  rw [evaluate_raised, exFlying_counts, mismatches_zero]
  rfl
theorem wit_PassCountsComplete_raised :
    firstOver (passReports exFlying [] 3 0 [⟨0, 0, 0, some 3⟩]) = none ∧
    (evaluate 2 3 0 exFlying (countsOf (passReports exFlying [] 3 0 [⟨0, 0, 0, some 3⟩]))).raised = some (0, 0, 3) := by
  refine ⟨by decide +kernel, ?_⟩
  rw [evaluate_raised]
  decide +kernel
def exDone : Product := { exProduct with todo := [], final := true }
def exMember : ArrSt := { exReady with chain := 0x8000, products := [exDone], inbox := [exPartial] }
def exTail : ArrSt := { exReady with products := [{ exDone with chained := some exPartial }] }
def exPair (tag : Nat) (role : Word) : ArrSt :=
  { exReady with perCfg := 2 ||| role, products := [{ exDone with chained := some { exPartial with tag := tag } }] }
theorem wit_ProductsCompose :
    ((exLate exMember).arrAt 0).inbox = [exPartial] ∧ firstUnchained exMember.products = some (0, exDone) ∧
    hasPrev exMember = true ∧ exDone.final = true ∧ exMember.fenced = false ∧
    max (ownReady exDone) (exPartial.at_ + hopTime exMember (prevMember (exLate exMember) 0) 0) ≤ (exLate exMember).time ∧
    ((exLate exTail).arrAt 0).products.head? = some { exDone with chained := some exPartial } ∧ hasNext exTail = false ∧
    pairRole exTail = 0 ∧ exTail.stuck = none ∧ running (exLate exTail) = true ∧
    exPartial.at_ + releaseDelay exTail ≤ (exLate exTail).time ∧
    (recordOf (exLate exTail) 0 { exDone with chained := some exPartial } exPartial).isSome = true ∧
    pairRole (exPair 1 0x40000) = 1 ∧ hasNext (exPair 1 0x40000) = false ∧
    pairReason { exPartial with tag := 1 } { exPartial with tag := 2 } ≠ 0 ∧
    gateEn { exReady with ctrl := 0xC001, products := [] } = true ∧
    0 + cfgNat (exLate exReady) Key.arrIdleHoldNs ≤ (exLate exReady).time := by decide +kernel
/-- Vat 0 in a calibration run of one mode. -/
def exCal (mode : Nat) : State := { exOn.setVat 0 { calState := 1, calMode := mode } with time := 1000000 }
theorem wit_CalibrationCompletes :
    cmdReady (exSess 2) 1 Key.arrCalStart [1, 1, 0, 0] = true ∧ calArgStatus (exSess 2) [1, 1, 0, 0] = 0 ∧
    (bitsOf (bits (leNat [1, 1, 0, 0]) 7 0) 8).any (vatFenced (exSess 2)) = false ∧
    (bitsOf (bits (leNat [1, 1, 0, 0]) 7 0) 8).any (fun v => ((exSess 2).vatAt v).calState = 1) = false ∧
    bit (leNat [1, 1, 0, 0]) 8 = true ∧ busStatus exOn (.vat 0) (0x20000 + 0 * 0x100) 32 = 0 ∧ bit 2 0 = false ∧
    bit 3 0 = true ∧ bit 3 1 = true ∧ ((exOn.modVat 0 (fun t => { t with calMode := 1 })).vatAt 0).calState ≠ 1 ∧
    vatFenced (exOn.modVat 0 (fun t => { t with calMode := 1 })) 0 = false ∧
    arrPresent (exCal 0) 2175 = true ∧ measuring (exCal 0) 2175 = true ∧ tapsAgree ⟨32, 8⟩ ⟨33, 8⟩ = true ∧
    tapsAgree ⟨32, 8⟩ ⟨34, 8⟩ = false ∧ vatPresent (exCal 1) 0 = true ∧ ((exCal 1).vatAt 0).calState = 1 ∧
    refAccepted ((exCal 1).vatAt 0).ref0 ⟨36, 4⟩ = true ∧ refAccepted ((exCal 1).vatAt 0).ref1 ⟨28, 12⟩ = true ∧
    ((exCal 1).vatAt 0).calMode = 1 ∧ ((exCal 1).vatAt 0).calCmd = false ∧
    (listedIn (exCal 1) 0).any (fun n => ((exCal 1).arrAt n).calDue && !((exCal 1).arrAt n).fenced) = false ∧
    drifted (exLate { driftTol := 1000000 }) 0 = true ∧ arrPresent (exLate {}) 0 = true ∧
    ((exLate { calActive := true }).arrAt 0).calActive = true ∧ running (exLate { calActive := true }) = true ∧
    arrIdle20 (exLate { calDue := true }) 0 = true ∧ testedIn (exLate { calDue := true }) 0 < 136 ∧
    ((exLate { calDue := true }).arrAt 0).idleSince + 20000 ≤ (exLate { calDue := true }).time := by decide +kernel
/-- Partition 1 owns table slots 0 to 7 of vat 0. -/
def exTables : State := { exSess 4 with sec := { exOn.sec with parts := [(1, { state := 1, rights := 7, tables := [(0, 255)] })] } }
theorem wit_CalibrationCompletes_table :
    cmdReady exTables 1 Key.perTableLoad [0x10, 0, 0, 0] = true ∧ tableLoadRange exTables [0x10, 0, 0, 0] = 0 ∧
    tableLoadStatus exTables (sessPart exTables 1) [0x10, 0, 0, 0] = 0 := by decide +kernel

/-! ## What the statements assume can be met: part 5 -/

/-- The 64-octet open-weight descriptor of a 1 by 1 matrix at offset 0x100, stored at offset 0. -/
def exOpen : State :=
  let s := exWhl { inForce := some exOpenWheel }
  { s with dic := (exSess 4).dic, mem := { s.mem with bytes := [(1, 1), (20, 1), (24, 1)] } }
/-- The 36 octets of WHL_ARM: four addresses of zero and epoch 5. -/
def exArming : Octets := List.replicate 32 0 ++ [5, 0, 0, 0]
theorem wit_WheelCommandsComplete :
    sessPart (exWhl {}) 1 ≠ 0 ∧ cmdReady (exWhl {}) 1 Key.whlStage [0, 1, 0, 0, 0, 0, 0, 0] = true ∧ chanCount (exWhl {}) 7 < 16 ∧
    (pickSlot (exWhl {})).isSome = true ∧ hasCave (exWhl {}) = true ∧ (freeCave (exWhl {})).isSome = true ∧
    cmdReady { exWhl {} with fuse := { exOn.fuse with variant := 2 } } 1 Key.whlStage [0, 1, 0, 0, 0, 0, 0, 0] = true ∧
    hasCave { exWhl {} with fuse := { exOn.fuse with variant := 2 } } = false ∧
    cmdReady (exWhl { state := 1 }) 1 Key.whlVerify [1] = true ∧ ((exWhl { state := 1 }).whlAt 1).state = 1 ∧
    cmdReady (exWhl { state := 2, pending := some exWheel }) 1 Key.whlPlace [1, 0, 0, 0] = true ∧
    cmdReady (exWhl { state := 2, pending := some exWheel }) 1 Key.whlPlace [0, 0, 0, 0] = true ∧
    (placeAll (exWhl { state := 2, pending := some exWheel }) 1 exWheel.digest
      (changedImages { state := 2, pending := some exWheel })).isSome = true ∧
    cmdReady (exWhl { state := 4, pending := some exWheel }) 1 Key.whlArm exArming = true ∧
    armStatus (exWhl { state := 4, pending := some exWheel }) 1 (armingOf exArming) = 0 ∧
    cmdReady (exWhl { state := 4, pending := some exWheel }) 1 Key.whlCancel [1] = true := by decide +kernel
theorem wit_WheelCommandsComplete_open :
    sessPart exOpen 1 = 1 ∧ cmdReady exOpen 1 Key.openWrite [0, 0, 0, 0, 0, 0, 0, 0] = true ∧ bit (exOpen.partAt 1).rights 0 = true ∧
    (exOpen.whlAt 1).state = 0 ∧ openBase (exOpen.whlAt 1) = some exOpenWheel ∧
    (openBuild exOpen 1 exOpenWheel 0).toOption.isSome = true ∧ (openCave exOpen 1).isSome = true := by decide +kernel
def exHolder (w : WhlSt) : State :=
  let s := exWhl w
  { s with dic := { s.dic with vals := tput [] s.dic.vals Key.whlReplicaHolder0 [7, 0] } }
theorem wit_ReplicasComplete :
    (exWhl {}).pwr.state = .s0 ∧ ([1] : Octets) ≠ [] ∧ hasCave (exWhl {}) = true ∧ (replicaSlot (exWhl {}) 9 1).isSome = true ∧
    (exWhl {}).whl.heldFor.contains 9 = true ∧ hasCave { exWhl {} with fuse := { exOn.fuse with variant := 2 } } = false ∧
    0 < ((exHolder { acks := [none, none] }).whlAt 1).acks.length ∧ (holders (exHolder { acks := [none, none] })).getD 0 0 ≠ 0 ∧
    running (exWhl { state := 9, pending := some exWheel }) = true ∧
    ((exWhl { state := 9, pending := some exWheel }).whlAt 1).state = 9 ∧
    ((exWhl { state := 9, pending := some exWheel }).whlAt 1).pending = some exWheel ∧
    ((exWhl { state := 1, verifying := true }).whlAt 1).verifying = true := by decide +kernel
def exProg (row tries : Nat) : State := exArr { granted := true, prog := some (row, tries, exImage, 1) }
theorem wit_ProgrammingCompletes :
    ((exProg 0 0).arrAt 0).prog = some (0, 0, exImage, 1) ∧ running (exProg 0 0) = true ∧ ((exProg 0 0).arrAt 0).granted = true ∧
    ((exProg 0 0).arrAt 0).fenced = false ∧ vatFenced (exProg 0 0) 0 = false ∧ bayBusy (exProg 0 0) 0 = false ∧
    ((exProg 1023 3).arrAt 0).prog = some (1023, 3, exImage, 1) ∧ running (exProg 1023 3) = true ∧
    ((exProg 1023 3).arrAt 0).granted = true ∧
    ((exProg 1024 0).arrAt 0).prog = some (1024, 0, exImage, 1) ∧ running (exProg 1024 0) = true := by decide +kernel
/-- Partition 1 in the hold of a swap that signals sync object 0, which it owns. -/
def exSwap (w : WhlSt) : State :=
  let s := exWhl { w with pending := some exWheel, arming := some ⟨0x040000000000, 0x040000000000, 0x040000000000, 0x040000000000, 5⟩ }
  { s with time := 10 ^ 9, syn := { s.syn with objs := [(0, { alloc := true, owner := 1, c := 1 })] } }
theorem wit_SwapCompletes :
    ((exSwap { state := 6 }).whlAt 1).arming.isSome = true ∧ running (exSwap { state := 6 }) = true ∧
    mgmtFenced (exSwap { state := 6 }) = true ∧ decisionIs (exSwap { state := 6, arrived := true }) 1 0x040000000000 1 = true ∧
    decisionIs { exSwap { state := 6, arrived := true } with syn := { objs := [(0, { alloc := true, owner := 1, c := 2 })] } }
      1 0x040000000000 2 = true ∧
    decisionIs (exSwap { state := 8, arrived := true }) 1 0x040000000000 1 = true ∧
    decisionIs { exSwap { state := 8, arrived := true } with syn := { objs := [(0, { alloc := true, owner := 1, c := 2 })] } }
      1 0x040000000000 2 = true ∧
    ((exSwap { state := 6, holdSince := some 0 }).whlAt 1).holdSince = some 0 ∧
    0 + cfgP (exSwap { state := 6, holdSince := some 0 }) 1 Key.swapHoldAlarmMs * 1000000 ≤ 10 ^ 9 ∧
    ((exSwap { state := 8 }).whlAt 1).toReady = [] ∧ ((exSwap { state := 8, rollback := true }).whlAt 1).rollback = true ∧
    ((exSwap { state := 8, rollback := true, abortSeen := true }).whlAt 1).abortSeen = true := by decide +kernel
def exOverflowWheel : Wheel :=
  { exWheel with layers := [{ layer := 3, kind := 2, draft := false, chainFirst := 5, chainCount := 1, openK := 0, openN := 0, openFmt := 0 }] }
def exOverflow : State :=
  let s := exWhl { inForce := some exOverflowWheel }
  { s with srv := { s.srv with inStep := true }, whl := { s.whl with cave := [(0, .active 1)] } }
theorem wit_OverflowAndRetentionComplete :
    (exOverflow.whlAt 1).inForce = some exOverflowWheel ∧
    (exOverflowWheel.layers.find? (fun z => z.layer = 3 && z.kind = 2)).isSome = true ∧ exOverflow.srv.inStep = true ∧
    running exOverflow = true ∧ (exOverflow.whlAt 1).poolDone.contains 3 = false ∧ caveHas exOverflow (.active 1) = true ∧
    (exOverflowWheel.layers.all (fun y => (layersOut exOverflow 1 exOverflowWheel y).all (layerIdle exOverflow 1 exOverflowWheel))) = true ∧
    arrPresent exOn 17407 = true ∧ exOn.pwr.state ≠ .s4 := by decide +kernel

/-! ## What the statements assume can be met: part 6 -/

def exTask (op : Nat) : Task :=
  { key := 1, part := 1, opcode := op, flags := 0, pool := 0, scratchKib := 192, waitObj := 0, waitValue := 0, doneObj := 0
    argPtr := 0, argLen := 64, taskId := 7, step := 0, inbuf := 0, consume := 0, vat := 0 }
/-- Engine 0 of partition 1, with octets stored from offset 0 of the partition's tier A space. -/
def exEng (e : EngSt) (bytes : List Host.Cell) : State :=
  let s := exWhl {}
  { (s.setEng 0 { e with part := 1 }) with mem := { s.mem with bytes := bytes } }
def exSeqD : SeqD :=
  { part := 1, fmt := 0, headDim := 64, layers := 1, heads := 1, maxLen := 64, len := 1, gen := 0, base := 65536
    regionBytes := 1048576, epoch := 0 }
def exTable : EmbD :=
  { part := 1, home := 1, fmt := 0, promote := false, dim := 1, stride := 64, scale := 0x3F800000, rows := 1, base := 0, bytes := 64 }
def exRunning (op argLen : Nat) : Running :=
  { task := { exTask op with argLen := argLen }, start := 0, seqs := [(0, some exSeqD)], tables := [(0, some exTable)] }
/-- Engine 0 runs a task. -/
def exRun (op argLen : Nat) (bytes : List Host.Cell) : State :=
  exEng { awake := true, run := some (exRunning op argLen) } bytes
def exGemm : List Host.Cell := [(17, 1), (24, 1), (28, 1), (32, 1), (36, 2), (37, 3), (42, 0x80), (43, 0x3F), (46, 0x80), (47, 0x3F), (48, 1), (52, 1), (56, 1)]

def exBase (op argLen : Nat) (bytes : List Host.Cell) : State := kernelBase (exRun op argLen bytes) 0 10 (exRunning op argLen)
def exNorm : List Host.Cell := [(9, 1), (32, 1), (36, 1)]
def exShard : List Host.Cell := [(0, 1), (2, 1), (8, 1), (25, 0x10), (41, 0x20), (0x1008, 1)]
def exVerify : List Host.Cell := [(2, 1), (18, 1), (25, 0x10), (34, 2), (42, 3), (0x1008, 1)]
def exAttn : List Host.Cell := [(6, 1), (12, 1), (17, 0x10), (25, 0x20), (34, 0x80), (35, 0x3F)]
def exAppend : List Host.Cell := [(6, 1), (8, 1), (12, 1), (17, 0x10), (25, 0x20)]
def exGather : List Host.Cell := [(0, 1), (2, 1), (4, 1), (8, 1), (17, 0x10), (24, 4), (30, 0x80), (31, 0x3F), (73, 0x20), (81, 0x30)]

def exOpenRun : State :=
  let s := exRun 0x30 64 [(1, 1), (20, 1), (24, 1)]
  { s with whl := { s.whl with parts := [(1, { state := 4, pending := some exOpenWheel })] } }
theorem wit_KernelsComplete :
    ∀ op ∈ [0x40, 0x41, 1, 2, 3, 0x10, 0x20, 0x21, 0x30, 0x4000], ((exRun op 64 []).engAt 0).run = some (exRunning op 64) ∧
      running (exRun op 64 []) = true ∧ ((exRun op 64 []).engAt 0).fenced = false ∧ (exRunning op 64).task.role = 0 ∧
      (exRunning op 64).task.opcode = op := by decide +kernel
theorem wit_KernelsComplete_matrix :
    kernelStands (exRunning 0x40 64) (gemm (exBase 0x40 64 exGemm) (exRunning 0x40 64)) = true ∧
    kernelStands (exRunning 0x41 48) (norm (exBase 0x41 48 exNorm) (exRunning 0x41 48)) = true ∧
    kernelStands (exRunning 0x30 64) (openQuant (kernelBase exOpenRun 0 10 (exRunning 0x30 64)) (exRunning 0x30 64)) = true := by
  decide +kernel
theorem wit_KernelsComplete_attention :
    kernelStands (exRunning 1 64) (attention 16 (exBase 1 64 exAttn) (exRunning 1 64)) = true ∧
    kernelStands (exRunning 2 64) (attention 4096 (exBase 2 64 exAttn) (exRunning 2 64)) = true ∧
    kernelStands (exRunning 3 48) (kvAppend (exBase 3 48 exAppend) (exRunning 3 48)) = true ∧
    appendBefore (exRun 3 48 exAppend) 0 = false := by decide +kernel
theorem wit_KernelsComplete_serving :
    kernelStands (exRunning 0x10 96) (gatherPool (exBase 0x10 96 exGather) (exRunning 0x10 96)) = true ∧
    kernelStands (exRunning 0x20 64) (sample (exBase 0x20 64 exShard) (exRunning 0x20 64)) = true ∧
    kernelStands (exRunning 0x21 64) (specVerify (exBase 0x21 64 exVerify) (exRunning 0x21 64)) = true := by decide +kernel
def exDesc (op : Nat) : Octets := natLe 2 op ++ List.replicate 62 0
def exQueue : EngSt := { awake := true, queue := [exTask 0x40] }
def exTwo : State := (exEng exQueue []).setEng 1 { awake := true, part := 1 }
def exThief : State := ((exEng {} []).setEng 1 { awake := true, part := 1, queue := [exTask 0x40, exTask 0x41] }).setEng 0 { awake := true, part := 1 }
def exBufArg : Octets := [0, 0, 64, 0, 1, 0, 0, 0] ++ List.replicate 24 0
theorem wit_TaskPostCompletes :
    (exEng {} []).pwr.state = .s0 ∧ (exDesc 0x40).length = 64 ∧ descCheck (exEng {} []) (.partition 1) (exDesc 0x40) = 0 ∧
    placeFor (exEng {} []) (posterPart (.partition 1)) (descTarget (exDesc 0x40)) (taskOf (exDesc 0x40) 1).pool = some 0 ∧
    descCheck (exEng {} []) (.partition 1) (exDesc 0x99) ≠ 0 := by decide +kernel
def exIdle : State := { exEng { awake := true } [] with time := 10 ^ 6 }
theorem wit_EnginesSchedule :
    (nextTask exTwo 0).any (fun q => q.2.role == 0 && dualEligible exTwo q.2 && (copyEngine exTwo 0 q.2 [0]).isSome) = true ∧
    engineReady exTwo 0 = true ∧ selected exTwo 0 false = false ∧ selected exTwo 0 true = true ∧
    running (exEng { queue := [exTask 0x40] } []) = true ∧ engPresent (exEng { queue := [exTask 0x40] } []) 0 = true ∧
    ((exEng { queue := [exTask 0x40] } []).engAt 0).awake = false ∧ ((exEng { queue := [exTask 0x40] } []).engAt 0).queue ≠ [] ∧
    (exIdle.engAt 0).awake = true ∧ (exIdle.engAt 0).gateEn = true ∧ (exIdle.engAt 0).queue = [] ∧ (exIdle.engAt 0).run = none ∧
    (exIdle.engAt 0).idleSince + cfgNat exIdle Key.veIdleHoldNs ≤ exIdle.time ∧
    engineReady exThief 0 = true ∧ (exThief.engAt 0).stealEn = true ∧ (exThief.engAt 0).claim = none ∧ nextTask exThief 0 = none ∧
    (chooseVictim exThief 0).isSome = true ∧
    engineReady (exThief.modEng 0 (fun e => { e with claim := some (.queue 1) })) 0 = true ∧
    (claimed (exThief.modEng 0 (fun e => { e with claim := some (.queue 1) })) 0 (.queue 1)).isSome = true := by decide +kernel
/-- A dual execution with its signatures. -/
def exDual (b : Nat) (third : Bool) (c : Option Nat) : State :=
  let s := exEng {} []
  { s with eng := { s.eng with duals := [{ task := exTask 0x40, primary := 0, secondary := some 1, third := some 2
                                           sig1 := some 5, sig2 := some b, sig3 := c, thirdPlaced := third }] } }
theorem wit_DualCompareCompletes :
    (∀ s ∈ [exDual 5 false none, exDual 6 false none, exDual 6 true (some 5), exDual 6 true (some 6), exDual 6 true (some 7)],
      (dualOf s 1).any (fun d => d.sig1 == some 5 && d.sig2.isSome && d.secondary == some 1) = true) ∧
    (dualOf (exDual 6 false none) 1).any (fun d => d.sig2 == some 6 && !d.thirdPlaced) = true ∧
    (dualOf (exDual 6 true (some 7)) 1).any (fun d => d.sig3 == some 7 && d.third == some 2 && d.thirdPlaced) = true := by
  decide +kernel
def exBuf (w : Nat) : State :=
  let s := exWhl {}
  { s with eng := { s.eng with bufs := [(0, { part := 1, slotBytes := 64, slots := 1, base := 0, obj := 0, w := w })] } }
def exRecord0 : Octets := List.replicate 16 0
def exStuck : State := { exBuf 0 with arr := [(0, { stuck := some (1, 0, exRecord0) })] }
theorem wit_InputBuffersComplete :
    cmdReady { exWhl {} with dic := (exSess 4).dic } 1 Key.veInbufSet exBufArg = true ∧
    inbufStatus { exWhl {} with dic := (exSess 4).dic } (sessPart { exWhl {} with dic := (exSess 4).dic } 1) exBufArg = 0 ∧
    (exBuf 0).pwr.state = .s0 ∧ vatPresent (exBuf 0) (0 / 512) = true ∧ (inbufOf (exBuf 0) 1 0).any (fun x => x.w < x.r + x.slots) = true ∧
    (pad64 exRecord0).length ≤ 64 ∧ (inbufOf (exBuf 1) 1 0).any (fun x => x.r + x.slots ≤ x.w) = true ∧
    ((exBuf 1).arrAt 0).stuck = none ∧ 64 < (pad64 (List.replicate 65 (0 : Byte))).length ∧
    exStuck.arr = [(0, { stuck := some (1, 0, exRecord0) })] ∧ (inbufOf exStuck 1 0).any (fun x => x.w < x.r + x.slots) = true := by
  decide +kernel
theorem wit_EngineUpsetsFence :
    ((exRun 0x40 64 []).engAt 0).run = some (exRunning 0x40 64) ∧ running (exRun 0x40 64 []) = true ∧
    ((exRun 0x40 64 []).engAt 0).fenced = false ∧ (exRunning 0x40 64).task.opcode = 0x40 := by decide +kernel
/-- A partition session, table 0 of the partition with the hot region of ways running. -/
def exEmb : State :=
  let s := exWhl {}
  { s with
    dic := (exSess 4).dic
    mem := { s.mem with regions := [⟨1, 0, 0, 1, 0, 1⟩, ⟨1, 1, 0, 1, 0, 1⟩] }
    emb := { s.emb with
      tables := [(0, some { exTable with home := 0, promote := true })], runs := [(1, (0, 16))], decay := [(1, 10 ^ 9)]
      dir := [(0, some { part := 1, table := 0, row := 0, valid := false, age := 3, pinned := false, copy := 0, since := 0 }),
        (1, some { part := 1, table := 0, row := 0, valid := false, age := 3, pinned := false, copy := 1, since := 0 })] } }
/-- Sequence 5 of 64 positions, at offset 0. -/
def exEditArg : Octets :=
  [1, 0, 0, 0, 0, 0, 0, 0] ++ [5, 0, 0, 0, 0, 0, 64, 0, 1, 0, 1, 0, 64, 0, 0, 0] ++ List.replicate 16 0 ++ [0, 0, 16, 0] ++ List.replicate 28 0
/-- Table 7 of one row of one element, at offset 0 of the tier A space. -/
def exTableArg : Octets :=
  [1, 0, 0, 0, 0, 0, 0, 0] ++ [7, 0, 0, 0, 1, 0, 0, 0, 1, 0, 64, 0, 0, 0, 0x80, 0x3F, 1, 0, 0, 0] ++ List.replicate 12 0 ++ [64] ++ List.replicate 31 0
def exInvalArg : Octets := List.replicate 16 0 ++ [1, 0, 0, 0, 0, 0, 0, 0]
def exPinArg : Octets := [0, 0, 2] ++ List.replicate 13 0
theorem wit_SequencesAndTablesComplete :
    sessPart exEmb 1 = 1 ∧
    cmdReady exEmb 1 Key.seqEdit exEditArg = true ∧ seqEditRange exEmb exEditArg = 0 ∧ editStatus exEmb (plannedSeqs exEmb) 1 exEditArg = 0 ∧
    cmdReady exEmb 1 Key.embTableEdit exTableArg = true ∧ embEditRange exEmb exTableArg = 0 ∧
    embEditStatus exEmb (plannedTables exEmb) 1 exTableArg = 0 ∧
    cmdReady exEmb 1 Key.embInvalidate exInvalArg = true ∧ invalStatus (plannedTables exEmb) 1 exInvalArg = 0 ∧
    cmdReady exEmb 1 Key.embPin exPinArg = true ∧ pinRange exEmb exPinArg = 0 ∧ pinStatus exEmb (plannedTables exEmb) 1 exPinArg = 0 ∧
    (dirAt exEmb (dirKey 0 0)).any (fun e => !e.valid && e.copy == 0 && !(gatherBefore exEmb e.since)) = true ∧ running exEmb = true ∧
    (dirAt exEmb (dirKey 0 1)).any (fun e => !e.valid && e.copy == 1 && (embTableAt exEmb e.table).any (fun d =>
      (memRead exEmb e.part 1 (d.base + e.row * d.stride) d.stride).toOption.any (fun b =>
        (memWrite exEmb e.part 0 (hotSlot exEmb e.part 0 1) b).1 == 0))) = true ∧
    cfgP exEmb 1 Key.embDecaySteps ≤ tget 0 exEmb.emb.decay 1 ∧ (runOf exEmb 1).2 ≠ 0 := by decide +kernel

/-! ## What the statements assume can be met: part 7 -/

/-- Partition 1 with a request channel in slot 0 on queue pair 1, three counters and sequence 5; the module leads. -/
def exReqChan : ReqChan :=
  { subBase := 0, subSlots := 4, cqSlots := 4, posted := 0x040000000000, consumed := 0x040000000100, credit := 0x040000000200
    qp := 0x20010001, rkey := 0, cqAddr := 0, vat := 0 }
def exQp : QpSt := { port := 20, pmtu := 4096, remoteQpn := 1, sqPsn := 0, rqPsn := 0, remoteAddr := [], rkey := 0 }
def exSeq : SeqD :=
  { part := 1, fmt := 0, headDim := 64, layers := 1, heads := 1, maxLen := 64, len := 0, gen := 1, base := 0x100000
    regionBytes := 0x10000, epoch := 0 }
/-- The same, with an entry posted: its octets stand at offset 0 of the partition's tier A space. -/
def exLead (role posted : Nat) (entry : Octets) : State :=
  let s := exWhl {}
  { s with
    dic := { (exSess 4).dic with vals := [(Key.whlPartition, [1]), (Key.srvRole, [BitVec.ofNat 8 role]),
      (Key.srvGroupTable, [1, 0, 2, 0])] }
    kv := { s.kv with seqs := [(5, some exSeq)] }
    mem := { s.mem with bytes := (entry.zipIdx.map (fun q => (q.2, q.1))).filter (fun q => q.2 != 0) }
    syn := { s.syn with
      objs := [(0, { alloc := true, owner := 1, c := BitVec.ofNat 64 posted }), (1, { alloc := true, owner := 1 }),
        (2, { alloc := true, owner := 1 })]
      slots := [(0, { part := 1, chan := some (.req exReqChan) }), (1, { part := 1, chan := some (.qp exQp) })] } }
/-- The same with no channel but the queue pair. -/
def exNoChan : State :=
  let s := exLead 1 0 []
  { s with syn := { s.syn with slots := [(1, { part := 1, chan := some (.qp exQp) })] } }
def exChanArg (auto : Byte) : Octets :=
  natLe 8 0 ++ natLe 4 4 ++ natLe 4 4 ++ natLe 8 0x040000000000 ++ natLe 8 0x040000000100 ++ natLe 8 0x040000000200 ++
  natLe 4 0x20010001 ++ natLe 4 0 ++ natLe 8 0 ++ [0, auto] ++ List.replicate 6 0
theorem wit_RequestChannelsComplete :
    (∀ a ∈ [0, 1], cmdReady exNoChan 1 Key.reqChanOpen (exChanArg a) = true ∧
      reqOpenStatus exNoChan (sessPart exNoChan 1) (exChanArg a) = 0) ∧ (pickSlot exNoChan).isSome = true ∧
    bit (fld (exChanArg 0) 57 1) 0 = false ∧ bit (fld (exChanArg 1) 57 1) 0 = true ∧
    cmdReady (exLead 1 0 []) 1 Key.reqChanClose (natLe 4 0x10010000) = true ∧
    (reqChanAt (exLead 1 0 []) (leNat (natLe 4 0x10010000))).any (fun x => x.1 == sessPart (exLead 1 0 []) 1) = true ∧
    vatServing (exLead 1 0 []) (homeOf (exLead 1 0 []) 0x10010000) = true ∧
    (qpAt (exLead 1 0 []) 0x20010001).isSome = true := by decide +kernel
/-- An entry: its kind, its REQ_ID 7, sequence 5, 1 context token at offset 0x2000, at most 4 new tokens. -/
def exEntry (op : Byte) : Octets :=
  if op = 2 then [2] ++ List.replicate 7 0 ++ natLe 8 7 ++ List.replicate 112 0
  else [op, 0] ++ natLe 2 5 ++ List.replicate 4 0 ++ natLe 8 7 ++ natLe 8 0x2000 ++ natLe 4 1 ++ natLe 4 4 ++ List.replicate 96 0
def exEntryBad : Octets := [2, 1] ++ List.replicate 126 0
def exUsed (op : Byte) : State :=
  let s := exLead 1 1 (exEntry op)
  { s with srv := { s.srv with reqs := [{ (reqOf 1 0x10010000 0 (exEntry 1) []) with state := .decode }] } }
theorem wit_RequestEntriesComplete_a :
    (∀ e ∈ [exEntry 1, exEntry 2, exEntry 3, exEntryBad],
      (nextEntry (exLead 1 1 e) 0x10010000).any (fun x => x.2.2.2.toOption == some e) = true) ∧
    fld (exEntry 1) 0 1 = 1 ∧ fld (exEntry 3) 0 1 = 3 ∧ fld (exEntry 2) 0 1 = 2 ∧ fld exEntryBad 0 1 = 2 ∧
    zeroAt (exEntry 2) 1 7 = true ∧ zeroAt (exEntry 2) 16 112 = true ∧ (zeroAt exEntryBad 1 7 && zeroAt exEntryBad 16 112) = false := by
  decide +kernel
theorem wit_RequestEntriesComplete_b :
    submitFormatOk (exEntry 1) (stopBlock (forgetEnded (entryRead (exLead 1 1 (exEntry 1)) 0x10010000 exReqChan) 0x10010000) 1 (exEntry 1)) = true ∧
    (forgetEnded (entryRead (exLead 1 1 (exEntry 1)) 0x10010000 exReqChan) 0x10010000).srv.reqs.isEmpty = true ∧
    (nextEntry (exUsed 1) 0x10010000).any (fun x => x.2.2.2.toOption == some (exEntry 1)) = true ∧
    (forgetEnded (entryRead (exUsed 1) 0x10010000 exReqChan) 0x10010000).srv.reqs.any (fun q => q.chan = 0x10010000 && q.reqId = 7) = true ∧
    (nextEntry { exLead 1 1 (exEntry 1) with mem := { (exLead 1 1 (exEntry 1)).mem with poison := [0] } } 0x10010000).any
      (fun x => x.2.2.2.toOption.isNone) = true := by
  decide +kernel
def exPlan (epoch : Nat) : Plan := { step := 3, epoch := epoch, entries := [], tokens := [], named := [] }
def exMemberOf (epoch : Nat) : State :=
  let s := exLead 2 0 []
  { s with srv := { s.srv with plan := some (1, exPlan epoch) } }
def exLen (kind qlen : Nat) : LenEntry := { seq := 5, kind := kind, qpos := 1, qlen := qlen, row := 0 }
def exDrafting (role : Nat) : State :=
  let s := exLead role 0 []
  { s with srv := { s.srv with inStep := true, table := [exLen 2 2] } }
def exFence : State :=
  let s := exLead 1 0 []
  { s with srv := { s.srv with
      inStep := true, reqs := [{ (reqOf 1 0x10010000 0 (exEntry 1) []) with state := .decode, planned := some (exLen 0 1) }] } }
theorem wit_BatchStepsComplete :
    (∀ r ∈ [0, 1, 2], running (exLead r 0 []) = true ∧ stepEnds (exLead r 0 []) = true ∧ srvRole (exLead r 0 []) = r ∧
      stepInProgress (exLead r 0 []) = false) ∧
    (exMemberOf 0).srv.plan = some (1, exPlan 0) ∧ running (exMemberOf 0) = true ∧ stepEnds (exMemberOf 0) = true ∧
    srvRole (exMemberOf 0) = 2 ∧ (exMemberOf 0).srv.step < 3 ∧ (exMemberOf 0).srv.inStep = false ∧
    stepInProgress (exMemberOf 0) = false ∧ mayStart (exMemberOf 0) = true ∧ ((exMemberOf 0).whlAt 1).state = 0 ∧
    ((exMemberOf 9).whlAt 1).epoch = 0 ∧ (exMemberOf 9).srv.mismatchSaid = false ∧ ((exMemberOf 0).whlAt 1).held = false ∧
    (otherMembers (exLead 1 0 [])).contains 2 = true ∧
    (∀ r ∈ [1, 2], (exDrafting r).srv.inStep = true ∧ running (exDrafting r) = true ∧ srvRole (exDrafting r) = r ∧
      ((exDrafting r).srv.table.find? (fun e => e.seq = 5 && e.kind = 2 && e.qlen = [9].length + 1)).isSome = true ∧
      (seqAt (exDrafting r) 5).any (fun d => d.part = 1) = true ∧ (tget [] (exDrafting r).srv.drafts 5).isEmpty = true) ∧
    exFence.srv.inStep = true ∧ vatServing exFence 0 = true ∧ (fenceReqs exFence 0).length = 1 ∧
    (fenceReqs exFence 0).all (fenceReady exFence [⟨5, [9], 0, false, 0⟩]) = true := by decide +kernel
theorem wit_BatchStepsComplete_boundary :
    ((stepBoundary { exMemberOf 0 with kv := { (exMemberOf 0).kv with
      named := ([] : List (Nat × Nat)).foldl (fun t n => tput none t n.1 (some n.2)) (exMemberOf 0).kv.named } }).2.whlAt 1).held = false := by
  decide +kernel
def exJournal : State :=
  let s := exLead 1 0 []
  { s with
    dic := { s.dic with vals := [(Key.srvJournalGib, [1]), (Key.whlReplicaHolder0, [7, 0])] }
    srv := { s.srv with jNext := 4 }
    mem := { s.mem with zero := [⟨2, 3, [], false⟩, ⟨3, 3, [], true⟩] } }
def exRegionArg : Octets := [1, 0, 1, 0, 1, 0] ++ natLe 2 10 ++ natLe 2 1 ++ List.replicate 6 0
theorem wit_JournalAndMemoryComplete :
    cmdReady (exWhl {}) 1 Key.memRegionSet exRegionArg = true ∧
    regionStatus (exWhl {}) (plannedRegions (exWhl {})) exRegionArg = 0 ∧
    exJournal.pwr.state = .s0 ∧ [1].length ≤ ringShare exJournal ∧ exJournal.srv.rings.length < 8 ∧
    exOn.pwr.state = .s0 ∧ ringShare { exOn with fuse := { exOn.fuse with variant := 2 } } < [1].length ∧
    holderAt exJournal 0 = 7 ∧ 3 < exJournal.srv.jNext ∧ exJournal.srv.jLost.getD 0 true = false ∧ holderAt exJournal 1 ≠ 7 ∧
    slicePresent exOn 0 = true ∧ (exOn.sliceAt 0).scrubEn = true ∧ (exOn.sliceAt 0).pstate ≠ 3 ∧ (exOn.sliceAt 0).scrubAt = 0 ∧
    (exJournal.mem.zero.find? (fun j => j.job = 2)).any (fun j => !j.clearKey) = true ∧
    (exJournal.mem.zero.find? (fun j => j.job = 3)).any (·.clearKey) = true := by decide +kernel

/-! ## What the statements assume can be met: part 8 -/

/-- Port 0 as a direct link, its sub-port 0 in a state of its own; the module is chip 1. -/
def exPort (mode : Nat) (pre : Bool) (x : SubSt) : State :=
  { exSess 4 with
    time := 10 ^ 9
    dic := { (exSess 4).dic with vals := [(Key.topoChip, [1, 0])] }
    fab := { exOn.fab with ports := [(0, { mode := some mode, preemptEn := pre, subs := [(0, x)] })] } }
def exHelloMsg : Octets := List.replicate 64 0
theorem wit_PortsComeUp :
    busStatus (exPort 0 true {}) .mgmt (0x40000 + 0x100 * 0) 32 = 0 ∧
    (∀ x ∈ [({ state := .training } : SubSt), { state := .training, trained := true }, { state := .training, trained := true, lock := true },
      { state := .up, lock := true }, { state := .hello, passed := true }, { state := .doze }, { state := .quarantined }], ∀ pre ∈ [true, false],
      ((exPort 0 pre x).subAt 0 0) = x ∧ ((exPort 0 pre x).portAt 0).preemptEn = pre ∧ portMode (exPort 0 pre x) 0 = 0 ∧
      portMode (exPort 1 pre x) 0 = 1 ∧ ((exPort 1 pre x).subAt 0 0) = x) ∧
    helloFormatOk exHelloMsg = true ∧ helloFormatOk [] = false ∧
    0 + 10000 ≤ (frameStart (exPort 0 true { state := .hello }) 0).time ∧
    cfgNat (exPort 0 true {}) Key.xtvHelloTimeoutMs * 1000000 ≤ (exPort 0 true {}).time + 9 * 10 ^ 9 ∧
    cfgNat (exPort 0 true {}) Key.xtvHelloTimeoutMs * 1000000 ≤ ({ exPort 0 true {} with time := 10 ^ 11 } : State).time ∧
    300000 ≤ (exPort 0 true {}).time ∧ cfgNat (exPort 0 true {}) Key.xtvKeepaliveUs * 1000 ≤ (exPort 0 true {}).time := by decide +kernel
def exSent (typ op own : Nat) : SentFrame :=
  { typ := typ, op := op, dst := 2, stream := 0x30010000, eseq := 0, offset := 0, aux := 0, payload := List.replicate 64 0, cls := 0
    own := own, port := some 0 }
def exDozing (x : SubSt) : State := { exPort 0 true x with pwr := { (exPort 0 true x).pwr with state := .s2 } }
def exRaw (fcs : Bool) (ether : Nat) : RawFrame :=
  { fcsOk := fcs, etherType := ether, vid := 0, typ := 1, reservedZero := true, lengthField := 0, frameOctets := 64, crcOk := true
    frame := { port := 0, sub := 0, ver := 1, flags := 0, srcChip := 2, dstChip := 1, lseq := 1, lack := 0, stream := 0, eseq := 0
               offset := 0, op := 1, hops := 0, path := 0, credit := 0, aux := 0, payload := [] } }
def exUp : SubSt := { state := .up, peerChip := 2, peerDoze := true, dozeSent := true, lock := true, unacked := 3, replay := [exSent 1 1 0] }
theorem wit_LinkFramesComplete :
    subCarries ((exPort 0 true exUp).subAt 0 0) = true ∧ portMode (exPort 0 true exUp) 0 = 0 ∧
    portMode (heardFrom (exPort 0 true exUp) 0 0 2) 0 = 0 ∧
    subCarries ((exDozing exUp).subAt 0 0) = true ∧ portMode (exDozing exUp) 0 = 0 ∧
    mayDoze (heardFrom (exDozing exUp) 0 0 2) ((heardFrom (exDozing exUp) 0 0 2).subAt 0 0) = true ∧
    ((heardFrom (exDozing exUp) 0 0 2).subAt 0 0).dozeSent = true ∧
    ((heardFrom (exPort 0 true { exUp with state := .doze }) 0 0 2).subAt 0 0).state = .doze ∧
    ((exPort 0 true exUp).subAt 0 0).unacked = 3 ∧ ((exPort 0 true exUp).subAt 0 0).replay.length = 1 ∧
    2000 ≤ (exPort 0 true exUp).time ∧ portMode (exPort 1 true exUp) 0 = 1 ∧ ((exPort 1 true exUp).subAt 0 0).state = .up ∧
    (exRaw false 0).fcsOk = false ∧ (exRaw true 0).etherType ≠ 0x88B5 := by decide +kernel
/-- Stream 0x30010000 with chip 2, and a collective of chips 1 and 2, over port 0. -/
def exStream (sender : Bool) (x : StreamSt) : State :=
  let s := exPort 0 true { state := .up, peerChip := 2, ver := 1 }
  { s with
    mem := (exWhl {}).mem
    sec := (exWhl {}).sec
    syn := { s.syn with
      requests := [{ token := 7, addr := 2 * 2 ^ 48 + 0x040000000000, by_ := .agent (.engine 0) 1, op := 2, value := 0, task := false }]
      slots := [(0, { part := 1, chan := some (.stream { x with sender := sender, chip := 2 }) }),
      (1, { part := 1, chan := some (.coll { members := 2, rank := 0, fmt := 0, elements := 8, src := 0, dst := 0, startObj := 0, doneObj := 0
                                             collId := 0x30, chips := [2, 1], started := 5 }) })] } }
def exFrame (stream eseq : Nat) (n : Nat) : Frame :=
  { (exRaw true 0).frame with ver := 1, stream := stream, eseq := eseq, payload := List.replicate n 0 }
def exRx : StreamSt := { sender := false, chip := 2, cls := 0, peer := 0x30010005, keyGen := 0 }
theorem wit_StreamAppliesAFrameOnce :
    (frameArrives (exFrame 9 0 64) 1 (exStream false exRx)).2 = true ∧
    rxStreamOf (frameArrives (exFrame 9 0 64) 1 (exStream false exRx)).1 (exFrame 9 0 64) = none ∧
    (∀ x ∈ [{ exRx with expect := 4 }, { exRx with expect := 4, got := [6], unacked := 15 }, exRx], ∀ e ∈ [3, 4, 6, 4100, 4101],
      (frameArrives (exFrame 0x30010000 e 64) 1 (exStream false x)).2 = true ∧
      (rxStreamOf (frameArrives (exFrame 0x30010000 e 64) 1 (exStream false x)).1 (exFrame 0x30010000 e 64)).any
        (fun q => q.2.expect == x.expect) = true) := by decide +kernel
/-- The frame's application to the state it finds. -/
def exApply (x : StreamSt) (f : Frame) : Nat × State :=
  applyData f 1 (setChan (frameArrives f 1 (exStream false x)).1 f.stream (.stream (gotEseq x f.eseq)))
theorem wit_StreamAppliesAFrameOnce_applied :
    (∀ u ∈ [0, 15], ∀ n ∈ [0, 2 ^ 40],
      (chanOf (exApply { exRx with unacked := u } { exFrame 0x30010000 4 64 with offset := n }).2 0x30010000).any (fun q => match q.2 with
        | .stream y => y.unacked == u
        | _ => false) = true) ∧
    (exApply exRx (exFrame 0x30010000 4 64)).1 = 0 ∧ (exApply exRx { exFrame 0x30010000 4 64 with offset := 2 ^ 40 }).1 ≠ 0 := by decide +kernel
def exSender : State :=
  let s := exStream true exRx
  { s with fab := { s.fab with sent := [exSent 1 1 0x30010000] } }
def exRefusal (aux : Nat) : Frame := { exFrame 0x30010000 0 0 with op := 2, aux := aux }
/-- A request of the module waits for its response; its frame carries the token 7. -/
def exAsking : State :=
  let s := exStream true exRx
  { s with fab := { s.fab with sent := [{ exSent 2 2 0x30010000 with payload := List.replicate 20 0 ++ [0, 0, 0, 7] ++ List.replicate 40 0 }] } }
theorem wit_FramesDeliver :
    (∀ k ∈ [1, 4, 5], (frameArrives (exFrame 0x30 5 16) k (exStream false exRx)).2 = true) ∧
    (frameArrives { exFrame 0x30 5 64 with aux := 2 ^ 31 } 2 (exStream false exRx)).2 = true ∧
    zeroAt (exFrame 0x30 5 64).payload 4 4 = true ∧ zeroAt (exFrame 0x30 5 64).payload 20 44 = true ∧
    (∀ e ∈ [5, 6], (collOfFrame (frameArrives (exFrame 0x30 e 16) 4 (exStream false exRx)).1 (exFrame 0x30 e 16)).any (fun q =>
      chunkOfFrame q.2.2 (exFrame 0x30 e 16) == some 0 && q.2.2.started == 5 && chunkLen q.2.2 0 == 16 && chunkHome q.2.2 0 == 2) = true) ∧
    (collById (frameArrives (exFrame 0x30 5 16) 5 (exStream false exRx)).1 0x30).isSome = true := by decide +kernel
/-- The collective with two chunks, of which the module is the home of the second. -/
def exPressHome : State :=
  let s := exStream false exRx
  { s with syn := { s.syn with slots := [(1, { part := 1, chan := some (.coll {
      members := 2, rank := 1, fmt := 0, elements := 2056, src := 0, dst := 0, startObj := 0, doneObj := 0, collId := 0x30
      chips := [2, 1], started := 5, home := [{ chunk := 1, inv := 5 }] }) })] } }
def exChunk (e : Nat) : Frame := { exFrame 0x30 e 16 with offset := 4096 }
theorem wit_FramesDeliver_press :
    (∀ e ∈ [5, 7], (frameArrives (exChunk e) 3 exPressHome).2 = true ∧
      (collOfFrame (frameArrives (exChunk e) 3 exPressHome).1 (exChunk e)).any (fun q =>
        chunkOfFrame q.2.2 (exChunk e) == some 1 && chunkHome q.2.2 1 == ownChip exPressHome && q.2.2.chips.getD 0 0 == 2 &&
        chunkLen q.2.2 1 == 16 && (pressReceive (frameArrives (exChunk e) 3 exPressHome).1 q.1 1 e 0
          (chunkWords 0 (exChunk e).payload)).2 == decide (e = 5)) = true) := by decide +kernel
theorem wit_FramesDeliver_acks :
    (chanOf (frameArrives (exRefusal 0) 5 exSender).1 0x30010000).any (fun q => match q.2 with
      | .stream y => y.sender && y.chip == 2
      | _ => false) = true ∧ (frameArrives (exRefusal 0) 5 exSender).2 = true ∧ (frameArrives (exRefusal 0) 5 exAsking).2 = true ∧
    (refusedFrame (frameArrives (exRefusal St.staleHandle) 5 exSender).1 (exRefusal St.staleHandle)).any (fun g => g.own != 0) = true ∧
    bits (exRefusal St.staleHandle).aux 15 0 = St.staleHandle ∧ bits (exRefusal 3).aux 15 0 ≠ St.staleHandle ∧
    (refusedFrame (frameArrives (exRefusal 3) 5 exSender).1 (exRefusal 3)).any
      (fun g => (requestOf (frameArrives (exRefusal 3) 5 exSender).1 g).isNone) = true ∧
    (refusedFrame (frameArrives (exRefusal 3) 5 exAsking).1 (exRefusal 3)).any
      (fun g => (requestOf (frameArrives (exRefusal 3) 5 exAsking).1 g).isSome) = true := by decide +kernel
/-- Chip 2, heard over a switched port, with a route. -/
def exSwitched : State :=
  let s := exStream false { exRx with unacked := 2 }
  { s with
    fab := { s.fab with
      ports := [(0, { mode := some 1, subs := [(0, { state := .up })] })], heard := [(2, some 0)], peerVer := [(2, 1)]
      routes := [(16, 0x20080)], sent := [exSent 1 1 0x30010000] } }
theorem wit_PathTimersComplete :
    (chanOf exSwitched 0x30010000).any (fun q => match q.2 with
      | .stream y => !y.sender && y.unacked == 2
      | _ => false) = true ∧
    (oldestSent exSwitched 0x30010000 0).isSome = true ∧ 0 + cfgNat exSwitched Key.xtvE2eTimeoutUs * 1000 ≤ exSwitched.time ∧
    0 < cfgNat exSwitched Key.xtvE2eRetryMax ∧ chipInUse exSwitched 2 = true ∧ chipLost exSwitched 2 = false ∧ directUp exSwitched 2 = false ∧
    2 ≠ ownChip exSwitched ∧ reachable exSwitched 2 = true ∧ lastHeard exSwitched 2 + 20000 ≤ exSwitched.time ∧
    lastHeard exSwitched 2 + cfgNat exSwitched Key.xtvPeerTimeoutUs * 1000 ≤ exSwitched.time := by decide +kernel

/-! ## What the statements assume can be met: part 9 -/

/-- Queue pair 0x20010001 on port 20, which is UP; it has a request outstanding and its rate was cut. -/
def exRoce : State :=
  let s := exSess 4
  let q : QpSt := { port := 20, pmtu := 5, remoteQpn := 1, sqPsn := 0, rqPsn := 100, remoteAddr := [], rkey := 77, outstanding := [3], rate := 500000 }
  { s with
    time := 10 ^ 9
    fab := { s.fab with ports := [(20, { mode := some 2, subs := [(0, { state := .up })] })] }
    syn := { s.syn with slots := [(1, { part := 1, chan := some (.qp q) })] } }
theorem wit_RoceCompletes :
    (qpLive exRoce 0x20010001).any (fun q => q.2.rqPsn == 100 && q.2.lastCut == none && q.2.rate == 500000 &&
      q.2.lastRise + 55000 ≤ exRoce.time) = true ∧
    (100 + 2 ^ 24 - 99) % 2 ^ 24 < 2 ^ 23 ∧ 2 ^ 23 ≤ (100 + 2 ^ 24 - 101) % 2 ^ 24 ∧ Nak.sequence ≠ Nak.access := by decide +kernel
/-- Object 3 of partition 1, at 5. -/
def exObjs : State :=
  let s := exSess 4
  { s with
    time := 10 ^ 12
    syn := { s.syn with
      objs := [(3, { alloc := true, owner := 1, c := 5, thr := 10, stride := 5 })]
      waiters := [⟨9, 3, 7, .agent .mgmt 1, 0, 4000000⟩]
      fences := [⟨.mgmt, 2, [], [], 0⟩, ⟨.sec, 3, [], [], 0⟩] } }
def exSyncFrame (op : Nat) : Frame :=
  { port := 0, sub := 0, ver := 1, flags := 0, srcChip := 2, dstChip := 0, lseq := 1, lack := 0, stream := 0, eseq := 0, offset := 0
    op := op, hops := 0, path := 0, credit := 0, aux := 0, payload := List.replicate 64 0 }
def exSyncLink : State :=
  { exOn with fab := { exOn.fab with ports := [(0, { mode := some 0, subs := [(0, { state := .up, ver := 1, peerChip := 2 })] })] } }
theorem wit_SyncOperationsComplete :
    agentFenced exObjs (.engine 0) = false ∧ isLocal exObjs 0x040000000300 = true ∧ objFor exObjs 1 (addrOff 0x040000000300) = some 3 ∧
    (exObjs.objAt 3).broken = false ∧ (exObjs.objAt 3).c.toNat = 5 ∧ exObjs.syn.waiters.length < waiterPool ∧
    (exObjs.syn.waiters.find? (fun w => w.id = 9)).any (fun w => w.since + w.timeoutUs * 1000 ≤ exObjs.time) = true ∧
    (∀ op ∈ [1, 3, 5], (frameArrives (exSyncFrame op) 2 exSyncLink).2 = true) := by decide +kernel
theorem wit_FencesComplete :
    agentFenced exObjs (.engine 0) = false ∧
    (∀ x ∈ [(Agent.mgmt, 2), (Agent.sec, 3)], (exObjs.syn.fences.find? (fun f => f.agent = x.1)).any
      (fun f => !(fenceWaits exObjs f) && f.scope == x.2 && f.since + 12 ≤ exObjs.time) = true) := by decide +kernel
/-- Mailbox 40 from the management core to a core, in a state. -/
def exMbx (receiver state : Nat) : State :=
  { exSess 1 with syn := { exOn.syn with mbx := [(40, { sender := 0, receiver := receiver, state := state, irq := true })] } }
theorem wit_SyncObjectsAndMailboxesComplete :
    cmdReady (exSess 4) 1 Key.syncAlloc (natLe 4 65536) = true ∧ countRange 0 (exSess 4) (natLe 4 65536) = 0 ∧
    freeFrom 65536 (exSess 4).syn.objs 0 + 65536 ≤ 65536 ∧
    cmdReady exObjs 1 Key.syncFree (natLe 4 3 ++ natLe 4 1) = true ∧ countRange 4 exObjs (natLe 4 3 ++ natLe 4 1) = 0 ∧
    ownsObj exObjs (sessPart exObjs 1) 3 = true ∧ objNamed exObjs 3 = false ∧
    cmdReady exObjs 1 Key.syncConfig (natLe 4 3 ++ natLe 4 1 ++ natLe 4 1 ++ natLe 4 0 ++ natLe 16 6) = true ∧
    syncConfigRange exObjs (natLe 4 3 ++ natLe 4 1 ++ natLe 4 1 ++ natLe 4 0 ++ natLe 16 6) = 0 ∧
    busStatus exOn .mgmt (syncReg 65535 0x0C) 32 = 0 ∧ busStatus exOn .mgmt (syncReg 65535 0x18) 32 = 0 ∧
    (∀ r ∈ [1, 5, 16], ∀ st ∈ [0, 2], mbxAdmits (exMbx r st) 40 .mgmt = true ∧ isEnd (exMbx r st) 40 0 .mgmt = true ∧
      ((exMbx r st).mbxAt 40).sender = 0 ∧ ((exMbx r st).mbxAt 40).state ≠ 1) ∧
    isEnd (exMbx 1 1) 40 ((exMbx 1 1).mbxAt 40).receiver .sec = true ∧ ((exMbx 1 1).mbxAt 40).state = 1 ∧
    isEnd (exMbx 1 0) 40 ((exMbx 1 0).mbxAt 40).receiver .sec = true ∧
    mbxAdmits { exMbx 5 0 with syn := { exOn.syn with mbx := [(40, { sender := 16, receiver := 5 })] } } 40 (.session 1) = true ∧
    isEnd { exMbx 5 0 with syn := { exOn.syn with mbx := [(40, { sender := 16, receiver := 5 })] } } 40 16 (.session 1) = true ∧
    (∀ r ∈ [1, 5], ((exMbx r 1).mbxAt 40).irq = true ∧ coreRuns (exMbx r 1) ((exMbx r 1).mbxAt 40).receiver = true) := by decide +kernel

/-! ## What the statements assume can be met: part 10 -/

/-- Partition 1 of chip 1, with chip 2 on a direct link, three sync objects, engine 0, a port to the host, and channels. -/
def exNet (posted : Nat) (bytes : Octets) (slots : List (Nat × ChanSlot)) : State :=
  let s := (exWhl {}).setEng 0 { awake := true, part := 1 }
  { s with
    dic := { (exSess 4).dic with vals := [(Key.topoChip, [1, 0]), (Key.whlPartition, [1])] }
    mem := { s.mem with bytes := (bytes.zipIdx.map (fun q => (q.2, q.1))).filter (fun q => q.2 != 0) }
    fab := { s.fab with
      ports := [(0, { mode := some 0, subs := [(0, { state := .up, peerChip := 2, ver := 1 })] }), (20, { mode := some 2 })]
      routes := [(16, 0x20080)], peers := [2] }
    syn := { s.syn with
      objs := [(0, { alloc := true, owner := 1, c := BitVec.ofNat 64 posted }), (1, { alloc := true, owner := 1 }),
        (2, { alloc := true, owner := 1 })]
      slots := slots } }
def exReport : PeerReport :=
  { chip := 2, chainOk := true, lifecycle := 2, debugLevel := 0, fallback := false, press := true, handle := some 0x30010007 }
def exCollArg : Octets :=
  [2, 0, 0, 0] ++ natLe 4 8 ++ natLe 8 0 ++ natLe 8 4096 ++ natLe 8 0x040000000100 ++ natLe 8 0x040000000200 ++ natLe 4 0x30 ++
  List.replicate 20 0 ++ natLe 2 1 ++ natLe 2 2 ++ List.replicate 124 0
/-- A group of chips 1 and 2 with its root at rank 0, as the member of a rank. -/
def exGroupArg (rank : Byte) (a b : Nat) : Octets :=
  [2, rank, 0, 0, 0, 0, 0, 0] ++ natLe 4 1 ++ natLe 4 2 ++ List.replicate 16 0 ++ natLe 2 a ++ natLe 2 b ++ List.replicate 124 0
def exStreamArg : Octets := natLe 2 2 ++ List.replicate 6 0
def exQpArg : Octets := [20, 2, 0, 0] ++ natLe 4 1 ++ natLe 4 0 ++ natLe 4 0 ++ List.replicate 16 0
def exTaskArg : Octets := natLe 8 0 ++ natLe 2 4 ++ List.replicate 6 0 ++ natLe 8 0x040000000100 ++ natLe 8 0x040000000200
theorem wit_ChannelObjectsComplete_create :
    pickSlot (exNet 0 [] []) = some 0 ∧ sessPart (exNet 0 [] []) 1 = 1 ∧
    (∀ k ∈ [Key.collCreate, Key.syncGroupCreate, Key.streamOpen], peersQuiet (exNet 0 [] []) 1 k = true) ∧
    cmdReady (exNet 0 [] []) 1 Key.collCreate exCollArg = true ∧ collStatus (exNet 0 [] []) 1 exCollArg [exReport] = 0 ∧
    cmdReady (exNet 0 [] []) 1 Key.syncGroupCreate (exGroupArg 0 1 2) = true ∧
    groupStatus (exNet 0 [] []) 1 (exGroupArg 0 1 2) [exReport] = 0 ∧ (groupArg (exGroupArg 0 1 2)).rank = (groupArg (exGroupArg 0 1 2)).root ∧
    cmdReady (exNet 0 [] []) 1 Key.syncGroupCreate (exGroupArg 1 2 1) = true ∧
    groupStatus (exNet 0 [] []) 1 (exGroupArg 1 2 1) [exReport] = 0 ∧ (groupArg (exGroupArg 1 2 1)).rank ≠ (groupArg (exGroupArg 1 2 1)).root ∧
    cmdReady (exNet 0 [] []) 1 Key.streamOpen exStreamArg = true ∧ streamRange (exNet 0 [] []) exStreamArg = 0 ∧
    fld exStreamArg 0 2 ≠ ownChip (exNet 0 [] []) ∧ reachable (exNet 0 [] []) (fld exStreamArg 0 2) = true ∧
    peerTrusted (exNet 0 [] []) [exReport] (fld exStreamArg 0 2) = true ∧
    cmdReady (exNet 0 [] []) 1 Key.qpCreate exQpArg = true ∧ qpRange (exNet 0 [] []) exQpArg = 0 ∧
    portMode (exNet 0 [] []) (fld exQpArg 0 1) = 2 ∧ chanCount (exNet 0 [] []) 2 < 16384 ∧
    cmdReady (exNet 0 [] []) 1 Key.taskChanOpen exTaskArg = true ∧ taskChanRange (exNet 0 [] []) exTaskArg = 0 ∧
    (taskChanArg exTaskArg).base + 64 * (taskChanArg exTaskArg).slots ≤ spaceSize (exNet 0 [] []) 1 0 ∧
    (localObj (exNet 0 [] []) 1 (taskChanArg exTaskArg).posted).isSome = true ∧
    (localObj (exNet 0 [] []) 1 (taskChanArg exTaskArg).consumed).isSome = true ∧
    vatPresent (exNet 0 [] []) (taskChanArg exTaskArg).vat = true ∧ counterOf (exNet 0 [] []) 1 (taskChanArg exTaskArg).posted = 0 ∧
    counterOf (exNet 0 [] []) 1 (taskChanArg exTaskArg).consumed = 0 ∧ chanCount (exNet 0 [] []) 6 < 4096 := by decide +kernel
def exChans : List (Nat × ChanSlot) :=
  [(0, { part := 1, chan := some (.coll (collArg exCollArg)) }), (1, { part := 1, chan := some (.group (groupArg (exGroupArg 0 1 2))) }),
   (2, { part := 1, chan := some (.stream { sender := true, chip := 2, cls := 0, peer := 0x30010007, keyGen := 0 }) }),
   (3, { part := 1, chan := some (.qp { port := 20, pmtu := 1, remoteQpn := 1, sqPsn := 0, rqPsn := 0, remoteAddr := [], rkey := 1 }) }),
   (4, { part := 1, chan := some (.task { taskChanArg exTaskArg with posted := 0x040000000000 }) })]
theorem wit_ChannelObjectsComplete_destroy :
    (∀ x ∈ [(0x50010000, 5, Key.collDestroy), (0x40010001, 4, Key.syncGroupDestroy), (0x30010002, 3, Key.streamClose),
        (0x20010003, 2, Key.qpDestroy), (0x60010004, 6, Key.taskChanClose)],
      (chanOf (exNet 0 [] exChans) (leNat (natLe 4 x.1))).any (fun q => q.1 == 1 && chanType q.2 == x.2.1) = true ∧
      cmdReady (exNet 0 [] exChans) 1 x.2.2 (natLe 4 x.1) = true) ∧
    sessPart (exNet 0 [] exChans) 1 = 1 ∧ qpBound (exNet 0 [] exChans) 0x20010003 = false := by decide +kernel
def exTaskDesc (op : Nat) : Octets := natLe 2 op ++ List.replicate 62 0
def exPoisoned : State := { exNet 2 [] exChans with mem := { (exNet 2 [] exChans).mem with poison := [0] } }
theorem wit_ChannelEventsComplete :
    pickSlot (exNet 0 [] []) = some 0 ∧ exReport.handle = some 0x30010007 ∧ peerTrusted (exNet 0 [] []) [exReport] exReport.chip = true ∧
    partCreated (exNet 0 [] []) 1 = true ∧
    (∀ op ∈ [0x40, 0], (chanOf (exNet 1 (exTaskDesc op) exChans) 0x60010004).any (fun q => match q.2 with
        | .task c => c.read < counterOf (exNet 1 (exTaskDesc op) exChans) 1 c.posted
        | _ => false) = true ∧ vatServing (exNet 1 (exTaskDesc op) exChans) 0 = true ∧
      (memRead (exNet 1 (exTaskDesc op) exChans) 1 0 0 64).toOption = some (exTaskDesc op) ∧
      descCheck (exNet 1 (exTaskDesc op) exChans) (.partition 1) (exTaskDesc op) ≠ St.queueFull) ∧
    (postTask (exNet 1 (exTaskDesc 0x40) exChans) (.partition 1) (exTaskDesc 0x40)).1 = 0 ∧
    (postTask (exNet 1 (exTaskDesc 0) exChans) (.partition 1) (exTaskDesc 0)).1 ≠ 0 ∧
    (memRead exPoisoned 1 0 0 64).toOption = none ∧ vatServing exPoisoned 0 = true ∧ 0 < counterOf exPoisoned 1 0x040000000000 ∧
    chanOf exPoisoned 0x60010004 = chanOf (exNet 2 [] exChans) 0x60010004 := by decide +kernel
def exStarting : State :=
  exNet 1 [] [(0, { part := 1, chan := some (.coll { collArg exCollArg with startObj := 0x040000000000 }) })]
theorem wit_ChannelEventsComplete_coll :
    (chanOf exStarting 0x50010000).any (fun q => match q.2 with
      | .coll c => q.1 == 1 && localObj exStarting 1 c.startObj == some 0 && c.started < (exStarting.objAt 0).c.toNat && !c.broken &&
          c.ended == none && c.finished == c.started
      | _ => false) = true ∧ running exStarting = true := by decide +kernel

/-! ## What the statements assume can be met: part 11 -/

/-- The module with health states of its own, at a later time. -/
def exHealth (code : Nat) : State :=
  let s := exSess 2
  { (s.setEng 0 { s.engAt 0 with underTest := true }) with
    time := 10 ^ 12
    flt := { s.flt with arrays := [(5, { code := code })], engines := [(3, { code := code })], vats := [(2, { code := code })]
                        mgmtReset := some 0, toStore := [{}] }
    srv := s.srv
    vat := [(2, { fenced := some 0, gated := false })] }
def exUnit (k n : Nat) : Octets := natLe 4 k ++ natLe 4 n
theorem wit_HealthCompletes :
    vatCoreRuns (exHealth 0) 0 = true ∧ ((exHealth 0).vatAt 0).lastBeat + 200000 ≤ (exHealth 0).time ∧
    ((exHealth 0).vatAt 2).fenced = some 0 ∧ ((exHealth 0).vatAt 2).gated = false ∧ 0 + 50000 ≤ (exHealth 0).time ∧
    (exSess 2).pwr.state ≠ .s4 ∧ (exSess 2).flt.mgmtReset = none ∧ (exHealth 0).flt.mgmtReset = some 0 ∧
    (exHealth 0).flt.mgmtLost = false ∧ 0 + 200000000 ≤ (exHealth 0).time ∧ (exHealth 0).flt.toStore = [{}] ∧
    cfgBool (exHealth 0) Key.brineEn = true ∧ running (exHealth 0) = true ∧ sliceRuns (exHealth 0) (.engine 0) = true ∧
    (∀ u ∈ [(1, 5), (2, 3), (3, 2)], (unitOf (exUnit u.1 u.2)).any (unitPresent (exHealth 2)) = true ∧
      unitRange (exHealth 2) (exUnit u.1 u.2) = 0 ∧
      (∀ k ∈ [Key.healthFence, Key.healthReadmit], cmdReady (exHealth 2) 1 k (exUnit u.1 u.2) = true) ∧
      (unitOf (exUnit u.1 u.2)).any (fun x => healthCode (exHealth 2) x == 2) = true ∧
      (unitOf (exUnit u.1 u.2)).any (fun x => healthCode (exHealth 4) x == 4) = true ∧
      cmdReady (exHealth 4) 1 Key.healthClear (exUnit u.1 u.2) = true) := by decide +kernel
/-- The body of a wheel with one layer and no chain; sections 1 to 3 at 192, 256 and 256. -/
def exBody : Octets :=
  [0x4B, 0x57, 0x48, 0x4C] ++ natLe 2 1 ++ [1, 0] ++ List.replicate 16 0 ++ natLe 4 3 ++ natLe 4 1 ++ natLe 8 256 ++ [1] ++
  List.replicate 23 0 ++
  (natLe 2 1 ++ natLe 2 0 ++ natLe 4 1 ++ natLe 8 192 ++ natLe 8 32) ++ (natLe 2 2 ++ natLe 2 0 ++ natLe 4 0 ++ natLe 8 256 ++ natLe 8 0) ++
  (natLe 2 3 ++ natLe 2 0 ++ natLe 4 0 ++ natLe 8 256 ++ natLe 8 0) ++ List.replicate 56 0 ++
  ([0, 0, 0, 0, 1, 0, 0, 0] ++ natLe 4 0 ++ natLe 4 1 ++ List.replicate 48 0)
/-- Its envelope for one recipient, whose key identifier is zeros, as is the owner's. -/
def exEnvelope : Octets :=
  [0x4B, 0x57, 0x45, 0x4E] ++ natLe 2 1 ++ natLe 2 1 ++ natLe 8 352 ++ List.replicate 240 0 ++ List.replicate 96 0 ++ List.replicate 352 0
def exFetch : AdoptFetch :=
  { envelope := some exEnvelope, crypto := { plain := some (exBody ++ List.replicate 96 0), sigOk := true, digest := [] }
    journal := [], holdersLost := false }
/-- A standby of partition 1, whose owner is enrolled. -/
def exStandby : State :=
  let s := exSess 2
  { s with
    fuse := { s.fuse with pkKeyId := List.replicate 48 0 }
    dic := { s.dic with vals := [(Key.recStandby, [1])] }
    sec := { s.sec with enroll := [(0, some (3, 1, List.replicate 48 0))] } }
def exAdoptArg : Octets := natLe 2 9 ++ natLe 2 1 ++ natLe 8 5 ++ [2, 0, 0, 0]
theorem wit_TakeoverCompletes_adopt :
    peersQuiet exStandby 1 Key.recAdopt = true ∧ cmdReady exStandby 1 Key.recAdopt exAdoptArg = true ∧
    adoptRange exStandby exAdoptArg = 0 ∧ adoptStatus exStandby (fld exAdoptArg 2 2) = 0 ∧ exFetch.envelope = some exEnvelope ∧
    (adoptWith exStandby (fld exAdoptArg 2 2) (fld exAdoptArg 0 2) (fld exAdoptArg 4 4) (fld exAdoptArg 12 1) exEnvelope exFetch).status = 0 := by
  decide +kernel
def exJReq : JournalReq := { handle := 0x77, entry := List.replicate 128 0, stops := [], ctx := [1], emitted := [], ended := none }
/-- Partition 1 with a request channel, and a journaled request of chip 9 not yet rebound. -/
def exAdopted (cls : Nat) : State :=
  let s := exSess cls
  { s with
    time := 10 ^ 13
    dic := { s.dic with vals := [(Key.whlPartition, [1]), (Key.topoChip, [1, 0]), (Key.srvGroupTable, [1, 0, 2, 0])] }
    srv := { s.srv with adopted := [(9, 0x77, exJReq)], adoptPart := 1, adoptDone := some 0 }
    syn := { s.syn with slots := [(0, { part := 1, chan := some (.req { subBase := 0, subSlots := 4, cqSlots := 4, posted := 0, consumed := 0
                                                                        credit := 0, qp := 0, rkey := 0, cqAddr := 0, vat := 0 }) })] } }
def exRebindArg : Octets := natLe 2 9 ++ natLe 2 0 ++ natLe 4 0x77 ++ natLe 4 0x10010000
theorem wit_TakeoverCompletes :
    cmdReady (exAdopted 2) 1 Key.recReplace (natLe 2 2 ++ natLe 2 1 ++ natLe 4 0) = true ∧
    replaceRange (exAdopted 2) (natLe 2 2 ++ natLe 2 1 ++ natLe 4 0) = 0 ∧
    replaceStatus (exAdopted 2) (natLe 2 2 ++ natLe 2 1 ++ natLe 4 0) = 0 ∧
    cmdReady (exAdopted 4) 1 Key.recRebind exRebindArg = true ∧ rebindRange (exAdopted 4) exRebindArg = 0 ∧
    (reqChanAt (exAdopted 4) (fld exRebindArg 8 4)).any (fun q => q.1 == sessPart (exAdopted 4) 1) = true ∧
    (exAdopted 4).srv.adopted.any (fun a => a.1 = fld exRebindArg 0 2 && a.2.1 = fld exRebindArg 4 4) = true ∧
    (exAdopted 4).srv.adoptPart = sessPart (exAdopted 4) 1 ∧ (exAdopted 4).srv.adoptDone = some 0 ∧
    0 + cfgNat (exAdopted 4) Key.recRebindS * 1000000000 ≤ (exAdopted 4).time := by decide +kernel

/-! ## What the statements assume can be met: part 12 -/

/-- The module with a power state of its own, an operator's session. -/
def exPwr (p : PwrSt) : State := { exSess 2 with time := 10 ^ 12, pwr := p }
def exS0 : PwrSt := exOn.pwr
theorem wit_PowerStatesComplete :
    (∀ a ∈ [0, 1, 2, 3], cmdReady (exSess 2) 1 Key.pwrStateReq [BitVec.ofNat 8 a] = true ∧
      targetRange (exSess 2) [BitVec.ofNat 8 a] = 0 ∧ lowStatus (exSess 2) a = 0) ∧
    (exSess 2).pwr.hold = false ∧ (exSess 2).pwr.entering = none ∧
    cmdReady (exPwr { exS0 with entering := some .s1 }) 1 Key.pwrStateReq [0] = true ∧
    (exPwr exS0).pwr.stop = 0 ∧ cfgBool { exPwr exS0 with dic := { (exSess 2).dic with vals := [(Key.pwrAutoS1, [1])] } } Key.pwrAutoS1 = true ∧
    moduleIdle (exPwr exS0) = true ∧ lifecycleOf (exPwr exS0) ≠ Lc.scrapped ∧ lifecycleOf (exPwr exS0) ≠ Lc.blank ∧
    idleFrom (exPwr exS0) + cfgNat (exPwr exS0) Key.pwrIdleUs * 1000 ≤ (exPwr exS0).time ∧
    (∀ p ∈ [PState.s1, PState.s2, PState.s3], (exPwr { exS0 with entering := some p }).pwr.entering = some p ∧
      workIdle (exPwr { exS0 with entering := some p }) = true ∧ orderedReady (exPwr { exS0 with entering := some p, stop := 1 }) = true) ∧
    wakes (.doorbell 3) (pDepth ((exPwr { state := .s3 }).pwr.entering.getD .s3)) = true ∧
    (exPwr { exS0 with state := .s1, exiting := true }).pwr.exiting = true ∧ exS0.refLock = true ∧
    portsPowered (exPwr { exS0 with refLock := false }) = true ∧ running (exPwr exS0) = true ∧
    (exPwr { exS0 with coreLock := false }).pwr.state = .s0 := by decide +kernel
theorem wit_ThrottlingCompletes :
    (exPwr exS0).pwr.state ≠ .s4 ∧ (exPwr exS0).pwr.capTick + 1000000 ≤ (exPwr exS0).time ∧ (exPwr exS0).pin.brakeLow = false ∧
    (exPwr exS0).pwr.stop = 0 ∧ (exPwr { exS0 with nBrake := 3 }).pwr.brakeAt + 10000 ≤ (exPwr exS0).time ∧
    (exPwr exS0).pwr.history.head? = none ∧ (exPwr { exS0 with stop := 1 }).pwr.stopBegan + 1500000 ≤ (exPwr exS0).time := by decide +kernel
theorem wit_ThermalStepFollowsTheHottestReading :
    wantThermal 1621 = 7 ∧ nextThermal 7 1600 = 6 ∧ nextThermal 7 1601 = 7 ∧ (7 : Nat) ≠ 0 ∧
    (hottest (takeSample (exPwr exS0) [])).isSome = true ∧ (exPwr exS0).pwr.state ≠ .s4 ∧
    (exPwr exS0).pwr.history.head? = none := by decide +kernel
theorem wit_ThrottlingCompletes_sample :
    hottest (takeSample (exPwr exS0) ((List.range 288).map (fun i => (i, -2000)))) = none := by decide +kernel
def exMon (q : MonSeq) : State := exPwr { exS0 with seqs := [(0, q)], calTodo := [2], calState := 1, urgSince := some 0 }
theorem wit_MeasurementCompletes :
    vatPresent (exPwr exS0) 0 = true ∧ ((exPwr exS0).vatAt 0).railOut = false ∧ (urgentConv (exMon {})).isSome = true ∧
    (exMon {}).pwr.urgSince = some 0 ∧ 0 + 1100 ≤ (exMon {}).time ∧ convReady (exMon {}) 0 = true ∧
    ((exMon { en := true, period := 5 }).monSeq 0).en = true ∧ ((exMon { en := true, period := 5 }).monSeq 0).trig = 0 ∧
    ((exMon { en := true, period := 5 }).monSeq 0).trigAt + 5 * 1000 ≤ (exMon {}).time ∧
    ((exMon { running := true }).monSeq 0).running = true ∧ ((exMon { running := true }).monSeq 0).entryAt + 1000 ≤ (exMon {}).time ∧
    cmdReady (exSess 2) 1 Key.monCalStart [5, 0, 0, 0] = true ∧ maskRange (exSess 2) [5, 0, 0, 0] = 0 ∧ (exSess 2).pwr.calState ≠ 1 ∧
    busStatus exOn .mgmt 0x1000 32 = 0 ∧ (exMon {}).pwr.calTodo = [2] ∧ tapsAgree ⟨8, 8⟩ ⟨9, 8⟩ = true ∧ tapsAgree ⟨8, 8⟩ ⟨10, 8⟩ = false ∧
    cmdReady (exSess 2) 1 Key.monClear [5, 0, 0, 0] = true ∧ maskRange (exSess 2) [5, 0, 0, 0] = 0 ∧ busStatus exOn .mgmt (0x1040 + 16 * 3) 32 = 0 := by
  decide +kernel

/-! ## What the statements assume can be met: part 13 -/

/-- A session of a class, with the fuses of a lifecycle state and a security state of its own. -/
def exSec (cls bits_ : Nat) (f : SecSt → SecSt) : State :=
  let s := exSess cls
  { s with
    time := 10 ^ 9
    fuse := { s.fuse with lifecycleBits := BitVec.ofNat 5 bits_, serial := 0 }
    sec := f { s.sec with enroll := [(0, some (2, 0, List.replicate 48 0))] } }
def exToken (level lc : Nat) : Octets :=
  [0x4B, 0x44, 0x42, 0x47, BitVec.ofNat 8 level, BitVec.ofNat 8 lc, 0, 0] ++ List.replicate 40 0 ++ natLe 4 60 ++ List.replicate 156 0
def exNonce (x : SecSt) : SecSt := { x with nonce := some (List.replicate 32 0, 0), parts := [] }
/-- An image of a type with security version 1, no payload. -/
def exImageOf (typ : Byte) : Octets :=
  [0x4B, 0x46, 0x57, 0x49, 1, 0, typ, 0] ++ natLe 4 1 ++ List.replicate 244 0
def exStaged (cls : Nat) (typ : Byte) : State :=
  (exSec cls 7 id).modSess 1 (fun x => { x with fwStage := some (exImageOf typ), pkgStage := some (exImageOf typ) })
def exSigned : ImageCrypto := ⟨true, true, true⟩
theorem wit_SecurityCompletes_lifecycle :
    (∀ to_ ∈ [4, 5], cmdReady (exSec 2 7 id) 1 Key.lcTransition [BitVec.ofNat 8 to_] = true ∧ lcRange (exSec 2 7 id) [BitVec.ofNat 8 to_] = 0 ∧
      lcStatus (exSec 2 7 id) 2 to_ = 0) ∧ Lc.returned = 4 ∧ Lc.scrapped = 5 ∧ ((exSec 2 7 id).sessAt 1).cls = 2 ∧
    cmdReady (exSec 2 3 id) 1 Key.lcTransition [3] = true ∧ lcRange (exSec 2 3 id) [3] = 0 ∧ lcStatus (exSec 2 3 id) 2 3 = 0 ∧
    lifecycleOf (exSec 2 7 id) ≠ Lc.returned ∧
    partsOf (exSec 2 7 (fun x => { x with parts := [], lcTarget := some (4, 1) })) = [] ∧ (exSec 2 7 id).mem.zero = [] ∧
    cmdReady (exSec 2 7 id) 1 Key.secPartCreate [2, 0, 0, 0, 1, 0, 0, 0] = true ∧
    partCreateRange (exSec 2 7 id) [2, 0, 0, 0, 1, 0, 0, 0] = 0 ∧ createForbidden (exSec 2 7 id) = false ∧
    ((exSec 2 7 id).partAt 2).state = 0 ∧ (freeKeySlot (exSec 2 7 id)).isSome = true ∧
    cmdReady (exSec 2 7 id) 1 Key.secPartAssign ([1, 0, 1, 1] ++ natLe 2 0 ++ natLe 2 8 ++ List.replicate 8 0) = true ∧
    assignStatus (plannedAssigns (exSec 2 7 id)) ([1, 0, 1, 1] ++ natLe 2 0 ++ natLe 2 8 ++ List.replicate 8 0) = 0 ∧
    cmdReady (exSec 2 7 id) 1 Key.secPartRelease [1, 0] = true ∧ ((exSec 2 7 id).partAt 1).state = 1 := by decide +kernel
theorem wit_SecurityCompletes_debug :
    (∀ lv ∈ [1, 2], peersQuiet (exSec 2 7 exNonce) 1 Key.secDebugUnlock = true ∧
      cmdReady (exSec 2 7 exNonce) 1 Key.secDebugUnlock (exToken lv 3) = true ∧
      unlockStatus (exSec 2 7 exNonce) 2 (exToken lv 3) (.renzel true) = 0 ∧ tokenLevel (exToken lv 3) = lv) ∧
    ((exSec 2 7 exNonce).sessAt 1).cls = 2 ∧ cmdReady (exSec 2 7 id) 1 Key.secDebugClose [1] = true ∧
    (exSec 2 7 (fun x => { x with debug := 2, debugUntil := 5 })).sec.debug ≠ 0 ∧
    debugCore (exSec 2 7 (fun x => { x with debug := 2, debugUntil := 5 })) 0 = true ∧
    debugCore (exSec 2 7 (fun x => { x with debug := 2, debugUntil := 5 })) 9 = true ∧
    (exSec 2 7 id).flt.halted = [] ∧
    peersQuiet (exStaged 2 2) 1 Key.secPkgLoad = true ∧
    sessReady (exSec 2 7 id) 1 = true ∧ admitted 3 ((exSec 2 7 id).sessAt 1).cls = true ∧
    (exStaged 4 2).dic.sessions.length = 1 ∧ busStatus exOn .sec keyReg 32 = 0 := by decide +kernel
theorem wit_SecurityCompletes_load :
    cmdReady (exStaged 4 2) 1 Key.secPkgLoad [1] = true ∧ peersQuiet (exStaged 4 2) 1 Key.secPkgLoad = true ∧
    pkgStatus (exStaged 4 2) (sessPart (exStaged 4 2) 1) (((exStaged 4 2).sessAt 1).pkgStage.getD []) exSigned = 0 ∧
    sessReady (exSec 2 7 id) 1 = true ∧ ((exSec 2 7 id).sessAt 1).cls = 2 ∧ (natLe 8 1 ++ List.replicate 48 0 : Octets).length = 56 ∧
    enrollStatus (exSec 2 7 id) 63 [natLe 8 1 ++ List.replicate 48 0] = 0 := by decide +kernel
theorem wit_FirmwareBootAndPinsComplete :
    (∀ b ∈ [0, 1], ((exSec 2 7 (fun x => { x with bank := b })).sec.bank = b)) ∧
    peersQuiet (exStaged 2 1) 1 Key.fwActivate = true ∧ cmdReady (exStaged 2 1) 1 Key.fwActivate [1] = true ∧
    firmwareStatus (exStaged 2 1) (((exStaged 2 1).sessAt 1).fwStage.getD []) exSigned = 0 ∧
    (∀ v ∈ [0, 1], ((bankAt (exSec 2 7 (fun x => { x with bank := 0, bank0 := some ⟨v, 0, []⟩, selfTest := false })) 0).map (·.svn)).getD 0 = v) ∧
    lifecycleOf (exSec 2 7 id) = Lc.deployed ∧ (exSec 2 7 id).fuse.rollback = 0 ∧
    bankStatus (exSec 2 7 (fun x => { x with bank1 := some ⟨1, 0, []⟩, selfTest := false }))
      (bankImage (exSec 2 7 (fun x => { x with bank1 := some ⟨1, 0, []⟩, selfTest := false })) 1) 0 = 0 ∧
    30 * 10 ^ 9 ≤ ({ exSec 2 7 id with time := 10 ^ 12 } : State).time := by decide +kernel
theorem wit_FirmwareBootAndPinsComplete_pins :
    State.reset.pin.input = false ∧ exOn.pin.input = true ∧ exOn.pin.overvolt = false ∧ State.reset.pwr.state = .s4 ∧
    exOn.pwr.state ≠ .s4 ∧ ({ exOn with pin := { exOn.pin with reset := true, overvolt := true } } : State).pin.reset = true ∧
    boundaryAllowed (exSec 2 1 id) = true ∧ boundaryAllowed exOn = false ∧ (exSec 2 1 id).pwr.state ≠ .s4 ∧
    lifecycleOf (exSec 2 0 id) = Lc.blank ∧ lifecycleOf exOn ≠ Lc.blank ∧ (exSec 2 0 id).pwr.state ≠ .s4 := by decide +kernel

/-! ## Ill-formed commands: one term for each check -/

theorem test_illformed_units : ∀ c ∈ ([.split 17408, .engineWake 512, .passGrant 8, .pcsLock 24 0, .pcsLock 0 4, .mbxInterrupt 64,
    .coreHalt 10, .directoryDecay 256, .patrolScrub 8 0 none, .hotRowCopy 65536 0, .hotRowCopy 0 16, .monTimerTrigger 4,
    .stealClaim (.queue 512) [], .stealClaim (.overflow 8) [], .stealClaim (.queue 0) [512], .brineSliceStart (.array 17408),
    .brineSliceStart (.engine 512), .brineSliceStart (.vat 8), .journalAck 2 0 0, .secEnrollWrite 1 64 [],
    .overflowLayerLoad 1 65536, .fenceDie (.engine 512), .fenceDie (.vatCore 8), .fenceDie (.array 17408), .fenceDie (.qp (2 ^ 32))] :
      List Instr), c.wf = false := by decide +kernel

theorem test_illformed_registers : ∀ c ∈ ([.registerWrite (.vat 8) 0 32 0, .registerWrite .mgmt (2 ^ 32) 32 0,
    .registerWrite .mgmt 0 24 0, .registerWrite .mgmt 0 32 (2 ^ 32), .ccVatStart .mgmt 8 0, .syncThreshHiWrite .mgmt 65536 0,
    .secKeyLoad .sec 256, .portEnableWrite .mgmt 0 (2 ^ 32), .regWinData 1 (some (2 ^ 32))] : List Instr), c.wf = false := by decide +kernel

theorem test_illformed_sessions : ∀ c ∈ ([.fapSessionIdleTimeout (2 ^ 32), .fapRead 1 (2 ^ 64) (exMsg 1 0 0),
    .fapRead 1 0 (exMsg 256 0 0), .fapRead 1 0 (exMsg 1 65536 0), .fapRead 1 0 (exMsg 1 0 256),
    .fapRead 1 0 { exMsg 1 0 0 with tag := 65536 }, .fapRead 1 0 { exMsg 1 0 0 with rsv := 2 ^ 24 },
    .fapRead 1 0 { exMsg 1 0 0 with count := 2 ^ 32 }, .fapDatagramDrop ⟨true, 2 ^ 32, true, 0, 0⟩,
    .fapDatagramDrop ⟨true, 0, true, 0, 1201⟩, .mbxMsgWrite 0 .mgmt 64 0, .mbxMsgWrite 0 (.vat 8) 0 0,
    .mbxMsgWrite 0 (.session (2 ^ 32)) 0 0, .mbxAck 0 .mgmt 256, .monCalStart (.register .mgmt 4 0),
    .streamOpen (.peer ⟨0, true, 0, 0, false, false, none⟩ 1 8)] : List Instr), c.wf = false := by decide +kernel

theorem test_illformed_long_octets (n : Nat) (h : 2 ^ 26 < n) : Instr.wf (.spdmKeyExchange true [List.replicate n 0]) = false := by
  simp [Instr.wf, okOctetsList, okOctets]; omega

theorem test_illformed_measurements : ∀ c ∈ ([.converterCalResult 0 8 0 [], .converterCalResult 0 0 1136 [],
    .converterCalResult 0 0 0 [⟨64, 0⟩], .converterCalResult 0 0 0 [⟨0, 16⟩], .refLineCalResult 0 2 ⟨0, 0⟩,
    .passCountsReady 0 [⟨3, 0, 0, none⟩] none, .passCountsReady 0 [⟨0, 0, 0, some 256⟩] none,
    .passCountsReady 0 [] (some (2 ^ 32, 0)), .gemm 0 (2 ^ 64) none, .gemm 0 0 (some (.residue (2 ^ 32) 0)),
    .gemm 0 0 (some (.scratchUe (2 ^ 32))), .gemm 0 0 (some (.silent (2 ^ 32))), .brineSliceDone (.array 0) (.failed 256),
    .brineSliceDone (.array 0) (.suspect 8 0), .patrolScrub 0 0 (some (.corrected 256)),
    .patrolScrub 0 0 (some (.uncorrectable (some 256))), .thermalSample [(288, 0)], .thermalSample [(0, 32768)],
    .urgentConversion (.faultLine 12) 0 0, .urgentConversion .sensorHub 64 0, .monCalDone 4 [], .thermalTrip (some (2 ^ 32))] :
      List Instr), c.wf = false := by decide +kernel

theorem test_illformed_fabric : ∀ c ∈ ([.dataWrite { exFrame 0 0 0 with port := 24 }, .dataWrite { exFrame 0 0 0 with offset := 2 ^ 48 },
    .dataWrite { exFrame 0 0 0 with hops := 16 }, .frameCheckDrop 0 0 { exRaw true 0 with vid := 4096 },
    .frameCheckDrop 0 0 { exRaw true 0 with typ := 16 }, .syncAdd (.wire { exFrame 0 0 0 with op := 256 }) 0 0,
    .syncAdd (.roce (2 ^ 32)) 0 0, .linkCredit 0 0 8 0, .linkCredit 0 0 0 8192, .pfcFrame 0 0 8 true, .roceCnp (2 ^ 32),
    .roceSend 0 (2 ^ 24) [] false, .roceAcknowledge 0 (.ack (2 ^ 24)), .roceAcknowledge 0 (.nak 0 256), .wakeEvent (.frame 24),
    .wakeEvent (.doorbell 64), .collCreate 1 [] [⟨65536, true, 0, 0, false, false, none⟩],
    .collCreate 1 [] [⟨0, true, 0, 4, false, false, none⟩]] : List Instr), c.wf = false := by decide +kernel

theorem test_illformed_serving_and_boot : ∀ c ∈ ([.planReceive 1 ⟨2 ^ 64, 0, [], [], []⟩, .planReceive 1 ⟨0, 0, [⟨65536, 0, 0, 0, 0⟩], [], []⟩,
    .planReceive 1 ⟨0, 0, [], [2 ^ 32], []⟩, .draftMessage 1 0 [2 ^ 32], .commitFence 0 [⟨0, [], 256, false, 0⟩],
    .taskPost (.vatCore 8 1) [], .taskPost (.partition 256) [], .whlVerify 1 [] ⟨none, true, []⟩,
    .recAdopt 1 [] ⟨none, ⟨none, true, []⟩, [], false⟩, .slotIdChange 64, .powerUp 0 ⟨256, 0, 0, 0, []⟩,
    .powerUp 0 ⟨0, 0, 0, 2 ^ 24, []⟩, .powerUp 0 ⟨0, 0, 0, 0, [65536]⟩, .jtagFuseProgram ⟨[], 256, 0, 0, 0, [], [], []⟩] :
      List Instr), c.wf = false := by decide +kernel

theorem test_wellformed : ∀ c ∈ ([.split 17407, .engineWake 511, .fapRead 1 0 (exMsg 1 0xFFFF 255), .registerWrite (.vat 7) 0 32 0,
    .dataWrite (exFrame 0 0 64), .thermalSample [(287, -32768)], .slotIdChange 63, .patrolScrub 7 0 none] : List Instr),
    c.wf = true := by decide +kernel

/-! ## Worked examples of the specification -/

/-- The example of R357: PER_CFG of ARR_12380 at 0x0058_2E40. -/
theorem test_register_example : locate 0x00582E40 = some ⟨.arr, 12380, 0x40⟩ := by decide +kernel

/-- The example of R253: region 0 over A0–A5, GiB 0–31, and region 1 over A4 alone, GiB 32–47; offset 0x1234 is in slice A0 at 820,
and offset 200 GiB in slice A4 at 40 GiB. -/
theorem test_region_example :
    spaceKeyIn [⟨1, 0, 0, 63, 0, 32⟩, ⟨1, 0, 1, 16, 32, 16⟩] 0x1234 = some (memKey 0 820) ∧
    spaceKeyIn [⟨1, 0, 0, 63, 0, 32⟩, ⟨1, 0, 1, 16, 32, 16⟩] (200 * 2 ^ 30) = some (memKey 4 (40 * 2 ^ 30)) := by decide +kernel

/-- The example of R495. -/
theorem test_stepping_numbers :
    steppingNumber [0x41, 0x30] = 0 ∧ steppingNumber [0x41, 0x31] = 1 ∧ steppingNumber [0x42, 0x30] = 4 ∧
    steppingNumber [0x42, 0x31] = 5 ∧ steppingNumber [0x44, 0x33] = 15 := by decide +kernel

/-- The example beside R411: 101.3125 °C calls for step 7, which grants floor(489 × 9 / 16) = 275; the brake at 12 grants 122. -/
theorem test_throttle_example :
    wantThermal 1621 = 7 ∧ gvAt State.reset 7 = 275 ∧ gvAt State.reset 12 = 122 := by decide +kernel

/-- The example of R49: the INT4 weight −2 is 0b1110. -/
theorem test_weight_example : storedWeight exInt4 0 1 = -2 := by decide +kernel

/-- The straps of R39: class 0b01 has slots 0 to 7, a bench has slot 0 alone, class 0b11 is invalid. -/
theorem test_straps : boardClass 0b001111 = some 16 ∧ boardClass 0b010111 = some 8 ∧ boardClass 0b011000 = none ∧
    boardClass 0b100000 = some 0 ∧ boardClass 0b100001 = none ∧ boardClass 0b110000 = none := by decide +kernel

/-- No opcode table row has bits, so no word spells a command and the queue is as it was. -/
theorem test_no_word_spells_a_command : decodeTableWord 32 0 = none ∧ State.reset.withFetchWord 32 0 = State.reset := ⟨rfl, rfl⟩

end Sys2Proof.Tests
end

section
/-! Batch steps (R215, R216, R225, R235): what each command of a step does once its own guards are met. -/

namespace Sys2Proof.Machine

/-! ## The member's start (R216) -/

/-- The lengths a plan names, taken before the member's boundary. -/
def takeNamed (plan : Plan) (s : State) : State :=
  { s with kv := { s.kv with named := plan.named.foldl (fun t n => tput none t n.1 (some n.2)) s.kv.named } }

/-- The one record of a plan whose epoch is not the wheel's. -/
def sayMismatch (part : Nat) (s : State) : State :=
  let t := s.writeErr (reportErr St.epochMismatch Kind.module 0 part)
  { t with srv := { t.srv with mismatchSaid := true } }

section
variable {s : State} {part : Nat} {plan : Plan} (hplan : s.srv.plan = some (part, plan)) (hstep : s.srv.step < plan.step)
    (hidle : stepInProgress s = false) (hrun : running s = true) (hmay : mayStart s = true)
    (hhold : (s.whlAt part).state ≠ 6) (hflip : (s.whlAt part).state ≠ 7)
include hplan hstep hidle hrun hmay hhold hflip

/-- Past the guards that make a member wait in silence, its start turns on the epoch and then on whether the wheel is held. -/
theorem memberStart_of_due :
    memberStart part s =
      if plan.epoch != (s.whlAt part).epoch then
        if s.srv.mismatchSaid then s else sayMismatch part s
      else
        let t := (stepBoundary (takeNamed plan s)).2
        if (t.whlAt part).held then countLive t else countLive (memberStep (rotatePools t) part plan) := by
  simp only [memberStart, hplan]
  rw [if_neg (by simp [hidle, hrun, hmay, hstep]), if_neg (by simp [hhold, hflip])]
  rfl

/-- A plan of another epoch is said once and not started. -/
theorem memberStart_of_epoch_ne (hepoch : plan.epoch ≠ (s.whlAt part).epoch) (hsaid : s.srv.mismatchSaid = false) :
    memberStart part s = sayMismatch part s := by
  rw [memberStart_of_due hplan hstep hidle hrun hmay hhold hflip, if_pos (bne_iff_ne.mpr hepoch), hsaid]
  rfl

/-- A plan of the wheel's epoch is started after the boundary, which must leave the wheel not held. -/
theorem memberStart_of_epoch_eq (hepoch : plan.epoch = (s.whlAt part).epoch)
    (hheld : ((stepBoundary (takeNamed plan s)).2.whlAt part).held = false) :
    memberStart part s = countLive (memberStep (rotatePools (stepBoundary (takeNamed plan s)).2) part plan) := by
  rw [memberStart_of_due hplan hstep hidle hrun hmay hhold hflip, if_neg (by simp [hepoch])]
  exact if_neg (by simp [hheld])

end

/-! ## The commands -/

section
variable {s : State}

theorem exec_stepBoundary_of_lead (hrun : running s = true) (hends : stepEnds s = true) (hrole : srvRole s = 1) :
    exec .stepBoundary s = .next (leadBoundary s) := by
  change execStepBoundary s = _
  simp [execStepBoundary, hrun, hends, hrole]

theorem exec_stepBoundary_of_member (part : Nat) (plan : Plan) (hrun : running s = true) (hends : stepEnds s = true)
    (hrole : srvRole s = 2) (hplan : s.srv.plan = some (part, plan)) :
    exec .stepBoundary s = .next (memberStart part s) := by
  change execStepBoundary s = _
  simp [execStepBoundary, hrun, hends, hrole, hplan]

theorem exec_stepBoundary_of_alone (hrun : running s = true) (hends : stepEnds s = true) (hrole : srvRole s = 0) :
    exec .stepBoundary s = .next (loneBoundary s) := by
  change execStepBoundary s = _
  simp [execStepBoundary, hrun, hends, hrole]

/-- An idle module makes its boundary at once (R19). -/
theorem exec_idleStepBoundary_of_idle (hrun : running s = true) (hidle : stepInProgress s = false) :
    exec .idleStepBoundary s = .next (countLive (boundaryWork (editedSeqs s) (applyPending s))) := by
  change execIdleStepBoundary s = _
  simp [execIdleStepBoundary, hrun, hidle]

/-- A member between steps keeps the plan of a later step (R215). -/
theorem exec_planReceive_of_later (part : Nat) (plan : Plan) (hrole : srvRole s = 2) (hrun : running s = true)
    (hstep : s.srv.step < plan.step) (hout : s.srv.inStep = false) :
    exec (.planReceive part plan) s =
      .next { s with srv := { s.srv with plan := some (part, plan), mismatchSaid := false } } := by
  change execPlanReceive part plan s = _
  simp [execPlanReceive, hrole, hrun, hstep, hout]

theorem exec_memberStepStart_of_member (part : Nat) (hrole : srvRole s = 2) :
    exec (.memberStepStart part) s = .next (memberStart part s) := by
  change execMemberStepStart part s = _
  exact if_pos hrole

/-- The lead marks the live requests of a sequence that a member of its group finds not VALID (R216). -/
theorem exec_seqInvalidReport_of_lead (part seq chip : Nat) (hrole : srvRole s = 1)
    (hchip : (otherMembers s).contains chip = true) :
    exec (.seqInvalidReport part seq chip) s = .next { s with srv := { s.srv with reqs := s.srv.reqs.map (fun q =>
      if q.part = part && q.seq = seq && q.live && q.failStatus = 0 then { q with failStatus := St.seqInvalid } else q) } } := by
  change execSeqInvalidReport part seq chip s = _
  exact if_pos (by rw [hrole, hchip]; rfl)

/-- The first drafts of a verify entry are kept, and a lead passes them on to the other members (R235). -/
theorem exec_draftMessage_of_verify (part seq : Nat) (drafts : List Nat) (hin : s.srv.inStep = true)
    (hrun : running s = true)
    (hentry : (s.srv.table.find? (fun e => e.seq = seq && e.kind = 2 && e.qlen = drafts.length + 1)).isSome = true)
    (hpart : (seqAt s seq).any (fun d => d.part = part) = true) (hrole : srvRole s ≠ 0)
    (hfirst : (tget [] s.srv.drafts seq).isEmpty = true) :
    exec (.draftMessage part seq drafts) s =
      let t := { s with srv := { s.srv with drafts := tput [] s.srv.drafts seq drafts } }
      .next (if srvRole s = 1 then (otherMembers s).foldl (fun s c => s.emit (.drafts c seq drafts)) t else t) := by
  change execDraftMessage part seq drafts s = _
  have hsent : (srvRole s != 0) = true := bne_iff_ne.mpr hrole
  simp only [execDraftMessage, hin, hrun, hentry, hpart, hsent, hfirst, Bool.and_self, if_true]

/-- The fence of a home vat core passes once it has what it needs of every request planned there (R225). -/
theorem exec_commitFence_of_ready (vat : Nat) (outcomes : List RowOutcome) (hin : s.srv.inStep = true)
    (hvat : vatServing s vat = true) (hreqs : fenceReqs s vat ≠ [])
    (hready : (fenceReqs s vat).all (fenceReady s outcomes) = true) :
    exec (.commitFence vat outcomes) s = .next (afterFence (commitFence s (fenceReqs s vat) outcomes)) := by
  change execCommitFence vat outcomes s = _
  have hsome : (fenceReqs s vat).isEmpty = false := List.isEmpty_eq_false_iff.mpr hreqs
  simp [execCommitFence, hin, hvat, hsome, hready]

end

/-- Settles O41: each clause is the rule of its command above, under the guards that the clause names; a member's start divides
on the epoch of its plan. -/
theorem batchStepsComplete : Obligations.BatchStepsComplete := by
  intro s
  refine ⟨fun hrun hends => ⟨exec_stepBoundary_of_lead hrun hends,
      fun part plan => exec_stepBoundary_of_member part plan hrun hends, exec_stepBoundary_of_alone hrun hends⟩,
    exec_idleStepBoundary_of_idle, exec_planReceive_of_later, ?start, exec_seqInvalidReport_of_lead, ?draft, ?fence⟩
  case start =>
    intro part plan hrole hplan hstep hidle hrun hmay hhold hflip
    rw [exec_memberStepStart_of_member part hrole]
    refine ⟨fun hepoch hsaid => ?_, fun hepoch t ht hheld => ?_⟩
    · exact congrArg _ (memberStart_of_epoch_ne hplan hstep hidle hrun hmay hhold hflip hepoch hsaid)
    · subst ht
      exact congrArg _ (memberStart_of_epoch_eq hplan hstep hidle hrun hmay hhold hflip hepoch hheld)
  case draft =>
    intro part seq drafts hin hrun hentry hpart hfirst
    have hdraft := fun hrole => exec_draftMessage_of_verify part seq drafts hin hrun hentry hpart hrole hfirst
    refine ⟨fun hlead => ?_, fun hmember => ?_⟩
    · rw [hdraft (by simp [hlead]), hlead]
      rfl
    · rw [hdraft (by simp [hmember]), hmember]
      rfl
  case fence =>
    intro vat outcomes x xs hin hvat hreqs hready
    rw [← hreqs] at hready ⊢
    exact exec_commitFence_of_ready vat outcomes hin hvat (by simp [hreqs]) hready

end Sys2Proof.Machine
end

section
/-! First boot (R21): in a vat whose slots have never been remapped, the arrays of a bay and their logical slots. -/

namespace Sys2Proof.Machine

/-! ## Numbering: bay b of a vat is its local arrays b × 17 to b × 17 + 16 -/

theorem vat_of_bayArray {v b k : Nat} (hb : b < 128) (hk : k < 17) : (v * 2176 + (b * 17 + k)) / 2176 = v := by omega

theorem local_of_bayArray {v b k : Nat} (hb : b < 128) (hk : k < 17) : (v * 2176 + (b * 17 + k)) % 2176 = b * 17 + k := by
  omega

theorem bay_of_local {b k : Nat} (hk : k < 17) : (b * 17 + k) / 17 = b := by omega

theorem place_of_local {b k : Nat} (hk : k < 17) : (b * 17 + k) % 17 = k := by omega

theorem bay_of_slot {b k : Nat} (hk : k < 16) : (b * 16 + k) / 16 = b := by omega

theorem place_of_slot {b k : Nat} (hk : k < 16) : (b * 16 + k) % 16 = k := by omega

/-! ## A vat whose slot map is empty -/

section
variable {s : State} {v : Nat} (hmap : (s.vatAt v).slotMap = [])
include hmap

theorem physOf_of_slotMap_nil (l : Nat) : physOf s v l = v * 2176 + (l / 16 * 17 + l % 16) := by
  rw [physOf, hmap, tget, Nat.add_assoc]

/-- The first sixteen arrays of a bay hold its slots; the seventeenth holds none. -/
theorem slotOf_bayArray {b k : Nat} (hb : b < 128) (hk : k < 17) :
    slotOf s (v * 2176 + (b * 17 + k)) = if k < 16 then some (b * 16 + k) else none := by
  simp only [slotOf, vat_of_bayArray hb hk, hmap, List.find?_nil, local_of_bayArray hb hk, bay_of_local hk, place_of_local hk]
  by_cases hslot : k < 16
  · simp [hslot, physOf_of_slotMap_nil hmap, bay_of_slot hslot, place_of_slot hslot]
  · simp [hslot]

/-- An unmapped slot is found again at the array that holds it. -/
theorem slotOf_physOf_of_slotMap_nil {l : Nat} (hl : l < 2048) :
    slotOf s (v * 2176 + (l / 16 * 17 + l % 16)) = some l := by
  have hplace : l % 16 < 16 := Nat.mod_lt _ (by decide)
  rw [slotOf_bayArray hmap (by omega) (by omega), if_pos hplace, Nat.div_add_mod']

theorem isSpare_bayArray {b : Nat} (hb : b < 128) (hpresent : vatPresent s v = true) :
    isSpare s (v * 2176 + (b * 17 + 16)) = true := by
  have hv : v < 8 := by
    simp only [vatPresent, Bool.and_eq_true, decide_eq_true_eq] at hpresent
    exact hpresent.1
  have hnumber : v * 2176 + (b * 17 + 16) < 17408 := by omega
  simp [isSpare, arrPresent, hnumber, vat_of_bayArray hb, hpresent, slotOf_bayArray hmap hb]

end

/-- No slot has been remapped at first boot. -/
theorem slotMap_reset (v : Nat) : (State.reset.vatAt v).slotMap = [] := rfl

/-- Settles O22: the slot map of the reset state is empty, so every array keeps the place R21 gives it. -/
theorem slotsAndSparesAtFirstBoot : Obligations.SlotsAndSparesAtFirstBoot := by
  intro v _ hpresent
  have hmap := slotMap_reset v
  exact ⟨fun l hl => ⟨physOf_of_slotMap_nil hmap l, slotOf_physOf_of_slotMap_nil hmap hl⟩,
    fun b hb => isSpare_bayArray hmap hb hpresent⟩

end Sys2Proof.Machine
end

section
/-! Exact products (R49, R50, R52, R56): the folding of counts read as a sum of place values, and the sum of an array's true
counts over its planes and slices. -/

namespace Sys2Proof.Machine

/-! ## Sums over lists of numbers -/

theorem sum_map_congr {l : List Nat} {f g : Nat → Int} (h : ∀ k ∈ l, f k = g k) : (l.map f).sum = (l.map g).sum :=
  congrArg List.sum (List.map_congr_left h)

theorem sum_map_eq_zero {l : List Nat} {f : Nat → Int} (h : ∀ k ∈ l, f k = 0) : (l.map f).sum = 0 := by
  induction l with
  | nil => rfl
  | cons k l ih =>
    rw [List.map_cons, List.sum_cons, h k List.mem_cons_self, ih fun j hj => h j (List.mem_cons_of_mem k hj), Int.add_zero]

theorem sum_map_add_map (l : List Nat) (f g : Nat → Int) :
    (l.map (fun k => f k + g k)).sum = (l.map f).sum + (l.map g).sum := by
  induction l with
  | nil => rfl
  | cons k l ih =>
    simp only [List.map_cons, List.sum_cons, ih]
    omega

theorem sum_map_const_mul (l : List Nat) (c : Int) (f : Nat → Int) :
    (l.map (fun k => c * f k)).sum = c * (l.map f).sum := by
  induction l with
  | nil => exact (Int.mul_zero c).symm
  | cons k l ih => simp only [List.map_cons, List.sum_cons, ih, Int.mul_add]

theorem sum_map_mul_const (l : List Nat) (c : Int) (f : Nat → Int) :
    (l.map (fun k => f k * c)).sum = (l.map f).sum * c := by
  simp only [Int.mul_comm _ c, sum_map_const_mul]

/-- Two sums may be taken in either order. -/
theorem sum_map_sum_map_comm (l m : List Nat) (f : Nat → Nat → Int) :
    (l.map (fun x => (m.map (fun y => f x y)).sum)).sum = (m.map (fun y => (l.map (fun x => f x y)).sum)).sum := by
  induction l with
  | nil => exact (sum_map_eq_zero fun _ _ => rfl).symm
  | cons x l ih => simp only [List.map_cons, List.sum_cons, ih, sum_map_add_map]

/-- What a filter drops does not count where it is zero. -/
theorem sum_map_filter_of_zero {l : List Nat} {keep : Nat → Bool} {f : Nat → Int}
    (h : ∀ k ∈ l, keep k = false → f k = 0) : ((l.filter keep).map f).sum = (l.map f).sum := by
  induction l with
  | nil => rfl
  | cons k l ih =>
    have hl := ih fun j hj => h j (List.mem_cons_of_mem k hj)
    cases hk : keep k with
    | true => rw [List.filter_cons_of_pos hk, List.map_cons, List.map_cons, List.sum_cons, List.sum_cons, hl]
    | false =>
      rw [List.filter_cons_of_neg (by rw [hk]; decide), List.map_cons, List.sum_cons, h k List.mem_cons_self hk, hl,
        Int.zero_add]

theorem sum_map_of_perm {l m : List Nat} (h : l.Perm m) (f : Nat → Int) : (l.map f).sum = (m.map f).sum := by
  induction h with
  | nil => rfl
  | cons k _ ih => rw [List.map_cons, List.map_cons, List.sum_cons, List.sum_cons, ih]
  | swap j k l =>
    simp only [List.map_cons, List.sum_cons]
    omega
  | trans _ _ ih₁ ih₂ => exact ih₁.trans ih₂

theorem sum_map_range_succ (n : Nat) (f : Nat → Int) :
    ((List.range (n + 1)).map f).sum = ((List.range n).map f).sum + f n := by
  rw [List.range_succ, List.map_append, List.sum_append_int, List.map_singleton, List.sum_cons, List.sum_nil, Int.add_zero]

theorem countP_eq_sum_map (l : List Nat) (f : Nat → Bool) :
    (l.countP f : Int) = (l.map (fun i => if f i then 1 else 0 : Nat → Int)).sum := by
  induction l with
  | nil => rfl
  | cons k l ih =>
    rw [List.map_cons, List.sum_cons, ← ih]
    cases hk : f k with
    | true =>
      rw [List.countP_cons_of_pos hk, if_pos rfl]
      omega
    | false =>
      rw [List.countP_cons_of_neg (by rw [hk]; decide), if_neg Bool.false_ne_true]
      omega

/-- A count over a range ends where nothing more is counted. -/
theorem countP_range_of_le {m n : Nat} {f : Nat → Bool} (hmn : m ≤ n) (hf : ∀ i, m ≤ i → f i = false) :
    (List.range n).countP f = (List.range m).countP f := by
  obtain ⟨k, rfl⟩ := Nat.exists_eq_add_of_le hmn
  have hrest : (List.range k).countP (f ∘ (m + ·)) = 0 := by
    refine List.countP_eq_zero.mpr fun i _ => ?_
    rw [Function.comp_apply, hf _ (Nat.le_add_right m i)]
    decide
  rw [List.range_add, List.countP_append, List.countP_map, hrest, Nat.add_zero]

/-! ## Two's complement by places -/

/-- The value of place `k` of a `w`-place two's complement number: the last place counts negative. -/
def placeWeight (w k : Nat) : Int := if k + 1 = w then -(2 ^ k) else 2 ^ k

theorem placeWeight_last (m : Nat) : placeWeight (m + 1) m = -(2 ^ m) := if_pos rfl

theorem placeWeight_of_lt {m k : Nat} (hk : k < m) : placeWeight (m + 1) k = 2 ^ k := if_neg (by omega)

theorem mul_boole (x : Int) (c : Bool) : x * (if c then 1 else 0) = if c then x else 0 := by
  cases c with
  | true => exact Int.mul_one x
  | false => exact Int.mul_zero x

/-- The low `m` bits of a number, by their values, are the number modulo `2 ^ m`. -/
theorem sum_testBit_eq_mod (x m : Nat) :
    ((List.range m).map (fun k => if x.testBit k then 2 ^ k else 0 : Nat → Int)).sum = (x % 2 ^ m : Nat) := by
  induction m with
  | zero =>
    rw [Nat.pow_zero, Nat.mod_one]
    rfl
  | succ m ih =>
    rw [sum_map_range_succ, ih, Nat.mod_pow_succ, ← Nat.toNat_testBit, Int.natCast_add]
    cases x.testBit m with
    | true => exact congrArg (_ + ·) (by rw [Bool.toNat_true, Nat.mul_one, if_pos rfl, Int.natCast_pow]; rfl)
    | false => rfl

/-- The field of an integer in range is the integer, with the modulus added to a negative one. -/
theorem toField_of_range {m : Nat} {x : Int} (hlo : -(2 ^ m) ≤ x) (hhi : x < 2 ^ m) :
    (toField (m + 1) x : Int) = if x < 0 then x + 2 ^ (m + 1) else x := by
  have hpow : (2 : Int) ^ (m + 1) = 2 * 2 ^ m := Int.pow_succ' 2 m
  have hcast : ((2 ^ (m + 1) : Nat) : Int) = 2 ^ (m + 1) := Int.natCast_pow 2 (m + 1)
  have hfield : (toField (m + 1) x : Int) = x % 2 ^ (m + 1) := by
    rw [toField, hcast]
    exact Int.toNat_of_nonneg (Int.emod_nonneg _ (by omega))
  rw [hfield]
  split
  · rw [← Int.add_emod_right, Int.emod_eq_of_lt (by omega) (by omega)]
  · exact Int.emod_eq_of_lt (by omega) (by omega)

/-- A number read as `m + 1` places of two's complement: its low places, less its last one. -/
theorem sum_placeWeight_testBit (x m : Nat) :
    ((List.range (m + 1)).map (fun p => placeWeight (m + 1) p * (if x.testBit p then 1 else 0))).sum =
      (x % 2 ^ m : Nat) - (if x.testBit m then 2 ^ m else 0) := by
  have hlow : ∀ p ∈ List.range m,
      placeWeight (m + 1) p * (if x.testBit p then 1 else 0) = if x.testBit p then 2 ^ p else 0 := by
    intro p hp
    rw [placeWeight_of_lt (List.mem_range.mp hp), mul_boole]
  rw [sum_map_range_succ, sum_map_congr hlow, sum_testBit_eq_mod, placeWeight_last, Int.neg_mul, mul_boole,
    ← Int.sub_eq_add_neg]

/-- The places of the field of an integer in range add up to the integer (R50). -/
theorem sum_placeWeight_toField {w : Nat} {x : Int} (hw : 0 < w) (hlo : -(2 ^ (w - 1)) ≤ x) (hhi : x < 2 ^ (w - 1)) :
    ((List.range w).map (fun p => placeWeight w p * (if bit (toField w x) p then 1 else 0))).sum = x := by
  obtain ⟨m, rfl⟩ : ∃ m, w = m + 1 := ⟨w - 1, by omega⟩
  rw [Nat.add_sub_cancel] at hlo hhi
  have hfield := toField_of_range hlo hhi
  have hpow : (2 : Int) ^ (m + 1) = 2 * 2 ^ m := Int.pow_succ' 2 m
  have hcast : ((2 ^ m : Nat) : Int) = 2 ^ m := Int.natCast_pow 2 m
  have hnat : 2 ^ (m + 1) = 2 * 2 ^ m := Nat.pow_succ'
  have hlt : toField (m + 1) x < 2 ^ (m + 1) := by split at hfield <;> omega
  have hplaces := sum_testBit_eq_mod (toField (m + 1) x) (m + 1)
  rw [sum_map_range_succ, sum_testBit_eq_mod, Nat.mod_eq_of_lt hlt] at hplaces
  have hrest := Nat.mod_lt (toField (m + 1) x) (Nat.two_pow_pos m)
  refine (sum_placeWeight_testBit _ m).trans ?_
  by_cases hsign : (toField (m + 1) x).testBit m = true
  · rw [if_pos hsign] at hplaces ⊢
    split at hfield <;> omega
  · rw [if_neg hsign] at hplaces ⊢
    split at hfield <;> omega

/-! ## Folding (R56) -/

/-- The count of column `j` over all segments. -/
def columnSum (c : List (List Nat)) (j : Nat) : Nat := (c.map (fun g => g.getD j 0)).sum

/-- What the counts of one plane weigh for output `o`, before the plane's own weight. -/
def sliceSum (a : ArrSt) (c : List (List Nat)) (o : Nat) : Int :=
  ((List.range (slicesOf (wFmt a))).map (fun k =>
    placeWeight (slicesOf (wFmt a)) k * columnSum c (o * slicesOf (wFmt a) + k))).sum

/-- What planes `ps`, with counts `c p` each, weigh together for output `o`. -/
def planesSum (a : ArrSt) (c : Nat → List (List Nat)) (ps : List Nat) (o : Nat) : Int :=
  (ps.map (fun p => placeWeight (planesOf a) p * sliceSum a (c p) o)).sum

theorem foldl_add_eq_add_sum (l : List Nat) (f : Nat → Int) (x : Int) :
    l.foldl (fun t k => t + f k) x = x + (l.map f).sum := by
  induction l generalizing x with
  | nil => exact (Int.add_zero x).symm
  | cons k l ih => rw [List.foldl_cons, ih, List.map_cons, List.sum_cons, Int.add_assoc]

/-- A fold adds to every accumulator the weighted counts of its columns. -/
theorem fold_eq (a : ArrSt) (p : Nat) (c : List (List Nat)) (acc : List Int) :
    fold a p c acc = acc.zipIdx.map (fun x => x.1 + placeWeight (planesOf a) p * sliceSum a c x.2) := by
  refine List.map_congr_left fun x _ => ?_
  refine (foldl_add_eq_add_sum _ (fun k => placeWeight (planesOf a) p * placeWeight (slicesOf (wFmt a)) k *
    columnSum c (x.2 * slicesOf (wFmt a) + k)) _).trans ?_
  simp only [Int.mul_assoc, sum_map_const_mul, sliceSum]

theorem length_fold (a : ArrSt) (p : Nat) (c : List (List Nat)) (acc : List Int) :
    (fold a p c acc).length = acc.length := by rw [fold_eq, List.length_map, List.length_zipIdx]

theorem fold_getD (a : ArrSt) (p : Nat) (c : List (List Nat)) {acc : List Int} {o : Nat} (ho : o < acc.length) :
    (fold a p c acc).getD o 0 = acc.getD o 0 + placeWeight (planesOf a) p * sliceSum a c o := by
  simp only [fold_eq, List.getD_eq_getElem?_getD, List.getElem?_map, List.getElem?_zipIdx, List.getElem?_eq_getElem ho,
    Option.map_some, Option.getD_some, Nat.zero_add]

/-- Folding planes one after the other adds up their weighted counts. -/
theorem foldl_fold_getD (a : ArrSt) (c : Nat → List (List Nat)) (ps : List Nat) {acc : List Int} {o : Nat}
    (ho : o < acc.length) :
    (ps.foldl (fun acc p => fold a p (c p) acc) acc).getD o 0 = acc.getD o 0 + planesSum a c ps o := by
  induction ps generalizing acc with
  | nil => exact (Int.add_zero _).symm
  | cons p ps ih =>
    rw [List.foldl_cons, ih (by rwa [length_fold]), fold_getD a p (c p) ho, planesSum, planesSum, List.map_cons,
      List.sum_cons, Int.add_assoc]

/-- From cleared accumulators, folding gives the weighted sum of the counts itself. -/
theorem foldl_fold_replicate_getD (a : ArrSt) (c : Nat → List (List Nat)) (ps : List Nat) {n o : Nat} (ho : o < n) :
    (ps.foldl (fun acc p => fold a p (c p) acc) (List.replicate n 0)).getD o 0 = planesSum a c ps o := by
  rw [foldl_fold_getD a c ps (by rwa [List.length_replicate]), List.getD_eq_getElem?_getD,
    List.getElem?_replicate_of_lt ho, Option.getD_some, Int.zero_add]

/-! ## True counts (R47, R52) -/

/-- Whether row `i` drives a 1 on plane `p` into a stored 1 of column `j`. -/
def meets (a : ArrSt) (q : List Int) (p j i : Nat) : Bool :=
  drives (planesOf a) (rowsUsed a) q p i && (tget 0 a.rows i).testBit j

theorem meets_of_row_unused (a : ArrSt) (q : List Int) (p j : Nat) {i : Nat} (hi : rowsUsed a ≤ i) :
    meets a q p j i = false := by
  rw [meets, drives, decide_eq_false (Nat.not_lt.mpr hi), Bool.false_and, Bool.false_and]

theorem trueCounts_eq (a : ArrSt) (q : List Int) (p half g : Nat) :
    trueCounts a q p half g = (List.range 1136).map (fun j => (segRows half g).countP (meets a q p j)) := by
  refine List.map_congr_left fun j _ => ?_
  rw [List.filter_map, List.length_map, List.filter_filter, List.countP_eq_length_filter]
  refine congrArg List.length (List.filter_congr fun i _ => ?_)
  rw [meets, Bool.and_comm]
  rfl

/-- The halves of a segment are its rows (R52). -/
theorem segRows_halves (g : Nat) : segRows 1 g ++ segRows 2 g = segRows 0 g := by
  change (List.range 64).map _ ++ (List.range 64).map _ = (List.range (64 + 64)).map _
  rw [List.range_add, List.map_append, List.map_map]
  refine congrArg ((List.range 64).map (128 * g + ·) ++ ·) (List.map_congr_left fun i _ => ?_)
  exact Nat.add_assoc _ _ _

/-- The rows of the first `m` segments are the first `128 m` rows (R47). -/
theorem sum_countP_segRows (f : Nat → Bool) (m : Nat) :
    ((List.range m).map (fun g => (segRows 0 g).countP f)).sum = (List.range (128 * m)).countP f := by
  induction m with
  | zero => rfl
  | succ m ih =>
    rw [List.range_succ, List.map_append, List.sum_append_nat, ih, Nat.mul_succ, List.range_add, List.countP_append]
    rfl

/-- The two half-counts of a split are together the counts of its plane (R52). -/
theorem addCounts_halves (a : ArrSt) (q : List Int) (p : Nat) :
    addCounts (truePass a q p 1) (truePass a q p 2) = truePass a q p 0 := by
  simp only [addCounts, truePass, trueCounts_eq, List.zip_map', List.map_map, Function.comp_def, ← List.countP_append,
    segRows_halves]
  exact List.map_congr_left fun g _ => (trueCounts_eq a q p 0 g).symm

/-- Bit `p` of the input of row `i`, as a number (R50). -/
def inputBit (a : ArrSt) (q : List Int) (p i : Nat) : Int := if bit (toField (planesOf a) (q.getD i 0)) p then 1 else 0

/-- The stored bit of row `i` in column `j`, as a number. -/
def cellBit (a : ArrSt) (i j : Nat) : Int := if (tget 0 a.rows i).testBit j then 1 else 0

theorem meets_of_row_used (a : ArrSt) (q : List Int) (p j : Nat) {i : Nat} (hi : i < rowsUsed a) :
    (if meets a q p j i then 1 else 0) = inputBit a q p i * cellBit a i j := by
  rw [meets, drives, decide_eq_true hi, Bool.true_and, inputBit, cellBit, mul_boole]
  cases bit (toField (planesOf a) (q.getD i 0)) p with
  | true => rw [Bool.true_and, if_pos rfl]
  | false => rw [Bool.false_and, if_neg Bool.false_ne_true, ite_self]

/-- A column's true count over all segments is the number of used rows that drive a 1 into a stored 1 (R47). -/
theorem columnSum_truePass {a : ArrSt} (q : List Int) (p : Nat) {j : Nat} (hrows : rowsUsed a ≤ 1024) (hj : j < 1136) :
    (columnSum (truePass a q p 0) j : Int) =
      ((List.range (rowsUsed a)).map (fun i => inputBit a q p i * cellBit a i j)).sum := by
  have hcolumn : (fun c => c.getD j 0) ∘ trueCounts a q p 0 = fun g => (segRows 0 g).countP (meets a q p j) := by
    funext g
    rw [Function.comp_apply, trueCounts_eq, List.getD_eq_getElem?_getD, List.getElem?_map, List.getElem?_range hj, Option.map_some,
      Option.getD_some]
  have hcount : columnSum (truePass a q p 0) j = (List.range (rowsUsed a)).countP (meets a q p j) := by
    rw [columnSum, truePass, List.map_map, hcolumn, sum_countP_segRows,
      countP_range_of_le hrows fun i hi => meets_of_row_unused a q p j hi]
  rw [hcount, countP_eq_sum_map]
  exact sum_map_congr fun i hi => meets_of_row_used a q p j (List.mem_range.mp hi)

/-! ## The product (R49, R55, R56) -/

/-- The columns of an output are data columns (R49). -/
theorem column_lt {fmt o k : Nat} (ho : o < outputsOf fmt) (hk : k < slicesOf fmt) : o * slicesOf fmt + k < 1136 := by
  unfold outputsOf at ho
  unfold slicesOf at hk ⊢
  by_cases hint2 : fmt = 0
  · rw [if_pos hint2] at *
    omega
  · rw [if_neg hint2] at *
    by_cases hint4 : fmt = 1
    · rw [if_pos hint4] at *
      omega
    · rw [if_neg hint4] at *
      omega

/-- A stored weight is the sum of its slices (R49). -/
theorem storedWeight_eq (a : ArrSt) (i o : Nat) :
    storedWeight a i o = ((List.range (slicesOf (wFmt a))).map (fun k =>
      placeWeight (slicesOf (wFmt a)) k * cellBit a i (o * slicesOf (wFmt a) + k))).sum := by
  simp only [cellBit, mul_boole]
  rfl

theorem planesOf_pos (a : ArrSt) : 0 < planesOf a := by
  unfold planesOf
  split <;> decide

/-- A row past the vector's end drives 0 (R50). -/
theorem getD_of_length_le {q : List Int} {i : Nat} (hi : q.length ≤ i) : q.getD i 0 = 0 := by
  rw [List.getD_eq_getElem?_getD, List.getElem?_eq_none hi, Option.getD_none]

theorem getD_in_range {q : List Int} {m : Nat} (i : Nat) (hq : ∀ x ∈ q, -(2 ^ m) ≤ x ∧ x < 2 ^ m) :
    -(2 ^ m) ≤ q.getD i 0 ∧ q.getD i 0 < 2 ^ m := by
  rcases Nat.lt_or_ge i q.length with hi | hi
  · rw [List.getD_eq_getElem?_getD, List.getElem?_eq_getElem hi, Option.getD_some]
    exact hq _ (List.getElem_mem hi)
  · have hpos : (0 : Int) < 2 ^ m := Int.pow_pos (by decide)
    rw [getD_of_length_le hi]
    omega

/-- The planes of a row give back its input (R50). -/
theorem sum_inputBit {a : ArrSt} {q : List Int} (i : Nat)
    (hq : ∀ x ∈ q, -(2 ^ (planesOf a - 1)) ≤ x ∧ x < 2 ^ (planesOf a - 1)) :
    ((List.range (planesOf a)).map (fun p => placeWeight (planesOf a) p * inputBit a q p i)).sum = q.getD i 0 := by
  obtain ⟨hlo, hhi⟩ := getD_in_range i hq
  exact sum_placeWeight_toField (planesOf_pos a) hlo hhi

/-- A plane that is skipped drives nothing (R55). -/
theorem inputBit_of_skipped {a : ArrSt} {q : List Int} {p i : Nat}
    (hskip : (List.range (min (rowsUsed a) q.length)).any (drives (planesOf a) (rowsUsed a) q p) = false)
    (hi : i < rowsUsed a) : inputBit a q p i = 0 := by
  refine if_neg ?_
  rcases Nat.lt_or_ge i q.length with hlen | hlen
  · have hrow := List.any_eq_false.mp hskip i (List.mem_range.mpr (Nat.lt_min.mpr ⟨hi, hlen⟩))
    rwa [drives, decide_eq_true hi, Bool.true_and] at hrow
  · rw [getD_of_length_le hlen, toField, Int.zero_emod, bit, Int.toNat_zero, Nat.zero_testBit]
    decide

/-- What the true counts of a plane weigh for output `o`: the weights of the rows that it drives. -/
theorem sliceSum_truePass {a : ArrSt} (q : List Int) (p : Nat) {o : Nat} (hrows : rowsUsed a ≤ 1024)
    (ho : o < outputsOf (wFmt a)) :
    sliceSum a (truePass a q p 0) o =
      ((List.range (rowsUsed a)).map (fun i => inputBit a q p i * storedWeight a i o)).sum := by
  have hcolumn : ∀ k ∈ List.range (slicesOf (wFmt a)),
      placeWeight (slicesOf (wFmt a)) k * columnSum (truePass a q p 0) (o * slicesOf (wFmt a) + k) =
        ((List.range (rowsUsed a)).map (fun i =>
          inputBit a q p i * (placeWeight (slicesOf (wFmt a)) k * cellBit a i (o * slicesOf (wFmt a) + k)))).sum := by
    intro k hk
    simp only [columnSum_truePass q p hrows (column_lt ho (List.mem_range.mp hk)), ← sum_map_const_mul, Int.mul_left_comm]
  simp only [storedWeight_eq, ← sum_map_const_mul]
  exact (sum_map_congr hcolumn).trans (sum_map_sum_map_comm _ _ _)

/-- The planes that are not skipped weigh together what all planes do. -/
theorem planesSum_livePlanes_eq_sum {a : ArrSt} {q : List Int} {o : Nat} (hrows : rowsUsed a ≤ 1024)
    (ho : o < outputsOf (wFmt a)) :
    planesSum a (fun p => truePass a q p 0) (livePlanes a q) o =
      ((List.range (planesOf a)).map (fun p => placeWeight (planesOf a) p * sliceSum a (truePass a q p 0) o)).sum := by
  refine sum_map_filter_of_zero fun p _ hskip => ?_
  rw [sliceSum_truePass q p hrows ho, sum_map_eq_zero, Int.mul_zero]
  intro i hi
  rw [inputBit_of_skipped hskip (List.mem_range.mp hi), Int.zero_mul]

/-- The planes that are not skipped weigh together the exact product (R56). -/
theorem planesSum_livePlanes {a : ArrSt} {q : List Int} {o : Nat} (hrows : rowsUsed a ≤ 1024) (ho : o < outputsOf (wFmt a))
    (hq : ∀ x ∈ q, -(2 ^ (planesOf a - 1)) ≤ x ∧ x < 2 ^ (planesOf a - 1)) :
    planesSum a (fun p => truePass a q p 0) (livePlanes a q) o = productOf a q o := by
  calc planesSum a (fun p => truePass a q p 0) (livePlanes a q) o
    _ = ((List.range (planesOf a)).map (fun p => ((List.range (rowsUsed a)).map (fun i =>
          placeWeight (planesOf a) p * inputBit a q p i * storedWeight a i o)).sum)).sum := by
      simp only [planesSum_livePlanes_eq_sum hrows ho, sliceSum_truePass q _ hrows ho, ← sum_map_const_mul, Int.mul_assoc]
    _ = ((List.range (rowsUsed a)).map (fun i => ((List.range (planesOf a)).map (fun p =>
          placeWeight (planesOf a) p * inputBit a q p i * storedWeight a i o)).sum)).sum := sum_map_sum_map_comm _ _ _
    _ = ((List.range (rowsUsed a)).map (fun i => q.getD i 0 * storedWeight a i o)).sum := by
      simp only [sum_map_mul_const, sum_inputBit _ hq]
    _ = productOf a q o := rfl

/-- Settles O23: folding adds up weighted column counts in any order, true counts are sums over the rows, and two's complement
read plane by plane and slice by slice gives back inputs and weights. -/
theorem arrayComputesItsProduct : Obligations.ArrayComputesItsProduct := by
  intro a q n o hrows hn ho hq
  refine ⟨fun ps hps => ?_, fun ps c => foldl_fold_replicate_getD a c ps hn, addCounts_halves a q⟩
  rw [foldl_fold_replicate_getD a (fun p => truePass a q p 0) ps hn, ← planesSum_livePlanes hrows ho hq]
  exact sum_map_of_perm hps _

end Sys2Proof.Machine
end

section
/-! Register writes (R79, R80, R174, R262, R330, R357, R359): where an address lies, and what the register there stores. -/

namespace Sys2Proof.Machine

/-! ## Where an address lies (R357) -/

/-- Whether a row of the table of blocks holds an address. -/
def blockHolds (addr : Nat) (b : Blk × Nat × Nat × Nat) : Bool := b.2.1 ≤ addr && addr < b.2.1 + b.2.2.1 * b.2.2.2

/-- The rows of the table rise, and each ends before the next one begins. -/
theorem blocks_rise : blocks.Pairwise (fun b c => b.2.1 + b.2.2.1 * b.2.2.2 ≤ c.2.1) := by decide

/-- In rising rows, the row that holds an address is the one found. -/
theorem find?_blockHolds {addr : Nat} {b : Blk × Nat × Nat × Nat} (hholds : blockHolds addr b = true)
    {l : List (Blk × Nat × Nat × Nat)} (hrise : l.Pairwise (fun b c => b.2.1 + b.2.2.1 * b.2.2.2 ≤ c.2.1)) (hb : b ∈ l) :
    l.find? (blockHolds addr) = some b := by
  induction l with
  | nil => cases hb
  | cons c l ih =>
    rw [List.pairwise_cons] at hrise
    rcases List.mem_cons.mp hb with rfl | hb
    · exact List.find?_cons_of_pos hholds
    · have hbefore := hrise.1 b hb
      have hnot : ¬ blockHolds addr c = true := by
        simp only [blockHolds, Bool.and_eq_true, decide_eq_true_eq] at hholds ⊢
        omega
      rw [List.find?_cons_of_neg hnot, ih hrise.2 hb]

section
variable {blk : Blk} {base stride count : Nat} (hb : (blk, base, stride, count) ∈ blocks)
include hb

theorem locate_of_mem_blocks {addr : Nat} (hlo : base ≤ addr) (hhi : addr < base + stride * count) :
    locate addr = some ⟨blk, (addr - base) / stride, (addr - base) % stride⟩ := by
  have hholds : blockHolds addr (blk, base, stride, count) = true := by simp [blockHolds, hlo, hhi]
  change (blocks.find? (blockHolds addr)).map _ = _
  rw [find?_blockHolds hholds blocks_rise hb]
  rfl

/-- Block `i` of a row lies at its base and `i` strides. -/
theorem locate_register {i off : Nat} (hi : i < count) (hoff : off < stride) :
    locate (base + stride * i + off) = some ⟨blk, i, off⟩ := by
  have hend : stride * i + off < stride * count :=
    calc stride * i + off < stride * (i + 1) := by rw [Nat.mul_succ]; omega
      _ ≤ stride * count := Nat.mul_le_mul_left _ hi
  have hinner : base + stride * i + off - base = off + stride * i := by omega
  rw [locate_of_mem_blocks hb (by omega) (by omega), hinner, Nat.add_mul_div_left _ _ (by omega), Nat.div_eq_of_lt hoff,
    Nat.zero_add, Nat.add_mul_mod_self_left, Nat.mod_eq_of_lt hoff]

end

/-- The blocks whose registers are all read-only keep their values (R175, R302, R428, R429). -/
theorem regStore_of_readOnly (s : State) (agent : RegAgent) {r : RegRef} (w : Nat)
    (hro : r.blk ∈ [Blk.thm, Blk.pwr, Blk.veVat, Blk.press]) : regStore s agent r w = s := by
  simp only [List.mem_cons, List.not_mem_nil, or_false] at hro
  rcases hro with hblk | hblk | hblk | hblk <;> simp only [regStore, hblk]

/-! ## REGISTER_WRITE (R359) -/

section
variable {s : State} {agent : RegAgent} {addr width : Nat} (hpower : s.pwr.state ≠ .s4) (hagent : agent ≠ .window)
include hpower hagent

/-- A write that the bus lets through is stored in the register of its address. -/
theorem exec_registerWrite_of_busStatus_zero {r : RegRef} (value : Nat) (hbus : busStatus s agent addr width = 0)
    (hloc : locate addr = some r) : exec (.registerWrite agent addr width value) s = .next (regStore s agent r value) := by
  change execRegisterWrite agent addr width value s = _
  simp [execRegisterWrite, hpower, hagent, hbus, hloc]

/-- A write to a block whose registers are all read-only leaves the module as it is. -/
theorem exec_registerWrite_of_readOnly {b : Blk × Nat × Nat × Nat} (value : Nat) (hbus : busStatus s agent addr width = 0)
    (hb : b ∈ blocks) (hro : b.1 ∈ [Blk.thm, Blk.pwr, Blk.veVat, Blk.press]) (hlo : b.2.1 ≤ addr)
    (hhi : addr < b.2.1 + b.2.2.1 * b.2.2.2) :
    exec (.registerWrite agent addr width value) s = .next s := by
  rw [exec_registerWrite_of_busStatus_zero hpower hagent value hbus (locate_of_mem_blocks hb hlo hhi),
    regStore_of_readOnly s agent value hro]

/-- A write that the bus refuses answers its agent and stores nothing. -/
theorem exec_registerWrite_of_busStatus_ne_zero (value : Nat) (hbus : busStatus s agent addr width ≠ 0) :
    exec (.registerWrite agent addr width value) s = .next (busError s agent addr (busStatus s agent addr width)) := by
  change execRegisterWrite agent addr width value s = _
  simp only [execRegisterWrite, hpower, hagent, decide_false, Bool.or_self, Bool.false_eq_true, if_false]
  cases locate addr with
  | none => rfl
  | some r => exact congrArg _ (if_neg hbus)

end

/-! ## What the registers store -/

/-- An engine's control register: POOL waits for the boundary, the rest is in force at once (R174). -/
theorem veRegWrite_ctrl {w : Nat} (s : State) (n : Nat) (hpool : bits w 1 0 ≠ 3) :
    veRegWrite s n 0 w = s.setEng n { s.engAt n with
      poolPend := some (bits w 1 0), stealEn := bit w 2, gateEn := bit w 3 } := by
  simp [veRegWrite, hpool, State.modEng]

/-- An array's buffered registers: an admitted value waits for the step boundary (R106). -/
theorem arrRegWrite_buffered {s : State} {n off w : Nat} (hlo : 0x40 ≤ off) (hhi : off ≤ 0x50)
    (hok : arrRegStatus s off w = 0) :
    arrRegWrite s n off w = s.setArr n { s.arrAt n with
      pend := tput none (s.arrAt n).pend off (some (BitVec.ofNat 32 (arrStepMask off w))) } := by
  have hctrl : off ≠ 0 := by omega
  simp [arrRegWrite, hctrl, hlo, hhi, hok, State.modArr]

/-- A sync object's stride: a nonzero value is taken unless the object is BROKEN (R330). -/
theorem syncRegWrite_stride {s : State} {n w : Nat} (hbroken : (s.objAt n).broken = false) (hw : w % 2 ^ 32 ≠ 0) :
    syncRegWrite s n 0x10 w = s.setObj n { s.objAt n with stride := BitVec.ofNat 32 w } := by
  simp only [syncRegWrite, hbroken, Bool.false_eq_true, if_false]
  exact if_neg hw

/-- Settles O20: the address names the register, and each register stores as its own law above says. -/
theorem registerWriteCompletes : Obligations.RegisterWriteCompletes := by
  refine ⟨fun s agent addr value hpower hagent hbus => ?_,
    fun s agent addr width value hpower hagent hbus => exec_registerWrite_of_busStatus_ne_zero hpower hagent value hbus⟩
  have hstore := fun r => exec_registerWrite_of_busStatus_zero (r := r) hpower hagent value hbus
  refine ⟨?errlog, ?scrub, ?engine, ?array, ?sync, ?readOnly⟩
  case errlog =>
    rintro rfl
    exact hstore ⟨.errlog, 0, 8⟩ rfl
  case scrub =>
    rintro k hk rfl
    exact hstore _ (locate_register (blk := .memA) (by decide) hk (by decide))
  case engine =>
    rintro n hn rfl hpool
    rw [hstore _ (locate_register (blk := .ve) (off := 0) (by decide) hn (by decide))]
    exact congrArg _ (veRegWrite_ctrl s n hpool)
  case array =>
    rintro n off hn hlo hhi rfl hok
    rw [hstore _ (locate_register (blk := .arr) (by decide) hn (by omega))]
    exact congrArg _ (arrRegWrite_buffered hlo hhi hok)
  case sync =>
    rintro n hn rfl hbroken hw
    rw [hstore _ (locate_register (blk := .sync) (by decide) hn (by decide))]
    exact congrArg _ (syncRegWrite_stride hbroken hw)
  case readOnly =>
    have hkeep := fun b => exec_registerWrite_of_readOnly (b := b) hpower hagent value hbus
    rintro (⟨hlo, hhi⟩ | ⟨hlo, hhi⟩ | ⟨hlo, hhi⟩)
    · rcases Nat.lt_or_ge addr 0x3000 with hthm | hpwr
      · exact hkeep (.thm, 0x2000, 0x1000, 1) (by decide) (by decide) hlo hthm
      · exact hkeep (.pwr, 0x3000, 0x1000, 1) (by decide) (by decide) hpwr hhi
    · exact hkeep (.veVat, 0x21000, 0x100, 8) (by decide) (by decide) hlo hhi
    · exact hkeep (.press, 0x42000, 0x100, 4) (by decide) (by decide) hlo hhi

end Sys2Proof.Machine
end

section
/-! Waking, granting, launching and splitting (R53, R60–R62) at or after the earliest time, where local time stands still. -/

namespace Sys2Proof.Machine

/-! ## Waking and granting (R61, R62) -/

section
variable {s : State} {n : Nat}

theorem exec_arrayWake_of_waking {t : Nat} (hrun : running s = true) (hwaking : (s.arrAt n).waking = some t)
    (hfence : (s.arrAt n).fenced = false) (hvat : vatFenced s (n / 2176) = false) (htime : t + 40 ≤ s.time) :
    exec (.arrayWake n) s =
      .next (acceptWaiting (s.setArr n { s.arrAt n with awake := true, waking := none, idleSince := s.time }) n) := by
  change execArrayWake n s = _
  simp [execArrayWake, hwaking, hrun, hfence, hvat, State.until_of_le s _ htime]

theorem exec_passGrant_of_asking {v : Nat} {l : List Nat} (hrun : running s = true) (hasking : (s.vatAt v).asking = n :: l)
    (hvat : vatFenced s v = false) (hfree : (s.vatAt v).grants.length < s.pwr.gV) :
    exec (.passGrant v) s = .next (acceptWaiting (giveGrant s n) n) := by
  change execPassGrant v s = _
  simp [execPassGrant, hasking, hrun, hvat, gv, hfree]

/-- A grant moves the array from its vat's queue to its vat's grants. -/
theorem giveGrant_vat {l : List Nat} (hasking : (s.vatAt (n / 2176)).asking = n :: l) :
    (giveGrant s n).vat = tput {} s.vat (n / 2176) { s.vatAt (n / 2176) with
      grants := n :: (s.vatAt (n / 2176)).grants, asking := l.filter (· != n) } := by
  simp [giveGrant, State.modVat, State.setVat, hasking]

/-! ## Launching (R53, R60) -/

/-- A pass launched at or after its earliest time is launched now. -/
theorem launched_of_due {i plane : Nat} {isSplit : Bool} {f : Product → Product} {p : Product}
    (hp : (s.arrAt n).products[i]? = some p) (haccepted : p.acceptedAt + 2 ≤ s.time)
    (hvoid : ((p.voids.find? (fun v => isSplit && v.1 = plane)).map (·.2 + 4)).getD 0 ≤ s.time)
    (hlast : ((s.arrAt n).lastLaunch.map (· + 1)).getD 0 ≤ s.time) :
    launched s n i isSplit plane f = State.tel (s.setArr n { s.arrAt n with
      taps := (s.arrAt n).tapsPend.foldl (fun m q => tput (32, 8) m q.1 (q.2.getD (32, 8))) (s.arrAt n).taps, tapsPend := []
      products := lset (s.arrAt n).products i { f p with
        inFlight := p.inFlight ++ [⟨plane, isSplit, s.time⟩], lastLaunch := s.time }
      lastLaunch := some s.time, passCnt := (s.arrAt n).passCnt + 1
      splitCnt := if isSplit then (s.arrAt n).splitCnt + 1 else (s.arrAt n).splitCnt }) (arrPart s n) 0 1 0 0 := by
  simp only [launched, hp]
  rw [State.until_of_le s _ (Nat.max_le.mpr ⟨Nat.max_le.mpr ⟨haccepted, hvoid⟩, hlast⟩)]
  rfl

theorem exec_arrayPassLaunch_of_ready {i b : Nat} (hready : planeReady (s.arrAt n) = some (i, b))
    (hcan : canLaunch s n = true) :
    exec (.arrayPassLaunch n) s = .next (launched s n i false b (fun p => { p with todo := p.todo.tail })) := by
  change execArrayPassLaunch n s = _
  simp [execArrayPassLaunch, hready, hcan]

theorem exec_split_of_ready {i : Nat} {v : Nat × Nat} (hready : splitReady (s.arrAt n) = some (i, v))
    (hcan : canLaunch s n = true) :
    exec (.split n) s =
      .next (launched s n i true v.1 (fun p => { p with voids := p.voids.filter (· != v), split := true })) := by
  change execSplit n s = _
  simp [execSplit, hready, hcan]

end

/-- Settles O25: each command does what its own rule above says, and a launch that is due happens now. -/
theorem passesLaunch : Obligations.PassesLaunch := by
  intro s n hrun
  refine ⟨fun t => exec_arrayWake_of_waking hrun, ?grant, ?launch, ?split⟩
  case grant =>
    rintro v l hasking rfl hvat hfree
    exact ⟨exec_passGrant_of_asking hrun hasking hvat hfree, giveGrant_vat hasking⟩
  case launch =>
    intro i b p hready hcan hp haccepted hlast
    rw [exec_arrayPassLaunch_of_ready hready hcan, launched_of_due hp haccepted ?_ hlast]
    · rfl
    · rw [List.find?_eq_none.mpr (by simp)]
      exact Nat.zero_le _
  case split =>
    intro i b t p hready hcan hp hvoid htime hlast
    obtain ⟨haccepted, hdue⟩ := Nat.max_le.mp htime
    rw [exec_split_of_ready hready hcan, launched_of_due hp haccepted ?_ hlast]
    · rfl
    · simp only [Bool.true_and, hvoid, Option.map_some, Option.getD_some]
      exact hdue

end Sys2Proof.Machine
end

section
/-! The counts of a pass (R52, R56, R59, R65, R374): a residue failure, an overrange, a check beyond tolerance, a fold. -/

namespace Sys2Proof.Machine

section
variable {s : State} {n i : Nat} {p : Product} {b : Pass} (reports : List ConvReport)
    (hold : oldestInFlight (s.arrAt n) = some (i, p, b)) (hfence : (s.arrAt n).fenced = false) (hrun : running s = true)
    (htime : b.launch + 4 ≤ s.time)
include hold hfence hrun htime

/-- A residue failure fences the array before any count is looked at (R374). -/
theorem exec_passCountsReady_of_residue (e f : Nat) :
    exec (.passCountsReady n reports (some (e, f))) s =
      .next (fenceArray s n { checkErr s n Mech.residue p.tag 0 b.plane 0 0 0 with detailA := e * 256 + f, detailB := 0 }) := by
  change execPassCountsReady n reports (some (e, f)) s = _
  simp [execPassCountsReady, hold, hfence, hrun, State.until_of_le s _ htime]

section
variable {rs : List (List (Option Nat))} {c : CheckOut} (hfull : b.split = false)
    (hrs : passReports (s.arrAt n) p.q b.plane 0 reports = rs)
include hfull hrs

/-- A full pass with an overrange is void and waits for its split (R52). -/
theorem exec_passCountsReady_of_over {x : Nat × Nat} (hover : firstOver rs = some x) :
    exec (.passCountsReady n reports none) s = .next (s.setArr n { s.arrAt n with
      products := lset (s.arrAt n).products i { p with
        inFlight := p.inFlight.tail, voids := p.voids ++ [(b.plane, b.launch)] } }) := by
  change execPassCountsReady n reports none s = _
  simp [execPassCountsReady, hold, hfence, hrun, State.until_of_le s _ htime, hfull, hrs, hover]

/-- A full pass in range whose checks hold is folded into its product (R56). -/
theorem exec_passCountsReady_of_checked (hin : firstOver rs = none)
    (hc : evaluate (cfgNat s Key.tolRepeatPasses) b.plane 0 (s.arrAt n) (countsOf rs) = c) (hraised : c.raised = none) :
    exec (.passCountsReady n reports none) s = .next (folded s n i (s.arrAt n) p b c (countsOf rs) 0) := by
  change execPassCountsReady n reports none s = _
  simp [execPassCountsReady, hold, hfence, hrun, State.until_of_le s _ htime, hfull, hrs, hin, hc, hraised]

/-- A mismatch beyond tolerance in a full pass in range fences the array (R65). -/
theorem exec_passCountsReady_of_raised {m : Nat × Nat × Int} (hin : firstOver rs = none)
    (hc : evaluate (cfgNat s Key.tolRepeatPasses) b.plane 0 (s.arrAt n) (countsOf rs) = c) (hraised : c.raised = some m) :
    exec (.passCountsReady n reports none) s =
      .next (fenceArray (s.setArr n c.arr) n (checkErr s n Mech.checkColumn p.tag 0 b.plane m.1 m.2.1 m.2.2)) := by
  change execPassCountsReady n reports none s = _
  simp [execPassCountsReady, hold, hfence, hrun, State.until_of_le s _ htime, hfull, hrs, hin, hc, hraised]

end
end

/-- Settles O26: the clauses are the branches of a pass's counts, in order: residue, overrange, checks, folding. -/
theorem passCountsComplete : Obligations.PassCountsComplete := by
  intro s n i p b reports hold hfence hrun htime
  refine ⟨exec_passCountsReady_of_residue reports hold hfence hrun htime, fun hfull => ⟨fun _ => ?overrange, fun hin => ?checked,
    fun hin _ => ?raised⟩⟩
  case overrange => exact exec_passCountsReady_of_over reports hold hfence hrun htime hfull rfl
  case checked => exact exec_passCountsReady_of_checked reports hold hfence hrun htime hfull rfl hin rfl
  case raised => exact exec_passCountsReady_of_raised reports hold hfence hrun htime hfull rfl hin rfl

end Sys2Proof.Machine
end

section
/-! Input records (R83, R257, R37): a record whose unit is there and in service reaches its array, which checks it once. -/

namespace Sys2Proof.Machine

section
variable {s : State} {vat slot : Nat} {w : WaitRec}

/-! ## Delivery to the array of a slot (R83, R257) -/

/-- A sound record that passes the checks of R83 is taken. -/
theorem deliver_of_passed (hpoison : w.poisoned = false)
    (hcheck : recordCheck (s.arrAt (physOf s vat slot)) (slotNamed s vat slot) w.record = 0) :
    deliver s vat slot w = enqueueRecord s (physOf s vat slot) w := by
  simp [deliver, hpoison, hcheck]

/-- The poison of a record is looked at after the checks of R83 (R257). -/
theorem deliver_of_poisoned (hnew : w.checked = false) (hpoison : w.poisoned = true)
    (hcheck : recordCheck (s.arrAt (physOf s vat slot)) (slotNamed s vat slot) w.record = 0) :
    deliver s vat slot w = refuseRecord s (physOf s vat slot) w St.memPoisoned false := by
  simp [deliver, hnew, hpoison, hcheck]

/-- A failing check of R83 decides the status, whether the record is poisoned or not. -/
theorem deliver_of_failed (hnew : w.checked = false)
    (hcheck : recordCheck (s.arrAt (physOf s vat slot)) (slotNamed s vat slot) w.record ≠ 0) :
    deliver s vat slot w = refuseRecord s (physOf s vat slot) w
      (recordCheck (s.arrAt (physOf s vat slot)) (slotNamed s vat slot) w.record) false := by
  simp [deliver, hnew, hcheck]

/-! ## The command (R37, R83) -/

variable (sender : Agent) (record : Octets) (poisoned : Bool) (hpower : s.pwr.state = .s0)
include hpower

/-- A record for a slot that is there, with a target and in service, is delivered to the array of its slot. -/
theorem exec_arrayInputRecord_of_inService (hpresent : vatPresent s vat = true) (hslot : slot < 2048)
    (hfence : vatFenced s vat = false) (htarget : (s.vatAt vat).noTarget.contains slot = false)
    (hremap : (s.vatAt vat).remaps.any (fun r => r.slot = slot) = false) :
    exec (.arrayInputRecord sender vat slot record poisoned) s =
      .next (deliver s vat slot ⟨sender, record, s.time, poisoned, false⟩) := by
  change execArrayInputRecord sender vat slot record poisoned s = _
  have hinside : ¬ 2048 ≤ slot := Nat.not_le.mpr hslot
  simp only [execArrayInputRecord, arrayRecord, hpower, hpresent, hinside, hfence, htarget, hremap, bne_self_eq_false,
    Bool.not_true, decide_false, Bool.or_false, Bool.false_eq_true, if_false]

/-- A record for a vat or a slot that is not there is refused (R37). -/
theorem exec_arrayInputRecord_of_absent (habsent : vatPresent s vat = false ∨ 2048 ≤ slot) :
    exec (.arrayInputRecord sender vat slot record poisoned) s = .next (s.emit (.status sender St.unitAbsent)) := by
  change execArrayInputRecord sender vat slot record poisoned s = _
  simp [execArrayInputRecord, arrayRecord, hpower, habsent]

end

/-- Settles O24: the command delivers the record to the array of its slot, whose checks take or refuse it. -/
theorem inputRecordCompletes : Obligations.InputRecordCompletes := by
  intro s sender vat slot record hpower n
  refine ⟨fun hpresent hslot hfence htarget hremap => ?inService,
    exec_arrayInputRecord_of_absent sender record false hpower⟩
  have hdeliver := fun poisoned =>
    exec_arrayInputRecord_of_inService sender record poisoned hpower hpresent hslot hfence htarget hremap
  refine ⟨fun hpassed => ⟨?taken, ?poisoned⟩, fun hfailed => ?refused⟩
  case taken => rw [hdeliver, deliver_of_passed rfl hpassed]
  case poisoned => rw [hdeliver, deliver_of_poisoned rfl rfl hpassed]
  case refused => rw [hdeliver, deliver_of_failed rfl hfailed]

end Sys2Proof.Machine
end

section
/-! Wheel commands (R117, R118, R137, R138, R140): an admitted command answers what its body gives in the wheel states that the
body admits. -/

namespace Sys2Proof.Machine

/-- An admitted command that is a command row ends as its body says. -/
theorem exec_of_cmdRow {c : Instr} {k : Nat} {range : State → Octets → Nat} {body : Nat → Nat → Octets → State → CmdAns}
    {s : State} {sess : Nat} {arg : Octets} {a : CmdAns}
    (hexec : exec c s = .next (cmdRow k (cmdWrite k range body) sess arg s)) (hready : cmdReady s sess k arg = true)
    (hrange : range s arg = 0) (hbody : body sess (sessPart s sess) arg s = a) :
    exec c s = .next (cmdDone s sess k a) := by
  rw [hexec, cmdRow_ready hready hrange, hbody]

theorem inStates_of_contains {s : State} {p : Nat} {states : List Nat} (k : CmdAns) (hp : p ≠ 0)
    (hin : states.contains (s.whlAt p).state = true) : inStates p states s k = k := by
  rw [inStates, if_neg hp, if_pos hin]

/-- The argument 1 is the one that `oneRange` admits. -/
theorem oneRange_of_one (s : State) {arg : Octets} (harg : leNat arg = 1) : oneRange s arg = 0 := if_pos harg

/-- WHL_PLACE admits the arguments 0 and 1. -/
theorem placeRange_of_le (s : State) {arg : Octets} (harg : leNat arg ≤ 1) : placeRange s arg = 0 := if_pos harg

/-! ## The bodies -/

section
variable {s : State} {p : Nat} (sess : Nat) (arg : Octets) (hp : p ≠ 0)
include hp

section
variable {slot : Nat} (hempty : (s.whlAt p).state = 0) (hchan : chanCount s 7 < 16) (hslot : pickSlot s = some slot)
include hempty hchan hslot

/-- Without a cave, staging opens its channel and nothing else (R137). -/
theorem whlStageBody_of_noCave (hcave : hasCave s = false) :
    whlStageBody sess p arg s =
      doneAt ((openChan s slot p (.staging p)).2.modWhl p (fun w => { w with state := 1, staged := some (leNat arg, slot, []) }))
        (openChan s slot p (.staging p)).1 := by
  rw [whlStageBody, inStates_of_contains _ hp (by simp [hempty]), hcave, hslot]
  exact if_neg (Nat.not_le.mpr hchan)

/-- With a cave, staging takes a free slot of it first (R127, R137). -/
theorem whlStageBody_of_freeCave {k : Nat} (hcave : hasCave s = true) (hfree : freeCave s = some k) :
    whlStageBody sess p arg s =
      let t := setCave s k (.pending p)
      doneAt ((openChan t slot p (.staging p)).2.modWhl p (fun w => { w with state := 1, staged := some (leNat arg, slot, []) }))
        (openChan t slot p (.staging p)).1 := by
  rw [whlStageBody, inStates_of_contains _ hp (by simp [hempty]), hcave, hfree, hslot]
  exact if_neg (Nat.not_le.mpr hchan)

end

/-- A staged envelope is verified or refused (R117). -/
theorem whlVerifyBody_of_staged (crypto : EnvelopeCrypto) (hstaged : (s.whlAt p).state = 1) :
    whlVerifyBody crypto sess p arg s =
      if (verified s p crypto).1 = 0 then doneAt (verified s p crypto).2 0
      else refuse (verified s p crypto).2 (verified s p crypto).1 := by
  rw [whlVerifyBody, inStates_of_contains _ hp (by simp [hstaged])]

section
variable {n : Wheel} (hverified : (s.whlAt p).state = 2) (hpending : (s.whlAt p).pending = some n)
include hverified hpending

/-- Placed in place, the wheel is ready at once; the images are written at its swap (R138, R142). -/
theorem whlPlaceBody_of_inPlace (harg : leNat arg = 1) :
    whlPlaceBody sess p arg s =
      doneAt (s.setWhl p { s.whlAt p with state := 4, mode := 1 })
        ((changedImages (s.whlAt p)).filter (fun a => !(alreadyHolds s n.digest (physOf s a.vat a.slot) a))).length := by
  rw [whlPlaceBody, inStates_of_contains _ hp (by simp [hverified])]
  simp only [hpending]
  exact if_pos harg

/-- Placed in the shadow, the images that are not there yet begin to be programmed at their targets (R138). -/
theorem whlPlaceBody_of_shadow {ts : List Target} (harg : leNat arg = 0)
    (hplace : placeAll s p n.digest (changedImages (s.whlAt p)) = some ts) :
    whlPlaceBody sess p arg s =
      let r := programAll s p n.digest (targetsOf n ts (changedImages (s.whlAt p)))
      doneAt (r.2.modWhl p (fun w => { w with
        state := if r.1.isEmpty then 4 else 3, mode := 0, targets := ts, toReady := r.1 })) r.1.length := by
  have hshadow : ¬ leNat arg = 1 := by omega
  rw [whlPlaceBody, inStates_of_contains _ hp (by simp [hverified])]
  simp only [hpending, if_neg hshadow, hplace]

end

/-- An arming that passes its checks waits for its boundary (R140). -/
theorem whlArmBody_of_ready (hplaced : (s.whlAt p).state = 4) (hstatus : armStatus s p (armingOf arg) = 0) :
    whlArmBody sess p arg s =
      stepPend Key.whlArm sess p arg (s.modWhl p (fun w => { w with
        state := 5, arming := some (armingOf arg), paused := w.mode = 1, arrived := false })) := by
  rw [whlArmBody, inStates_of_contains _ hp (by simp [hplaced])]
  exact if_neg (by simp [hstatus])

/-- A cancelled wheel is dropped; a verification that is running ends as cancelled (R137). -/
theorem whlCancelBody_of_unarmed (hstate : [1, 2, 3, 4].contains (s.whlAt p).state = true) :
    whlCancelBody sess p arg s =
      doneAt (if (s.whlAt p).verifying then cmdEnd (dropPending s p) Key.whlVerify 0 (cmdWord 2 St.cancelled 0 0)
        else dropPending s p) 0 := by
  rw [whlCancelBody, inStates_of_contains _ hp hstate]

/-- An open write that passes the checks of R118 makes its wheel the pending one. -/
theorem openWriteBody_of_built {base n : Wheel} {t : State} (hright : bit (s.partAt p).rights 0 = true)
    (hstate : (s.whlAt p).state = 0 ∨ (s.whlAt p).state = 4) (hbase : openBase (s.whlAt p) = some base)
    (hbuild : openBuild s p base (leNat arg) = .ok n) (hcave : openCave s p = some t) :
    openWriteBody sess p arg s =
      doneAt (t.setWhl p { s.whlAt p with
        state := 4, pending := some n, mode := if (s.whlAt p).state = 4 then (s.whlAt p).mode else 1 }) 0 := by
  have hin : [0, 4].contains (s.whlAt p).state = true := by
    rcases hstate with h | h <;> rw [h] <;> rfl
  rw [openWriteBody, inStates_of_contains _ hp hin]
  simp [hright, hbase, hbuild, hcave]

end

/-- Settles O29: each command is a command row, and its body does what its own rule above says. -/
theorem wheelCommandsComplete : Obligations.WheelCommandsComplete := by
  intro s sess arg p hp
  refine ⟨fun hready hempty hchan slot hslot => ⟨fun hcave => ?noCave, fun k hcave hfree => ?freeCave⟩,
    fun crypto hready harg hstaged => ?verify,
    fun hready hverified n hpending => ⟨fun harg => ?inPlace, fun harg ts hplace => ?shadow⟩,
    fun hready hplaced hstatus => ?arm, fun hready harg hstate => ?cancel,
    fun hready hright hstate base n t hbase hbuild hcave => ?openWrite⟩
  case noCave => exact exec_of_cmdRow rfl hready rfl (whlStageBody_of_noCave sess arg hp hempty hchan hslot hcave)
  case freeCave => exact exec_of_cmdRow rfl hready rfl (whlStageBody_of_freeCave sess arg hp hempty hchan hslot hcave hfree)
  case verify =>
    exact exec_of_cmdRow rfl hready (oneRange_of_one s harg) (whlVerifyBody_of_staged sess arg hp crypto hstaged)
  case inPlace =>
    exact exec_of_cmdRow rfl hready (placeRange_of_le s (by omega)) (whlPlaceBody_of_inPlace sess arg hp hverified hpending harg)
  case shadow =>
    exact exec_of_cmdRow rfl hready (placeRange_of_le s (by omega))
      (whlPlaceBody_of_shadow sess arg hp hverified hpending harg hplace)
  case arm => exact exec_of_cmdRow rfl hready rfl (whlArmBody_of_ready sess arg hp hplaced hstatus)
  case cancel => exact exec_of_cmdRow rfl hready (oneRange_of_one s harg) (whlCancelBody_of_unarmed sess arg hp hstate)
  case openWrite =>
    exact exec_of_cmdRow rfl hready rfl (openWriteBody_of_built sess arg hp hright hstate hbase hbuild hcave)

end Sys2Proof.Machine
end

section
/-! Replicas (R111, R117, R128, R129, R144): a holder's store, a push's acknowledgement, the end of a fetch and of a
verification. -/

namespace Sys2Proof.Machine

@[simp] theorem setCave_heldFor (s : State) (k : Nat) (c : CaveSlot) : (setCave s k c).whl.heldFor = s.whl.heldFor := rfl

section
variable {s : State} {part : Nat}

/-! ## At the holder (R128, R129) -/

/-- A holder in S0 or S1 takes pushed envelopes. -/
theorem not_asleep_of_s0_or_s1 (hpower : s.pwr.state = .s0 ∨ s.pwr.state = .s1) :
    (s.pwr.state != .s0 && s.pwr.state != .s1) = false := by
  rcases hpower with h | h <;> rw [h] <;> rfl

section
variable (epoch : Nat) {chip : Nat} {envelope : Octets} (hpower : s.pwr.state = .s0 ∨ s.pwr.state = .s1)
    (henvelope : envelope ≠ [])
include hpower henvelope

/-- A holder with a cave keeps the envelope in the slot it has for it, and acknowledges it. -/
theorem exec_replicaStore_of_slot {k : Nat} (hcave : hasCave s = true) (hslot : replicaSlot s chip part = some k)
    (hheld : s.whl.heldFor.contains chip = true) :
    exec (.replicaStore chip part epoch envelope) s =
      let t := setCave s k (.replica chip part epoch s.whl.order envelope)
      .next (({ t with whl := { t.whl with order := s.whl.order + 1 } } : State).emit (.replicaAck chip part 0)) := by
  change execReplicaStore chip part epoch envelope s = _
  simp only [execReplicaStore, not_asleep_of_s0_or_s1 hpower, List.isEmpty_eq_false_iff.mpr henvelope, hcave, hslot,
    setCave_heldFor, hheld, Bool.not_true, Bool.false_eq_true, if_true, if_false]
  rfl

/-- A holder without a cave refuses the envelope. -/
theorem exec_replicaStore_of_noCave (hcave : hasCave s = false) :
    exec (.replicaStore chip part epoch envelope) s = .next (s.emit (.replicaAck chip part St.noSpace)) := by
  change execReplicaStore chip part epoch envelope s = _
  simp [execReplicaStore, not_asleep_of_s0_or_s1 hpower, henvelope, hcave]

end

/-! ## At the pusher (R128) -/

/-- The acknowledgement of a named holder is recorded; one that is no success is the wheel's result. -/
theorem exec_replicaPushAck_of_holder (status : Nat) {holder : Nat} (hawaited : holder < (s.whlAt part).acks.length)
    (hnamed : (holders s).getD holder 0 ≠ 0) :
    exec (.replicaPushAck part holder status) s = .next (s.setWhl part { s.whlAt part with
      acks := lset (s.whlAt part).acks holder (some status)
      result := if status = 0 then (s.whlAt part).result else status }) := by
  change execReplicaPushAck part holder status s = _
  exact if_neg (by simpa only [Bool.or_eq_true, decide_eq_true_eq, not_or, Nat.not_le] using ⟨hawaited, hnamed⟩)

/-! ## The end of a fetch and of a verification (R111, R117, R144) -/

section
variable (crypto : EnvelopeCrypto) {n : Wheel} (hrun : running s = true) (hincomplete : (s.whlAt part).state = 9)
    (hpending : (s.whlAt part).pending = some n)
include hrun hincomplete hpending

/-- An INCOMPLETE partition whose holders have no envelope has lost its wheel. -/
theorem exec_replicaFetchDone_of_none :
    exec (.replicaFetchDone part none crypto) s = .next (replicaGone s part) := by
  change execReplicaFetchDone part none crypto s = _
  simp [execReplicaFetchDone, hrun, hincomplete, hpending]

/-- An INCOMPLETE partition rewrites the wheel it was to have from the envelope of that wheel, and from no other. -/
theorem exec_replicaFetchDone_of_some (e : Octets) :
    exec (.replicaFetchDone part (some e) crypto) s = .next (if fetched s part e crypto n.digest then
      startRewrite (((openCave s part).getD s).modWhl part (fun w => { w with pendEnvelope := some e })) part
      else replicaGone s part) := by
  change execReplicaFetchDone part (some e) crypto s = _
  simp only [execReplicaFetchDone, hrun, hincomplete, hpending, Bool.not_true, Bool.false_eq_true, if_true, if_false]
  cases hfetched : fetched s part e crypto n.digest with
  | false => rfl
  | true => cases openCave s part <;> rfl

end

/-- The security core's answer for a staged envelope ends the running WHL_VERIFY. -/
theorem exec_envelopeVerifyDone_of_verifying (crypto : EnvelopeCrypto) (hverifying : (s.whlAt part).verifying = true)
    (hstaged : (s.whlAt part).state = 1) :
    exec (.envelopeVerifyDone part crypto) s = .next (cmdEnd (verified s part crypto).2 Key.whlVerify 0
      (cmdWord (if (verified s part crypto).1 = 0 then 2 else 3) (verified s part crypto).1 0 0)) := by
  change execEnvelopeVerifyDone part crypto s = _
  simp [execEnvelopeVerifyDone, hverifying, hstaged]

end

/-- Settles O30: each clause is the rule of its command above. -/
theorem replicasComplete : Obligations.ReplicasComplete := by
  intro s part
  refine ⟨fun chip epoch envelope k hpower henvelope hcave hslot hheld => ?store,
    fun chip epoch envelope hpower henvelope hcave => ?noCave,
    fun holder status hawaited hnamed => exec_replicaPushAck_of_holder status hawaited hnamed,
    fun n e crypto hrun hincomplete hpending => ⟨?lost, ?fetched⟩,
    fun crypto hverifying hstaged => exec_envelopeVerifyDone_of_verifying crypto hverifying hstaged⟩
  case store => exact exec_replicaStore_of_slot epoch hpower henvelope hcave hslot hheld
  case noCave => exact exec_replicaStore_of_noCave epoch hpower henvelope hcave
  case lost => exact exec_replicaFetchDone_of_none crypto hrun hincomplete hpending
  case fetched => exact exec_replicaFetchDone_of_some crypto hrun hincomplete hpending e

end Sys2Proof.Machine
end

section
/-! Programming (R121, R122, R126, R132): the rows of an image, its check vectors, an overflow layer, the retention age. -/

namespace Sys2Proof.Machine

section
variable {s : State} {n row tries p : Nat} {img : ArrImg} (hprog : (s.arrAt n).prog = some (row, tries, img, p))
    (hrun : running s = true) (hgrant : (s.arrAt n).granted = true) (hfence : (s.arrAt n).fenced = false)
    (hvat : vatFenced s (n / 2176) = false)
include hprog hrun hgrant hfence hvat

/-! ## Rows (R121, R123) -/

section
variable (hrow : row < 1024) (hbay : row ≠ 0 ∨ bayBusy s n = false)
include hrow hbay

/-- The row of an array that may be programmed turns on its verification and then on the tries it has had. -/
theorem exec_programRow_of_due (verified : Bool) :
    exec (.programRow n verified) s =
      if verified then .next (s.setArr n { s.arrAt n with
        rows := tput 0 (s.arrAt n).rows row (tget 0 img.rows row), prog := some (row + 1, 0, img, p) })
      else if tries + 1 < 4 then .next (s.setArr n { s.arrAt n with prog := some (row, tries + 1, img, p) })
      else .next (programFailed s n p img Mech.programVerify row) := by
  change execProgramRow n verified s = _
  have hmay : ¬ (!(running s) || !(s.arrAt n).granted || (s.arrAt n).fenced || vatFenced s (n / 2176) || 1024 ≤ row ||
      (row = 0 && bayBusy s n)) = true := by
    rcases hbay with h | h <;> simp [hrun, hgrant, hfence, hvat, hrow, h]
  simp only [execProgramRow, hprog, if_neg hmay]

theorem exec_programRow_of_verified :
    exec (.programRow n true) s = .next (s.setArr n { s.arrAt n with
      rows := tput 0 (s.arrAt n).rows row (tget 0 img.rows row), prog := some (row + 1, 0, img, p) }) := by
  rw [exec_programRow_of_due hprog hrun hgrant hfence hvat hrow hbay, if_pos rfl]

theorem exec_programRow_of_again (htries : tries < 3) :
    exec (.programRow n false) s = .next (s.setArr n { s.arrAt n with prog := some (row, tries + 1, img, p) }) := by
  rw [exec_programRow_of_due hprog hrun hgrant hfence hvat hrow hbay, if_neg Bool.false_ne_true, if_pos (by omega)]

theorem exec_programRow_of_exhausted (htries : 3 ≤ tries) :
    exec (.programRow n false) s = .next (programFailed s n p img Mech.programVerify row) := by
  rw [exec_programRow_of_due hprog hrun hgrant hfence hvat hrow hbay, if_neg Bool.false_ne_true, if_neg (by omega)]

end

/-! ## Check vectors (R122) -/

section
variable (hlast : row = 1024)
include hlast

/-- An array that passes its sixteen check vectors holds the image and is ready. -/
theorem exec_arrayProgramDone_of_passed :
    exec (.arrayProgramDone n none) s = .next (nowReady (returnIfDone (imageIn
      (s.modArr n (fun a => { a with passCnt := a.passCnt + BitVec.ofNat 64 16 })) n p img) n) n p) := by
  subst hlast
  change execArrayProgramDone n none s = _
  simp only [execArrayProgramDone, hprog, hrun, hgrant, hfence, hvat, Bool.not_true, Bool.or_self, Bool.false_eq_true, if_false]
  rfl

/-- The check vector that raises a mismatch is the last that is run, and fails the array. -/
theorem exec_arrayProgramDone_of_raised {t : Nat} (ht : t < 16) :
    exec (.arrayProgramDone n (some t)) s = .next (programFailed
      (s.modArr n (fun a => { a with passCnt := a.passCnt + BitVec.ofNat 64 (t + 1) })) n p img Mech.programCheck t) := by
  subst hlast
  change execArrayProgramDone n (some t) s = _
  have hruns : min (t + 1) 16 = t + 1 := Nat.min_eq_left ht
  simp only [execArrayProgramDone, hprog, hrun, hgrant, hfence, hvat, Bool.not_true, Bool.or_self, Bool.false_eq_true, if_false,
    hruns]
  rfl

end
end

/-! ## Overflow layers and age (R126, R132) -/

section
variable {s : State}

/-- An overflow layer is written once in a step, when the layers that must leave the pool are idle. -/
theorem exec_overflowLayerLoad_of_idle {part layer : Nat} {w : Wheel} {y : Layer} (hforce : (s.whlAt part).inForce = some w)
    (hlayer : w.layers.find? (fun z => z.layer = layer && z.kind = 2) = some y) (hstep : s.srv.inStep = true)
    (hrun : running s = true) (hnew : (s.whlAt part).poolDone.contains layer = false) (hcave : caveHas s (.active part) = true)
    (hidle : (layersOut s part w y).all (layerIdle s part w) = true) :
    exec (.overflowLayerLoad part layer) s = .next ((writeLayer s part w y).modWhl part (fun x => { x with
      poolLayers := (s.whlAt part).poolLayers.filter (fun k => !((layersOut s part w y).any (fun z => z.layer = k))) ++ [layer]
      poolDone := x.poolDone ++ [layer] })) := by
  change execOverflowLayerLoad part layer s = _
  simp only [execOverflowLayerLoad, hforce, Option.bind_some, hlayer, Option.map_some, hstep, hrun, hnew, hcave, hidle,
    Bool.not_true, Bool.or_self, Bool.false_eq_true, if_false]

theorem exec_retentionAgeTick_of_present {n : Nat} (tempC milliHours : Nat) (hpresent : arrPresent s n = true)
    (hpower : s.pwr.state ≠ .s4) :
    exec (.retentionAgeTick n tempC milliHours) s =
      .next (s.setArr n { s.arrAt n with age := (s.arrAt n).age + ageWeighted tempC milliHours }) := by
  change execRetentionAgeTick n tempC milliHours s = _
  exact if_pos (by simp [hpresent, hpower])

end

/-- At or below 85 °C an hour counts as one hour (R126). -/
theorem ageWeighted_of_le {tempC : Nat} (milliHours : Nat) (htemp : tempC ≤ 85) : ageWeighted tempC milliHours = milliHours :=
  if_pos htemp

/-- Settles O31: each clause is the rule of its command above; a row divides on its verification and its tries, a programmed
array on its check vectors. -/
theorem programmingCompletes : Obligations.ProgrammingCompletes := by
  refine ⟨fun s n row tries p img hprog hrun hgrant hfence hvat => ⟨fun hrow hbay => ⟨?verified, ?again, ?exhausted⟩,
    fun hlast => ⟨?passed, fun t ht => ?raised⟩⟩, fun s => ⟨?overflow, fun n tempC milliHours hpresent hpower =>
      ⟨exec_retentionAgeTick_of_present tempC milliHours hpresent hpower, ageWeighted_of_le milliHours⟩⟩⟩
  case verified => exact exec_programRow_of_verified hprog hrun hgrant hfence hvat hrow hbay
  case again => exact exec_programRow_of_again hprog hrun hgrant hfence hvat hrow hbay
  case exhausted => exact exec_programRow_of_exhausted hprog hrun hgrant hfence hvat hrow hbay
  case passed => exact exec_arrayProgramDone_of_passed hprog hrun hgrant hfence hvat hlast
  case raised => exact exec_arrayProgramDone_of_raised hprog hrun hgrant hfence hvat hlast ht
  case overflow =>
    intro part layer w y hforce hlayer hstep hrun hnew hcave hidle
    exact exec_overflowLayerLoad_of_idle hforce hlayer hstep hrun hnew hcave hidle

end Sys2Proof.Machine
end

section
/-! The swap (R140–R142): the arrival, the decision, the alarm of a stalled hold, and the end of a rewrite and of its
rollback. -/

namespace Sys2Proof.Machine

section
variable {s : State} {part : Nat} {a : Arming} (harming : (s.whlAt part).arming = some a) (hrun : running s = true)
include harming hrun

/-! ## The arrival (R140) -/

theorem exec_swapArrive_of_fenced (hhold : (s.whlAt part).state = 6) (harrived : (s.whlAt part).arrived = false)
    (hfenced : mgmtFenced s = true) : exec (.swapArrive part) s = .next (arriveAt s part a.arrive) := by
  change execSwapArrive part s = _
  simp [execSwapArrive, harming, hhold, harrived, hfenced, hrun]

/-! ## The decision (R141, R142) -/

/-- In the hold of a swap, the decision 1 flips or rewrites and the decision 2 aborts. -/
theorem exec_swapDecision_of_hold {value : Nat} (hhold : (s.whlAt part).state = 6) (harrived : (s.whlAt part).arrived = true)
    (hvalue : decisionIs s part a.decision value = true) :
    exec (.swapDecision part value) s =
      if value = 1 then .next (if (s.whlAt part).mode = 1 then startRewrite s part else flip s part)
      else if value = 2 then .next (swapAborted s part) else .next s := by
  change execSwapDecision part value s = _
  simp [execSwapDecision, harming, hhold, harrived, hrun, hvalue]

/-- In REWRITING before any rollback, the decision 1 flips and the decision 2 rolls back. -/
theorem exec_swapDecision_of_rewritten {value : Nat} (hrewriting : (s.whlAt part).state = 8)
    (harrived : (s.whlAt part).arrived = true) (hforward : (s.whlAt part).rollback = false)
    (hvalue : decisionIs s part a.doneDecision value = true) :
    exec (.swapDecision part value) s =
      if value = 1 then .next (flip s part) else if value = 2 then .next (rollBack s part true) else .next s := by
  change execSwapDecision part value s = _
  simp [execSwapDecision, harming, hrewriting, harrived, hforward, hrun, hvalue]

/-! ## The end of a rewrite and of its rollback (R142) -/

section
variable (hrewriting : (s.whlAt part).state = 8) (hready : (s.whlAt part).toReady = [])
    (harrived : (s.whlAt part).arrived = false)
include hrewriting hready harrived

theorem exec_rewriteDone_of_ready (hforward : (s.whlAt part).rollback = false) :
    exec (.rewriteDone part) s = .next (arriveAt s part a.doneArrive) := by
  change execRewriteDone part s = _
  simp [execRewriteDone, harming, hrewriting, hready, harrived, hforward, hrun]

/-- The end of a rollback ends a swap that was aborted; otherwise it is signalled as ABORTED. -/
theorem exec_rewriteRollbackDone_of_ready (hback : (s.whlAt part).rollback = true) :
    exec (.rewriteRollbackDone part) s = if (s.whlAt part).abortSeen then .next (swapAborted s part)
      else .next (arriveAt (s.setWhl part { s.whlAt part with result := St.aborted }) part a.doneArrive) := by
  change execRewriteRollbackDone part s = _
  simp [execRewriteRollbackDone, harming, hrewriting, hready, harrived, hback, hrun]

end
end

/-! ## The alarm (R140) -/

/-- A hold that is due its alarm raises it now. -/
theorem exec_swapHoldAlarm_of_due {s : State} {part t : Nat} (hsince : (s.whlAt part).holdSince = some t)
    (hstate : (s.whlAt part).state = 6 ∨ (s.whlAt part).state = 8) (hsilent : (s.whlAt part).alarmed = false)
    (hdue : t + cfgP s part Key.swapHoldAlarmMs * 1000000 ≤ s.time) :
    exec (.swapHoldAlarm part) s = .next ((s.setWhl part { s.whlAt part with alarmed := true }).writeErr
      (reportErr St.swapStalled Kind.module 0 part)) := by
  change execSwapHoldAlarm part s = _
  simp only [execSwapHoldAlarm, hsince, State.until_of_le s _ hdue]
  exact if_pos (by simp [hstate, hsilent])

/-- Settles O32: each clause is the rule of its command above, read at the value of the decision or at the cause of the
rollback. -/
theorem swapCompletes : Obligations.SwapCompletes := by
  intro s part a harming hrun
  refine ⟨exec_swapArrive_of_fenced harming hrun, fun hhold harrived => ⟨fun hgo => ?go, fun hno => ?abort⟩,
    fun hrewriting harrived hforward => ⟨fun hgo => ?flip, fun hno => ?back⟩,
    fun t hsince hstate hsilent hdue => exec_swapHoldAlarm_of_due hsince hstate hsilent hdue,
    fun hrewriting hready harrived => ⟨exec_rewriteDone_of_ready harming hrun hrewriting hready harrived,
      fun hback hseen => ?ended, fun hback hunseen => ?signalled⟩⟩
  case go => rw [exec_swapDecision_of_hold harming hrun hhold harrived hgo, if_pos rfl]
  case abort => rw [exec_swapDecision_of_hold harming hrun hhold harrived hno, if_neg (by decide), if_pos rfl]
  case flip => rw [exec_swapDecision_of_rewritten harming hrun hrewriting harrived hforward hgo, if_pos rfl]
  case back =>
    rw [exec_swapDecision_of_rewritten harming hrun hrewriting harrived hforward hno, if_neg (by decide), if_pos rfl]
  case ended => rw [exec_rewriteRollbackDone_of_ready harming hrun hrewriting hready harrived hback, if_pos hseen]
  case signalled =>
    rw [exec_rewriteRollbackDone_of_ready harming hrun hrewriting hready harrived hback, if_neg (by simp [hunseen])]

end Sys2Proof.Machine
end

section
/-! Dual execution (R167): what the signatures of a task decide, one rule per outcome. -/

namespace Sys2Proof.Machine

section
variable {s : State} {k a b x : Nat} {d : DualSt} (hdual : dualOf s k = some d) (hfirst : d.sig1 = some a)
    (hsecond : d.sig2 = some b) (hsecondary : d.secondary = some x)
include hdual hfirst hsecond hsecondary

theorem exec_dualCompare_of_agreed (hagree : a = b) :
    exec (.dualCompare k) s =
      .next (dualDone (bothEngines s d (fun e => { e with dualRun := e.dualRun + 1 })) d) := by
  change execDualCompare k s = _
  simp only [execDualCompare, hdual, hfirst, hsecond, hsecondary]
  exact if_pos hagree

/-- A first mismatch counts on both engines and in the vat, and places the third copy. -/
theorem exec_dualCompare_of_mismatch (hdiffer : a ≠ b) (hnew : d.thirdPlaced = false) :
    exec (.dualCompare k) s =
      let c := { d with thirdPlaced := true }
      let t := (bothEngines s d (fun e => { e with dualMismatch := e.dualMismatch + 1 })).modVat (d.primary / 64)
        (fun v => { v with mismatchTotal := v.mismatchTotal + 1 })
      .next (placeThird (setDual t c) c) := by
  change execDualCompare k s = _
  simp only [execDualCompare, hdual, hfirst, hsecond, hsecondary]
  rw [if_neg hdiffer, if_pos (by simp [hnew])]
  rfl

/-- The third signature decides: the engine that it disagrees with is fenced, or all three with the task failed. -/
theorem exec_dualCompare_of_third {c y : Nat} (hdiffer : a ≠ b) (hplaced : d.thirdPlaced = true)
    (hthird : d.sig3 = some c) (hengine : d.third = some y) :
    exec (.dualCompare k) s =
      if c = a then .next (fenceEngine (dualDone s d) x (dualErr d d.primary b))
      else if c = b then .next (fenceEngine (dualDone s d) d.primary (dualErr d x a))
      else .next (fenceEngine (fenceEngine (fenceEngine
        (failTask (forget s d) d.primary St.dualUnresolved d.task) d.primary (dualErr d x a)) x (dualErr d d.primary b)) y
        (dualErr d d.primary c)) := by
  change execDualCompare k s = _
  simp only [execDualCompare, hdual, hfirst, hsecond, hsecondary, hthird, hengine]
  rw [if_neg hdiffer, if_neg (by simp [hplaced])]

end

/-- Settles O35: the first two signatures agree or differ, and after a mismatch the third one agrees with the primary's, with the
secondary's or with neither. -/
theorem dualCompareCompletes : Obligations.DualCompareCompletes := by
  intro s k a b x d hdual hfirst hsecond hsecondary
  refine ⟨exec_dualCompare_of_agreed hdual hfirst hsecond hsecondary,
    exec_dualCompare_of_mismatch hdual hfirst hsecond hsecondary, fun hdiffer hplaced c y hthird hengine => ?_⟩
  have hdecides := exec_dualCompare_of_third hdual hfirst hsecond hsecondary hdiffer hplaced hthird hengine
  refine ⟨fun hprimary => ?primary, fun hagrees => ?secondary, fun hnotPrimary hnotSecondary => ?neither⟩
  case primary => rw [hdecides, if_pos hprimary]
  case secondary => rw [hdecides, if_neg (hagrees ▸ hdiffer.symm), if_pos hagrees]
  case neither => rw [hdecides, if_neg hnotPrimary, if_neg hnotSecondary]

end Sys2Proof.Machine
end

section
/-! Posted descriptors (R154, R155): queued after the checks, or refused with the status of the first that fails. -/

namespace Sys2Proof.Machine

section
variable {s : State} {poster : Poster} {desc : Octets}

theorem postTask_of_passed {n : Nat} (hcheck : descCheck s poster desc = 0)
    (hplace : placeFor s (posterPart poster) (descTarget desc) (taskOf desc (posterPart poster)).pool = some n) :
    postTask s poster desc = (St.ok, queueTask s n (taskOf desc (posterPart poster))) := by
  simp [postTask, hcheck, hplace]

/-- A refusal is counted in REFUSED of the target's vat (R175) and changes nothing else. -/
theorem postTask_of_failed (hcheck : descCheck s poster desc ≠ 0) :
    postTask s poster desc =
      (descCheck s poster desc, s.modVat (targetVat (descTarget desc)) (fun v => { v with refused := v.refused + 1 })) :=
  if_pos (bne_iff_ne.mpr hcheck)

/-- In S0 a descriptor of 64 octets is answered with what its post gives. -/
theorem exec_taskPost_of_received (hpower : s.pwr.state = .s0) (hlength : desc.length = 64) :
    exec (.taskPost poster desc) s =
      .next ((postTask s poster desc).2.emit (.status (posterAgent poster desc) (postTask s poster desc).1)) := by
  change execTaskPost poster desc s = _
  exact if_neg (by simp [hpower, hlength])

end

/-- Settles O33: the answer to a descriptor is that of its post, which queues or refuses it as the checks of R154 say. -/
theorem taskPostCompletes : Obligations.TaskPostCompletes := by
  intro s poster desc hpower hlength
  rw [exec_taskPost_of_received hpower hlength]
  refine ⟨fun n hcheck hplace => ?queued, fun hcheck => ?refused⟩
  case queued => rw [postTask_of_passed hcheck hplace]
  case refused =>
    rw [postTask_of_failed hcheck]
    rfl

end Sys2Proof.Machine
end

section
/-! The schedule of an engine (R147, R156, R159, R161, R165): its next task, its clock, its search for a victim and its claim. -/

namespace Sys2Proof.Machine

section
variable {s : State} {n : Nat}

/-! ## TASK_START (R156, R165) -/

/-- A copy, or a task on which no selection falls, starts alone. -/
theorem exec_taskStart_of_alone {ovf : Bool} {t : Task} {dual : Bool} (hnext : nextTask s n = some (ovf, t))
    (hready : engineReady s n = true) (halone : t.role ≠ 0 ∨ selected s n dual = false) :
    exec (.taskStart n dual) s = .next (startTask (takeTask s n ovf t) n t) := by
  change execTaskStart n dual s = _
  simp only [execTaskStart, hnext]
  rw [if_neg (by simp [hready])]
  by_cases hcopy : t.role = 0
  · rw [if_neg (by simp [hcopy]), if_pos (by simp [halone.resolve_left (not_not_intro hcopy)])]
  · exact if_pos (bne_iff_ne.mpr hcopy)

/-- A selected eligible task starts as primary where an engine can take its secondary. -/
theorem exec_taskStart_of_selected {ovf : Bool} {t : Task} {dual : Bool} (hnext : nextTask s n = some (ovf, t))
    (hready : engineReady s n = true) (horiginal : t.role = 0) (hselected : selected s n dual = true)
    (heligible : dualEligible s t = true) (hcopy : (copyEngine s (n / 64) t [n]).isSome = true) :
    exec (.taskStart n dual) s = .next (startPrimary (takeTask s n ovf t) n t) := by
  change execTaskStart n dual s = _
  have hplace : (copyEngine s (n / 64) t [n]).isNone = false := Option.isNone_eq_false_iff.mpr hcopy
  simp [execTaskStart, hnext, hready, horiginal, hselected, heligible, hplace]

/-! ## Waking and gating (R147) -/

/-- A gated engine with a descriptor in its own queue wakes; its idle time is not touched. -/
theorem exec_engineWake_of_queued (hrun : running s = true) (hpresent : engPresent s n = true)
    (hgated : (s.engAt n).awake = false) (hfence : (s.engAt n).fenced = false) (hvat : vatFenced s (n / 64) = false)
    (hqueue : (s.engAt n).queue ≠ []) :
    exec (.engineWake n) s = .next (s.setEng n { s.engAt n with awake := true }) := by
  change execEngineWake n s = _
  have hposted : (s.engAt n).queue.isEmpty = false := List.isEmpty_eq_false_iff.mpr hqueue
  simp [execEngineWake, hrun, hpresent, hgated, hfence, hvat, hposted, State.modEng]

/-- An engine idle for VE_IDLE_HOLD_NS is gated now, and gives up its search. -/
theorem exec_engineIdleGate_of_idle (hawake : (s.engAt n).awake = true) (hgate : (s.engAt n).gateEn = true)
    (hqueue : (s.engAt n).queue = []) (hfree : (s.engAt n).run = none) (htest : (s.engAt n).underTest = false)
    (htime : (s.engAt n).idleSince + cfgNat s Key.veIdleHoldNs ≤ s.time) :
    exec (.engineIdleGate n) s = .next (s.setEng n { s.engAt n with awake := false, claim := none, tried := [] }) := by
  change execEngineIdleGate n s = _
  simp [execEngineIdleGate, hawake, hgate, hqueue, hfree, htest, State.until_of_le s _ htime, State.modEng]

/-! ## Stealing (R159, R161) -/

theorem exec_stealSearch_of_found {v : Victim} (hready : engineReady s n = true) (hsteal : (s.engAt n).stealEn = true)
    (hclaim : (s.engAt n).claim = none) (hidle : nextTask s n = none) (hvictim : chooseVictim s n = some v) :
    exec (.stealSearch n) s = .next (s.setEng n { s.engAt n with claim := some v }) := by
  change execStealSearch n s = _
  simp [execStealSearch, hready, hsteal, hclaim, hidle, hvictim, State.modEng]

/-- A claim that finds its descriptor moves it to the head of the thief's queue. -/
theorem claimOne_of_claimed {v : Victim} {t : Task} (hclaim : (s.engAt n).claim = some v)
    (hready : engineReady s n = true) (hfound : claimed s n v = some t) :
    claimOne v s n = (takeFrom s v t).modEng n (fun e => { e with
      queue := t :: e.queue, stolenIn := e.stolenIn + 1, claim := none, tried := [] }) := by
  simp only [claimOne, hfound]
  exact if_neg (by simp [hclaim, hready])

/-- A claim of one thief is settled alone. -/
theorem exec_stealClaim_single (v : Victim) : exec (.stealClaim v [n]) s = .next (claimOne v s n) := rfl

end

/-- Settles O34: each clause is the rule of its command above. -/
theorem enginesSchedule : Obligations.EnginesSchedule := by
  intro s n
  refine ⟨fun _ _ _ => exec_taskStart_of_alone, fun _ _ _ => exec_taskStart_of_selected, exec_engineWake_of_queued,
    exec_engineIdleGate_of_idle, fun hready hsteal hclaim hidle v => exec_stealSearch_of_found hready hsteal hclaim hidle,
    fun v t hclaim hready hfound => ?claim⟩
  case claim => rw [exec_stealClaim_single, claimOne_of_claimed hclaim hready hfound]

end Sys2Proof.Machine
end

section
/-! Kernels (R148, R153, R157, R158): the run of a task to its end in one command (entry 67), which every kernel shares. -/

namespace Sys2Proof.Machine

/-! ## The end of a run (R157, R158) -/

/-- What a kernel's result leaves of a task that runs alone: its writes to the first that fails, then the task's failure or its
completion. -/
def kernelEnd (n : Nat) (x : Running) (r : KRes) : State :=
  let w := kwrite r.st x.task.part r.writes
  if w.1 != 0 then taskFails w.2 n w.1 x.task
  else if r.status != 0 then taskFails w.2 n r.status x.task
  else taskRan w.2 n x.task r r.writes

theorem kernelEnd_of_stands {n : Nat} {x : Running} {r : KRes} (hstands : kernelStands x r = true) :
    kernelEnd n x r = kernelDone n x r := by
  obtain ⟨hstatus, hwrites⟩ : r.status = 0 ∧ (kwrite r.st x.task.part r.writes).1 = 0 := by
    simpa [kernelStands] using hstands
  simp [kernelEnd, kernelDone, hstatus, hwrites]

section
variable (s : State) (n busyNs : Nat) (x : Running) (k : State → Running → KRes)

/-- A run without an upset ends as the kernel's result on the engine's state says. -/
theorem endRun_of_alone (halone : x.task.role = 0) :
    endRun s n busyNs none x k = kernelEnd n x (k (kernelBase s n busyNs x) x) := by
  simp [endRun, flipWrites, halone, kernelEnd, kernelBase]

/-- A residue failure fences the engine before the kernel computes. -/
theorem endRun_of_residue (e f : Nat) :
    endRun s n busyNs (some (.residue e f)) x k = fenceEngine s n
      { mech := Mech.residue, operation := x.task.opcode, tag := x.task.taskId, detailA := e * 256 + f } := rfl

/-- A double-bit scratch error fences the engine before the kernel computes (R148). -/
theorem endRun_of_scratchUe (o : Nat) :
    endRun s n busyNs (some (.scratchUe o)) x k = fenceEngine s n
      { mech := Mech.scratchEcc, operation := x.task.opcode, tag := x.task.taskId, detailA := o } := rfl

end

/-! ## The commands (R153) -/

section
variable {s : State} {n busyNs : Nat} {x : Running} {is : Nat → Bool} {k : State → Running → KRes} {c : Instr}
    (hbusy : (s.engAt n).run = some x) (hrun : running s = true) (hfence : (s.engAt n).fenced = false)
include hbusy hrun hfence

/-- An engine in service ends the run of a task of the kernel, whatever the upset. -/
theorem exec_of_runKernel {upset : Option EngineUpset} (hexec : exec c s = .next (runKernel is k n busyNs upset s))
    (hkernel : is x.task.opcode = true) : exec c s = .next (endRun s n busyNs upset x k) := by
  rw [hexec]
  simp [runKernel, hbusy, hrun, hfence, hkernel]

/-- A kernel of one opcode whose result stands completes its task. -/
theorem exec_of_runKernel_stands {op : Nat} (hexec : exec c s = .next (runKernel (· = op) k n busyNs none s))
    (halone : x.task.role = 0) (hop : x.task.opcode = op)
    (hstands : kernelStands x (k (kernelBase s n busyNs x) x) = true) :
    exec c s = .next (kernelDone n x (k (kernelBase s n busyNs x) x)) := by
  rw [exec_of_runKernel hbusy hrun hfence hexec (decide_eq_true hop), endRun_of_alone s n busyNs x k halone,
    kernelEnd_of_stands hstands]

/-- A package's task, or one that firmware posts for itself, ends as the value of its code says (entry 69). -/
theorem exec_packageKernel_of_alone (halone : x.task.role = 0)
    (hop : firmwareOp x.task.opcode = true ∨ 0x4000 ≤ x.task.opcode) :
    exec (.packageKernel n busyNs none) s = .next (kernelEnd n x (packageKernel (kernelBase s n busyNs x) x)) := by
  have hpackage : (decide (0x4000 ≤ x.task.opcode) || firmwareOp x.task.opcode) = true := by simpa [or_comm] using hop
  rw [exec_of_runKernel hbusy hrun hfence rfl hpackage, endRun_of_alone s n busyNs x packageKernel halone]

end

/-- An append that no earlier one of its stripes holds up runs its kernel (R187). -/
theorem exec_kvAppend_of_first {s : State} {n busyNs : Nat} {upset : Option EngineUpset} (hfirst : appendBefore s n = false) :
    exec (.kvAppend n busyNs upset) s = .next (runKernel (· = 0x0003) kvAppend n busyNs upset s) := by
  change execKvAppend n busyNs upset s = _
  exact if_neg (by simp [hfirst])

/-- Settles O37: each kernel command is a run of its own kernel, whose result stands or, for a package, ends the task as it says;
an upset that the engine detects fences it instead. -/
theorem kernelsComplete : Obligations.KernelsComplete := by
  refine ⟨fun s n busyNs x hbusy hrun hfence halone => ?kernels, fun s n busyNs x hbusy hrun hfence hgemm => ?upsets⟩
  case kernels =>
    have hdone {op : Nat} {k : State → Running → KRes} {c : Instr}
        (hexec : exec c s = .next (runKernel (· = op) k n busyNs none s)) :=
      exec_of_runKernel_stands hbusy hrun hfence hexec halone
    exact ⟨hdone rfl, hdone rfl, hdone rfl, hdone rfl, fun hop hfirst => hdone (exec_kvAppend_of_first hfirst) hop,
      hdone rfl, hdone rfl, hdone rfl, hdone rfl, exec_packageKernel_of_alone hbusy hrun hfence halone⟩
  case upsets =>
    have hends (upset : Option EngineUpset) : exec (.gemm n busyNs upset) s = .next (endRun s n busyNs upset x gemm) :=
      exec_of_runKernel hbusy hrun hfence rfl (decide_eq_true hgemm)
    refine ⟨fun e f => ?residue, fun o => ?scratch⟩
    case residue => rw [hends, endRun_of_residue]
    case scratch => rw [hends, endRun_of_scratchUe]

end Sys2Proof.Machine
end

section
/-! Sequences and embedding tables (R180, R199–R206): the commands that pend a boundary, the copy of a hot row and the decay of
the directory. -/

namespace Sys2Proof.Machine

/-! ## The commands that wait for their boundary (R180, R199, R201, R206) -/

/-- A check that answers 0 refuses nothing. -/
theorem refuse_unless_of_zero {status : Nat} (s : State) (a : CmdAns) (hzero : status = 0) :
    (if status != 0 then refuse s status else a) = a := if_neg (by simp [hzero])

section
variable {s : State} {p : Nat} {arg : Octets} (sess : Nat)

/-- An edit of a sequence that the planned descriptors admit pends its boundary (R180). -/
theorem seqEditBody_of_admitted (hstatus : editStatus s (plannedSeqs s) p arg = 0) :
    seqEditBody sess p arg s = stepPend Key.seqEdit sess p arg s := refuse_unless_of_zero s _ hstatus

/-- An edit of a table that the planned tables admit pends its boundary (R199). -/
theorem embEditBody_of_admitted (hstatus : embEditStatus s (plannedTables s) p arg = 0) :
    embEditBody sess p arg s = stepPend Key.embTableEdit sess p arg s := refuse_unless_of_zero s _ hstatus

/-- An invalidation that the planned tables admit pends its boundary (R201). -/
theorem invalBody_of_admitted (hstatus : invalStatus (plannedTables s) p arg = 0) :
    invalBody sess p arg s = stepPend Key.embInvalidate sess p arg s := refuse_unless_of_zero s _ hstatus

/-- A pin that the planned tables admit pends its boundary (R206). -/
theorem pinBody_of_admitted (hstatus : pinStatus s (plannedTables s) p arg = 0) :
    pinBody sess p arg s = stepPend Key.embPin sess p arg s := refuse_unless_of_zero s _ hstatus

end

/-! ## The copy of a hot row (R205) -/

section
variable {s : State} {set way : Nat} {e : DirEnt} (hentry : dirAt s (dirKey set way) = some e) (hpending : e.valid = false)
  (hrun : running s = true)
include hentry hpending hrun

/-- The copy begins once no gather that started before the entry's boundary runs. -/
theorem exec_hotRowCopy_of_pending (hcopy : e.copy = 0) (hgather : gatherBefore s e.since = false) :
    exec (.hotRowCopy set way) s = .next (setDir s (dirKey set way) (some { e with copy := 1 })) := by
  change execHotRowCopy set way s = _
  simp [execHotRowCopy, hentry, hpending, hcopy, hrun, hgather]

/-- The copy ends with the row's octets in its slot and the entry marked as copied. -/
theorem exec_hotRowCopyDone_of_copying {d : EmbD} {b : Octets} (hcopy : e.copy = 1) (htable : embTableAt s e.table = some d)
    (hread : memRead s e.part 1 (d.base + e.row * d.stride) d.stride = .ok b)
    (hwrite : (memWrite s e.part 0 (hotSlot s e.part set way) b).1 = 0) :
    exec (.hotRowCopyDone set way) s = .next (setDir (memWrite s e.part 0 (hotSlot s e.part set way) b).2 (dirKey set way)
      (some { e with copy := 2 })) := by
  change execHotRowCopyDone set way s = _
  simp [execHotRowCopyDone, hentry, hpending, hcopy, hrun, htable, hread, hwrite]

end

/-! ## The decay of the directory (R204) -/

/-- A directory entry after a decay of the partition: the age of one of its own is lowered. -/
def ageEntry (part : Nat) (e : DirEnt) : DirEnt := if e.part = part then { e with age := e.age - 1 } else e

/-- The counts of the sketch with those of the partition halved. -/
def halveSketch (part : Nat) (t : Tab Nat) : Tab Nat :=
  t.foldl (fun t q => tput 0 t q.1 (if q.1 / 262144 = part then q.2 / 2 else q.2)) []

/-- After EMB_DECAY_STEPS boundaries the partition's counts and ages decay and its boundaries are counted from 0. -/
theorem exec_directoryDecay_of_due {s : State} {part : Nat} (hdue : cfgP s part Key.embDecaySteps ≤ tget 0 s.emb.decay part)
    (hunits : (runOf s part).2 ≠ 0) :
    exec (.directoryDecay part) s = .next { s with emb := { s.emb with
      decay := tput 0 s.emb.decay part 0
      sketch := halveSketch part s.emb.sketch
      dir := s.emb.dir.map (fun q => (q.1, q.2.map (ageEntry part))) } } := by
  change execDirectoryDecay part s = _
  exact if_neg (by simp [hdue, hunits])

/-- Settles O38: each command that its check admits is a command row whose body pends it, and the copy of a hot row and the decay
follow their rules above. -/
theorem sequencesAndTablesComplete : Obligations.SequencesAndTablesComplete := by
  intro s
  refine ⟨fun sess arg => ⟨fun hready hrange hstatus => ?seqEdit, fun hready hrange hstatus => ?embTableEdit,
      fun hready hstatus => ?embInvalidate, fun hready hrange hstatus => ?embPin⟩,
    fun set way e hentry hpending hrun => ⟨exec_hotRowCopy_of_pending hentry hpending hrun,
      fun hcopy d b => exec_hotRowCopyDone_of_copying hentry hpending hrun hcopy⟩,
    fun part => exec_directoryDecay_of_due⟩
  case seqEdit => exact exec_of_cmdRow rfl hready hrange (seqEditBody_of_admitted sess hstatus)
  case embTableEdit => exact exec_of_cmdRow rfl hready hrange (embEditBody_of_admitted sess hstatus)
  case embInvalidate => exact exec_of_cmdRow rfl hready rfl (invalBody_of_admitted sess hstatus)
  case embPin => exact exec_of_cmdRow rfl hready hrange (pinBody_of_admitted sess hstatus)

end Sys2Proof.Machine
end

section
/-! Request channels (R217, R221, R222): the bodies of a create and a close that are admitted, the completion ring and the
transport error of a queue pair. -/

namespace Sys2Proof.Machine

/-- The home vat of a channel created by this argument (R217): the one it names, or with AUTO_VAT the unfenced vat of the least
load. -/
def openVat (s : State) (arg : Octets) : Nat :=
  if bit (fld arg 57 1) 0 then
    (argmin (homeLoad s) ((vatsOf s).filter (fun v => !(vatFenced s v)))).getD (reqChanArg arg).vat
  else (reqChanArg arg).vat

/-- The create of a channel at a slot: the channel stands there with its home vat, and its handle is the response. -/
def openedAt (s : State) (p slot : Nat) (arg : Octets) : CmdAns :=
  let r := openChan s slot p (.req { reqChanArg arg with vat := openVat s arg })
  doneAt r.2 r.1

theorem openVat_of_named {s : State} {arg : Octets} (hnamed : bit (fld arg 57 1) 0 = false) :
    openVat s arg = (reqChanArg arg).vat := if_neg (by simp [hnamed])

theorem openVat_of_auto {s : State} {arg : Octets} (hauto : bit (fld arg 57 1) 0 = true) :
    openVat s arg = (argmin (homeLoad s) ((vatsOf s).filter (fun v => !(vatFenced s v)))).getD (reqChanArg arg).vat :=
  if_pos hauto

section
variable {s : State} {p : Nat} {arg : Octets} (sess : Nat)

/-- A create that R217's checks pass takes the slot picked. -/
theorem reqOpenBody_of_admitted {slot : Nat} (hstatus : reqOpenStatus s p arg = 0) (hslot : pickSlot s = some slot) :
    reqOpenBody sess p arg s = openedAt s p slot arg :=
  (refuse_unless_of_zero s _ hstatus).trans (by rw [hslot]; rfl)

/-- A channel of the caller's partition with no active request is closed (R222). -/
theorem reqCloseBody_of_unused {c : ReqChan} (hchan : reqChanAt s (leNat arg) = some (p, c))
    (hunused : s.srv.reqs.any (fun r => r.chan = leNat arg && r.active) = false) :
    reqCloseBody sess p arg s = doneAt (closeReqChan s (hSlot (leNat arg))) 0 := by
  simp only [reqCloseBody, hchan, hunused, bne_self_eq_false, Bool.false_eq_true, if_false]

end

/-- A home vat core that runs flushes its channel's waiting records (R221). -/
theorem exec_completionRecordWrite_of_serving {s : State} {chan : Nat} (hserving : vatServing s (homeOf s chan) = true) :
    exec (.completionRecordWrite chan) s = .next (flushChannel s chan) := by
  change execCompletionRecordWrite chan s = _
  exact if_pos hserving

/-- A slot holds a channel that is bound to the queue pair and still stands. -/
def standsOn (qp : Nat) (x : Nat × ChanSlot) : Bool :=
  match x.2.chan with
  | some (.req c) => c.qp = qp && !c.dead
  | _ => false

/-- A queue pair in error has nothing outstanding, and every channel bound to it that still stands is taken down (R222). -/
theorem exec_qpTransportError_of_bound {s : State} {qp p : Nat} {q : QpSt} (hqp : qpAt s qp = some (p, q)) :
    exec (.qpTransportError qp) s =
      let t := setChan s qp (.qp { q with error := true, outstanding := [] })
      .next (((chans t).filter (standsOn qp)).foldl (fun s x => killChannel s (handleAt s x.1)) t) := by
  change Host.Outcome.next (qpFails s qp) = _
  rw [qpFails, hqp]
  rfl

/-- Settles O39: create and close are command rows whose bodies are above, the create's home vat dividing on AUTO_VAT; the other
two commands follow their rules. -/
theorem requestChannelsComplete : Obligations.RequestChannelsComplete := by
  intro s
  refine ⟨fun sess arg slot hready hstatus hslot => ?opens, fun sess arg c hready hchan hunused => ?closes,
    fun chan => exec_completionRecordWrite_of_serving, fun qp p q => exec_qpTransportError_of_bound⟩
  case opens =>
    have hopened : exec (.reqChanOpen sess arg) s =
        .next (cmdDone s sess Key.reqChanOpen (openedAt s (sessPart s sess) slot arg)) :=
      exec_of_cmdRow rfl hready rfl (reqOpenBody_of_admitted sess hstatus hslot)
    refine ⟨fun hnamed => ?named, fun hauto => ?auto⟩
    case named => rw [hopened, openedAt, openVat_of_named hnamed]
    case auto => rw [hopened, openedAt, openVat_of_auto hauto]
  case closes => exact exec_of_cmdRow rfl hready rfl (reqCloseBody_of_unused sess hchan hunused)

end Sys2Proof.Machine
end

section
/-! The next entry of a request channel (R218, R220, R237, R241): what SUBMIT and CANCEL answer for each entry that is read. -/

namespace Sys2Proof.Machine

/-- What becomes of an entry that is no CANCEL: check 1 of R220, then the REQ_ID, which must be new on the channel. -/
def takeSubmit (t : State) (p chan k : Nat) (b : Octets) : State :=
  if fld b 0 1 != 1 || !(submitFormatOk b (stopBlock t p b)) then
    refuseEntry t chan k St.formatMismatch (fld b 0 1) (fld b 8 8)
  else if t.srv.reqs.any (fun q => q.chan = chan && q.reqId = fld b 8 8) then
    refuseEntry t chan k St.configConflict (fld b 0 1) (fld b 8 8)
  else submit t (reqOf p chan k b (stopBlock t p b)) b (stopBlock t p b)

/-- What becomes of a CANCEL entry: its reserved octets must be zero (R237). -/
def takeCancel (t : State) (chan k : Nat) (b : Octets) : State :=
  if !(zeroAt b 1 7 && zeroAt b 16 112) then refuseEntry t chan k St.formatMismatch 2 (fld b 8 8)
  else resolveCancel (retire t chan k) chan (fld b 8 8)

section
variable {t : State} {p chan k : Nat} {b : Octets}

theorem takeSubmit_of_format (hformat : fld b 0 1 ≠ 1 ∨ submitFormatOk b (stopBlock t p b) = false) :
    takeSubmit t p chan k b = refuseEntry t chan k St.formatMismatch (fld b 0 1) (fld b 8 8) :=
  if_pos (by simpa using hformat)

/-- An entry that passes check 1 of R220 turns on its REQ_ID alone. -/
theorem takeSubmit_of_formatOk (hop : fld b 0 1 = 1) (hformat : submitFormatOk b (stopBlock t p b) = true) :
    takeSubmit t p chan k b =
      if t.srv.reqs.any (fun q => q.chan = chan && q.reqId = fld b 8 8) then
        refuseEntry t chan k St.configConflict 1 (fld b 8 8)
      else submit t (reqOf p chan k b (stopBlock t p b)) b (stopBlock t p b) := by
  rw [takeSubmit, if_neg (by simp [hop, hformat]), hop]

theorem takeCancel_of_zero (hlow : zeroAt b 1 7 = true) (hhigh : zeroAt b 16 112 = true) :
    takeCancel t chan k b = resolveCancel (retire t chan k) chan (fld b 8 8) := if_neg (by simp [hlow, hhigh])

theorem takeCancel_of_nonzero (hreserved : (zeroAt b 1 7 && zeroAt b 16 112) = false) :
    takeCancel t chan k b = refuseEntry t chan k St.formatMismatch 2 (fld b 8 8) := if_pos (by rw [hreserved]; rfl)

end

section
variable {s : State} {chan p k : Nat} {c : ReqChan} {b : Octets}

/-- An entry that cannot be read is refused with the status of its read (R241). -/
theorem exec_submit_of_unreadable {e : Nat} (hnext : nextEntry s chan = some (p, c, k, .error e)) :
    exec (.submit chan) s = .next (refuseEntry (entryRead s chan c) chan k e 0 0) := by
  change execSubmit chan s = _
  rw [execSubmit, hnext]

/-- SUBMIT takes an entry that is no CANCEL. -/
theorem exec_submit_of_read (hnext : nextEntry s chan = some (p, c, k, .ok b)) (hop : fld b 0 1 ≠ 2) :
    exec (.submit chan) s = .next (takeSubmit (forgetEnded (entryRead s chan c) chan) p chan k b) := by
  change execSubmit chan s = _
  simp only [execSubmit, hnext, hop, if_false, takeSubmit, apply_ite Host.Outcome.next]

/-- CANCEL takes an entry that is one. -/
theorem exec_cancel_of_read (hnext : nextEntry s chan = some (p, c, k, .ok b)) (hop : fld b 0 1 = 2) :
    exec (.cancel chan) s = .next (takeCancel (forgetEnded (entryRead s chan c) chan) chan k b) := by
  change execCancel chan s = _
  simp only [execCancel, hnext, hop, bne_self_eq_false, Bool.false_eq_true, if_false, takeCancel,
    apply_ite Host.Outcome.next]

end

/-- Settles O40: SUBMIT and CANCEL divide the entries that are read by their OP, and what becomes of each divides on its format
and its REQ_ID. -/
theorem requestEntriesComplete : Obligations.RequestEntriesComplete := by
  intro s chan p k c
  refine ⟨fun e => exec_submit_of_unreadable, fun b hnext => ?_⟩
  have hsubmit := exec_submit_of_read hnext
  have hcancel := exec_cancel_of_read hnext
  refine ⟨fun hop hformat hnew => ?taken, fun hop hformat => ?format, fun hop hformat hused => ?inUse,
    fun hop hlow hhigh => ?cancelled, fun hop hreserved => ?reserved⟩
  case taken =>
    rw [hsubmit (by simp [hop]), takeSubmit_of_formatOk hop hformat]
    exact congrArg _ (if_neg (ne_true_of_eq_false hnew))
  case format => rw [hsubmit hop, takeSubmit_of_format hformat]
  case inUse =>
    rw [hsubmit (by simp [hop]), takeSubmit_of_formatOk hop hformat]
    exact congrArg _ (if_pos hused)
  case cancelled => rw [hcancel hop, takeCancel_of_zero hlow hhigh]
  case reserved => rw [hcancel hop, takeCancel_of_nonzero hreserved]

end Sys2Proof.Machine
end

section
/-! The journal and the memory's own commands (R243, R252, R256, R258, R261): the holder's ring, a holder's answer, a holder's
loss, a region, the patrol scrub and the end of zeroing. -/

namespace Sys2Proof.Machine

/-! ## A holder's ring (R243) -/

/-- A lead's record in its ring, with the older records that still fit; the module then holds for that lead. -/
def keepRecord (s : State) (lead : Nat) (record : Octets) : State :=
  { s with
    srv := { s.srv with rings := tput [] s.srv.rings lead (fitRing (ringShare s) (tget [] s.srv.rings lead ++ [record])) }
    whl := { s.whl with heldFor := if s.whl.heldFor.contains lead then s.whl.heldFor else s.whl.heldFor ++ [lead] } }

section
variable {s : State} {lead : Nat} {record : Octets} (hpower : s.pwr.state = .s0 ∨ s.pwr.state = .s1)
include hpower

/-- A record that fits is kept, where its lead has a ring or a ring is free. -/
theorem exec_journalRecord_of_fits (hsome : record ≠ []) (hfits : record.length ≤ ringShare s)
    (hring : s.srv.rings.any (fun r => r.1 = lead) = true ∨ s.srv.rings.length < 8) :
    exec (.journalRecord lead record) s =
      .next ((keepRecord s lead record).emit (.journalAck lead (fld record 8 8) St.ok)) := by
  change execJournalRecord lead record s = _
  have hplace : (!(s.srv.rings.any (fun r => r.1 = lead)) && decide (8 ≤ s.srv.rings.length)) = false := by
    rcases hring with hhas | hfree
    · rw [hhas]; rfl
    · rw [decide_eq_false (Nat.not_le.mpr hfree), Bool.and_false]
  simp only [execJournalRecord, not_asleep_of_s0_or_s1 hpower, hplace, decide_eq_false (Nat.not_lt.mpr hfits),
    List.isEmpty_eq_false_iff.mpr hsome, Bool.or_self, Bool.false_eq_true, if_false]
  rfl

/-- A record longer than a ring is refused. -/
theorem exec_journalRecord_of_tooLong (hlong : ringShare s < record.length) :
    exec (.journalRecord lead record) s = .next (s.emit (.journalAck lead (fld record 8 8) St.noSpace)) := by
  change execJournalRecord lead record s = _
  simp only [execJournalRecord, not_asleep_of_s0_or_s1 hpower, hlong, decide_true, Bool.true_or, Bool.false_eq_true, if_false,
    if_true]

end

/-! ## A holder's answer (R243) -/

section
variable {s : State} {holder seqno : Nat} (hholder : holder < 2) (hnamed : holderAt s holder ≠ 0) (hsent : seqno < s.srv.jNext)
include hholder hnamed hsent

/-- An acknowledgement counts for its holder's highest SEQNO. -/
theorem exec_journalAck_of_stored :
    exec (.journalAck holder seqno 0) s = .next { s with srv := { s.srv with
      jAck := lset s.srv.jAck holder (max seqno (s.srv.jAck.getD holder 0)) } } := by
  change execJournalAck holder seqno 0 s = _
  rw [execJournalAck, if_neg (by simp [hholder, hnamed, hsent]), if_pos rfl]

/-- The first refusal of a holder makes it lost for journalling and is reported. -/
theorem exec_journalAck_of_refused {status : Nat} (hstatus : status ≠ 0) (hfirst : s.srv.jLost.getD holder true = false) :
    exec (.journalAck holder seqno status) s =
      .next (({ s with srv := { s.srv with jLost := lset s.srv.jLost holder true } }).writeErr
        (reportErr status Kind.chip (holderAt s holder) 0)) := by
  change execJournalAck holder seqno status s = _
  rw [execJournalAck, if_neg (by simp [hholder, hnamed, hsent]), if_neg hstatus, if_neg (ne_true_of_eq_false hfirst)]
  rfl

end

/-! ## A holder's loss (R261) -/

/-- A chip named as the first holder alone holds by index 0. -/
theorem holderIndices_of_first {s : State} {chip : Nat} (hchip : chip ≠ 0) (hfirst : holderAt s 0 = chip)
    (hother : holderAt s 1 ≠ chip) :
    (List.range 2).filter (fun i => chip != 0 && holderAt s i = chip) = [0] := by
  simp [List.range_succ, hchip, hfirst, hother]

/-- The first holder's loss pushes the envelopes to it again, and CHECKPOINTs come before the next STEP record. -/
theorem exec_replicaLostNotice_of_first {s : State} {chip : Nat} (hchip : chip ≠ 0) (hfirst : holderAt s 0 = chip)
    (hother : holderAt s 1 ≠ chip) :
    exec (.replicaLostNotice chip) s =
      let t := pushAgain s chip [0]
      .next { t with srv := { t.srv with checkpointDue := true, jLost := lset t.srv.jLost 0 false } } := by
  change execReplicaLostNotice chip s = _
  rw [execReplicaLostNotice, holderIndices_of_first hchip hfirst hother]
  rfl

/-! ## Memory (R252, R256, R258) -/

/-- A region that the planned regions admit pends its boundary. -/
theorem memRegionBody_of_admitted {s : State} {p : Nat} {arg : Octets} (sess : Nat)
    (hstatus : regionStatus s (plannedRegions s) arg = 0) :
    memRegionBody sess p arg s = stepPend Key.memRegionSet sess p arg s := refuse_unless_of_zero s _ hstatus

/-- The scrub position after a line without error: the next line, or the start of a new pass with no error counted. -/
theorem exec_patrolScrub_of_clean {s : State} {slice line : Nat} (hpresent : slicePresent s slice = true)
    (henabled : (s.sliceAt slice).scrubEn = true) (hpstate : (s.sliceAt slice).pstate ≠ 3)
    (hpower : s.pwr.state = .s0 ∨ s.pwr.state = .s1) (hline : line = (s.sliceAt slice).scrubAt) :
    exec (.patrolScrub slice line none) s = .next (s.setSlice slice
      (if line + 1 = sliceLines slice then { s.sliceAt slice with scrubAt := 0, corrected := [] }
        else { s.sliceAt slice with scrubAt := line + 1 })) := by
  change execPatrolScrub slice line none s = _
  exact if_neg (by simp only [hpresent, henabled, hpstate, not_asleep_of_s0_or_s1 hpower, hline]; simp)

/-- A job that ends leaves its regions zeroed; one that clears a key ends its partition too (R256, R452). -/
theorem exec_memoryZeroDone_of_found {s : State} {job : Nat} {j : ZeroJob}
    (hjob : s.mem.zero.find? (fun j => j.job = job) = some j) :
    exec (.memoryZeroDone job) s =
      let t := zeroKeys s (fun k => j.regions.any (fun r => inRegion r k))
      let u := { t with mem := { t.mem with zero := t.mem.zero.filter (fun x => x.job != job) } }
      .next (if j.clearKey then partGone u j.part else u) := by
  change execMemoryZeroDone job s = _
  rw [execMemoryZeroDone, hjob]

/-- Settles O42: each clause is the rule of its command above; the region's is a command row whose body pends it. -/
theorem journalAndMemoryComplete : Obligations.JournalAndMemoryComplete := by
  intro s
  refine ⟨fun lead record hpower => ⟨exec_journalRecord_of_fits hpower, exec_journalRecord_of_tooLong hpower⟩,
    fun holder seqno hholder hnamed hsent => ⟨exec_journalAck_of_stored hholder hnamed hsent,
      fun status => exec_journalAck_of_refused hholder hnamed hsent⟩,
    fun chip => exec_replicaLostNotice_of_first,
    fun sess arg hready hstatus => exec_of_cmdRow rfl hready rfl (memRegionBody_of_admitted sess hstatus),
    fun slice line => exec_patrolScrub_of_clean, fun job j => exec_memoryZeroDone_of_found⟩

end Sys2Proof.Machine
end

section
/-! What every step keeps: the canonical form of the memory. -/

namespace Sys2Proof.Machine

/-- A step is a command's, which `Keeps` whatever the queue was, or a tick of the clock, which touches no memory. -/
theorem step_keeps_memory_wf {s t : State} (hwf : Memory.wf s.mem.bytes = true) (hstep : step s = .next t) :
    Memory.wf t.mem.bytes = true := by
  unfold step at hstep
  split at hstep
  case h_1 =>
    obtain rfl := Host.Outcome.next.inj hstep
    exact (tick_keeps (Keeps.refl s)).mem hwf
  case h_2 c cs _ => exact ((exec_keeps c { s with pending := cs }).keeps t hstep).mem hwf

/-- Settles O6: the canonical form is one of the things that every command's change keeps. -/
theorem stepKeepsMemoryCanonical : Obligations.StepKeepsMemoryCanonical := fun _ _ => step_keeps_memory_wf

end Sys2Proof.Machine
end

section
/-! Reads and writes of a partition's space (R249–R251, R257): unmapped, stopped by a poisoned line, or done; and what a write
that is done leaves in the bytes and in the lines. -/

namespace Sys2Proof.Machine

/-! ## What the reads of the space depend on -/

section
variable {s t : State} (hmem : t.mem = s.mem)
include hmem

theorem memByte_of_mem_eq (k : Nat) : memByte t k = memByte s k := by rw [memByte, hmem, memByte]

theorem linePoisoned_of_mem_eq : linePoisoned t = linePoisoned s := by
  funext l
  rw [linePoisoned, hmem, linePoisoned]

end

section
variable {s t : State} (hregions : t.mem.regions = s.mem.regions) (part tier : Nat)
include hregions

theorem regionsOf_of_regions_eq : regionsOf t part tier = regionsOf s part tier := by rw [regionsOf, hregions, regionsOf]

theorem spaceSize_of_regions_eq : spaceSize t part tier = spaceSize s part tier := by
  rw [spaceSize, regionsOf_of_regions_eq hregions, spaceSize]

theorem spaceKey_of_regions_eq (off : Nat) : spaceKey t part tier off = spaceKey s part tier off := by
  rw [spaceKey, regionsOf_of_regions_eq hregions, spaceKey]

theorem lineOf_of_regions_eq (off : Nat) : lineOf t part tier off = lineOf s part tier off := by
  rw [lineOf, spaceKey_of_regions_eq hregions, lineOf]

end

@[simp] theorem State.tel_mem (s : State) (p tokens passes ns bytes : Nat) : (s.tel p tokens passes ns bytes).mem = s.mem := by
  unfold State.tel
  split <;> rfl

/-! ## Lists of bytes -/

/-- The byte at a key that a list of writes does not name. -/
theorem tget_putBytes_of_notMem {k : Nat} {keys : List Nat} (hk : k ∉ keys) (m : Tab Byte) (d : Octets) :
    tget 0 (putBytes m keys d) k = tget 0 m k := by
  induction keys generalizing m d with
  | nil => cases d <;> rfl
  | cons key keys ih =>
    obtain ⟨hne, hk⟩ := List.ne_and_not_mem_of_not_mem_cons hk
    cases d with
    | nil => rfl
    | cons b d => rw [putBytes, ih hk, tget_tput_ne _ _ _ _ hne]

/-! ## The lines of an access -/

/-- The lines of memory that an access touches, with whether it covers the whole line. -/
def touchedLines (s : State) (part tier off n : Nat) : List (Nat × Bool) :=
  (linesOf off n).filterMap (fun l => (lineOf s part tier l.1).map (·, l.2))

section
variable {s : State} {part tier off n l line : Nat} {whole : Bool}

theorem mem_touchedLines (hl : (l, whole) ∈ linesOf off n) (hline : lineOf s part tier l = some line) :
    (line, whole) ∈ touchedLines s part tier off n :=
  List.mem_filterMap.mpr ⟨(l, whole), hl, by rw [hline]; rfl⟩

end

/-- One octet lies in one line and never covers it. -/
theorem linesOf_one (off : Nat) : linesOf off 1 = [(off / 64 * 64, false)] := by
  have hpart : (decide (off ≤ off / 64 * 64) && decide (off / 64 * 64 + 64 ≤ off + 1)) = false := by
    rw [Bool.and_eq_false_iff, decide_eq_false_iff_not, decide_eq_false_iff_not]
    omega
  have hcount : (off + 1 - 1) / 64 - off / 64 + 1 = 1 := by omega
  simp only [linesOf, if_neg Nat.one_ne_zero, hcount, List.range_one, List.map_singleton, Nat.add_zero, hpart]

theorem spaceKeys_one {s : State} {part tier off key : Nat} (hkey : spaceKey s part tier off = some key) :
    spaceKeys s part tier off 1 = [key] := by
  simp [spaceKeys, hkey]

/-! ## Reads (R251, R257) -/

section
variable {s : State} {part tier off n : Nat}

theorem memRead_of_past (hpast : spaceSize s part tier < off + n) : memRead s part tier off n = .error St.accessUnmapped :=
  if_pos hpast

theorem memRead_of_poisoned (hfit : off + n ≤ spaceSize s part tier) {l line : Nat} {whole : Bool}
    (hl : (l, whole) ∈ linesOf off n) (hline : lineOf s part tier l = some line) (hpoison : linePoisoned s line = true) :
    memRead s part tier off n = .error St.memPoisoned := by
  have hany : (linesOf off n).any (fun l => (lineOf s part tier l.1).any (linePoisoned s)) = true :=
    List.any_eq_true.mpr ⟨(l, whole), hl, by rw [hline]; exact hpoison⟩
  rw [memRead, if_neg (Nat.not_lt.mpr hfit), if_pos hany]

theorem memRead_of_clean (hfit : off + n ≤ spaceSize s part tier)
    (hclean : ∀ l ∈ linesOf off n, ∀ line, lineOf s part tier l.1 = some line → linePoisoned s line = false) :
    memRead s part tier off n = .ok ((spaceKeys s part tier off n).map (memByte s)) := by
  have hnone : ¬ (linesOf off n).any (fun l => (lineOf s part tier l.1).any (linePoisoned s)) = true := by
    rw [List.any_eq_true]
    rintro ⟨l, hl, hany⟩
    obtain ⟨line, hline, hpoison⟩ := (Option.any_eq_true _ _).mp hany
    exact Bool.false_ne_true ((hclean l hl line hline).symm.trans hpoison)
  rw [memRead, if_neg (Nat.not_lt.mpr hfit), if_neg hnone]

end

/-! ## Writes (R251, R257) -/

/-- The state in which an access's octets are stored: its lines that it covers are no longer poisoned. -/
def stored (s : State) (part tier off : Nat) (d : Octets) : State :=
  let lines := touchedLines s part tier off d.length
  { s with mem := { s.mem with
      bytes := putBytes s.mem.bytes (spaceKeys s part tier off d.length) d
      poison := s.mem.poison.filter (fun k => !(lines.any (fun l => l.1 = k)))
      rewritten := if s.mem.garbled.isEmpty then s.mem.rewritten
        else s.mem.rewritten ++ (lines.map (·.1)).filter (fun k => !(s.mem.rewritten.contains k)) } }

section
variable {s : State} {part tier off : Nat} {d : Octets}

theorem memWrite_of_past (hpast : spaceSize s part tier < off + d.length) :
    memWrite s part tier off d = (St.accessUnmapped, s) := if_pos hpast

theorem memWrite_of_fits (hfit : off + d.length ≤ spaceSize s part tier) :
    memWrite s part tier off d =
      if (touchedLines s part tier off d.length).any (fun l => linePoisoned s l.1 && !l.2) then (St.memPoisoned, s)
      else (St.ok, (stored s part tier off d).tel part 0 0 0 d.length) := if_neg (Nat.not_lt.mpr hfit)

theorem memWrite_of_poisoned (hfit : off + d.length ≤ spaceSize s part tier) {line : Nat}
    (hline : (line, false) ∈ touchedLines s part tier off d.length) (hpoison : linePoisoned s line = true) :
    memWrite s part tier off d = (St.memPoisoned, s) := by
  rw [memWrite_of_fits hfit, if_pos (List.any_eq_true.mpr ⟨_, hline, by simp [hpoison]⟩)]

theorem memWrite_of_clean (hfit : off + d.length ≤ spaceSize s part tier)
    (hclean : ∀ l ∈ touchedLines s part tier off d.length, linePoisoned s l.1 = false) :
    memWrite s part tier off d = (St.ok, (stored s part tier off d).tel part 0 0 0 d.length) := by
  have hnone : ¬ (touchedLines s part tier off d.length).any (fun l => linePoisoned s l.1 && !l.2) = true := by
    rw [List.any_eq_true]
    rintro ⟨l, hl, hpoison⟩
    simp [hclean l hl] at hpoison
  rw [memWrite_of_fits hfit, if_neg hnone]

variable (s part tier off d)

/-- Whatever it answers, a write leaves the memory as it was or stores its octets. -/
theorem memWrite_mem : (memWrite s part tier off d).2.mem = s.mem ∨
    (memWrite s part tier off d).2.mem = (stored s part tier off d).mem := by
  rcases Nat.lt_or_ge (spaceSize s part tier) (off + d.length) with hpast | hfit
  · rw [memWrite_of_past hpast]
    exact .inl rfl
  · rw [memWrite_of_fits hfit]
    split
    · exact .inl rfl
    · exact .inr (State.tel_mem _ _ _ _ _ _)

/-- A write reaches no byte but those of its own offsets. -/
theorem memByte_memWrite_of_notMem {k : Nat} (hk : k ∉ spaceKeys s part tier off d.length) :
    memByte (memWrite s part tier off d).2 k = memByte s k := by
  rcases memWrite_mem s part tier off d with hsame | hstored
  · exact memByte_of_mem_eq hsame k
  · rw [memByte_of_mem_eq hstored k]
    exact tget_putBytes_of_notMem hk _ _

/-- Storing octets poisons no line: it takes lines out of the poisoned ones and adds lines to those written since a new key. -/
theorem linePoisoned_stored {line : Nat} (hclean : linePoisoned s line = false) :
    linePoisoned (stored s part tier off d) line = false := by
  simp only [linePoisoned, Bool.or_eq_false_iff, Bool.and_eq_false_iff, Bool.not_eq_false', List.contains_eq_mem,
    decide_eq_true_eq, decide_eq_false_iff_not] at hclean ⊢
  obtain ⟨hpoison, hgarbled⟩ := hclean
  refine ⟨fun hmem => hpoison (List.mem_filter.mp hmem).1, hgarbled.imp_right fun hrewritten => ?_⟩
  rw [stored]
  split
  · exact hrewritten
  · exact List.mem_append_left _ hrewritten

end

/-! ## One octet -/

section
variable {s : State} {part tier off key : Nat} (b : Byte) (hfit : off + 1 ≤ spaceSize s part tier)
    (hkey : spaceKey s part tier off = some key)
    (hclean : ∀ l, lineOf s part tier (off / 64 * 64) = some l → linePoisoned s l = false)

include hfit hclean in
theorem memWrite_octet :
    memWrite s part tier off [b] = (St.ok, (stored s part tier off [b]).tel part 0 0 0 1) := by
  refine memWrite_of_clean hfit fun l hl => ?_
  rw [List.length_singleton, touchedLines, linesOf_one] at hl
  obtain ⟨l', hl', hmap⟩ := List.mem_filterMap.mp hl
  obtain ⟨line, hline, rfl⟩ := Option.map_eq_some_iff.mp hmap
  obtain rfl := List.mem_singleton.mp hl'
  exact hclean line hline

include hkey in
theorem memByte_stored_octet (hwf : Memory.wf s.mem.bytes = true) : memByte (stored s part tier off [b]) key = b := by
  have hbytes : (stored s part tier off [b]).mem.bytes = tput 0 s.mem.bytes key b := by
    rw [stored, List.length_singleton, spaceKeys_one hkey]
    rfl
  rw [memByte, hbytes, tget_tput_same _ _ _ hwf]

include hfit hkey hclean in
/-- An octet in a line that is not poisoned reads back as it was written. -/
theorem memRead_memWrite_octet (hwf : Memory.wf s.mem.bytes = true) :
    memRead (memWrite s part tier off [b]).2 part tier off 1 = .ok [b] := by
  obtain ⟨t, hwrite, hmem⟩ : ∃ t, memWrite s part tier off [b] = (St.ok, t) ∧ t.mem = (stored s part tier off [b]).mem :=
    ⟨_, memWrite_octet b hfit hclean, State.tel_mem _ _ _ _ _ _⟩
  rw [hwrite]
  have hregions : t.mem.regions = s.mem.regions := by rw [hmem, stored]
  have hstays : ∀ l ∈ linesOf off 1, ∀ line, lineOf t part tier l.1 = some line → linePoisoned t line = false := by
    intro l hl line hline
    rw [linesOf_one, List.mem_singleton] at hl
    subst hl
    rw [linePoisoned_of_mem_eq hmem]
    exact linePoisoned_stored s part tier off [b] (hclean line (by rw [← lineOf_of_regions_eq hregions, hline]))
  rw [memRead_of_clean (by rw [spaceSize_of_regions_eq hregions]; exact hfit) hstays,
    spaceKeys_one (by rw [spaceKey_of_regions_eq hregions, hkey]), List.map_singleton, memByte_of_mem_eq hmem,
    memByte_stored_octet b hkey hwf]

end

/-- Settles O9: the end of the space is the first check of a read and of a write. -/
theorem accessPastTheSpaceIsUnmapped : Obligations.AccessPastTheSpaceIsUnmapped := by
  rintro s part tier off _ d hpast rfl
  exact ⟨memRead_of_past hpast, memWrite_of_past hpast⟩

/-- Settles O10: the poisoned line is among those that the access touches, and each of the two stops at it. -/
theorem poisonedLineStopsPartialWritesAndReads : Obligations.PoisonedLineStopsPartialWritesAndReads := by
  rintro s part tier off d l line whole hfit hl hline hpoison
  refine ⟨?_, memRead_of_poisoned hfit hl hline hpoison⟩
  rintro rfl
  exact memWrite_of_poisoned hfit (mem_touchedLines hl hline) hpoison

/-- Settles O11: the list of byte writes names the keys of the access alone, and an octet's write unpoisons and stores. -/
theorem writesStoreTheirOwnBytes : Obligations.WritesStoreTheirOwnBytes := by
  refine ⟨fun s part tier off d _ => memByte_memWrite_of_notMem s part tier off d, ?_⟩
  intro s part tier off key b hwf hfit hkey _ hclean
  have hwrite := memWrite_octet b hfit hclean
  refine ⟨by rw [hwrite], ?_, memRead_memWrite_octet b hfit hkey hclean hwf⟩
  rw [hwrite, memByte_of_mem_eq (State.tel_mem _ _ _ _ _ _), memByte_stored_octet b hkey hwf]

end Sys2Proof.Machine
end

section
/-! The frame of the commands that act in one unit: what they leave as it was, said once as a relation of two states, and one
law for each command whose effect is one of the shared operations. -/

namespace Sys2Proof.Machine

/-! ## The relation -/

/-- Memory, settings, wheels, sequences, tables, fuses and security state are the same in both. -/
structure SameStores (s t : State) : Prop where
  mem : t.mem = s.mem
  vals : t.dic.vals = s.dic.vals
  whl : t.whl = s.whl
  kv : t.kv = s.kv
  emb : t.emb = s.emb
  fuse : t.fuse = s.fuse
  sec : t.sec = s.sec

theorem SameStores.refl (s : State) : SameStores s s := ⟨rfl, rfl, rfl, rfl, rfl, rfl, rfl⟩

theorem SameStores.trans {s t u : State} (hst : SameStores s t) (htu : SameStores t u) : SameStores s u :=
  ⟨htu.mem.trans hst.mem, htu.vals.trans hst.vals, htu.whl.trans hst.whl, htu.kv.trans hst.kv, htu.emb.trans hst.emb,
    htu.fuse.trans hst.fuse, htu.sec.trans hst.sec⟩

/-- A change of any other field. -/
theorem SameStores.elsewhere {s : State} {arr vat eng srv fab syn flt pwr pin time powered free out pending} :
    SameStores s ⟨s.fuse, s.dic, arr, vat, eng, s.whl, s.kv, s.emb, srv, s.mem, fab, syn, flt, pwr, s.sec, pin, time, powered,
      free, out, pending⟩ := ⟨rfl, rfl, rfl, rfl, rfl, rfl, rfl⟩

theorem SameStores.ite {s t u : State} {c : Prop} [Decidable c] (ht : SameStores s t) (hu : SameStores s u) :
    SameStores s (if c then t else u) := by
  split
  · exact ht
  · exact hu

/-- An outcome whose next state, where it has one, has the same stores. -/
def LeavesStores (s : State) (o : Host.Outcome State Fault Refusal) : Prop := ∀ t, o = .next t → SameStores s t

theorem LeavesStores.next {s t : State} (h : SameStores s t) : LeavesStores s (.next t) := by
  rintro _ ⟨⟩
  exact h

theorem LeavesStores.ite {s : State} {a b : Host.Outcome State Fault Refusal} {c : Prop} [Decidable c] (ha : LeavesStores s a)
    (hb : LeavesStores s b) : LeavesStores s (if c then a else b) := by
  split
  · exact ha
  · exact hb

/-- A change made under a guard, and nothing otherwise. -/
theorem LeavesStores.guarded {s t : State} {c : Prop} [Decidable c] (h : SameStores s t) :
    LeavesStores s (if c then .next t else .next s) := .ite (.next h) (.next (.refl s))

/-! ## The shared operations -/

section
variable (s : State)

theorem State.until_sameStores (t : Nat) : SameStores s (s.until t) := .ite .elsewhere (.refl s)

theorem State.writeErr_sameStores (r : ErrRec) : SameStores s (s.writeErr r) := .ite .elsewhere .elsewhere

theorem endAllSessions_sameStores : SameStores s (endAllSessions s) := ⟨rfl, rfl, rfl, rfl, rfl, rfl, rfl⟩

theorem wake_sameStores (w : Wake) : SameStores s (wake w s) :=
  .ite (.refl s) (.ite (.refl s) (.ite .elsewhere .elsewhere))

theorem askUrgent_sameStores : SameStores s (askUrgent s) := by
  unfold askUrgent
  split <;> exact .elsewhere

theorem startFence_sameStores (a : Agent) (scope : Nat) : SameStores s (startFence s a scope) := .ite (.refl s) .elsewhere

theorem selectIr_sameStores (ir : JtagIr) : SameStores s (selectIr s ir) := .ite .elsewhere (.refl s)

theorem mbxAnswer_sameStores {e : MbxEnd} {k : Nat} {r : Nat × State} (h : SameStores s r.2) :
    SameStores s (mbxAnswer e k r) := by
  cases e with
  | session n => exact .ite (h.trans .elsewhere) h
  | mgmt | sec | vat v => exact h

theorem mbxPutWords_sameStores (m : Nat) (e : MbxEnd) (ws : List (Nat × Word)) : SameStores s (mbxPutWords s m e ws).2 := by
  unfold mbxPutWords
  split
  · exact .refl s
  · split <;> exact .elsewhere

theorem mbxRing_sameStores (m : Nat) (e : MbxEnd) (len : Nat) : SameStores s (mbxRing s m e len).2 := by
  unfold mbxRing
  split
  · exact .refl s
  · split
    · exact .elsewhere
    · split
      · exact .ite (SameStores.elsewhere.trans (wake_sameStores _ _)) .elsewhere
      · exact .elsewhere

end

/-! ## The commands that divide on more than one guard -/

section
variable (s : State)

theorem execStealSearch_leavesStores (engine : Nat) : LeavesStores s (execStealSearch engine s) := by
  refine .ite ?_ (.next (.refl s))
  split <;> exact .next .elsewhere

theorem execErrorRecordPersist_leavesStores : LeavesStores s (execErrorRecordPersist s) := by
  unfold execErrorRecordPersist
  split
  · exact .next .elsewhere
  · exact .next (.refl s)

theorem execFenceLocal_leavesStores (agent : Agent) : LeavesStores s (execFenceLocal agent s) := by
  unfold execFenceLocal
  split
  · exact .next (startFence_sameStores s _ _)
  · exact .next (.refl s)

theorem execFenceComplete_leavesStores (agent : Agent) : LeavesStores s (execFenceComplete agent s) := by
  unfold execFenceComplete
  split
  · exact .next (.refl s)
  · exact .ite (.next (.refl s)) (.next ((State.until_sameStores s _).trans .elsewhere))

theorem execMbxInterrupt_leavesStores (mbx : Nat) : LeavesStores s (execMbxInterrupt mbx s) := by
  have hpower : ∀ v : Nat, SameStores s (if 2 ≤ v then s.modVat (v - 2) (fun v => { v with gated := false }) else s) :=
    fun _ => .ite .elsewhere (.refl s)
  exact .guarded ((hpower _).trans .elsewhere)

theorem execMbxAck_leavesStores (mbx : Nat) (e : MbxEnd) (rc : Nat) : LeavesStores s (execMbxAck mbx e rc s) :=
  .ite (.next (.refl s)) (.ite (.next (mbxAnswer_sameStores s (.refl s))) (.ite (.next .elsewhere) (.next .elsewhere)))

theorem execLinkTrainingDone_leavesStores (port sub : Nat) (accepted : Bool) :
    LeavesStores s (execLinkTrainingDone port sub accepted s) :=
  .ite (.ite (.next .elsewhere) (.next (SameStores.elsewhere.trans (State.writeErr_sameStores _ _)))) (.next (.refl s))

end

/-! ## All of them -/

/-- One case per command of `staysLocal`: its effect is a guarded change elsewhere, or has its law above. -/
theorem exec_leavesStores_of_staysLocal {c : Instr} (hlocal : staysLocal c = true) (s : State) : LeavesStores s (exec c s) := by
  cases c with
  | engineWake n => exact .guarded .elsewhere
  | engineIdleGate n => exact .guarded ((State.until_sameStores s _).trans .elsewhere)
  | stealSearch n => exact execStealSearch_leavesStores s n
  | arrayIdleGate n => exact .guarded ((State.until_sameStores s _).trans .elsewhere)
  | vatHeartbeat v => exact .guarded .elsewhere
  | mgmtCoreReset => exact .ite (.next (.refl s)) (.next ((endAllSessions_sameStores s).trans .elsewhere))
  | mgmtCoreResetDone => exact .guarded .elsewhere
  | errorRecordPersist => exact execErrorRecordPersist_leavesStores s
  | coreHalt n => exact .guarded .elsewhere
  | coreSingleStep n => exact .guarded .elsewhere
  | coreResume n => exact .guarded .elsewhere
  | corePllRelock => exact .guarded .elsewhere
  | brakeRelease => exact .next .elsewhere
  | wakeEvent w => exact .guarded (wake_sameStores s w)
  | railExcursion v => exact .guarded (SameStores.elsewhere.trans (askUrgent_sameStores _))
  | railRecovered v => exact .next .elsewhere
  | fenceLocal a => exact execFenceLocal_leavesStores s a
  | fenceDie a => exact .next (startFence_sameStores s a 2)
  | fenceFabric a => exact .next (startFence_sameStores s a 3)
  | fenceComplete a => exact execFenceComplete_leavesStores s a
  | mbxMsgWrite m e word value => exact .ite (.next (.refl s)) (.next (mbxAnswer_sameStores s (mbxPutWords_sameStores s m e _)))
  | mbxDoorbell m e len => exact .ite (.next (.refl s)) (.next (mbxAnswer_sameStores s (mbxRing_sameStores s m e len)))
  | mbxInterrupt m => exact execMbxInterrupt_leavesStores s m
  | mbxAck m e rc => exact execMbxAck_leavesStores s m e rc
  | planReceive p plan => exact .guarded .elsewhere
  | seqInvalidReport p seq chip => exact .guarded .elsewhere
  | linkTrainingDone port sub accepted => exact execLinkTrainingDone_leavesStores s port sub accepted
  | jtagIdcode => exact .guarded ((selectIr_sameStores s _).trans .elsewhere)
  | jtagBypass => exact .next (selectIr_sameStores s _)
  | jtagSamplePreload => exact .next (selectIr_sameStores s _)
  | jtagExtest => exact .next (selectIr_sameStores s _)
  | jtagTapReset => exact .next .elsewhere
  | slotIdChange straps => exact .next .elsewhere
  | _ => nomatch hlocal

/-- Settles O12: the command leaves every store, and a byte is read from the memory alone. -/
theorem localCommandsStoreNothing : Obligations.LocalCommandsStoreNothing := by
  intro s t c hlocal hexec
  obtain ⟨hmem, hvals, hwhl, hkv, hemb, hfuse, hsec⟩ := exec_leavesStores_of_staysLocal hlocal s t hexec
  exact ⟨hmem, memByte_of_mem_eq hmem, hvals, hwhl, hkv, hemb, hfuse, hsec⟩

end Sys2Proof.Machine
end

section
/-! A frame of a stream at its receiving end (R273 checks 7 and 8, R277): unknown, repeated, past the window, or new. -/

namespace Sys2Proof.Machine

/-- The answer to a frame that was applied: a refusal with the status that applying it gave, an acknowledgement after 16 frames,
or one frame more that awaits it. -/
def answerApplied (f : Frame) (r : Nat × State) (y : StreamSt) : State :=
  if r.1 ≠ 0 then sendEack r.2 f.srcChip 2 y.peer f.eseq 0 r.1
  else if 16 ≤ y.unacked + 1 then sendAck r.2 f.stream y
  else setChan r.2 f.stream (.stream { y with unacked := y.unacked + 1 })

section
variable {f : Frame} {r : Nat × State} {y : StreamSt}

theorem answerApplied_of_refused (hrefused : r.1 ≠ 0) :
    answerApplied f r y = sendEack r.2 f.srcChip 2 y.peer f.eseq 0 r.1 := if_pos hrefused

theorem answerApplied_of_due (hdone : r.1 = 0) (hdue : 16 ≤ y.unacked + 1) : answerApplied f r y = sendAck r.2 f.stream y :=
  (if_neg (fun hrefused => hrefused hdone)).trans (if_pos hdue)

theorem answerApplied_of_early (hdone : r.1 = 0) (hearly : y.unacked + 1 < 16) :
    answerApplied f r y = setChan r.2 f.stream (.stream { y with unacked := y.unacked + 1 }) :=
  (if_neg (fun hrefused => hrefused hdone)).trans (if_neg (Nat.not_le.mpr hearly))

end

section
variable {t : State} {f : Frame} (apply : Nat → State → Nat × State)

/-- A frame that names no receiving end from its source is refused as stale (R273 check 7). -/
theorem streamReceive_of_unknown (hstream : rxStreamOf t f = none) :
    streamReceive f apply t = sendEack t f.srcChip 2 f.stream f.eseq 0 St.staleHandle := by
  rw [streamReceive, hstream]

section
variable {part : Nat} {x : StreamSt} (hstream : rxStreamOf t f = some (part, x))
include hstream

/-- A repeated frame is acknowledged again and not applied (R277). -/
theorem streamReceive_of_repeated (hrepeated : f.eseq < x.expect ∨ x.got.contains f.eseq = true) :
    streamReceive f apply t = sendAck t f.stream x := by
  rw [streamReceive, hstream]
  exact if_pos (by simpa using hrepeated)

/-- A frame past the window has no effect on its stream (R277). -/
theorem streamReceive_of_pastWindow (hnew : x.got.contains f.eseq = false) (hpast : x.expect + 4096 ≤ f.eseq) :
    streamReceive f apply t = t := by
  have hafter : ¬ f.eseq < x.expect := by omega
  rw [streamReceive, hstream]
  simp only [hnew, hafter, hpast, decide_false, Bool.or_self, Bool.false_eq_true, if_false, if_true]

/-- A new frame within the window is marked, applied and answered (R277). -/
theorem streamReceive_of_new (hnew : x.got.contains f.eseq = false) (hfrom : x.expect ≤ f.eseq)
    (hwindow : f.eseq < x.expect + 4096) {r : Nat × State} {y : StreamSt} {p : Nat}
    (hr : r = apply part (setChan t f.stream (.stream (gotEseq x f.eseq)))) (hend : chanOf r.2 f.stream = some (p, .stream y)) :
    streamReceive f apply t = answerApplied f r y := by
  subst hr
  rw [streamReceive, hstream]
  simp only [hnew, Nat.not_lt.mpr hfrom, Nat.not_le.mpr hwindow, decide_false, Bool.or_self, Bool.false_eq_true, if_false, hend,
    bne_iff_ne, answerApplied]

end
end

/-- A DATA write that its link accepts and that is for this module is a frame of its stream (R272). -/
theorem exec_dataWrite_of_arrived {s t : State} {f : Frame} (harrives : frameArrives f 1 s = (t, true)) :
    exec (.dataWrite f) s = .next (streamReceive f (applyData f) t) := by
  change execDataWrite f s = _
  rw [execDataWrite, harrives]
  rfl

/-- Settles O45: the write is a frame of its stream, whose rules above divide on the ESEQ; a new one divides on the status that
applying it gives and on the frames that await an acknowledgement. -/
theorem streamAppliesAFrameOnce : Obligations.StreamAppliesAFrameOnce := by
  intro s t f harrives
  rw [exec_dataWrite_of_arrived harrives]
  refine ⟨fun hstream => congrArg _ (streamReceive_of_unknown _ hstream), fun part x hstream =>
    ⟨fun hrepeated => congrArg _ (streamReceive_of_repeated _ hstream hrepeated),
      fun hnew hpast => congrArg _ (streamReceive_of_pastWindow _ hstream hnew hpast),
      fun hnew hfrom hwindow r y p hr hend => ?new⟩⟩
  case new =>
    rw [streamReceive_of_new _ hstream hnew hfrom hwindow hr hend]
    exact ⟨fun hrefused => congrArg _ (answerApplied_of_refused hrefused),
      fun hdone hdue => congrArg _ (answerApplied_of_due hdone hdue),
      fun hdone hearly => congrArg _ (answerApplied_of_early hdone hearly)⟩

end Sys2Proof.Machine
end

section
/-! Bring-up and loss of a sub-port (R268, R294–R298, R301). -/

namespace Sys2Proof.Machine

section
variable {s : State} {port sub : Nat}

/-! ## PORT_ENABLE, training and lock (R294, R301) -/

/-- A write that the bus lets through sets the port's configuration and whether it was refused. -/
theorem exec_portEnableWrite_of_bus {agent : RegAgent} (value : Nat)
    (hbus : busStatus s agent (0x40000 + 0x100 * port) 32 = 0) :
    exec (.portEnableWrite agent port value) s =
      .next ((portCfg s port (bits value 5 0)).2.modPort port (fun q => { q with
        cfgErr := (portCfg s port (bits value 5 0)).1 != 0 })) := by
  change execPortEnableWrite agent port value s = _
  exact congrArg _ (if_pos hbus)

section
variable (htraining : (s.subAt port sub).state = .training)
include htraining

/-- Training ends with the lanes accepted, or their calibration fails and they train again. -/
theorem exec_linkTrainingDone_of_training (accepted : Bool) (huntrained : (s.subAt port sub).trained = false) :
    exec (.linkTrainingDone port sub accepted) s =
      if accepted then .next (s.setSub port sub { s.subAt port sub with trained := true, calOk := true })
      else .next ((s.setSub port sub { s.subAt port sub with calOk := false }).writeErr
        { mech := Mech.calibration, unitKind := Kind.subPort, unit := port * 4 + sub }) := by
  change execLinkTrainingDone port sub accepted s = _
  exact if_pos (by simp [htraining, huntrained])

/-- Lock is behind a trained sub-port; where no verify procedure follows, the sub-port is ready. -/
theorem exec_pcsLock_of_trained (htrained : (s.subAt port sub).trained = true) (hunlocked : (s.subAt port sub).lock = false) :
    exec (.pcsLock port sub) s =
      let t := s.setSub port sub { s.subAt port sub with lock := true }
      .next (if (s.portAt port).preemptEn then t else linkReady t port sub) := by
  change execPcsLock port sub s = _
  exact if_pos (by simp [htraining, htrained, hunlocked])

/-- The end of the verify procedure makes the sub-port ready. -/
theorem exec_preemptVerifyDone_of_locked (verified : Bool) (hlock : (s.subAt port sub).lock = true)
    (hpreempt : (s.portAt port).preemptEn = true) :
    exec (.preemptVerifyDone port sub verified) s =
      .next (linkReady (s.setSub port sub { s.subAt port sub with preempt := verified }) port sub) := by
  change execPreemptVerifyDone port sub verified s = _
  exact if_pos (by simp [htraining, hlock, hpreempt])

end

/-! ## HELLO (R294–R296) -/

section
variable (chip : Nat) {payload : Octets}

/-- A HELLO of the wrong format is recorded and has no other effect. -/
theorem exec_hello_of_badFormat (hformat : helloFormatOk payload = false) :
    exec (.hello port sub chip payload) s = .next (s.writeErr
      { mech := Mech.xtvFormat, unitKind := Kind.subPort, unit := port * 4 + sub, operation := 0x701, detailA := chip }) := by
  change execHello port sub chip payload s = _
  exact if_pos (by simp [hformat])

section
variable (hformat : helloFormatOk payload = true)
include hformat

/-- A sub-port that awaits its partner takes its HELLO. -/
theorem exec_hello_of_awaited (hmode : portMode s port = 0)
    (hstate : (s.subAt port sub).state = .hello ∨ (s.subAt port sub).state = .quarantined ∨
      (s.subAt port sub).state = .miswired) :
    exec (.hello port sub chip payload) s = .next (helloDirect s port sub (helloOf payload)) := by
  change execHello port sub chip payload s = _
  simp only [execHello, hformat, hmode, Bool.not_true, Bool.false_eq_true, if_false, if_true]
  exact if_pos (by simpa [or_assoc] using hstate)

/-- A HELLO on a DIRECT link that is UP says only that the partner is there. -/
theorem exec_hello_of_directUp (hmode : portMode s port = 0) (hup : (s.subAt port sub).state = .up) :
    exec (.hello port sub chip payload) s = .next (s.setSub port sub { s.subAt port sub with lastRx := s.time }) := by
  change execHello port sub chip payload s = _
  simp [execHello, hformat, hmode, hup]

/-- A HELLO on a SWITCHED path is that of its source chip. -/
theorem exec_hello_of_switchedUp (hmode : portMode s port = 1) (hup : (s.subAt port sub).state = .up) :
    exec (.hello port sub chip payload) s =
      .next (helloSwitched (heardFrom s port sub chip) port sub chip (helloOf payload)) := by
  change execHello port sub chip payload s = _
  simp [execHello, hformat, hmode, hup]

end
end

section
variable (hmode : portMode s port = 0)
include hmode

/-- In state HELLO a HELLO is sent every 10 µs, with STATE 1 once the partner's has been seen and passes; the link is not UP
before both ends are ready. -/
theorem exec_helloSendTimer_of_hello (hstate : (s.subAt port sub).state = .hello)
    (hdue : (s.subAt port sub).lastTx + 10000 ≤ (frameStart s port).time)
    (hwaits : ((s.subAt port sub).seen && (s.subAt port sub).passed && (s.subAt port sub).peerReady) = false) :
    exec (.helloSendTimer port sub) s =
      let t := frameStart s port
      let ready := (s.subAt port sub).seen && (s.subAt port sub).passed
      .next ((t.modSub port sub (fun y => { y with txReady := ready, lastTx := t.time })).emit (.hello port sub (b2n ready))) := by
  change execHelloSendTimer port sub s = _
  simp only [execHelloSendTimer, hmode, hstate, decide_true, Bool.true_or, Bool.true_and, if_true,
    State.until_of_le _ _ hdue, hwaits, Bool.false_eq_true, if_false]

/-- A partner that never sends STATE 1 is quarantined after XTV_HELLO_TIMEOUT_MS (R295). -/
theorem exec_helloTimeout_of_due (hstate : (s.subAt port sub).state = .hello) (hpassed : (s.subAt port sub).passed = true)
    (hpeer : (s.subAt port sub).peerReady = false)
    (hdue : (s.subAt port sub).lastProgress + cfgNat s Key.xtvHelloTimeoutMs * 1000000 ≤ s.time) :
    exec (.helloTimeout port sub) s =
      .next ((s.setSub port sub { s.subAt port sub with state := .quarantined, txReady := false }).writeErr
        (helloErr port sub .quarantined St.peerQuarantined (s.subAt port sub).peerChip)) := by
  change execHelloTimeout port sub s = _
  simp [execHelloTimeout, hmode, hstate, hpassed, hpeer, State.until_of_le _ _ hdue]

end

/-! ## Loss (R297, R298) -/

/-- Loss of the PCS lock takes the sub-port down. -/
theorem exec_pcsLockLoss_of_locked (hlock : (s.subAt port sub).lock = true) :
    exec (.pcsLockLoss port sub) s = .next (subDown s port sub 1) := by
  change execPcsLockLoss port sub s = _
  exact if_pos hlock

/-- A DIRECT sub-port that has heard nothing for its keepalive time, which is 300 µs on a dozing one, goes down. -/
theorem exec_portKeepaliveTimeout_of_due (hmode : portMode s port = 0) (hcarries : subCarries (s.subAt port sub) = true)
    (hdue : (s.subAt port sub).lastRx +
      (if (s.subAt port sub).state = .doze then 300000 else cfgNat s Key.xtvKeepaliveUs * 1000) ≤ s.time) :
    exec (.portKeepaliveTimeout port sub) s = .next (subDown s port sub 1) := by
  change execPortKeepaliveTimeout port sub s = _
  rw [execPortKeepaliveTimeout]
  simp only [hcarries, hmode, decide_true, Bool.and_self, if_true, State.until_of_le _ _ hdue]

end

/-- Settles O43: each clause is the rule of its command above; the lock divides on the verify procedure, the HELLO on the port's
mode and state, and the keepalive's time on doze. -/
theorem portsComeUp : Obligations.PortsComeUp := by
  intro s port sub x
  refine ⟨fun agent => exec_portEnableWrite_of_bus,
    fun htraining huntrained => ⟨exec_linkTrainingDone_of_training htraining true huntrained,
      exec_linkTrainingDone_of_training htraining false huntrained⟩,
    fun htraining htrained hunlocked => ⟨fun hpreempt => ?verify, fun hpreempt => ?ready⟩,
    fun verified htraining => exec_preemptVerifyDone_of_locked htraining verified,
    fun chip payload hformat => ⟨exec_hello_of_awaited chip hformat, exec_hello_of_directUp chip hformat,
      exec_hello_of_switchedUp chip hformat⟩,
    fun chip payload => exec_hello_of_badFormat chip, exec_helloSendTimer_of_hello, exec_helloTimeout_of_due,
    exec_pcsLockLoss_of_locked, fun hmode => ⟨fun hdoze hdue => ?doze, fun hup hdue => ?up⟩⟩
  case verify => rw [exec_pcsLock_of_trained htraining htrained hunlocked, hpreempt]; rfl
  case ready => rw [exec_pcsLock_of_trained htraining htrained hunlocked, hpreempt]; rfl
  case doze =>
    exact exec_portKeepaliveTimeout_of_due hmode (by simp [subCarries, x, hdoze]) (by rwa [if_pos hdoze])
  case up =>
    exact exec_portKeepaliveTimeout_of_due hmode (by simp [subCarries, x, hup]) (by rwa [if_neg (by simp [x, hup])])

end Sys2Proof.Machine
end

section
/-! The frames and timers of one link (R273–R275, R293, R297, R300). -/

namespace Sys2Proof.Machine

section
variable {s : State} {port sub : Nat}

/-! ## LINK frames of a DIRECT partner (R274, R275, R297, R300) -/

section
variable (hcarries : subCarries (s.subAt port sub) = true) (hmode : portMode s port = 0)
include hcarries hmode

/-- A LINK frame of the partner of a sub-port that carries frames is taken, and the partner is heard. -/
theorem linkFrame_of_carries (g : State → State) :
    linkFrame s port sub g = g (heardFrom s port sub (s.subAt port sub).peerChip) := if_pos (by simp [hcarries, hmode])

/-- An acknowledgement releases the replay buffer up to its LACK (R274). -/
theorem exec_linkAck_of_carries (lack : Nat) :
    exec (.linkAck port sub lack) s =
      .next (linkAcked (heardFrom s port sub (s.subAt port sub).peerChip) port sub lack) :=
  congrArg _ (linkFrame_of_carries hcarries hmode _)

/-- A NAK acknowledges what came before it, and the rest is replayed (R274). -/
theorem exec_linkNak_of_carries (lack : Nat) :
    exec (.linkNak port sub lack) s =
      .next (replayLink (linkAcked (heardFrom s port sub (s.subAt port sub).peerChip) port sub lack) port sub) :=
  congrArg _ (linkFrame_of_carries hcarries hmode _)

/-- A credit frame gives back units of its class (R275). -/
theorem exec_linkCredit_of_carries (cls units : Nat) :
    exec (.linkCredit port sub cls units) s =
      .next (creditBack (heardFrom s port sub (s.subAt port sub).peerChip) port sub cls units) :=
  congrArg _ (linkFrame_of_carries hcarries hmode _)

/-- Two ends that both may doze agree on the request: it is acknowledged, and the sub-port dozes. -/
theorem exec_dozeReq_of_mayDoze {h : State} (hheard : h = heardFrom s port sub (s.subAt port sub).peerChip)
    (hdoze : mayDoze h (h.subAt port sub) = true) :
    exec (.dozeReq port sub) s =
      .next ((sendLink h port sub 6 0).modSub port sub (fun x => { x with state := .doze, dozeSent := false })) := by
  subst hheard
  exact congrArg _ ((linkFrame_of_carries hcarries hmode _).trans (if_pos hdoze))

/-- The acknowledgement of this end's own request lets it doze. -/
theorem exec_dozeAck_of_sent {h : State} (hheard : h = heardFrom s port sub (s.subAt port sub).peerChip)
    (hdoze : mayDoze h (h.subAt port sub) = true) (hsent : (h.subAt port sub).dozeSent = true) :
    exec (.dozeAck port sub) s =
      .next (h.setSub port sub { h.subAt port sub with state := .doze, dozeSent := false }) := by
  subst hheard
  exact congrArg _ ((linkFrame_of_carries hcarries hmode _).trans (if_pos (by rw [hdoze, hsent]; rfl)))

/-- A wake ends the doze, and what waited is sent. -/
theorem exec_linkWake_of_doze {h : State} (hheard : h = heardFrom s port sub (s.subAt port sub).peerChip)
    (hdoze : (h.subAt port sub).state = .doze) :
    exec (.linkWake port sub) s = .next (flushWaiting (h.setSub port sub { h.subAt port sub with state := .up })) := by
  subst hheard
  exact congrArg _ ((linkFrame_of_carries hcarries hmode _).trans (if_pos hdoze))

/-! ## Timers of a DIRECT link (R274, R297) -/

/-- What was accepted and not acknowledged yet is acknowledged. -/
theorem exec_linkAckTimer_of_unacked (hunacked : (s.subAt port sub).unacked ≠ 0) :
    exec (.linkAckTimer port sub) s = .next (sendLink s port sub 1 (lastAccepted (s.subAt port sub))) := by
  change execLinkAckTimer port sub s = _
  exact if_pos (by simp [hcarries, hmode, hunacked])

/-- What is not acknowledged 2 µs after the last progress is replayed. -/
theorem exec_linkReplayTimeout_of_due (hreplay : (s.subAt port sub).replay ≠ [])
    (hdue : (s.subAt port sub).lastProgress + 2000 ≤ s.time) :
    exec (.linkReplayTimeout port sub) s = .next (replayLink s port sub) := by
  change execLinkReplayTimeout port sub s = _
  simp [execLinkReplayTimeout, hcarries, hmode, hreplay, State.until_of_le _ _ hdue]

/-- A keepalive is sent 2 µs after the last frame, or 100 µs on a dozing sub-port. -/
theorem exec_keepaliveSendTimer_of_due
    (hdue : (s.subAt port sub).lastTx + (if (s.subAt port sub).state = .doze then 100000 else 2000) ≤ s.time) :
    exec (.keepaliveSendTimer port sub) s = .next (sendLink s port sub 4 0) := by
  change execKeepaliveSendTimer port sub s = _
  simp only [execKeepaliveSendTimer, hcarries, hmode, decide_true, Bool.and_self, if_true, State.until_of_le _ _ hdue]

end

/-- A keepalive of the DIRECT partner says only that it is there. -/
theorem exec_linkKeepalive_of_partner (hcarries : subCarries (s.subAt port sub) = true) {h : State}
    (hheard : h = heardFrom s port sub (s.subAt port sub).peerChip) (hmode : portMode h port = 0) :
    exec (.linkKeepalive port sub (s.subAt port sub).peerChip) s = .next h := by
  subst hheard
  change execLinkKeepalive port sub _ s = _
  simp [execLinkKeepalive, hcarries, hmode]

/-! ## Priority flow control (R293) -/

/-- A priority is paused, or goes on and what waited is sent. -/
theorem exec_pfcFrame_of_up {priority : Nat} (pause : Bool) (hmode : portMode s port ≠ 0)
    (hup : (s.subAt port sub).state = .up) (hpriority : priority < 8) :
    exec (.pfcFrame port sub priority pause) s =
      let l := (s.subAt port sub).paused.filter (· != priority)
      let t := s.setSub port sub { s.subAt port sub with lastRx := s.time, paused := if pause then l ++ [priority] else l }
      .next (if pause then t else flushWaiting t) := by
  change execPfcFrame port sub priority pause s = _
  have hlast : ¬ 7 < priority := by omega
  exact if_neg (by simp [hmode, hup, hlast])

/-! ## Frames whose check fails (R273) -/

section
variable {raw : RawFrame} (hlock : (s.subAt port sub).lock = true)
include hlock

/-- A frame with a bad FCS is counted and NAKed once (check 1). -/
theorem exec_frameCheckDrop_of_badFcs (hfcs : raw.fcsOk = false) :
    exec (.frameCheckDrop port sub raw) s = .next (fcsDrop s port sub) := by
  change execFrameCheckDrop port sub raw s = _
  simp [execFrameCheckDrop, hlock, hfcs]

/-- A frame of another EtherType or VLAN is dropped and counted (check 2). -/
theorem exec_frameCheckDrop_of_foreign (hfcs : raw.fcsOk = true)
    (hforeign : raw.etherType ≠ 0x88B5 ∨ raw.vid ≠ cfgNat s Key.xtvVlan) :
    exec (.frameCheckDrop port sub raw) s = .next (dropFrame s port) := by
  change execFrameCheckDrop port sub raw s = _
  simp only [execFrameCheckDrop, hlock, hfcs, Bool.not_true, Bool.false_eq_true, if_false]
  exact if_pos (by simpa using hforeign)

end

end

/-- Settles O44: each clause is the rule of its command above; a keepalive, doze and wake are read after the partner is heard. -/
theorem linkFramesComplete : Obligations.LinkFramesComplete := by
  intro s port sub x h
  exact ⟨fun hcarries hmode => ⟨exec_linkAck_of_carries hcarries hmode, exec_linkNak_of_carries hcarries hmode,
      exec_linkCredit_of_carries hcarries hmode, exec_linkKeepalive_of_partner hcarries rfl,
      exec_dozeReq_of_mayDoze hcarries hmode rfl, exec_dozeAck_of_sent hcarries hmode rfl,
      exec_linkWake_of_doze hcarries hmode rfl, exec_linkAckTimer_of_unacked hcarries hmode,
      exec_linkReplayTimeout_of_due hcarries hmode, exec_keepaliveSendTimer_of_due hcarries hmode⟩,
    fun priority hmode hup hpriority => ⟨exec_pfcFrame_of_up true hmode hup hpriority,
      exec_pfcFrame_of_up false hmode hup hpriority⟩,
    fun raw => exec_frameCheckDrop_of_badFcs, fun raw => exec_frameCheckDrop_of_foreign⟩

end Sys2Proof.Machine
end

section
/-! The other frames that are for this module (R272, R273, R277, R287, R289): reads and responses, chunks of a collective, and the
end-to-end acknowledgements and refusals. -/

namespace Sys2Proof.Machine

section
variable {s t : State} {f : Frame}

/-! ## Frames of a stream (R272, R277, R313) -/

section
variable (harrives : frameArrives f 1 s = (t, true))
include harrives

/-- A read response is a write of its stream's data (R272). -/
theorem exec_dataReadResp_of_arrived : exec (.dataReadResp f) s = .next (streamReceive f (applyData f) t) := by
  change execDataReadResp f s = _
  rw [execDataReadResp, harrives]
  rfl

/-- A read request has 64 octets with the reserved ones zero. -/
theorem exec_dataReadReq_of_arrived (hlength : f.payload.length = 64) (hlow : zeroAt f.payload 4 4 = true)
    (hhigh : zeroAt f.payload 20 44 = true) :
    exec (.dataReadReq f) s = .next (streamReceive f (applyRead f) t) := by
  change execDataReadReq f s = _
  simp [execDataReadReq, harrives, hlength, hlow, hhigh]

end

/-- A response of a sync operation has AUX bit 31 and 64 octets. -/
theorem exec_syncResponse_of_arrived (harrives : frameArrives f 2 s = (t, true)) (haux : f.aux = 2 ^ 31)
    (hlength : f.payload.length = 64) : exec (.syncResponse f) s = .next (streamReceive f (applyResponse f) t) := by
  change execSyncResponse f s = _
  simp [execSyncResponse, harrives, haux, hlength]

/-! ## Chunks of a collective (R287, R289) -/

section
variable {slot p k : Nat} {c : CollSt} (hcoll : collOfFrame t f = some (slot, p, c)) (hchunk : chunkOfFrame c f = some k)
  (hlength : f.payload.length = chunkLen c k)
include hcoll hchunk hlength

/-- A reduced chunk comes from its home; one of an invocation that has started here is written and acknowledged. -/
theorem exec_pressResult_of_home (harrives : frameArrives f 4 s = (t, true)) (hhome : chunkHome c k = f.srcChip) :
    exec (.pressResult f) s =
      .next (if c.started < f.eseq then t else pressAck (writeResult t slot k f.eseq f.payload) f) := by
  change execPressResult f s = _
  simp [execPressResult, harrives, hcoll, hchunk, hhome, hlength, apply_ite Host.Outcome.next]

/-- A contribution of its member is taken at the chunk's home, and acknowledged where it is held or no longer needed. -/
theorem exec_press_of_member (harrives : frameArrives f 3 s = (t, true)) (hhome : chunkHome c k = ownChip t)
    (hmember : c.chips.getD (bits f.aux 7 0) 0 = f.srcChip) {q : State × Bool}
    (hq : q = pressReceive t slot k f.eseq (bits f.aux 7 0) (chunkWords c.fmt f.payload)) :
    exec (.press f) s = .next (if q.2 then pressAck q.1 f else q.1) := by
  subst hq
  change execPress f s = _
  rw [execPress, harrives]
  simp only [hcoll, hchunk, hhome, hmember, hlength, bne_self_eq_false, Bool.not_true, Bool.false_eq_true, if_false]

end

/-! ## End-to-end acknowledgements (R272, R277, R289) -/

/-- A frame of a collective that a PRESS_ACK acknowledges. -/
def chunkAcked (f : Frame) (g : SentFrame) : Bool :=
  (g.typ = 3 || g.typ = 4) && g.dst = f.srcChip && g.stream = f.stream && g.eseq = f.eseq && g.offset = f.offset

/-- The state without the frames that a PRESS_ACK acknowledges. -/
def forgetChunk (t : State) (f : Frame) : State :=
  { t with fab := { t.fab with
    sent := t.fab.sent.filter (fun g => !(chunkAcked f g)), waitq := t.fab.waitq.filter (fun g => !(chunkAcked f g)) } }

/-- The collectives of the die do not depend on the fabric's state. -/
theorem collById_fab (t : State) (fab : FabSt) (id : Nat) : collById { t with fab := fab } id = collById t id := rfl

section
variable (harrives : frameArrives f 5 s = (t, true))
include harrives

/-- An acknowledged chunk is no longer retransmitted, and what waited is sent. -/
theorem exec_pressAck_of_coll {slot p : Nat} {c : CollSt} (hcoll : collById t f.stream = some (slot, p, c)) :
    exec (.pressAck f) s = .next (flushWaiting (setColl (forgetChunk t f) slot
      { c with unacked := c.unacked.filter (fun k => k * 4096 != f.offset) })) := by
  change execPressAck f s = _
  simp only [execPressAck, harrives, collById_fab, hcoll, Bool.not_true, Bool.false_eq_true, if_false]
  rfl

/-- An acknowledgement of a stream's chip releases the frames it covers. -/
theorem exec_eackAck_of_sender {p : Nat} {x : StreamSt} (hstream : chanOf t f.stream = some (p, .stream x))
    (hsender : x.sender = true) (hchip : x.chip = f.srcChip) :
    exec (.eackAck f) s =
      .next (closeIfDone (released t (fun g => g.own = f.stream && ackCovers f g.eseq)) f.stream) := by
  change execEackAck f s = _
  simp [execEackAck, harrives, hstream, hsender, hchip]

section
variable {g : SentFrame} (hframe : refusedFrame t f = some g)
include hframe

/-- STALE_HANDLE ends the stream or collective of the frame refused (R273). -/
theorem exec_eackRefuse_of_stale (hstale : bits f.aux 15 0 = St.staleHandle) (hown : g.own ≠ 0) :
    exec (.eackRefuse f) s = .next (endChan t (hSlot g.own) St.staleHandle) := by
  change execEackRefuse f s = _
  simp [execEackRefuse, harrives, hframe, hstale, hown]

/-- Any other status fails the request of the frame refused, or the frame itself where none awaits a response. -/
theorem exec_eackRefuse_of_failed (hstatus : bits f.aux 15 0 ≠ St.staleHandle) :
    exec (.eackRefuse f) s =
      let u := released t (sameFrame g)
      .next (closeIfDone ((requestOf t g).elim (failFrame u g (bits f.aux 15 0))
        (fun q => failRequest u q (bits f.aux 15 0))) g.own) := by
  change execEackRefuse f s = _
  rw [execEackRefuse, harrives]
  simp only [hframe, hstatus, decide_false, Bool.false_and, Bool.not_true, Bool.false_eq_true, if_false]
  cases requestOf t g <;> rfl

end
end

end

/-- Settles O46: each clause is the rule of its frame above; a chunk divides on its invocation or on its receipt, a refusal on
its status and on the request that awaited the answer. -/
theorem framesDeliver : Obligations.FramesDeliver := by
  intro s t f
  refine ⟨fun harrives => ⟨exec_dataReadResp_of_arrived harrives, exec_dataReadReq_of_arrived harrives⟩,
    exec_syncResponse_of_arrived,
    fun harrives slot p c k hcoll hchunk hhome hlength => ⟨fun hstarted => ?written, fun hlater => ?later⟩,
    fun harrives slot p c k hcoll hchunk hhome hmember hlength q hq => ⟨fun hheld => ?held, fun hdropped => ?dropped⟩,
    fun harrives => ⟨fun slot p c => exec_pressAck_of_coll harrives, fun p x => exec_eackAck_of_sender harrives,
      fun g hframe => ⟨exec_eackRefuse_of_stale harrives hframe, fun hstatus u hu => ⟨fun hnone => ?frame,
        fun q hrequest => ?request⟩⟩⟩⟩
  case written =>
    rw [exec_pressResult_of_home hcoll hchunk hlength harrives hhome, if_neg (Nat.not_lt.mpr hstarted)]
  case later => rw [exec_pressResult_of_home hcoll hchunk hlength harrives hhome, if_pos hlater]
  case held =>
    rw [exec_press_of_member hcoll hchunk hlength harrives hhome hmember hq, hheld]
    rfl
  case dropped =>
    rw [exec_press_of_member hcoll hchunk hlength harrives hhome hmember hq, hdropped]
    rfl
  case frame => rw [exec_eackRefuse_of_failed harrives hframe hstatus, hnone, hu]; rfl
  case request => rw [exec_eackRefuse_of_failed harrives hframe hstatus, hrequest, hu]; rfl

end Sys2Proof.Machine
end

section
/-! The end-to-end timers (R277, R278, R297, R299). -/

namespace Sys2Proof.Machine

section
variable {s : State}

/-- A receiving end that owes an acknowledgement sends it (R277). -/
theorem exec_e2eAckTimer_of_unacked {h p : Nat} {x : StreamSt} (hstream : chanOf s h = some (p, .stream x))
    (hreceiver : x.sender = false) (hunacked : x.unacked ≠ 0) :
    exec (.e2eAckTimer h) s = .next (sendAck s h x) := by
  change execE2eAckTimer h s = _
  simp [execE2eAckTimer, hstream, hreceiver, hunacked]

/-- A frame that is not acknowledged in time is sent again, until its retries are used up and its chip counts as lost (R278). -/
theorem exec_e2eRetransmitTimeout_of_due {h eseq : Nat} {f : SentFrame} (holdest : oldestSent s h eseq = some f)
    (hdue : f.sentAt + cfgNat s Key.xtvE2eTimeoutUs * 1000 ≤ s.time) :
    exec (.e2eRetransmitTimeout h eseq) s =
      .next (if cfgNat s Key.xtvE2eRetryMax ≤ f.retries then chipIsLost s f.dst else resend s f) := by
  change execE2eRetransmitTimeout h eseq s = _
  simp only [execE2eRetransmitTimeout, holdest, State.until_of_le _ _ hdue]

section
variable {chip : Nat} (hinUse : chipInUse s chip = true) (hknown : chipLost s chip = false) (hdirect : directUp s chip = false)
  (hother : chip ≠ ownChip s)
include hinUse hknown hdirect hother

/-- A chip in use that no DIRECT link watches is sent a keepalive after 20 µs without a frame of it (R297). -/
theorem exec_e2eKeepaliveTimer_of_due (hreachable : reachable s chip = true) (hdue : lastHeard s chip + 20000 ≤ s.time) :
    exec (.e2eKeepaliveTimer chip) s = .next (({ s with fab := { s.fab with
      kept := if s.fab.kept.contains chip then s.fab.kept else s.fab.kept ++ [chip] } }).emit
        (.frame 6 4 chip 0 0 0 0 false 0 [])) := by
  change execE2eKeepaliveTimer chip s = _
  rw [execE2eKeepaliveTimer, if_pos (by simp [hinUse, hknown, hdirect, hother, hreachable])]
  simp only [State.until_of_le _ _ hdue]

/-- After XTV_PEER_TIMEOUT_US without a frame of it the chip is lost (R299). -/
theorem exec_peerTimeout_of_due (hchip : chip ≠ 0)
    (hdue : lastHeard s chip + cfgNat s Key.xtvPeerTimeoutUs * 1000 ≤ s.time) :
    exec (.peerTimeout chip) s = .next (chipIsLost s chip) := by
  change execPeerTimeout chip s = _
  rw [execPeerTimeout, if_pos (by simp [hinUse, hknown, hdirect, hother, hchip]), State.until_of_le _ _ hdue]

end

end

/-- Settles O47: each clause is the rule of its timer above, and a retransmission divides on the retries made. -/
theorem pathTimersComplete : Obligations.PathTimersComplete := by
  intro s
  refine ⟨fun h p x => exec_e2eAckTimer_of_unacked,
    fun h eseq f holdest hdue => ⟨fun hspent => ?lost, fun hleft => ?again⟩,
    fun chip hinUse hknown hdirect hother => ⟨exec_e2eKeepaliveTimer_of_due hinUse hknown hdirect hother,
      exec_peerTimeout_of_due hinUse hknown hdirect hother⟩⟩
  case lost => rw [exec_e2eRetransmitTimeout_of_due holdest hdue, if_pos hspent]
  case again => rw [exec_e2eRetransmitTimeout_of_due holdest hdue, if_neg (Nat.not_le.mpr hleft)]

end Sys2Proof.Machine
end

section
/-! RoCEv2 (R291–R293, R307): a request at the expected PSN, before it or after a gap, and the rate of a queue pair. -/

namespace Sys2Proof.Machine

section
variable {s : State} {qp p : Nat} {q : QpSt} (hlive : qpLive s qp = some (p, q))
include hlive

/-! ## The responder (R291, R292, R307) -/

/-- A live queue pair is one that the handle names, without error. -/
theorem qpAt_of_qpLive : qpAt s qp = some (p, q) ∧ q.error = false := by
  obtain ⟨hqp, halive⟩ := Option.filter_eq_some_iff.mp hlive
  simp only [Bool.and_eq_true, Bool.not_eq_true'] at halive
  exact ⟨hqp, halive.1⟩

section
variable (n : Nat) {psn : Nat} {ce : Bool} {b : State} (hheard : b = noteCe (responder.heardOn s q.port) qp q ce)
  (perform : Nat → QpSt → State → Except Nat Octets × State)
include hheard

/-- A request at the PSN expected is performed and answered. -/
theorem responder_of_expected (hpsn : psn = q.rqPsn) :
    responder s qp psn n ce perform = roceDone qp psn n (perform p q b) := by
  subst hheard
  rw [responder, hlive]
  exact if_pos hpsn

/-- A request that was performed before is acknowledged again and not performed. -/
theorem responder_of_repeated (hpsn : psn ≠ q.rqPsn) (hbefore : (q.rqPsn + 2 ^ 24 - psn) % 2 ^ 24 < 2 ^ 23) :
    responder s qp psn n ce perform = b.emit (.roceAck qp psn []) := by
  subst hheard
  rw [responder, hlive]
  exact (if_neg hpsn).trans (if_pos hbefore)

/-- A request after a gap is answered with the PSN expected. -/
theorem responder_of_gap (hpsn : psn ≠ q.rqPsn) (hafter : 2 ^ 23 ≤ (q.rqPsn + 2 ^ 24 - psn) % 2 ^ 24) :
    responder s qp psn n ce perform = b.emit (.roceNak qp q.rqPsn Nak.sequence) := by
  subst hheard
  rw [responder, hlive]
  exact (if_neg hpsn).trans (if_neg (Nat.not_lt.mpr hafter))

end

/-! ## The requester and the rate (R293) -/

/-- The first congestion notification cuts the rate to 7/8. -/
theorem exec_roceCnp_of_first (hfirst : q.lastCut = none) :
    exec (.roceCnp qp) s =
      .next (setChan s qp (.qp { q with lastRise := s.time, rate := q.rate * 7 / 8, lastCut := some s.time })) := by
  change execRoceCnp qp s = _
  simp [execRoceCnp, hlive, hfirst]

/-- An acknowledgement releases the requests up to its PSN. -/
theorem exec_roceAcknowledge_ack (psn : Nat) :
    exec (.roceAcknowledge qp (.ack psn)) s =
      .next (setChan s qp (.qp { q with outstanding := q.outstanding.filter (fun x => !(psnUpTo psn x)) })) := by
  change execRoceAcknowledge qp (.ack psn) s = _
  rw [execRoceAcknowledge, hlive]

/-- A NAK other than a sequence error puts the queue pair in error (R222). -/
theorem exec_roceAcknowledge_nak (psn : Nat) {code : Nat} (hcode : code ≠ Nak.sequence) :
    exec (.roceAcknowledge qp (.nak psn code)) s = .next (qpFails s qp) := by
  change execRoceAcknowledge qp (.nak psn code) s = _
  rw [execRoceAcknowledge, hlive]
  exact if_neg hcode

/-- A rate below the port's rises by one percent of it 55 µs after the last notification or rise. -/
theorem exec_roceRateRecovery_of_due (hcut : q.rate ≠ 1000000) (hdue : q.lastRise + 55000 ≤ s.time) :
    exec (.roceRateRecovery qp) s =
      .next (setChan s qp (.qp { q with rate := min 1000000 (q.rate + 10000), lastRise := s.time })) := by
  obtain ⟨hqp, herror⟩ := qpAt_of_qpLive hlive
  change execRoceRateRecovery qp s = _
  simp [execRoceRateRecovery, hqp, herror, hcut, State.until_of_le _ _ hdue]

end

/-- Settles O48: each request is a run of the responder, which divides on the PSN; the rest follows the rules above. -/
theorem roceCompletes : Obligations.RoceCompletes := by
  intro s qp p q hlive
  exact ⟨fun psn ce b hheard => ⟨fun hpsn =>
      have performed := fun n perform => congrArg Host.Outcome.next (responder_of_expected hlive n hheard perform hpsn)
      ⟨fun data => performed _ _, fun addr rkey data imm => performed _ _, fun addr rkey len => performed _ _,
        fun addr rkey a => performed _ _, fun addr rkey c v => performed _ _⟩,
      fun data hpsn hbefore => congrArg _ (responder_of_repeated hlive _ hheard _ hpsn hbefore),
      fun data hpsn hafter => congrArg _ (responder_of_gap hlive _ hheard _ hpsn hafter)⟩,
    exec_roceCnp_of_first hlive, exec_roceAcknowledge_ack hlive, fun psn code => exec_roceAcknowledge_nak hlive psn,
    exec_roceRateRecovery_of_due hlive⟩

end Sys2Proof.Machine
end

section
/-! The channel objects (R286, R314, R321, R323–R325): what the body of a create or a destroy that is admitted answers. -/

namespace Sys2Proof.Machine

/-- A command that names peers ends as its body says, where no peer's answer is awaited. -/
theorem exec_of_peerRow {i : Instr} {k : Nat} {range : State → Octets → Nat} {body : Nat → Nat → Octets → State → CmdAns}
    {s : State} {sess : Nat} {arg : Octets} {a : CmdAns}
    (hexec : exec i s = .next (peerRow k body (cmdWrite k range body) sess arg s)) (hquiet : peersQuiet s sess k = true)
    (hready : cmdReady s sess k arg = true) (hrange : range s arg = 0) (hbody : body sess (sessPart s sess) arg s = a) :
    exec i s = .next (cmdDone s sess k a) := by
  rw [hexec, peerRow_ready hquiet hready hrange, hbody]

/-- A sync group at a slot, with its members' peer sessions open: the handle and the state. -/
def groupOpened (s : State) (p slot : Nat) (arg : Octets) : Nat × State :=
  openChan (addPeers s (othersOf s (groupArg arg).chips)) slot p (.group (groupArg arg))

section
variable {s : State} {p slot : Nat} {arg : Octets} (sess : Nat)

section
variable (hslot : pickSlot s = some slot)
include hslot

/-! ## Creates (R286, R314, R323–R325) -/

/-- A collective that R286's checks pass takes the slot picked. -/
theorem collCreateBody_of_admitted {peers : List PeerReport} (hstatus : collStatus s p arg peers = 0) :
    collCreateBody peers sess p arg s =
      let r := openChan (addPeers s (othersOf s (collArg arg).chips)) slot p (.coll (collArg arg))
      doneAt r.2 r.1 :=
  (refuse_unless_of_zero s _ hstatus).trans (by rw [hslot])

/-- A sync group that R314's checks pass takes the slot picked, and its root arms ARRIVE. -/
theorem groupCreateBody_of_admitted {peers : List PeerReport} (hstatus : groupStatus s p arg peers = 0) :
    groupCreateBody peers sess p arg s =
      doneAt (if (groupArg arg).rank = (groupArg arg).root then armRoot (groupOpened s p slot arg).2 (groupArg arg)
        else (groupOpened s p slot arg).2) (groupOpened s p slot arg).1 :=
  (refuse_unless_of_zero s _ hstatus).trans (by rw [hslot]; rfl)

/-- The sending end of a stream to a chip that is reached, trusted and has opened the receiving end (R323, R455). -/
theorem streamOpenBody_of_answered {peer : PeerReport} {h : Nat} (hother : fld arg 0 2 ≠ ownChip s)
    (hreachable : reachable s (fld arg 0 2) = true) (htrusted : peerTrusted s [peer] (fld arg 0 2) = true)
    (hhandle : peer.handle = some h) :
    streamOpenBody peer sess p arg s =
      let t := addPeers s [fld arg 0 2]
      let u := { t with sec := { t.sec with drbg := t.sec.drbg + 1 } }
      let r := openChan u slot p
        (.stream { sender := true, chip := fld arg 0 2, cls := fld arg 2 1, peer := h, keyGen := u.sec.drbg })
      doneAt r.2 r.1 :=
  (refuse_unless_of_zero s _ (by simp [firstBad, hother, hreachable, htrusted])).trans (by rw [hslot, hhandle])

/-- A queue pair on a ROCE port takes the slot picked and a fresh remote key (R324). -/
theorem qpCreateBody_of_roce (hmode : portMode s (fld arg 0 1) = 2) (hcount : chanCount s 2 < 16384) :
    qpCreateBody sess p arg s =
      let key := (Config.remoteKey s.fresh.1).toNat
      let r := openChan s.fresh.2 slot p (.qp {
        port := fld arg 0 1, pmtu := fld arg 1 1, remoteQpn := fld arg 4 4, sqPsn := fld arg 8 4, rqPsn := fld arg 12 4
        remoteAddr := octs arg 16 16, rkey := key, lastRise := s.time })
      doneAt (r.2.modSess sess (fun x => { x with result := natLe 4 (0x100000 + slot) ++ natLe 4 key })) r.1 := by
  rw [qpCreateBody, if_neg (by simp [hmode]), if_neg (Nat.not_le.mpr hcount), hslot]

/-- A task channel whose ring lies in the space, whose counters are the partition's and zero, and whose vat is present (R325). -/
theorem taskChanOpenBody_of_admitted (hfits : (taskChanArg arg).base + 64 * (taskChanArg arg).slots ≤ spaceSize s p 0)
    (hposted : (localObj s p (taskChanArg arg).posted).isSome = true)
    (hconsumed : (localObj s p (taskChanArg arg).consumed).isSome = true) (hvat : vatPresent s (taskChanArg arg).vat = true)
    (hnoPosted : counterOf s p (taskChanArg arg).posted = 0) (hnoConsumed : counterOf s p (taskChanArg arg).consumed = 0)
    (hcount : chanCount s 6 < 4096) :
    taskChanOpenBody sess p arg s =
      let r := openChan s slot p (.task (taskChanArg arg))
      doneAt r.2 r.1 := by
  refine (refuse_unless_of_zero s _ ?status).trans (by rw [hslot])
  simp [firstBad, Nat.not_lt.mpr hfits, Option.isSome_iff_ne_none.mp hposted, Option.isSome_iff_ne_none.mp hconsumed, hvat,
    hnoPosted, hnoConsumed, Nat.not_le.mpr hcount]

end

/-! ## Destroys (R321) -/

/-- A channel of its type that the partition owns is destroyed, with its frames where it is a collective. -/
theorem destroyBody_of_owned {typ : Nat} {bad : State → Nat → Bool} {x : Chan} (hchan : chanOf s (leNat arg) = some (p, x))
    (htype : chanType x = typ) (hfree : bad s (leNat arg) = false) :
    destroyBody typ bad sess p arg s =
      doneAt (destroyChan (dropFrames s (if typ = 5 then leNat arg else 2 ^ 32)) (hSlot (leNat arg))) 0 := by
  simp only [destroyBody, hchan, htype, hfree, bne_self_eq_false, Bool.or_self, Bool.false_eq_true, if_false]

end

/-- Settles O51: each create and destroy is a command row, or one that carries peers' answers, and its body does what its own
rule above says. -/
theorem channelObjectsComplete : Obligations.ChannelObjectsComplete := by
  intro s sess arg p
  refine ⟨fun slot hslot => ⟨fun peers hquiet hready hstatus => ?collective,
      fun peers hquiet hready hstatus => ⟨fun hroot => ?root, fun hmember => ?member⟩,
      fun peer h hquiet hready hrange hother hreachable htrusted hhandle => ?stream,
      fun hready hrange hmode hcount => ?queuePair,
      fun hready hrange hfits hposted hconsumed hvat hnoPosted hnoConsumed hcount => ?taskRing⟩,
    fun x hchan => ⟨fun htype hready => ?collectiveEnds, fun t ht => ?channelEnds⟩⟩
  case collective => exact exec_of_peerRow rfl hquiet hready rfl (collCreateBody_of_admitted sess hslot hstatus)
  case root =>
    have hbody := groupCreateBody_of_admitted sess hslot hstatus
    rw [if_pos hroot] at hbody
    exact exec_of_peerRow rfl hquiet hready rfl hbody
  case member =>
    have hbody := groupCreateBody_of_admitted sess hslot hstatus
    rw [if_neg hmember] at hbody
    exact exec_of_peerRow rfl hquiet hready rfl hbody
  case stream =>
    exact exec_of_peerRow rfl hquiet hready hrange
      (streamOpenBody_of_answered sess hslot hother hreachable htrusted hhandle)
  case queuePair => exact exec_of_cmdRow rfl hready hrange (qpCreateBody_of_roce sess hslot hmode hcount)
  case taskRing =>
    exact exec_of_cmdRow rfl hready hrange
      (taskChanOpenBody_of_admitted sess hslot hfits hposted hconsumed hvat hnoPosted hnoConsumed hcount)
  case collectiveEnds => exact exec_of_cmdRow rfl hready rfl (destroyBody_of_owned sess hchan htype rfl)
  case channelEnds =>
    subst ht
    exact ⟨fun htype hready => exec_of_cmdRow rfl hready rfl (destroyBody_of_owned sess hchan htype rfl),
      fun htype hready => exec_of_cmdRow rfl hready rfl (destroyBody_of_owned sess hchan htype rfl),
      fun htype hfree hready => exec_of_cmdRow rfl hready rfl (destroyBody_of_owned sess hchan htype hfree),
      fun htype hready => exec_of_cmdRow rfl hready rfl (destroyBody_of_owned sess hchan htype rfl)⟩

end Sys2Proof.Machine
end

section
/-! What runs over channels (R287, R323, R325): a peer's stream, the descriptors of a task channel and the invocations of a
collective. -/

namespace Sys2Proof.Machine

section
variable {s : State}

/-- The receiving end of a trusted peer's stream to a partition of this module takes the slot picked (R323, R454). -/
theorem exec_streamOpen_of_peer {r : PeerReport} {part cls slot h : Nat} (hslot : pickSlot s = some slot)
    (hhandle : r.handle = some h) (htrusted : peerTrusted s [r] r.chip = true)
    (hpart : part = 0 ∨ partCreated s part = true) (hcls : cls = 0 ∨ cls = 2 ∨ cls = 3) :
    exec (.streamOpen (.peer r part cls)) s = .next (openChan (addPeers s [r.chip]) slot part
      (.stream { sender := false, chip := r.chip, cls := cls, peer := h, keyGen := 0 })).2 := by
  change Host.Outcome.next (receiveEnd s r part cls) = _
  rw [receiveEnd, hslot, hhandle]
  exact congrArg _ (if_pos (by simpa [htrusted, or_assoc] using And.intro hpart hcls))

/-! ## The descriptors of a task channel (R325) -/

section
variable {chan p : Nat} {c : TaskChan} (hchan : chanOf s chan = some (p, .task c)) (hserving : vatServing s c.vat = true)
  (hposted : c.read < counterOf s p c.posted)
include hchan hserving hposted

/-- A descriptor that is read is posted and consumed; one that its post refuses is recorded. -/
theorem exec_taskChanDescriptorRead_of_read {d : Octets} (hread : memRead s p 0 (c.base + c.read % c.slots * 64) 64 = .ok d)
    (hroom : descCheck s (.partition p) d ≠ St.queueFull) {r : Nat × State} (hr : r = postTask s (.partition p) d) :
    exec (.taskChanDescriptorRead chan) s =
      .next (descConsumed (if r.1 = 0 then r.2 else descRefused r.2 c.vat p (taskOf d p).taskId r.1) chan p c) := by
  subst hr
  change execTaskChanDescriptorRead chan s = _
  simp only [execTaskChanDescriptorRead, hchan, hserving, hposted, decide_true, Bool.and_self, if_true, hread, hroom, if_false]

/-- A descriptor that cannot be read is counted, recorded and consumed. -/
theorem exec_taskChanDescriptorRead_of_unreadable {e : Nat}
    (hread : memRead s p 0 (c.base + c.read % c.slots * 64) 64 = .error e) :
    exec (.taskChanDescriptorRead chan) s =
      .next (descConsumed (descRefused (s.modVat c.vat (fun v => { v with refused := v.refused + 1 })) c.vat p 0 e) chan p c) := by
  change execTaskChanDescriptorRead chan s = _
  simp only [execTaskChanDescriptorRead, hchan, hserving, hposted, decide_true, Bool.and_self, if_true, hread]
  rfl

end

/-! ## The invocations of a collective (R287) -/

/-- An invocation that START_OBJ has counted starts after the one before has finished, and contributes each of its chunks. -/
theorem exec_collInvocationStart_of_due {coll p n : Nat} {c : CollSt} (hcoll : chanOf s coll = some (p, .coll c))
    (hstart : localObj s p c.startObj = some n) (hdue : c.started < (s.objAt n).c.toNat) (hwhole : c.broken = false)
    (hopen : c.ended = none) (hfinished : c.finished = c.started) (hrun : running s = true) :
    exec (.collInvocationStart coll) s =
      .next ((List.range (chunkCount c)).foldl (contribute (hSlot coll) p (c.started + 1))
        (setColl s (hSlot coll) { c with started := c.started + 1, results := [], unacked := [] })) := by
  change execCollInvocationStart coll s = _
  rw [execCollInvocationStart, hcoll]
  exact if_pos (by simp [hstart, hdue, hwhole, hopen, hfinished, hrun])

end

/-- Settles O52: each clause is the rule of its command above, and a descriptor that is read divides on its post. -/
theorem channelEventsComplete : Obligations.ChannelEventsComplete := by
  intro s
  refine ⟨fun r part cls slot h => exec_streamOpen_of_peer,
    fun chan p c hchan hserving hposted => ⟨fun d hread hroom t ht => ⟨fun htaken => ?taken, fun hrefused => ?refused⟩,
      fun e => exec_taskChanDescriptorRead_of_unreadable hchan hserving hposted⟩,
    fun coll p c n => exec_collInvocationStart_of_due⟩
  case taken => rw [exec_taskChanDescriptorRead_of_read hchan hserving hposted hread hroom rfl, if_pos htaken, ht]
  case refused => rw [exec_taskChanDescriptorRead_of_read hchan hserving hposted hread hroom rfl, if_neg hrefused, ht]

end Sys2Proof.Machine
end

section
/-! Sync operations and fences (R306, R310–R313): what an operation leaves in the counter of a local object, how a wait is
answered, the requests that frames carry, and the start and the end of a fence. -/

namespace Sys2Proof.Machine

/-! ## The counter (R310, R311) -/

/-- An ADD of a number from 1 to 2^64 − 1 changes the counter, whether or not it wraps. -/
theorem syncFires_add {a : Nat} (c : DWord) (hpos : 0 < a) (hlt : a < 2 ^ 64) : syncFires (.add a) c = true := by
  have hnonzero : BitVec.ofNat 64 a ≠ 0#64 := fun hzero => by
    have hmod : a % 2 ^ 64 = 0 := by simpa using congrArg BitVec.toNat hzero
    omega
  simpa [syncFires, syncNew] using hnonzero

theorem syncNew_cmpSwap_of_eq (c : DWord) (v : Nat) : syncNew (.cmpSwap c.toNat v) c = BitVec.ofNat 64 v :=
  if_pos (by simp)

theorem syncNew_cmpSwap_of_ne {x : Nat} {c : DWord} (v : Nat) (hlt : x < 2 ^ 64) (hne : x ≠ c.toNat) :
    syncNew (.cmpSwap x v) c = c :=
  if_neg (fun heq => hne (by rw [heq, BitVec.toNat_ofNat, Nat.mod_eq_of_lt hlt]))

/-- R311 applies after a CMP_SWAP that raises the counter. -/
theorem syncFires_cmpSwap_of_raised {c : DWord} {v : Nat} (hraises : c.toNat < v) (hlt : v < 2 ^ 64) :
    syncFires (.cmpSwap c.toNat v) c = true :=
  decide_eq_true (by rwa [syncNew_cmpSwap_of_eq, BitVec.toNat_ofNat, Nat.mod_eq_of_lt hlt])

section
variable {c : DWord} {v : Nat} (hlt : v < 2 ^ 64)
include hlt

theorem syncNew_release_of_raised (hraises : c.toNat < v) : syncNew (.release v) c = BitVec.ofNat 64 v :=
  if_pos (by rwa [Nat.mod_eq_of_lt hlt])

theorem syncNew_release_of_reached (hreached : v ≤ c.toNat) : syncNew (.release v) c = c :=
  if_neg (by rw [Nat.mod_eq_of_lt hlt]; exact Nat.not_lt.mpr hreached)

/-- A RELEASE that raises the counter changes it, so R311 applies. -/
theorem syncFires_release_of_raised (hraises : c.toNat < v) : syncFires (.release v) c = true := by
  have hne : BitVec.ofNat 64 v ≠ c := fun heq => by
    rw [← heq, BitVec.toNat_ofNat, Nat.mod_eq_of_lt hlt] at hraises
    exact Nat.lt_irrefl v hraises
  simpa [syncFires, syncNew_release_of_raised hlt hraises] using hne

end

/-- R311 does not apply where the counter stays as it was. -/
theorem syncFires_of_unchanged {op : SyncOp} {c : DWord} (hsame : syncNew op c = c) : syncFires op c = false := by
  cases op <;> simp [syncFires, hsame]

/-! ## Operations on an object (R310) -/

/-- The result of an operation: the counter before it, or 0 for a RELEASE. -/
def syncResult : SyncOp → DWord → Nat
  | .release _, _ => 0
  | _, c => c.toNat

theorem syncDo_of_whole {s : State} {n : Nat} {op : SyncOp} (hwhole : (s.objAt n).broken = false) : syncDo s n op =
    let t := s.setObj n { s.objAt n with c := syncNew op (s.objAt n).c }
    (St.ok, syncResult op (s.objAt n).c, if syncFires op (s.objAt n).c then objChanged t n else t) := by
  simp only [syncDo, hwhole, Bool.false_eq_true, if_false]
  cases op <;> rfl

section
variable {s : State} {g : Agent} {p addr n : Nat} (hfree : agentFenced s g = false) (hlocal : isLocal s addr = true)
  (hobj : objFor s p (addrOff addr) = some n)
include hfree hlocal hobj

theorem exec_syncWait_of_local {v timeout : Nat} (hfrom : 1 ≤ timeout) (hto : timeout ≤ 4000000) (hlt : v < 2 ^ 64) :
    exec (.syncWait (.agent g p) addr v timeout) s = .next (syncWait s (.agent g p) n v timeout) := by
  change Host.Outcome.next (agentWait s g p addr (v % 2 ^ 64) timeout) = _
  rw [Nat.mod_eq_of_lt hlt]
  simp [agentWait, hfree, timeoutOk, hfrom, hto, hlocal, hobj]

section
variable (hwhole : (s.objAt n).broken = false)
include hwhole

section
variable {op : SyncOp} (x y : Nat)

/-- An operation of an agent after which R311 applies leaves its new counter, fires and wakes, and answers. -/
theorem agentSync_of_fires {c : DWord} (hfires : syncFires op (s.objAt n).c = true) (hnew : syncNew op (s.objAt n).c = c) :
    agentSync s g p addr op x y = answerSync (objChanged (s.setObj n { s.objAt n with c := c }) n) (.agent g p)
      (syncOpCode op) (syncResult op (s.objAt n).c) St.ok := by
  simp only [agentSync, hfree, hlocal, hobj, syncDo_of_whole hwhole, hfires, hnew, Bool.false_eq_true, if_false, if_true]

/-- An operation of an agent that leaves the counter as it was only answers. -/
theorem agentSync_of_unchanged (hsame : syncNew op (s.objAt n).c = (s.objAt n).c) :
    agentSync s g p addr op x y = answerSync (s.setObj n (s.objAt n)) (.agent g p)
      (syncOpCode op) (syncResult op (s.objAt n).c) St.ok := by
  simp only [agentSync, hfree, hlocal, hobj, syncDo_of_whole hwhole, syncFires_of_unchanged hsame, hsame, Bool.false_eq_true,
    if_false, if_true]

end

/-! ## The commands of an agent (R310, R312) -/

theorem exec_syncAdd_of_local {a : Nat} (hpos : 0 < a) (hlt : a < 2 ^ 64) :
    exec (.syncAdd (.agent g p) addr a) s =
      .next (answerSync (objChanged (s.setObj n { s.objAt n with c := (s.objAt n).c + BitVec.ofNat 64 a }) n)
        (.agent g p) 1 (s.objAt n).c.toNat St.ok) := by
  change Host.Outcome.next (agentSync s g p addr (.add (a % 2 ^ 64)) (a % 2 ^ 64) 0) = _
  rw [Nat.mod_eq_of_lt hlt, agentSync_of_fires hfree hlocal hobj hwhole a 0 (syncFires_add _ hpos hlt) rfl]
  rfl

/-- A CMP_SWAP that compares equal and raises the counter. -/
theorem exec_syncCmpSwap_of_raised {v : Nat} (hraises : (s.objAt n).c.toNat < v) (hlt : v < 2 ^ 64) :
    exec (.syncCmpSwap (.agent g p) addr (s.objAt n).c.toNat v) s =
      .next (answerSync (objChanged (s.setObj n { s.objAt n with c := BitVec.ofNat 64 v }) n)
        (.agent g p) 2 (s.objAt n).c.toNat St.ok) := by
  change Host.Outcome.next (agentSync s g p addr
    (.cmpSwap ((s.objAt n).c.toNat % 2 ^ 64) (v % 2 ^ 64)) ((s.objAt n).c.toNat % 2 ^ 64) (v % 2 ^ 64)) = _
  rw [Nat.mod_eq_of_lt hlt, Nat.mod_eq_of_lt (s.objAt n).c.isLt, agentSync_of_fires hfree hlocal hobj hwhole _ v
    (syncFires_cmpSwap_of_raised hraises hlt) (syncNew_cmpSwap_of_eq _ v)]
  rfl

/-- A CMP_SWAP that does not compare equal. -/
theorem exec_syncCmpSwap_of_ne {x : Nat} (v : Nat) (hlt : x < 2 ^ 64) (hne : x ≠ (s.objAt n).c.toNat) :
    exec (.syncCmpSwap (.agent g p) addr x v) s =
      .next (answerSync (s.setObj n (s.objAt n)) (.agent g p) 2 (s.objAt n).c.toNat St.ok) := by
  change Host.Outcome.next (agentSync s g p addr (.cmpSwap (x % 2 ^ 64) (v % 2 ^ 64)) (x % 2 ^ 64) (v % 2 ^ 64)) = _
  rw [Nat.mod_eq_of_lt hlt, agentSync_of_unchanged hfree hlocal hobj hwhole x _ (syncNew_cmpSwap_of_ne _ hlt hne)]
  rfl

theorem exec_syncRelease_of_raised {v : Nat} (hlt : v < 2 ^ 64) (hraises : (s.objAt n).c.toNat < v) :
    exec (.syncRelease (.agent g p) addr v) s =
      .next (answerSync (objChanged (s.setObj n { s.objAt n with c := BitVec.ofNat 64 v }) n) (.agent g p) 4 0 St.ok) := by
  change Host.Outcome.next (agentSync s g p addr (.release (v % 2 ^ 64)) (v % 2 ^ 64) 0) = _
  rw [Nat.mod_eq_of_lt hlt, agentSync_of_fires hfree hlocal hobj hwhole v 0 (syncFires_release_of_raised hlt hraises)
    (syncNew_release_of_raised hlt hraises)]
  rfl

/-- A RELEASE to a value that the counter has reached. -/
theorem exec_syncRelease_of_reached {v : Nat} (hlt : v < 2 ^ 64) (hreached : v ≤ (s.objAt n).c.toNat) :
    exec (.syncRelease (.agent g p) addr v) s = .next (answerSync (s.setObj n (s.objAt n)) (.agent g p) 4 0 St.ok) := by
  change Host.Outcome.next (agentSync s g p addr (.release (v % 2 ^ 64)) (v % 2 ^ 64) 0) = _
  rw [Nat.mod_eq_of_lt hlt,
    agentSync_of_unchanged hfree hlocal hobj hwhole v 0 (syncNew_release_of_reached hlt hreached)]
  rfl

theorem exec_syncRead_of_local :
    exec (.syncRead (.agent g p) addr) s =
      .next (answerSync (s.setObj n (s.objAt n)) (.agent g p) 5 (s.objAt n).c.toNat St.ok) :=
  congrArg _ (agentSync_of_unchanged hfree hlocal hobj hwhole 0 0 rfl)

section
variable {v timeout : Nat} (hfrom : 1 ≤ timeout) (hto : timeout ≤ 4000000) (hlt : v < 2 ^ 64)
include hfrom hto hlt

/-- A wait for a value that the counter has reached is answered at once. -/
theorem exec_syncWait_of_reached (hreached : v ≤ (s.objAt n).c.toNat) :
    exec (.syncWait (.agent g p) addr v timeout) s = .next (answerSync s (.agent g p) 3 (s.objAt n).c.toNat St.ok) := by
  rw [exec_syncWait_of_local hfree hlocal hobj hfrom hto hlt]
  simp only [syncWait, hwhole, hreached, Bool.false_eq_true, if_false, if_true, St.ok]

/-- Any other wait takes an entry of the pool, where one is free. -/
theorem exec_syncWait_of_ahead (hahead : (s.objAt n).c.toNat < v) (hroom : s.syn.waiters.length < waiterPool) :
    exec (.syncWait (.agent g p) addr v timeout) s = .next { s with syn := { s.syn with
      waiters := s.syn.waiters ++ [⟨s.syn.nextWaiter, n, v, .agent g p, s.time, timeout⟩],
      nextWaiter := s.syn.nextWaiter + 1 } } := by
  rw [exec_syncWait_of_local hfree hlocal hobj hfrom hto hlt]
  simp only [syncWait, hwhole, Nat.not_le.mpr hahead, Nat.not_le.mpr hroom, Bool.false_eq_true, if_false]

end
end
end

/-- A waiter whose time is over leaves the pool with SYNC_TIMEOUT (R312). -/
theorem exec_syncWaitTimeout_of_due {s : State} {id : Nat} {w : Waiter}
    (hwaiter : s.syn.waiters.find? (fun w => w.id = id) = some w) (hdue : w.since + w.timeoutUs * 1000 ≤ s.time) :
    exec (.syncWaitTimeout id) s = .next (answerSync { s with syn := { s.syn with
      waiters := s.syn.waiters.filter (fun x => x.id != id) } } w.by_ 3 0 St.syncTimeout) := by
  change execSyncWaitTimeout id s = _
  simp only [execSyncWaitTimeout, hwaiter, State.until_of_le _ _ hdue]

/-! ## The requests that frames carry (R313) -/

section
variable {s t : State} {f : Frame} (harrives : frameArrives f 2 s = (t, true)) (haux : f.aux = 0) (hlength : f.payload.length = 64)
include harrives haux hlength

/-- A request other than RELEASE is a frame of its stream. -/
theorem wireSync_of_arrived {code : Nat} {op : SyncOp} (hcode : f.op = code) (hstream : code ≠ 4) (hop : wireOp f = some op) :
    wireSync f code s = streamReceive f (applySync f op) t := by
  simp [wireSync, harrives, haux, hlength, hcode, hstream, hop]

/-- A WAIT that a frame carries is a frame of its stream. -/
theorem exec_syncWait_of_arrived (addr v timeout : Nat) (hop : f.op = 3) :
    exec (.syncWait (.wire f) addr v timeout) s = .next (streamReceive f (applyWait f) t) := by
  change execSyncWait (.wire f) addr v timeout s = _
  simp [execSyncWait, harrives, haux, hlength, hop]

end

/-! ## Fences (R306) -/

section
variable {s : State} {a : Agent}

/-- A fence of an agent without one begins, and a FABRIC fence takes the agent's frames and RDMA requests outstanding. -/
theorem startFence_of_unfenced (scope : Nat) (hfree : agentFenced s a = false) :
    startFence s a scope = { s with syn := { s.syn with fences := s.syn.fences ++
      [⟨a, scope, if scope = 3 then agentFrames s a else [], if scope = 3 then agentRdma s a else [], s.time⟩] } } :=
  if_neg (by simp [hfree])

/-- The state after the agent's fence: its status, and the failures that later fences are still to report. -/
def fenceEnded (s : State) (a : Agent) (late : List (Agent × Nat)) (status : Nat) : State :=
  ({ s with syn := { s.syn with
    fences := s.syn.fences.filter (fun g => g.agent != a)
    lateStatus := late
    fenceStatus := s.syn.fenceStatus.filter (fun q : Agent × Nat => q.1 != a) ++ [(a, status)] } }).emit (.status a status)

/-- A fence that waits for nothing completes at its time; a FABRIC fence reports the failure of the agent's frames. -/
theorem exec_fenceComplete_of_settled {f : FenceSt} (hfence : s.syn.fences.find? (fun f => f.agent = a) = some f)
    (hsettled : fenceWaits s f = false) (hdue : f.since + (if f.scope = 1 then 4 else 12) ≤ s.time) :
    exec (.fenceComplete a) s = .next (if f.scope = 3
      then fenceEnded s a (s.syn.lateStatus.filter (fun q : Agent × Nat => q.1 != a)) (lateOf s a)
      else fenceEnded s a s.syn.lateStatus St.ok) := by
  change execFenceComplete a s = _
  simp only [execFenceComplete, hfence, hsettled, State.until_of_le _ _ hdue, Bool.false_eq_true, if_false]
  split <;> rfl

end

/-- Settles O49: an operation divides on whether its rule changes the counter, a wait on whether the counter has reached its value,
and a fence's end on its scope. -/
theorem syncOperationsComplete : Obligations.SyncOperationsComplete := by
  refine ⟨fun s => ⟨fun g p addr n hfree hlocal hobj hwhole => ⟨?add, ?swap, ?differs, ?release, ?read, ?wait⟩,
      fun id w => exec_syncWaitTimeout_of_due,
      fun f t addr harrives haux hlength => ⟨fun hop => ?wireAdd, fun hop => ?wireRead, fun hop => ?wireWait⟩⟩,
    fun s a => ⟨fun hfree => ⟨fun n ha => ?startLocal, ?startDie, ?startFabric⟩,
      fun f hfence hsettled => ⟨fun hscope hdue => ?endDie, fun hscope hdue => ?endFabric⟩⟩⟩
  case add => exact fun a => exec_syncAdd_of_local hfree hlocal hobj hwhole
  case swap => exact fun v => exec_syncCmpSwap_of_raised hfree hlocal hobj hwhole
  case differs => exact fun c v => exec_syncCmpSwap_of_ne hfree hlocal hobj hwhole v
  case release =>
    exact fun v hlt => ⟨exec_syncRelease_of_raised hfree hlocal hobj hwhole hlt,
      exec_syncRelease_of_reached hfree hlocal hobj hwhole hlt⟩
  case read => exact exec_syncRead_of_local hfree hlocal hobj hwhole
  case wait =>
    exact fun v timeout hfrom hto hlt => ⟨exec_syncWait_of_reached hfree hlocal hobj hwhole hfrom hto hlt,
      exec_syncWait_of_ahead hfree hlocal hobj hwhole hfrom hto hlt⟩
  case wireAdd => exact congrArg _ (wireSync_of_arrived harrives haux hlength hop (by decide) (by simp [wireOp, hop]))
  case wireRead => exact congrArg _ (wireSync_of_arrived harrives haux hlength hop (by decide) (by simp [wireOp, hop]))
  case wireWait => exact exec_syncWait_of_arrived harrives haux hlength addr 0 0 hop
  case startLocal =>
    subst ha
    exact congrArg _ (startFence_of_unfenced 1 hfree)
  case startDie => exact congrArg _ (startFence_of_unfenced 2 hfree)
  case startFabric => exact congrArg _ (startFence_of_unfenced 3 hfree)
  case endDie =>
    rw [exec_fenceComplete_of_settled hfence hsettled (by simpa [hscope] using hdue), if_neg (by simp [hscope])]
    rfl
  case endFabric =>
    rw [exec_fenceComplete_of_settled hfence hsettled (by simpa [hscope] using hdue), if_pos hscope]
    rfl

end Sys2Proof.Machine
end

section
/-! Sync objects and mailboxes (R308, R311, R326–R328, R330): the bodies of the object commands that are admitted, the high halves
of an object's registers, and the ends of a mailbox. -/

namespace Sys2Proof.Machine

/-! ## The object commands (R308, R311) -/

section
variable {s : State} {p : Nat} {arg : Octets} (sess : Nat)

/-- The lowest run of free objects is allocated where it ends within the 65,536. -/
theorem syncAllocBody_of_room (hroom : freeFrom (fld arg 0 4) s.syn.objs 0 + fld arg 0 4 ≤ 65536) :
    syncAllocBody sess p arg s =
      let first := freeFrom (fld arg 0 4) s.syn.objs 0
      doneAt ((List.range (fld arg 0 4)).foldl (fun s i => s.setObj (first + i) { alloc := true, owner := p }) s) first :=
  if_neg (Nat.not_lt.mpr hroom)

/-- A run of the partition's objects that nothing names is freed. -/
theorem syncFreeBody_of_unnamed {run : List Nat} (hrun : run = (List.range (fld arg 4 4)).map (fld arg 0 4 + ·))
    (howned : run.any (fun n => !(ownsObj s p n)) = false) (hunnamed : run.any (objNamed s) = false) :
    syncFreeBody sess p arg s = doneAt (run.foldl freeObject s) 0 := by
  subst hrun
  simp only [syncFreeBody, howned, hunnamed, Bool.false_eq_true, if_false]

/-- An object of the partition that is not BROKEN is configured. -/
theorem syncConfigBody_of_owned (howned : ownsObj s p (fld arg 0 4) = true) (hwhole : (s.objAt (fld arg 0 4)).broken = false) :
    syncConfigBody sess p arg s =
      doneAt (configObj s (fld arg 0 4) (fld arg 4 1 = 1) (fld arg 8 4) (fld arg 16 8) (fld arg 24 8)) 0 := by
  simp only [syncConfigBody, howned, hwhole, Bool.not_true, Bool.false_eq_true, if_false]

end

/-! ## The high halves (R330) -/

section
variable {s : State} {agent : RegAgent} {obj value : Nat} (hwhole : (s.objAt obj).broken = false) (hvalue : value < 2 ^ 32)
include hwhole hvalue

/-- The high half of THRESHOLD writes the whole of it, and R311 applies at once. -/
theorem exec_syncThreshHiWrite_of_reached (hbus : busStatus s agent (syncReg obj 0x0C) 32 = 0) :
    exec (.syncThreshHiWrite agent obj value) s = .next (objChanged (s.setObj obj
      { s.objAt obj with thr := BitVec.ofNat 64 (value * 2 ^ 32 + (s.objAt obj).thrLo.toNat) }) obj) := by
  change execSyncThreshHiWrite agent obj value s = _
  simp only [execSyncThreshHiWrite, regRow, hbus, hwhole, Nat.mod_eq_of_lt hvalue, Bool.false_eq_true, if_false, if_true]

/-- The high half of TARGET writes the whole of it. -/
theorem exec_syncTargetHiWrite_of_reached (hbus : busStatus s agent (syncReg obj 0x18) 32 = 0) :
    exec (.syncTargetHiWrite agent obj value) s = .next (s.setObj obj
      { s.objAt obj with target := BitVec.ofNat 64 (value * 2 ^ 32 + (s.objAt obj).targetLo.toNat) }) := by
  change execSyncTargetHiWrite agent obj value s = _
  simp only [execSyncTargetHiWrite, regRow, hbus, hwhole, Nat.mod_eq_of_lt hvalue, Bool.false_eq_true, if_false, if_true]

end

/-! ## The sender of a mailbox (R326–R328) -/

section
variable {s : State} {m : Nat} {e : MbxEnd}

theorem exec_mbxMsgWrite_of_lt {w : Nat} (value : Nat) (hm : m < 64) (hw : w < 64) :
    exec (.mbxMsgWrite m e w value) s = .next (mbxAnswer e Key.mbxMsg (mbxPutWords s m e [(w, BitVec.ofNat 32 value)])) := by
  change execMbxMsgWrite m e w value s = _
  exact if_neg (by simp; omega)

theorem exec_mbxDoorbell_of_lt (len : Nat) (hm : m < 64) :
    exec (.mbxDoorbell m e len) s = .next (mbxAnswer e Key.mbxDoorbell (mbxRing s m e len)) := by
  change execMbxDoorbell m e len s = _
  exact if_neg (by omega)

section
variable (hadmits : mbxAdmits s m e = true)
include hadmits

/-- A doorbell for more octets than the mailbox holds is refused. -/
theorem mbxRing_of_tooLong {len : Nat} (hlong : 256 < len) : mbxRing s m e len = (St.lengthExceedsBuffer, mbxWrong s m) := by
  simp only [mbxRing, hadmits, hlong, Bool.not_true, Bool.false_eq_true, if_false, if_true]

section
variable (hsender : isEnd s m (s.mbxAt m).sender e = true) (hstate : (s.mbxAt m).state ≠ 1)
include hsender hstate

/-- The sender writes words in IDLE and DONE. -/
theorem mbxPutWords_of_sender (ws : List (Nat × Word)) : mbxPutWords s m e ws = (St.ok, s.setMbx m { s.mbxAt m with
    msg := ws.foldl (fun t w => tput 0 t w.1 w.2) (s.mbxAt m).msg, wrErr := false }) := by
  simp [mbxPutWords, hadmits, mbxSends, hsender, hstate, St.ok]

/-- The sender's doorbell makes the mailbox PENDING; a receiver that is a core is woken and interrupted. -/
theorem mbxRing_of_sender {len : Nat} (hlen : len ≤ 256) : mbxRing s m e len =
    let t := s.setMbx m { s.mbxAt m with state := 1, len := len, wrErr := false, irq := mbxToCore (s.mbxAt m) }
    (St.ok, if mbxToCore (s.mbxAt m) then wake (.doorbell m) t else t) := by
  simp [mbxRing, hadmits, Nat.not_lt.mpr hlen, mbxSends, hsender, hstate, St.ok]

end
end

/-! ## The receiver of a mailbox (R327, R328) -/

/-- The receiver's RC ends a PENDING message; in any other state the write is wrong. -/
theorem exec_mbxAck_of_receiver (rc : Nat) (hm : m < 64) (hcore : ∀ n, e ≠ .session n)
    (hreceiver : isEnd s m (s.mbxAt m).receiver e = true) :
    exec (.mbxAck m e rc) s = .next (if (s.mbxAt m).state = 1
      then s.setMbx m { s.mbxAt m with rc := bits rc 15 0, state := 2, wrErr := false } else mbxWrong s m) := by
  change execMbxAck m e rc s = _
  have hinside : ¬ 63 < m := by omega
  cases e with
  | session n => exact absurd rfl (hcore n)
  | mgmt | sec | vat _ => simp [execMbxAck, hinside, hreceiver, apply_ite Host.Outcome.next]

/-- A running core takes its interrupt; the core of a gated vat is powered first. -/
theorem exec_mbxInterrupt_of_runs (hirq : (s.mbxAt m).irq = true) (hruns : coreRuns s (s.mbxAt m).receiver = true) :
    exec (.mbxInterrupt m) s = .next (((if 2 ≤ (s.mbxAt m).receiver
      then s.modVat ((s.mbxAt m).receiver - 2) (fun v => { v with gated := false }) else s).setMbx m
        { s.mbxAt m with irq := false }).emit (.interrupt m (s.mbxAt m).receiver)) := by
  change execMbxInterrupt m s = _
  exact if_pos (by simp [hirq, hruns])

end

/-- Settles O50: an object command that is admitted is a command row; a doorbell divides on its length and on its receiver, an
acknowledgement on the state and an interrupt on its core. -/
theorem syncObjectsAndMailboxesComplete : Obligations.SyncObjectsAndMailboxesComplete := by
  intro s
  refine ⟨fun sess arg => ⟨fun hready hrange hroom => ?alloc, fun hready hrange howned hunnamed => ?free,
      fun hready hrange howned hwhole => ?config⟩,
    fun agent obj value hwhole hvalue => ⟨exec_syncThreshHiWrite_of_reached hwhole hvalue,
      exec_syncTargetHiWrite_of_reached hwhole hvalue⟩,
    fun m e hm => ⟨fun hadmits hsender hstate => ⟨fun w value hw => ?words,
        fun len hlen => ⟨fun hcore => ?toCore, fun hother => ?toOther⟩, fun len hlong => ?tooLong⟩,
      fun hcore hreceiver hstate rc => ?acknowledged, fun hcore hreceiver hstate rc => ?wrong⟩,
    fun m hirq hruns => ⟨fun hcore => ?ownCore, fun hvat => ?vatCore⟩⟩
  case alloc => exact exec_of_cmdRow rfl hready hrange (syncAllocBody_of_room sess hroom)
  case free => exact exec_of_cmdRow rfl hready hrange (syncFreeBody_of_unnamed sess rfl howned hunnamed)
  case config => exact exec_of_cmdRow rfl hready hrange (syncConfigBody_of_owned sess howned hwhole)
  case words => rw [exec_mbxMsgWrite_of_lt value hm hw, mbxPutWords_of_sender hadmits hsender hstate]; rfl
  case toCore =>
    have hcore : mbxToCore (s.mbxAt m) = true := decide_eq_true hcore
    rw [exec_mbxDoorbell_of_lt len hm, mbxRing_of_sender hadmits hsender hstate hlen, hcore]
    rfl
  case toOther =>
    have hother : mbxToCore (s.mbxAt m) = false := decide_eq_false (Nat.not_le.mpr hother)
    rw [exec_mbxDoorbell_of_lt len hm, mbxRing_of_sender hadmits hsender hstate hlen, hother]
    rfl
  case tooLong => rw [exec_mbxDoorbell_of_lt len hm, mbxRing_of_tooLong hadmits hlong]
  case acknowledged => rw [exec_mbxAck_of_receiver rc hm hcore hreceiver, if_pos hstate]
  case wrong => rw [exec_mbxAck_of_receiver rc hm hcore hreceiver, if_neg hstate]
  case ownCore => rw [exec_mbxInterrupt_of_runs hirq hruns, if_neg (Nat.not_le.mpr hcore)]
  case vatCore => rw [exec_mbxInterrupt_of_runs hirq hruns, if_pos hvat]

end Sys2Proof.Machine
end

section
/-! What every step keeps (R432, R446, R448): the fuses and the debug level of a scrapped module; the step on a waiting command and
on an empty queue; the machine at reset. -/

namespace Sys2Proof.Machine

/-- A step is a command's, which `Keeps` whatever the queue was, or a tick of the clock. -/
theorem step_keeps_front {s t : State} (hstep : step s = .next t) : ∃ cs, Keeps { s with pending := cs } t := by
  unfold step at hstep
  split at hstep
  case h_1 =>
    obtain rfl := Host.Outcome.next.inj hstep
    exact ⟨s.pending, tick_keeps (Keeps.refl s)⟩
  case h_2 c cs _ => exact ⟨cs, (exec_keeps c { s with pending := cs }).keeps t hstep⟩

/-- Settles O7: a scrapped module's debug level is one of the things that every step keeps. -/
theorem stepKeepsScrappedClosed : Obligations.StepKeepsScrappedClosed := by
  intro s t hclosed hstep
  obtain ⟨cs, hkeeps⟩ := step_keeps_front hstep
  exact hkeeps.closed hclosed

/-- Settles O8: so are the fuses, the identity once a lifecycle fuse is blown; and a blown fuse stays blown. -/
theorem stepKeepsFuses : Obligations.StepKeepsFuses := by
  intro s t hstep
  obtain ⟨cs, hkeeps⟩ := step_keeps_front hstep
  obtain ⟨hlifecycle, hrollback⟩ := hkeeps.oneWay
  exact ⟨⟨hlifecycle, hrollback⟩, fun hblown => ⟨hkeeps.identity hblown, bits_kept hlifecycle hblown⟩⟩

theorem step_of_pending_cons {s : State} {c : Instr} {cs : List Instr} (hfront : s.pending = c :: cs) :
    step s = exec c { s with pending := cs } := by
  unfold step
  rw [hfront]

theorem step_of_pending_nil {s : State} (hempty : s.pending = []) : step s = .next (tick s) := by
  unfold step
  rw [hempty]

/-- Settles O1: the rule of a step with a command waiting. -/
theorem stepRunsFrontCommand : Obligations.StepRunsFrontCommand := fun _ _ _ => step_of_pending_cons

/-- Settles O2: the tick of the clock divides on the power state. -/
theorem stepOnEmptyQueueTicks : Obligations.StepOnEmptyQueueTicks := by
  intro s hempty
  rw [step_of_pending_nil hempty]
  exact ⟨fun hoff => congrArg _ (if_pos hoff), fun hon => congrArg _ (if_neg hon)⟩

/-- Settles O4: at reset the memory lists no byte, the debug level is NONE, the queue is empty and the module is off. -/
theorem resetMeetsTheInvariants : Obligations.ResetMeetsTheInvariants := ⟨rfl, fun _ => rfl, rfl, rfl⟩

end Sys2Proof.Machine
end

section
/-! Every command answers a next state (R351, R368). -/

namespace Sys2Proof.Machine

/-- An outcome is a next state. -/
def Answers (o : Host.Outcome State Fault Refusal) : Prop := ∃ t, o = .next t

theorem Answers.next (t : State) : Answers (.next t) := ⟨t, rfl⟩

theorem Answers.ite {a b : Host.Outcome State Fault Refusal} {c : Prop} [Decidable c] (ha : Answers a) (hb : Answers b) :
    Answers (if c then a else b) := by
  split
  · exact ha
  · exact hb

/-- The form of most meanings: an effect behind one guard. -/
theorem Answers.guarded {s t : State} {c : Prop} [Decidable c] : Answers (if c then .next s else .next t) :=
  .ite (.next s) (.next t)

/-- Each meaning is an effect, an effect behind its guards, or cases on what the command finds whose every leaf is a next state. -/
theorem exec_answers (c : Instr) (s : State) : Answers (exec c s) := by
  cases c with
  -- the effect alone
  | fapRead | fapWrite | fapDescribe | fapNext | fapKeepalive | fapClose | arrayInputRecord | arrCalStart | ccVatStart
  | perTableLoad | whlStage | whlVerify | whlPlace | whlArm | whlCancel | openWrite | stealClaim | veInbufSet | gemm | norm
  | attnDecode | attnPrefill | gatherPool | sample | specVerify | openQuant | packageKernel | seqEdit | embTableEdit
  | embInvalidate | embPin | reqChanOpen | reqChanClose | qpTransportError | memRegionSet | portEnableWrite | dataWrite
  | dataReadReq | dataReadResp | syncResponse | linkAck | linkNak | linkCredit | dozeReq | dozeAck | linkWake | collCreate
  | collDestroy | roceSend | roceWrite | roceRead | roceFetchAdd | roceCmpSwap | fenceDie | fenceFabric | syncAlloc
  | syncFree | syncConfig | syncThreshHiWrite | syncTargetHiWrite | syncGroupCreate | syncGroupDestroy | streamClose
  | qpCreate | qpDestroy | taskChanOpen | taskChanClose | cfgDefaults | fwActivate | healthFence | healthReadmit
  | healthClear | recReplace | recRebind | pwrStateReq | brakeRelease | railRecovered | monVrSync | lcTransition
  | secPartCreate | secPartAssign | secPartRelease | secDebugUnlock | secDebugClose | secPkgLoad | secKeyLoad | secKeyClear
  | resetAssert | jtagBypass | jtagSamplePreload | jtagExtest | jtagTapReset | slotIdChange => exact .next _
  -- one guard
  | idleStepBoundary | fapSessionIdleTimeout | spdmFinish | spdmEndSession | spdmKeyUpdate | spdmGetMeasurements
  | arrayIdleGate | calRunDone | driftCalibration | replicaPushAck | retentionAgeTick | taskPost | engineWake
  | engineIdleGate | kvAppend | directoryDecay | planReceive | memberStepStart | seqInvalidReport | draftMessage
  | commitFence | completionRecordWrite | patrolScrub | replicaLostNotice | pcsLock | preemptVerifyDone | helloSendTimer
  | helloTimeout | pressAck | linkAckTimer | linkReplayTimeout | keepaliveSendTimer | portKeepaliveTimeout | pcsLockLoss
  | e2eKeepaliveTimer | peerTimeout | pfcFrame | mbxMsgWrite | mbxDoorbell | mbxInterrupt | vatHeartbeat | vatWatchdog
  | mgmtCoreReset | mgmtCoreResetDone | autoS1Entry | wakeEvent | powerStateExitDone | refclkLoss | refclkRestored
  | corePllLockLoss | corePllRelock | powerCapTick | brakeRampTick | thermalSample | orderedStopTimeout | thermalTrip
  | railExcursion | monTimerTrigger | monConversionDone | debugExpiry | coreHalt | coreSingleStep | coreResume
  | secEnrollWrite | fwSelfTestDone | powerUp | supplyLoss | resetRelease | jtagIdcode | jtagFuseProgram | mgmtPortArpNdIcmp
  | spdmGetCertificate | envelopeVerifyDone | thermTripLatchClear | overvoltageLockoutRelease | telemetryUpdate => exact .guarded
  -- several guards
  | refLineCalResult | journalRecord | brakeAssert | secDebugChallenge | fwSelfTestTimeout => exact .ite (.next _) .guarded
  | linkTrainingDone => exact .ite .guarded (.next _)
  | journalAck | linkKeepalive | mbxAck | regWinBulk | idleCalibrationSlice => exact .ite (.next _) (.ite (.next _) .guarded)
  -- cases on what the command finds
  | arrayWake | passGrant | arrayPassLaunch | split | passCountsReady | chainPartialSum | pairJoin | outputRelease
  | converterCalResult | programRow | arrayProgramDone | replicaStore | replicaFetchDone | swapArrive | swapDecision
  | swapHoldAlarm | rewriteDone | rewriteRollbackDone | overflowLayerLoad | taskStart | stealSearch | dualCompare
  | inbufRecordArrival | inbufRecordWrite | hotRowCopy | hotRowCopyDone | memoryZeroDone | stepBoundary | submit | cancel
  | hello | frameCheckDrop | press | pressResult | eackAck | eackRefuse | e2eAckTimer | e2eRetransmitTimeout
  | collInvocationStart | roceCnp | roceRateRecovery | roceAcknowledge | syncAdd | syncCmpSwap | syncRelease | syncRead
  | syncWait | syncWaitTimeout | fenceLocal | fenceComplete | streamOpen | taskChanDescriptorRead | registerWrite
  | regWinData | spdmKeyExchange | fapDatagramDrop | vatFenceGate | mgmtRecoveryTimeout | errorRecordPersist
  | brineSliceStart | brineSliceDone | recAdopt | rebindTimeout | powerStateEntryDone | urgentConversion | monCalStart
  | monCalDone | monClear | lcEffectDone =>
    dsimp only [exec, execArrayWake, execPassGrant, execArrayPassLaunch, execSplit, execPassCountsReady, execChainPartialSum,
      execPairJoin, execOutputRelease, execConverterCalResult, execProgramRow, execArrayProgramDone, execReplicaStore,
      execReplicaFetchDone, execSwapArrive, execSwapDecision, execSwapHoldAlarm, execRewriteDone, execRewriteRollbackDone,
      execOverflowLayerLoad, execTaskStart, execStealSearch, execDualCompare, execInbufRecordArrival, execInbufRecordWrite,
      execHotRowCopy, execHotRowCopyDone, execMemoryZeroDone, execStepBoundary, execSubmit, execCancel, execHello,
      execFrameCheckDrop, execPress, execPressResult, execEackAck, execEackRefuse, execE2eAckTimer, execE2eRetransmitTimeout,
      execCollInvocationStart, execRoceCnp, execRoceRateRecovery, execRoceAcknowledge, execSyncAdd, execSyncCmpSwap,
      execSyncRelease, execSyncRead, execSyncWait, execSyncWaitTimeout, execFenceLocal, execFenceComplete, execStreamOpen,
      execTaskChanDescriptorRead, execRegisterWrite, execRegWinData, execSpdmKeyExchange, execFapDatagramDrop,
      execVatFenceGate, execMgmtRecoveryTimeout, execErrorRecordPersist, execBrineSliceStart, execBrineSliceDone, execRecAdopt,
      execRebindTimeout, execPowerStateEntryDone, execUrgentConversion, execMonCalStart, execMonCalDone, execMonClear,
      execLcEffectDone]
    repeat' split
    all_goals exact .next _

/-- Settles O5: the next state that every command answers keeps the queue, what was sent and the powered time. -/
theorem everyCommandAnswersAndTakesNothingBack : Obligations.EveryCommandAnswersAndTakesNothingBack := by
  intro c s
  obtain ⟨t, hanswer⟩ := exec_answers c s
  have hkeeps := (exec_keeps c s).keeps t hanswer
  exact ⟨t, hanswer, hkeeps.pending, hkeeps.sent, hkeeps.powered⟩

end Sys2Proof.Machine
end

section
/-! FAP requests (R336, R346–R354): what one that is performed answers, and what one that is dropped leaves. -/

namespace Sys2Proof.Machine

/-! ## Performed requests (R336, R351, R352) -/

/-- A command whose meaning is a FAP row performs an accepted request on the session that has taken its SEQ. -/
theorem exec_of_fapRun {c : Instr} {op n q : Nat} {perform : Nat → FapMsg → State → FapResp × State} {m : FapMsg}
    {s u : State} {r : FapResp} (hexec : exec c s = .next (fapRun op perform n q m s)) (hopen : fapOpen s n q m = true) (hop : m.op = op)
    (hperform : perform n m (s.modSess n (seqAccept s.time q)) = (r, u)) : exec c s = .next (fapDone n (r, u)) := by
  rw [hexec, fapRun_open hopen hop, hperform]

section
variable {u : State} {n : Nat} {m : FapMsg} {r : ObjRow} (hrow : rowFor u n (fapKey m) = some r)
include hrow

/-- A READ that passes its checks, of an object whose value is held, returns its octets. -/
theorem fapRead_of_held {d : Octets} (hchallenge : fapKey m ≠ Key.secDebugChallenge) (hdata : fapKey m ≠ Key.regWinData)
    (hbulk : fapKey m ≠ Key.regWinBulk) (hstatus : readStatus u n (fapKey m) m.offset m.count = 0)
    (hheld : objOctets u n r (fapKey m) m.offset m.count = .ok d) : fapRead n m u = (respOf m 0 d, u) := by
  simp [fapRead, hstatus, hrow, readOctets, hchallenge, hdata, hbulk, hheld]

theorem fapDescribe_of_admitted (hrights : admitted r.rights (u.sessAt n).cls = true) :
    fapDescribe n m u = (respOf m 0 (describe r), u) := by
  simp [fapDescribe, hrow, hrights]

/-- An unsegmented WRITE of a whole integer is the write of its value. -/
theorem fapWrite_of_whole (hflags : m.flags = 0) (hoffset : m.offset = 0) (hheld : (u.sessAt n).held = none)
    (htable : r.typ ≠ 14) (hinteger : segmented r = false) (hsize : m.data.length = r.size)
    (hallowed : writeDenied u n r (fapKey m) m.data = 0) :
    fapWrite n m u = (respOf m (writeInt u n r (fapKey m) m.data).1 [], (writeInt u n r (fapKey m) m.data).2) := by
  have hmore : bit m.flags 1 = false := by rw [hflags]; rfl
  have hsegment : heldFor (u.sessAt n) (fapKey m) = none := by rw [heldFor, hheld]
  have hobject : writeObject u n r (fapKey m) 0 m.data false = writeInt u n r (fapKey m) m.data := by
    simp [writeObject, hsegment, hinteger, hsize, htable]
  simp [fapWrite, hrow, hmore, hallowed, hoffset, hobject]

end

/-- A session's _SELECT object holds the octets that are written. -/
theorem writeInt_of_select {u : State} {n k : Nat} {r : ObjRow} {v : Octets} (hrange : rangeStatus u k (leNat v) = 0)
    (hselect : isSelect k = true) (hmodule : bit r.flags 1 = false) :
    writeInt u n r k v = (0, u.modSess n (fun y => { y with selects := tput [] y.selects k v })) := by
  simp [writeInt, firstBad, hrange, hmodule, hselect]

theorem fapNext_of_found {u : State} {n k' : Nat} {m : FapMsg} (hnext : nextObject (u.sessAt n) (fapKey m) = some k') :
    fapNext n m u = (⟨m.op, m.tag, 0, k' / 256, k' % 256, m.offset, []⟩, u) := by
  simp only [fapNext, hnext]

/-- Settles O13: each request is performed as the rule of its OP above says. -/
theorem fapRequestsComplete : Obligations.FapRequestsComplete := by
  intro s n q m hopen
  refine ⟨fun hop hchallenge hdata hbulk r d hrow hstatus hheld => ?read,
    fun hop hflags hoffset hheld r hrow htable hinteger hsize hallowed hrange => ?write, fun hop r hrow hrights => ?describe,
    fun hop k' hnext => ?next, fun hop => exec_of_fapRun rfl hopen hop rfl, fun hop => exec_of_fapRun rfl hopen hop rfl⟩
  case read => exact exec_of_fapRun rfl hopen hop (fapRead_of_held hrow hchallenge hdata hbulk hstatus hheld)
  case write =>
    have hwhole := fapWrite_of_whole hrow hflags hoffset hheld htable hinteger hsize hallowed
    refine ⟨fun hselect hmodule => ?_, fun htaken => ?_⟩
    · rw [writeInt_of_select hrange hselect hmodule] at hwhole
      exact exec_of_fapRun rfl hopen hop hwhole
    · rw [htaken] at hwhole
      exact exec_of_fapRun rfl hopen hop hwhole
  case describe => exact exec_of_fapRun rfl hopen hop (fapDescribe_of_admitted hrow hrights)
  case next => exact exec_of_fapRun rfl hopen hop (fapNext_of_found hnext)

/-! ## Dropped and repeated datagrams (R346–R348, R354) -/

section
variable {s : State} {op n q : Nat} (perform : Nat → FapMsg → State → FapResp × State) {m : FapMsg}
  (hserved : fapServed s = true) (hop : m.op = op)
include hserved hop

theorem fapRun_of_unknown (hsession : sessReady s n = false) : fapRun op perform n q m s = authFailed s n := by
  simp [fapRun, hserved, hop, hsession]

theorem fapRun_of_replayed (hsession : sessReady s n = true) (hseen : seqFresh (s.sessAt n) q = false) :
    fapRun op perform n q m s = replayed s := by
  simp [fapRun, hserved, hop, hsession, hseen]

/-- A kept response is sent again, whatever the request would do (R354). -/
theorem fapRun_of_kept (hsession : sessReady s n = true) (hfresh : seqFresh (s.sessAt n) q = true) {e : Nat × FapResp}
    (hkept : (s.sessAt n).kept.find? (fun e => e.1 = m.tag) = some e) :
    fapRun op perform n q m s = sessLimit (fapSend (s.modSess n (seqAccept s.time q)) n e.2) n := by
  have hstill : ((s.modSess n (seqAccept s.time q)).sessAt n).kept.find? (fun e => e.1 = m.tag) = some e := by
    rw [sessAt_accepted]
    exact hkept
  simp [fapRun, hserved, hop, hsession, hfresh, hstill]

end

section
variable {s : State} {d : BadDatagram} (hserved : fapServed s = true) (hheader : d.headerOk = true)
include hserved hheader

theorem exec_fapDatagramDrop_of_unauthentic (hbad : sessReady s d.sess = false ∨ d.tagOk = false) :
    exec (.fapDatagramDrop d) s = .next (authFailed s d.sess) := by
  change execFapDatagramDrop d s = _
  have hguard : (!(sessReady s d.sess) || !d.tagOk) = true := by
    rcases hbad with h | h <;> simp [h]
  simp [execFapDatagramDrop, hserved, hheader, hguard]

theorem exec_fapDatagramDrop_of_replayed (hsession : sessReady s d.sess = true) (htag : d.tagOk = true)
    (hseen : seqFresh (s.sessAt d.sess) d.seq = false) : exec (.fapDatagramDrop d) s = .next (replayed s) := by
  change execFapDatagramDrop d s = _
  simp [execFapDatagramDrop, hserved, hheader, hsession, htag, hseen]

end

/-- Settles O14: a READ row drops and repeats as every row does, and so does the row of the datagrams that carry no request. -/
theorem fapDropsAndRepeats : Obligations.FapDropsAndRepeats := by
  intro s n q m hserved hop
  exact ⟨fun hsession => congrArg _ (fapRun_of_unknown fapRead hserved hop hsession),
    fun hsession hseen => congrArg _ (fapRun_of_replayed fapRead hserved hop hsession hseen),
    fun hsession hfresh _ hkept => congrArg _ (fapRun_of_kept fapRead hserved hop hsession hfresh hkept),
    fun _ hheader hbad => exec_fapDatagramDrop_of_unauthentic hserved hheader hbad,
    fun _ hheader hsession htag hseen => exec_fapDatagramDrop_of_replayed hserved hheader hsession htag hseen⟩

/-! ## Authentication failures (R347) -/

theorem sessOpen_endSession (s : State) (n : Nat) : sessOpen (endSession s n) n = false := by
  simp [sessOpen, endSession]

/-- Settles O15: the count of an open session reaches 16 or is raised. -/
theorem sixteenAuthFailuresEndASession : Obligations.SixteenAuthFailuresEndASession := by
  intro s n hopen
  have hfailed : authFailed s n =
      (let c := { s with dic := { s.dic with authFail := s.dic.authFail + 1 } }
      if 16 ≤ (s.sessAt n).authFails + 1 then endSession c n
      else c.modSess n (fun x => { x with authFails := (s.sessAt n).authFails + 1 })) :=
    if_neg (by simpa [sessOpen] using hopen)
  refine ⟨fun hlast => ?_, fun hearly => ?_⟩
  · have hends := hfailed.trans (if_pos (Nat.succ_le_succ hlast))
    exact ⟨hends, hends ▸ sessOpen_endSession _ n⟩
  · exact hfailed.trans (if_neg (by omega))

end Sys2Proof.Machine
end

section
/-! Sessions, command objects and the register window (R340–R349, R353, R357, R437, R438, R445). -/

namespace Sys2Proof.Machine

/-! ## The session commands (R346, R348, R349, R437, R445) -/

section
variable {s : State} {n : Nat} (hserved : fapServed s = true)
include hserved

/-- A requester whose chain names a class gets the next session (R346, R438). -/
theorem exec_spdmKeyExchange_of_enrolled {renzelRoot : Bool} {keys : List Octets} {x : Session}
    (hroom : s.dic.sessions.length < 64) (hclass : sessionFor s renzelRoot keys = some x) :
    exec (.spdmKeyExchange renzelRoot keys) s =
      .next ((({ s with dic := { s.dic with nextSess := s.dic.nextSess + 1 } } : State).setSess s.dic.nextSess x).emit
        (.spdmKeyExchange s.dic.nextSess)) := by
  change execSpdmKeyExchange renzelRoot keys s = _
  simp [execSpdmKeyExchange, hserved, Nat.not_le.mpr hroom, hclass]

theorem exec_spdmFinish_of_open (hsession : sessOpen s n = true) (hnew : (s.sessAt n).ready = false) :
    exec (.spdmFinish n) s = .next ((s.setSess n { s.sessAt n with ready := true, lastMsg := s.time }).emit
      (.spdmAnswer n Spdm.finishRsp [])) := by
  change execSpdmFinish n s = _
  exact if_neg (by simp [hserved, hsession, hnew])

theorem exec_spdmKeyUpdate_of_ready (hsession : sessReady s n = true) :
    exec (.spdmKeyUpdate n) s = .next ((s.setSess n { s.sessAt n with
      keyGen := (s.sessAt n).keyGen + 1, lastMsg := s.time }).emit (.spdmAnswer n Spdm.keyUpdateAck [])) := by
  change execSpdmKeyUpdate n s = _
  exact if_neg (by simp [hserved, hsession])

theorem exec_spdmEndSession_of_ready (hsession : sessReady s n = true) :
    exec (.spdmEndSession n) s = .next ((endSession s n).emit (.spdmAnswer n Spdm.endSessionAck [])) := by
  change execSpdmEndSession n s = _
  exact if_neg (by simp [hserved, hsession])

/-- The report and its signature over the requester's nonce (R445). -/
theorem exec_spdmGetMeasurements_of_ready (hsession : sessReady s n = true) (nonce : Octets) :
    exec (.spdmGetMeasurements n nonce) s = .next ((s.setSess n { s.sessAt n with lastMsg := s.time }).emit
      (.spdmAnswer n Spdm.measurements (measurements s n ++
        padTo (Config.akSign s.sec.akGen (measurements s n ++ nonce)) 96))) := by
  change execSpdmGetMeasurements n nonce s = _
  exact if_neg (by simp [hserved, hsession])

theorem exec_spdmGetCertificate_of_served :
    exec (.spdmGetCertificate n) s =
      .next (s.emit (.spdmAnswer n Spdm.certificate (certChain s ++ Config.derivedOctets Der.akCert s.sec.akGen))) := by
  change execSpdmGetCertificate n s = _
  exact if_neg (by simp [hserved])

/-- The management port answers ARP, neighbour discovery and echo (R344). -/
theorem exec_mgmtPortArpNdIcmp_of_answered {k : MgmtFrame} (hanswered : k ≠ .other) :
    exec (.mgmtPortArpNdIcmp k) s = .next (s.emit (.mgmtReply k)) := by
  change execMgmtPortArpNdIcmp k s = _
  exact if_neg (by simp [hserved, hanswered])

end

/-- The idle timer of a session ends it once it is due (R349). -/
theorem exec_fapSessionIdleTimeout_of_due {s : State} {n : Nat} (hsession : sessOpen s n = true)
    (hdue : (s.sessAt n).lastMsg + cfgNat s Key.fapIdleS * 10 ^ 9 ≤ s.time) :
    exec (.fapSessionIdleTimeout n) s = .next (endSession s n) := by
  change execFapSessionIdleTimeout n s = _
  simp only [execFapSessionIdleTimeout, hsession, Bool.not_true, Bool.false_eq_true, if_false, State.until_of_le s _ hdue]

/-- Settles O16: each command of a session the service answers for does what its rule above says. -/
theorem sessionCommandsComplete : Obligations.SessionCommandsComplete := by
  intro s n
  exact ⟨fun _ _ _ hserved hroom hclass => exec_spdmKeyExchange_of_enrolled hserved hroom hclass,
    fun hserved hsession hnew => exec_spdmFinish_of_open hserved hsession hnew,
    fun hserved hsession => ⟨exec_spdmKeyUpdate_of_ready hserved hsession, exec_spdmEndSession_of_ready hserved hsession,
      exec_spdmGetMeasurements_of_ready hserved hsession⟩,
    exec_spdmGetCertificate_of_served, exec_fapSessionIdleTimeout_of_due,
    fun _ hserved hanswered => exec_mgmtPortArpNdIcmp_of_answered hserved hanswered⟩

/-! ## A command object that is running (R343, R353) -/

/-- A write that passes the checks before COMMAND_BUSY is refused with it, and nothing is stored. -/
theorem cmdRow_of_running {k sess : Nat} {r : ObjRow} {range : State → Octets → Nat}
    (body : Nat → Nat → Octets → State → CmdAns) {arg : Octets} {s : State} (hrow : objRow k = some r)
    (hsession : sessReady s sess = true) (hrights : admitted r.rights (s.sessAt sess).cls = true) (hsize : arg.length = r.size)
    (hrange : range s arg = 0) (hrunning : cmdRunning s k (cmdScope s r sess) = true) :
    cmdRow k (cmdWrite k range body) sess arg s = cmdAnswer k sess (St.commandBusy, s) := by
  simp [cmdRow, hsession, cmdWrite, hrow, hrights, hsize, hrange, hrunning]

/-- Settles O18: the answer that refuses the write is all that it leaves. -/
theorem runningCommandIsBusy : Obligations.RunningCommandIsBusy := by
  intro k r range body sess arg s hrow hsession hrights hsize hrange hrunning
  have hbusy := cmdRow_of_running body hrow hsession hrights hsize hrange hrunning
  exact ⟨hbusy, by rw [hbusy]; rfl⟩

/-! ## The register blocks (R357) -/

/-- Settles O19: the rows of the statement are the model's, and a register lies in the block of its row. -/
theorem registerBlocksLieAtTheirBases : Obligations.RegisterBlocksLieAtTheirBases := by
  rintro ⟨blk, base, stride, count⟩ hrow i off hi hoff
  rw [Nat.mul_comm i]
  exact locate_register hrow hi hoff

/-! ## The vendor's window (R341) -/

section
variable {s : State} {sess : Nat} (hsession : sessReady s sess = true)
include hsession

section
variable (hdenied : winAdmits s sess = false)
include hdenied

theorem exec_regWinData_of_denied (w : Option Nat) :
    exec (.regWinData sess w) s =
      .next (winAnswer s sess (if w.isSome then 2 else 1) Key.regWinData St.accessDenied []) := by
  change execRegWinData sess w s = _
  cases w <;> simp [execRegWinData, hsession, hdenied]

theorem exec_regWinBulk_of_denied (count : Nat) :
    exec (.regWinBulk sess count) s = .next (winAnswer s sess 1 Key.regWinBulk St.accessDenied []) := by
  change execRegWinBulk sess count s = _
  simp [execRegWinBulk, hsession, hdenied]

end

/-- The SEC_ blocks are never written, and no block is below SCAN. -/
theorem exec_regWinData_of_closed {r : RegRef} (w : Nat) (haddr : locate s.dic.winAddr = some r)
    (hclosed : r.blk = .sec ∨ s.sec.debug ≠ 3) :
    exec (.regWinData sess (some w)) s = .next (winAnswer s sess 2 Key.regWinData St.accessDenied []) := by
  have hstore : winStore s s.dic.winAddr w = (St.accessDenied, s) :=
    if_pos (by simpa [winDenied, haddr] using hclosed)
  change execRegWinData sess (some w) s = _
  simp [execRegWinData, hsession, hstore]

section
variable (hadmits : winAdmits s sess = true)
include hadmits

theorem exec_regWinData_of_stored {w : Nat} {t : State} (hstore : winStore s s.dic.winAddr w = (0, t)) :
    exec (.regWinData sess (some w)) s = .next (winAnswer t sess 2 Key.regWinData 0 []) := by
  change execRegWinData sess (some w) s = _
  simp [execRegWinData, hsession, hadmits, hstore]

section
variable {x : Word × State} (hload : winLoad s s.dic.winAddr = .ok x)
include hload

theorem exec_regWinData_of_loaded :
    exec (.regWinData sess none) s = .next (winAnswer x.2 sess 1 Key.regWinData 0 (natLe 4 x.1.toNat)) := by
  change execRegWinData sess none s = _
  simp [execRegWinData, hsession, hadmits, hload]

/-- A bulk read of at most four octets is the read of one word. -/
theorem exec_regWinBulk_of_word {count : Nat} (hpos : 1 ≤ count) (hword : count ≤ 4) :
    exec (.regWinBulk sess count) s =
      .next (winAnswer x.2 sess 1 Key.regWinBulk 0 ((natLe 4 x.1.toNat).take count)) := by
  have hone : (count + 3) / 4 = 1 := by omega
  have hbulk : winBulk 1 s.dic.winAddr s = (natLe 4 x.1.toNat, 0, x.2) := by simp [winBulk, hload]
  have hcount : ¬ (count = 0 ∨ 1024 < count) := by omega
  change execRegWinBulk sess count s = _
  simp [execRegWinBulk, hsession, hadmits, hone, hbulk, hcount]

end
end
end

section
variable {s : State} {addr : Nat} {r : RegRef} (hbus : busStatus s .window addr 32 = 0) (haddr : locate addr = some r)
  (hsec : r.blk ≠ .sec) (hscan : s.sec.debug = 3)
include hbus haddr hsec hscan

theorem winStore_of_scan (w : Nat) : winStore s addr w = (0, regStore s .window r w) := by
  simp [winStore, winDenied, haddr, hsec, hscan, hbus]

theorem winLoad_of_scan : winLoad s addr = .ok (regLoad s .window addr r) := by
  simp [winLoad, winDenied, haddr, hsec, hscan, hbus]

end

/-! ## Telemetry (R340) -/

/-- The module's values are those of the power manager and the vats, which the passing of local time leaves as they are. -/
theorem moduleTelemetry_until (s : State) (t : Nat) :
    moduleTelemetry (s.until t) = { s.until t with dic := { s.dic with
      telInputW := s.pwr.inputW, telJunction := s.pwr.maxTemp / 16
      telGrants := (s.vat.map (fun v => v.2.grants.length)).sum } } := by
  simp only [moduleTelemetry, State.until_dic, State.until_pwr, State.until_vat]

theorem exec_telemetryUpdate_of_powered {s m : State} {t : Nat} (hpower : s.pwr.state ≠ .s4)
    (ht : t = (s.time / 1000000 + 1) * 1000000) (hm : m = moduleTelemetry (s.until t)) :
    exec .telemetryUpdate s = .next (if m.time % 10000000 = 0 then partTelemetry m else m) := by
  subst ht hm
  change execTelemetryUpdate s = _
  exact if_neg hpower

/-- Settles O21: the window divides on its admission, CFG_DEFAULTS is a command row, and the update divides on its time. -/
theorem windowDefaultsAndTelemetryComplete : Obligations.WindowDefaultsAndTelemetryComplete := by
  refine ⟨fun s sess hsession => ⟨fun w r => exec_regWinData_of_closed hsession w,
      fun hdenied w count => ⟨exec_regWinData_of_denied hsession hdenied w, exec_regWinBulk_of_denied hsession hdenied count⟩,
      fun hadmits hbus r haddr hsec hscan => ?window⟩,
    fun s sess arg hready harg => ?defaults, fun s t hpower ht => ?telemetry⟩
  case window =>
    have hload := winLoad_of_scan hbus haddr hsec hscan
    exact ⟨fun w => exec_regWinData_of_stored hsession hadmits (winStore_of_scan hbus haddr hsec hscan w),
      exec_regWinData_of_loaded hsession hadmits hload, fun _ => exec_regWinBulk_of_word hsession hadmits hload⟩
  case defaults => exact exec_of_cmdRow rfl hready (oneRange_of_one s harg) rfl
  case telemetry =>
    intro m
    have hm : m = moduleTelemetry (s.until t) := (moduleTelemetry_until s t).symm
    have htime : m.time = t := (s.until_time t).trans (Nat.max_eq_right (by omega))
    have hupdate := exec_telemetryUpdate_of_powered hpower ht hm
    rw [htime] at hupdate
    exact ⟨htime, fun hshort => hupdate.trans (congrArg _ (if_neg hshort)),
      fun hlong => hupdate.trans (congrArg _ (if_pos hlong))⟩

end Sys2Proof.Machine
end

section
/-! The watch over cores and units (R365, R370, R380, R383–R387, R397, R483). -/

namespace Sys2Proof.Machine

/-! ## The cores (R365, R370, R380, R483) -/

section
variable {s : State} {v : Nat} (hruns : vatCoreRuns s v = true)
include hruns

theorem exec_vatHeartbeat_of_runs :
    exec (.vatHeartbeat v) s = .next (s.setVat v { s.vatAt v with missed := 0, lastBeat := s.time }) := by
  change execVatHeartbeat v s = _
  exact if_pos hruns

/-- The second heartbeat that is missing fences the vat. -/
theorem exec_vatWatchdog_of_due (hdue : (s.vatAt v).lastBeat + 200000 ≤ s.time) :
    exec (.vatWatchdog v) s =
      .next (fenceVat (s.setVat v { s.vatAt v with missed := 2 }) v { mech := Mech.watchdog, detailA := 2 }) := by
  change execVatWatchdog v s = _
  refine (if_pos hruns).trans ?_
  rw [State.until_of_le s _ hdue]
  rfl

end

/-- 50 µs after its fence a vat is gated, and with it its arrays and engines (R380). -/
theorem exec_vatFenceGate_of_due {s g : State} {v t : Nat} (hfence : (s.vatAt v).fenced = some t)
    (hpowered : (s.vatAt v).gated = false) (hdue : t + 50000 ≤ s.time) (hg : g = s.setVat v { s.vatAt v with gated := true }) :
    exec (.vatFenceGate v) s = .next ((vatEngines v).foldl (fun s n => s.modEng n (fun e => { e with awake := false }))
      ((g.arr.filter (fun q => q.1 / 2176 = v)).foldl
        (fun s q => s.modArr q.1 (fun a => { a with awake := false, waking := none })) g)) := by
  change execVatFenceGate v s = _
  rw [execVatFenceGate, hfence]
  refine (if_neg (by simp [hpowered])).trans ?_
  rw [State.until_of_le s _ hdue, hg]
  rfl

/-- A reset of the management core ends every session. -/
theorem exec_mgmtCoreReset_of_running {s : State} (hpower : s.pwr.state ≠ .s4) (hruns : s.flt.mgmtReset = none) :
    exec .mgmtCoreReset s =
      .next { s with dic := { s.dic with sessions := [] }, flt := { s.flt with mgmtReset := some s.time } } := by
  change execMgmtCoreReset s = _
  exact if_neg (by simp [hpower, hruns])

theorem exec_mgmtCoreResetDone_of_reset {s : State} {t : Nat} (hreset : s.flt.mgmtReset = some t)
    (hthere : s.flt.mgmtLost = false) :
    exec .mgmtCoreResetDone s = .next { s with flt := { s.flt with mgmtReset := none } } := by
  change execMgmtCoreResetDone s = _
  exact if_pos (by simp [hreset, hthere])

/-- After 200 ms without recovery the service is lost and MOD_HEARTBEAT stops (R483). -/
theorem exec_mgmtRecoveryTimeout_of_due {s : State} {t : Nat} (hreset : s.flt.mgmtReset = some t)
    (hdue : t + 200000000 ≤ s.time) :
    exec .mgmtRecoveryTimeout s =
      .next { s with flt := { s.flt with mgmtLost := true }, pin := { s.pin with heartbeat := false } } := by
  change execMgmtRecoveryTimeout s = _
  simp only [execMgmtRecoveryTimeout, hreset, State.until_of_le s _ hdue]

theorem exec_errorRecordPersist_of_waiting {s : State} {r : ErrRec} {t : List ErrRec} (hwaiting : s.flt.toStore = r :: t) :
    exec .errorRecordPersist s =
      .next { s with flt := { s.flt with toStore := t, store := (r :: s.flt.store).take 256 } } := by
  change execErrorRecordPersist s = _
  simp only [execErrorRecordPersist, hwaiting, keep]

/-! ## BRINE slices (R383–R385) -/

theorem exec_brineSliceStart_of_enabled {s : State} (henabled : cfgBool s Key.brineEn = true) (hrun : running s = true) (n : Nat) :
    exec (.brineSliceStart (.array n)) s = .next (arrayBrine s n) ∧
    exec (.brineSliceStart (.engine n)) s = .next (engineBrine s n) := by
  have hguard : ¬ (!(cfgBool s Key.brineEn) || !(running s)) = true := by simp [henabled, hrun]
  exact ⟨if_neg hguard, if_neg hguard⟩

section
variable {s : State} {u : HealthUnit} (hruns : sliceRuns s u = true)
include hruns

theorem exec_brineSliceDone_interrupted : exec (.brineSliceDone u .interrupted) s = .next (sliceEnds s u) := by
  change execBrineSliceDone u .interrupted s = _
  exact if_neg (by simp [hruns])

theorem exec_brineSliceDone_passed : exec (.brineSliceDone u .passed) s = .next (slicePassed (sliceEnds s u) u) := by
  change execBrineSliceDone u .passed s = _
  exact if_neg (by simp [hruns])

theorem exec_brineSliceDone_failed (test : Nat) :
    exec (.brineSliceDone u (.failed test)) s = .next (sliceFailed (sliceEnds s u) u test) := by
  change execBrineSliceDone u (.failed test) s = _
  exact if_neg (by simp [hruns])

end

/-! ## The health commands (R397) -/

section
variable {s : State} {arg : Octets} {u : HealthUnit} (hunit : unitOf arg = some u) (hpresent : unitPresent s u = true)
include hunit hpresent

theorem onUnit_of_present (f : HealthUnit → CmdAns) : onUnit arg s f = f u := by
  simp only [onUnit, hunit, hpresent, if_true]

/-- A fenced unit begins its tests (R385). -/
theorem healthReadmitBody_of_fenced (sess p : Nat) (hfenced : healthCode s u = 2) :
    healthReadmitBody sess p arg s = doneAt (startReadmit s u) 0 := by
  rw [healthReadmitBody, onUnit_of_present hunit hpresent]
  simp [hfenced]

/-- A retired unit is fenced again (R387). -/
theorem healthClearBody_of_retired (sess p : Nat) (hretired : healthCode s u = 4) :
    healthClearBody sess p arg s = doneAt (setCode s u 2 0) 0 := by
  rw [healthClearBody, onUnit_of_present hunit hpresent]
  simp [hretired]

end

/-- Settles O53: each event and each command does what its rule above says; HEALTH_FENCE fences the unit of its kind. -/
theorem healthCompletes : Obligations.HealthCompletes := by
  intro s
  refine ⟨fun v hruns => ⟨exec_vatHeartbeat_of_runs hruns, exec_vatWatchdog_of_due hruns⟩,
    fun v t hfence hpowered hdue g hg => exec_vatFenceGate_of_due hfence hpowered hdue hg,
    exec_mgmtCoreReset_of_running,
    fun t hreset => ⟨exec_mgmtCoreResetDone_of_reset hreset, exec_mgmtRecoveryTimeout_of_due hreset⟩,
    fun r t hwaiting => exec_errorRecordPersist_of_waiting hwaiting,
    fun henabled hrun => ⟨fun n => (exec_brineSliceStart_of_enabled henabled hrun n).1,
      fun n => (exec_brineSliceStart_of_enabled henabled hrun n).2⟩,
    fun u hruns => ⟨exec_brineSliceDone_interrupted hruns, exec_brineSliceDone_passed hruns, exec_brineSliceDone_failed hruns⟩,
    fun sess arg u hunit hpresent hrange => ⟨fun hready => ?fence, fun hready hfenced => ?readmit,
      fun hready hretired => ?clear⟩⟩
  case fence =>
    refine ⟨fun n hu => ?_, fun n hu => ?_, fun v hu => ?_⟩ <;> subst hu <;>
      exact exec_of_cmdRow rfl hready hrange (onUnit_of_present hunit hpresent _)
  case readmit =>
    exact exec_of_cmdRow rfl hready hrange (healthReadmitBody_of_fenced hunit hpresent sess (sessPart s sess) hfenced)
  case clear =>
    exact exec_of_cmdRow rfl hready hrange (healthClearBody_of_retired hunit hpresent sess (sessPart s sess) hretired)

end Sys2Proof.Machine
end

section
/-! Takeover (R390–R392). -/

namespace Sys2Proof.Machine

/-- A standby that passes its checks and has the envelope adopts with it (R390). -/
theorem recAdoptBody_of_fetched {s : State} {arg e : Octets} {fetch : AdoptFetch} (sess p : Nat)
    (hstatus : adoptStatus s (fld arg 2 2) = 0) (hfetched : fetch.envelope = some e) :
    recAdoptBody fetch sess p arg s = adoptWith s (fld arg 2 2) (fld arg 0 2) (fld arg 4 4) (fld arg 12 1) e fetch := by
  simp [recAdoptBody, hstatus, hfetched]

/-- REC_ADOPT for which no fetch is awaited is a command row. -/
theorem exec_recAdopt_of_quiet {s : State} {sess : Nat} (arg : Octets) (fetch : AdoptFetch)
    (hquiet : peersQuiet s sess Key.recAdopt = true) :
    exec (.recAdopt sess arg fetch) s =
      .next (cmdRow Key.recAdopt (cmdWrite Key.recAdopt adoptRange (recAdoptBody fetch)) sess arg s) := by
  change execRecAdopt sess arg fetch s = _
  simp only [peersQuiet, Option.isNone_iff_eq_none] at hquiet
  simp only [execRecAdopt, hquiet]

/-- A member that is replaced abandons the step at once; the table changes at the boundary (R391). -/
theorem recReplaceBody_of_admitted {s : State} {arg : Octets} (sess p : Nat) (hstatus : replaceStatus s arg = 0) :
    recReplaceBody sess p arg s = stepPend Key.recReplace sess p arg (memberLost s) :=
  refuse_unless_of_zero s _ hstatus

/-- The journaled requests of a lost module's channel. -/
def ofOldChannel (chip handle : Nat) (a : Nat × Nat × JournalReq) : Bool := a.1 = chip && a.2.1 = handle

/-- The journal without the requests of a channel. -/
def dropAdopted (s : State) (chip handle : Nat) : State :=
  { s with srv := { s.srv with adopted := s.srv.adopted.filter (fun a => !(ofOldChannel chip handle a)) } }

/-- The requests of the old channel stand on the new one, and its records say so (R392). -/
theorem recRebindBody_of_found {s : State} {arg : Octets} {sess p : Nat} {c : ReqChan} {mine : List JournalReq} {u v : State}
    (hmine : mine = (s.srv.adopted.filter (ofOldChannel (fld arg 0 2) (fld arg 4 4))).map (·.2.2))
    (hchan : reqChanAt s (fld arg 8 4) = some (p, c)) (hsome : mine ≠ []) (hpart : s.srv.adoptPart = p)
    (hdone : s.srv.adoptDone.isSome = true)
    (hu : u = mine.zipIdx.foldl (rebindOne p (fld arg 8 4)) (dropAdopted s (fld arg 0 2) (fld arg 4 4)))
    (hv : v = addRec u (fld arg 8 4) ⟨rebindDoneRecord mine.length, 0, none, batchNow u (fld arg 8 4), 3⟩) :
    recRebindBody sess p arg s = doneAt (flushChannel
      { v with srv := { v.srv with order := v.srv.order + mine.length, checkpointDue := true } } (fld arg 8 4)) 0 := by
  have hknown : ¬ (mine.isEmpty || s.srv.adoptPart != p || s.srv.adoptDone.isNone) = true := by
    simp [hsome, hpart, Option.isSome_iff_ne_none.mp hdone]
  subst hu hv hmine
  simp only [recRebindBody, hchan, bne_self_eq_false, Bool.false_eq_true, if_false]
  exact if_neg hknown

/-- What a channel that no one rebinds leaves: its live requests journaled as lost. -/
theorem exec_rebindTimeout_of_due {s : State} {chip handle t : Nat} (hdone : s.srv.adoptDone = some t)
    (hsome : s.srv.adopted.any (ofOldChannel chip handle) = true)
    (hdue : t + cfgNat s Key.recRebindS * 1000000000 ≤ s.time) :
    exec (.rebindTimeout chip handle) s =
      .next (((s.srv.adopted.filter (fun a => ofOldChannel chip handle a && a.2.2.ended.isNone)).map (·.2.2)).foldl (fun s j =>
        (journalWrite s 3 (octs j.entry 8 8 ++ natLe 2 St.moduleLost ++ natLe 1 0 ++ List.replicate 5 0)).2)
        (dropAdopted s chip handle)) := by
  have hguard : ¬ (!(s.srv.adopted.any (ofOldChannel chip handle))) = true := by rw [hsome]; decide
  change execRebindTimeout chip handle s = _
  unfold execRebindTimeout
  split
  case h_1 hnone => exact absurd (hdone.symm.trans hnone) nofun
  case h_2 t' hsome' =>
    obtain rfl := Option.some.inj (hdone.symm.trans hsome')
    refine (if_neg hguard).trans ?_
    rw [State.until_of_le s _ hdue]
    rfl

/-- Settles O54: the commands are command rows whose bodies do what the rules above say, and the timer follows its own. -/
theorem takeoverCompletes : Obligations.TakeoverCompletes := by
  intro s
  refine ⟨fun sess arg fetch e hquiet hready hrange hstatus hfetched a ha _ => ?adopt,
    fun sess arg hready hrange hstatus => exec_of_cmdRow rfl hready hrange (recReplaceBody_of_admitted sess _ hstatus),
    fun sess arg c => fun hready hrange hchan hsome hpart hdone t u v ht hu hv => ?rebind,
    fun chip handle t hdone hsome hdue => exec_rebindTimeout_of_due hdone hsome hdue⟩
  case adopt =>
    exact exec_of_cmdRow (exec_recAdopt_of_quiet arg fetch hquiet) hready hrange
      ((recAdoptBody_of_fetched sess _ hstatus hfetched).trans ha.symm)
  case rebind =>
    subst ht
    exact exec_of_cmdRow rfl hready hrange (recRebindBody_of_found rfl hchan hsome hpart hdone hu hv)

end Sys2Proof.Machine
end

section
/-! The thermal step (R413, R416). -/

namespace Sys2Proof.Machine

/-! ## The step called for -/

/-- The step called for is the least of 0 to 15 that reaches the reading; 15 is the most. -/
theorem wantThermal_le_iff {t : Int} {k : Nat} (hk : k ≤ 15) :
    wantThermal t ≤ k ↔ k = 15 ∨ t ≤ 16 * (95 + (k : Int)) := by
  unfold wantThermal clampI
  split
  · omega
  · split <;> omega

theorem wantThermal_le_15 (t : Int) : wantThermal t ≤ 15 := (wantThermal_le_iff (Nat.le_refl 15)).mpr (.inl rfl)

theorem nextThermal_of_lt {n : Nat} {t : Int} (hrises : n < wantThermal t) : nextThermal n t = wantThermal t := if_pos hrises

/-- Below the hysteresis of its own step, the step called for is lower, so the index falls by one. -/
theorem nextThermal_of_cool {n : Nat} {t : Int} (hn : n ≤ 15) (hpos : n ≠ 0) (hcool : t ≤ 16 * (95 + (n : Int) - 2)) :
    nextThermal n t = n - 1 := by
  have hfalls : ¬ n < wantThermal t := Nat.not_lt.mpr ((wantThermal_le_iff hn).mpr (.inr (by omega)))
  rw [nextThermal, if_neg hfalls, if_pos (by simp [hpos, hcool])]

theorem nextThermal_of_stays {n : Nat} {t : Int} (hreached : wantThermal t ≤ n)
    (hwarm : n = 0 ∨ 16 * (95 + (n : Int) - 2) < t) : nextThermal n t = n := by
  have hguard : ¬ (n != 0 && decide (t ≤ 16 * (95 + (n : Int) - 2))) = true := by
    simp only [Bool.and_eq_true, bne_iff_ne, decide_eq_true_eq]
    omega
  rw [nextThermal, if_neg (Nat.not_lt.mpr hreached), if_neg hguard]

theorem nextThermal_le_15 {n : Nat} (t : Int) (hn : n ≤ 15) : nextThermal n t ≤ 15 := by
  unfold nextThermal
  split
  · exact wantThermal_le_15 t
  · split <;> omega

/-! ## The hottest reading -/

/-- One reading against the hottest so far. -/
def hotter (m : Option (Nat × Int)) (q : Nat × Sensor) : Option (Nat × Int) :=
  if !q.2.healthy then m
  else match m with
    | some x => if x.2 < q.2.temp then some (q.1, q.2.temp) else some x
    | none => some (q.1, q.2.temp)

theorem hottest_eq (s : State) : hottest s = s.pwr.sensors.foldl hotter none := rfl

/-- A reading is passed over when its sensor is not healthy, is hotter than what was kept, or is not. -/
theorem hotter_cases (m : Option (Nat × Int)) (q : Nat × Sensor) :
    (q.2.healthy = false ∧ hotter m q = m) ∨
    q.2.healthy = true ∧ ((hotter m q = some (q.1, q.2.temp) ∧ ∀ x ∈ m, x.2 ≤ q.2.temp) ∨
      (hotter m q = m ∧ ∃ x ∈ m, q.2.temp ≤ x.2)) := by
  unfold hotter
  cases hq : q.2.healthy with
  | false => exact .inl ⟨rfl, rfl⟩
  | true =>
    refine .inr ⟨rfl, ?_⟩
    cases m with
    | none => exact .inl ⟨rfl, nofun⟩
    | some x =>
      rcases lt_or_ge x.2 q.2.temp with hlt | hge
      · exact .inl ⟨by simp [hlt], fun y hy => Option.some.inj hy ▸ Int.le_of_lt hlt⟩
      · exact .inr ⟨by simp [Int.not_lt.mpr hge], x, rfl, hge⟩

/-- The hottest reading is the one before the list or a healthy one of it, and none of these is hotter. -/
theorem foldl_hotter {l : List (Nat × Sensor)} {m : Option (Nat × Int)} {i : Nat} {t : Int}
    (hfold : l.foldl hotter m = some (i, t)) :
    ((∃ x ∈ m, x.2 = t) ∨ ∃ q ∈ l, q.2.healthy = true ∧ q.2.temp = t) ∧
    (∀ x ∈ m, x.2 ≤ t) ∧ ∀ q ∈ l, q.2.healthy = true → q.2.temp ≤ t := by
  induction l generalizing m with
  | nil => subst hfold; simp
  | cons q l ih =>
    obtain ⟨hfrom, hbefore, hlist⟩ := ih hfold
    have hlater : (∃ q ∈ l, q.2.healthy = true ∧ q.2.temp = t) → ∃ r ∈ q :: l, r.2.healthy = true ∧ r.2.temp = t :=
      fun ⟨r, hr, h⟩ => ⟨r, List.mem_cons_of_mem q hr, h⟩
    rcases hotter_cases m q with ⟨hq, hkept⟩ | ⟨hq, ⟨hnew, hcooler⟩ | ⟨hkept, x, hx, hle⟩⟩
    · rw [hkept] at hfrom hbefore
      exact ⟨hfrom.imp_right hlater, hbefore, List.forall_mem_cons.mpr ⟨by simp [hq], hlist⟩⟩
    · rw [hnew] at hfrom hbefore
      have hqt : q.2.temp ≤ t := hbefore _ rfl
      refine ⟨.inr (hfrom.elim (fun ⟨y, hy, hyt⟩ => ?_) hlater), fun y hy => Int.le_trans (hcooler y hy) hqt,
        List.forall_mem_cons.mpr ⟨fun _ => hqt, hlist⟩⟩
      obtain rfl := Option.some.inj hy
      exact ⟨q, List.mem_cons_self, hq, hyt⟩
    · rw [hkept] at hfrom hbefore
      exact ⟨hfrom.imp_right hlater, hbefore, List.forall_mem_cons.mpr ⟨fun _ => Int.le_trans hle (hbefore x hx), hlist⟩⟩

/-- The hottest reading is a healthy sensor's, and no healthy sensor reads more. -/
theorem hottest_healthy {s : State} {i : Nat} {t : Int} (hhot : hottest s = some (i, t)) :
    (∃ q ∈ s.pwr.sensors, q.2.healthy = true ∧ q.2.temp = t) ∧
    ∀ q ∈ s.pwr.sensors, q.2.healthy = true → q.2.temp ≤ t := by
  obtain ⟨hfrom, -, hlist⟩ := foldl_hotter hhot
  exact ⟨hfrom.resolve_left nofun, hlist⟩

/-! ## The sample -/

/-- The sensors' readings and health after a sample. -/
def sampledSensors (s : State) (rs : List (Nat × Int)) : Tab Sensor :=
  ((presentSensors s).map (fun i => (i, sampled s rs i))).foldl
    (fun t x => tput {} t x.1 { temp := x.2, healthy := healthyAt (sampled s rs) x.1 }) s.pwr.sensors

/-- A sample's hottest reading is its MAX_TEMP. -/
theorem takeSample_maxTemp {s : State} {rs : List (Nat × Int)} {i : Nat} {t : Int}
    (hhot : hottest (takeSample s rs) = some (i, t)) : (takeSample s rs).pwr.maxTemp = t := by
  have hsensors : (takeSample s rs).pwr.sensors = sampledSensors s rs := by
    dsimp only [takeSample]
    split <;> rfl
  rw [hottest_eq, hsensors] at hhot
  dsimp only [takeSample]
  split
  case h_1 j u hj => exact congrArg Prod.snd (Option.some.inj (hj.symm.trans hhot))
  case h_2 hnone => exact absurd (hhot.symm.trans hnone) nofun

section
variable {s : State} {rs : List (Nat × Int)} (hpower : s.pwr.state ≠ .s4)
  (hdue : ∀ x ∈ s.pwr.history.head?, x.1 + (if s.pwr.fast then 50000 else 1000000) ≤ s.time)
  {m u : State} (hm : m = takeSample s rs) (hu : u = (newlyFailed s m).foldl sensorFails m)
include hpower hdue hm hu

/-- A sample that is due is taken at the time that stands. -/
theorem exec_thermalSample_of_due :
    exec (.thermalSample rs) s =
      let v := if (hottest m).isSome
        then throttle { u with pwr := { u.pwr with nThermal := nextThermal u.pwr.nThermal m.pwr.maxTemp } } else u
      .next (holdOff (if (hottest m).isSome then thermalStop v m.pwr.maxTemp m.pwr.rate else v)) := by
  subst hu hm
  change execThermalSample rs s = _
  refine (if_neg hpower).trans ?_
  cases hhistory : s.pwr.history with
  | nil => rfl
  | cons x l =>
    have huntil := State.until_of_le s _ (hdue x (by rw [hhistory]; rfl))
    simp only [huntil]

theorem exec_thermalSample_of_hottest {i : Nat} {t : Int} (hhot : hottest m = some (i, t)) :
    exec (.thermalSample rs) s = .next (holdOff (thermalStop (throttle { u with
      pwr := { u.pwr with nThermal := nextThermal u.pwr.nThermal t } }) t m.pwr.rate)) := by
  have hmax : m.pwr.maxTemp = t := hm ▸ takeSample_maxTemp (hm ▸ hhot)
  rw [exec_thermalSample_of_due hpower hdue hm hu, hmax, hhot]
  rfl

/-- With no healthy reading the throttle stays as it is (R413). -/
theorem exec_thermalSample_of_none (hhot : hottest m = none) : exec (.thermalSample rs) s = .next (holdOff u) := by
  rw [exec_thermalSample_of_due hpower hdue hm hu, hhot]
  rfl

end

/-- Settles O56: the step called for and the next index by their rules above, and the sample's hottest reading. -/
theorem thermalStepFollowsTheHottestReading : Obligations.ThermalStepFollowsTheHottestReading := by
  intro t
  refine ⟨fun k => wantThermal_le_iff, fun n hn => ⟨nextThermal_le_15 t hn, nextThermal_of_lt, nextThermal_of_cool hn,
    nextThermal_of_stays⟩, ?cold, fun hhot => ?most, fun s i => hottest_healthy,
    fun s i rs hpower hdue m u hm hu => exec_thermalSample_of_hottest hpower hdue hm hu⟩
  case cold =>
    have hzero := wantThermal_le_iff (t := t) (Nat.zero_le 15)
    omega
  case most =>
    have hmost := wantThermal_le_iff (t := t) (k := 14) (by decide)
    have hbound := wantThermal_le_15 t
    omega

end Sys2Proof.Machine
end

section
/-! Power states and clocks (R398–R402, R406). -/

namespace Sys2Proof.Machine

/-! ## PWR_STATE_REQ (R399, R400) -/

section
variable {s : State} {arg : Octets} (sess p : Nat)

section
variable (hwake : leNat arg = 0) (hhold : s.pwr.hold = false)
include hwake hhold

theorem pwrStateBody_of_awake (hpower : s.pwr.state = .s0) (hstays : s.pwr.entering = none) :
    pwrStateBody sess p arg s = doneAt s 0 := by
  simp [pwrStateBody, hwake, hhold, hpower, hstays]

/-- An entry that has begun is left again: the request is a wake event. -/
theorem pwrStateBody_of_entering (henters : s.pwr.entering ≠ none) :
    pwrStateBody sess p arg s = started (wake .stateReq s) := by
  simp [pwrStateBody, hwake, hhold, henters]

end

section
variable (hpower : s.pwr.state = .s0) (hstatus : lowStatus s (leNat arg) = 0)
include hpower hstatus

/-- S1 is entered once the module is idle. -/
theorem pwrStateBody_of_s1 (hs1 : leNat arg = 1) :
    pwrStateBody sess p arg s = started { s with pwr := { s.pwr with waitReq := some (sess, 1) } } := by
  rw [hs1] at hstatus
  simp [pwrStateBody, hs1, hstatus, hpower, pDepth]

theorem pwrStateBody_of_lower (hlower : 1 < leNat arg) :
    pwrStateBody sess p arg s =
      started { s with pwr := { s.pwr with entering := some (stateTarget (leNat arg)) } } := by
  have hnot0 : leNat arg ≠ 0 := by omega
  have hnot1 : leNat arg ≠ 1 := by omega
  simp [pwrStateBody, hnot0, hnot1, hstatus, hpower, pDepth, beginEntry]

end
end

/-- A command object is written in S0 only (R400). -/
theorem state_of_cmdReady {s : State} {sess k : Nat} {arg : Octets} (hready : cmdReady s sess k arg = true) :
    s.pwr.state = .s0 := by
  simp only [cmdReady, Bool.and_eq_true, beq_iff_eq] at hready
  obtain ⟨⟨_, hpower⟩, _⟩ := hready
  exact hpower

/-! ## Entry, wake and exit (R399–R402) -/

/-- PWR_IDLE_US of idleness begin the entry to S1. -/
theorem exec_autoS1Entry_of_idle {s : State} (hpower : s.pwr.state = .s0) (hstays : s.pwr.entering = none)
    (hstop : s.pwr.stop = 0) (hauto : cfgBool s Key.pwrAutoS1 = true) (hidle : moduleIdle s = true)
    (hscrapped : lifecycleOf s ≠ Lc.scrapped) (hblank : lifecycleOf s ≠ Lc.blank)
    (hdue : idleFrom s + cfgNat s Key.pwrIdleUs * 1000 ≤ s.time) :
    exec .autoS1Entry s = .next { s with pwr := { s.pwr with entering := some .s1 } } := by
  change execAutoS1Entry s = _
  rw [execAutoS1Entry, State.until_of_le s _ hdue]
  exact if_pos (by simp [hpower, hstays, hstop, hauto, hidle, hscrapped, hblank])

section
variable {s : State} (hpower : s.pwr.state ≠ .s4)
include hpower

/-- The entry that has begun decides what its end is. -/
theorem exec_powerStateEntryDone_of_entering {t : PState} (henters : s.pwr.entering = some t) :
    exec .powerStateEntryDone s = match t with
      | .s1 => if workIdle s then .next (entryDone (enterS1 s)) else .next s
      | .s2 => if workIdle s then .next (entryDone (enterS2 s)) else .next s
      | .s3 =>
        if s.pwr.stop = 1 then (if orderedReady s then .next (orderedEnd s) else .next s)
        else .next (entryDone (enterS3 St.wrongState s))
      | _ => .next s := by
  have hnow : enteringNow s = some t := by rw [enteringNow, henters]
  change execPowerStateEntryDone s = _
  refine (if_neg hpower).trans ?_
  rw [hnow]
  cases t <;> rfl

theorem exec_powerStateEntryDone_s1 (henters : s.pwr.entering = some .s1) (hidle : workIdle s = true) :
    exec .powerStateEntryDone s = .next (entryDone (enterS1 s)) :=
  (exec_powerStateEntryDone_of_entering hpower henters).trans (if_pos hidle)

theorem exec_powerStateEntryDone_s2 (henters : s.pwr.entering = some .s2) (hidle : workIdle s = true) :
    exec .powerStateEntryDone s = .next (entryDone (enterS2 s)) :=
  (exec_powerStateEntryDone_of_entering hpower henters).trans (if_pos hidle)

theorem exec_powerStateEntryDone_s3 (henters : s.pwr.entering = some .s3) (hstop : s.pwr.stop ≠ 1) :
    exec .powerStateEntryDone s = .next (entryDone (enterS3 St.wrongState s)) :=
  (exec_powerStateEntryDone_of_entering hpower henters).trans (if_neg hstop)

/-- An ordered stop enters S3 after its first steps (R418). -/
theorem exec_powerStateEntryDone_ordered (henters : s.pwr.entering = some .s3) (hstop : s.pwr.stop = 1)
    (hready : orderedReady s = true) : exec .powerStateEntryDone s = .next (orderedEnd s) :=
  (exec_powerStateEntryDone_of_entering hpower henters).trans ((if_pos hstop).trans (if_pos hready))

theorem exec_powerStateExitDone_of_exiting (hexits : s.pwr.exiting = true) (hhold : s.pwr.hold = false) :
    exec .powerStateExitDone s = .next (exitToS0 s) := by
  change execPowerStateExitDone s = _
  exact if_pos (by simp [hexits, hhold, hpower])

end

/-- An event of R400 wakes the states it is for; a thermal hold keeps a state request from it. -/
theorem exec_wakeEvent_of_wakes {s : State} {w : Wake} (hwakes : wakes w (pDepth (s.pwr.entering.getD s.pwr.state)) = true)
    (hhold : w = .stateReq → s.pwr.hold = false) : exec (.wakeEvent w) s = .next (wake w s) := by
  change execWakeEvent w s = _
  exact if_pos (by simpa [hwakes, imp_iff_not_or] using hhold)

/-! ## Clocks (R406) -/

/-- With the fabric reference every port goes DOWN. -/
theorem exec_refclkLoss_of_locked {s t : State} (hlock : s.pwr.refLock = true)
    (ht : t = (List.range 24).foldl (fun s p => (List.range 4).foldl (fun s k =>
      if subCarries (s.subAt p k) then subDown s p k 1 else s) s) s) :
    exec .refclkLoss s = .next (({ t with
      pwr := { t.pwr with refLock := false },
      fab := { t.fab with ports := tmapv {} (fun q => { q with
        subs := tmapv {} (fun x => freshSub x (if q.enable then .down else .disabled) t.time) q.subs }) t.fab.ports } } :
          State).writeErr clockErr) := by
  change execRefclkLoss s = _
  rw [execRefclkLoss, if_neg (by simp [hlock]), ← ht]

theorem exec_refclkRestored_of_powered {s : State} (hlock : s.pwr.refLock = false) (hports : portsPowered s = true) :
    exec .refclkRestored s = .next (trainAll { s with pwr := { s.pwr with refLock := true } }) := by
  change execRefclkRestored s = _
  exact if_neg (by simp [hlock, hports])

/-- With the core clock passes and tasks stop, to be done again (R376, R378). -/
theorem exec_corePllLockLoss_of_running {s t u : State} (hrun : running s = true)
    (ht : t = { s with pwr := { s.pwr with coreLock := false } })
    (hu : u = (t.arr.filter (fun q => !q.2.products.isEmpty)).foldl (fun s q => restartProducts s q.1) t) :
    exec .corePllLockLoss s =
      .next (((u.eng.eng.filter (fun q => q.2.run.isSome)).foldl (fun s q => replayTask s q.1) u).writeErr clockErr) := by
  subst ht hu
  change execCorePllLockLoss s = _
  exact if_neg (by simp [hrun])

theorem exec_corePllRelock_of_lost {s : State} (hpower : s.pwr.state = .s0) (hlock : s.pwr.coreLock = false) :
    exec .corePllRelock s = .next { s with pwr := { s.pwr with coreLock := true } } := by
  change execCorePllRelock s = _
  exact if_pos (by simp [hpower, hlock])

/-- Settles O55: PWR_STATE_REQ is a command row, and each event does what its rule above says. -/
theorem powerStatesComplete : Obligations.PowerStatesComplete := by
  intro s
  refine ⟨fun sess arg hready hrange => ?request, exec_autoS1Entry_of_idle,
    fun hpower => ⟨exec_powerStateEntryDone_s1 hpower, exec_powerStateEntryDone_s2 hpower, exec_powerStateEntryDone_s3 hpower,
      exec_powerStateEntryDone_ordered hpower⟩,
    fun w => exec_wakeEvent_of_wakes, fun hexits hhold hpower => exec_powerStateExitDone_of_exiting hpower hexits hhold,
    fun hlock t => exec_refclkLoss_of_locked hlock, exec_refclkRestored_of_powered,
    fun hrun t u => exec_corePllLockLoss_of_running hrun, exec_corePllRelock_of_lost⟩
  have hpower := state_of_cmdReady hready
  have hrow := fun a => exec_of_cmdRow (c := .pwrStateReq sess arg) (a := a) rfl hready hrange
  exact ⟨fun hwake hhold hstays => hrow _ (pwrStateBody_of_awake sess _ hwake hhold hpower hstays),
    fun hwake hhold henters => hrow _ (pwrStateBody_of_entering sess _ hwake hhold henters),
    fun hs1 hstatus => hrow _ (pwrStateBody_of_s1 sess _ hpower (hs1.symm ▸ hstatus) hs1),
    fun hlower hstatus => hrow _ (pwrStateBody_of_lower sess _ hpower hstatus hlower)⟩

end Sys2Proof.Machine
end

section
/-! The power cap, the brake, the ordered stop and the trip (R410, R411, R413, R417, R421). -/

namespace Sys2Proof.Machine

section
variable {s : State} (hpower : s.pwr.state ≠ .s4)
include hpower

/-- Every millisecond the input power is compared with the cap (R410). -/
theorem exec_powerCapTick_of_due (w : Nat) (hdue : s.pwr.capTick + 1000000 ≤ s.time) :
    exec (.powerCapTick w) s = .next (throttle { s with pwr := { s.pwr with
      nPower := capStep s.pwr.nPower w (cfgNat s Key.pwrCapW), inputW := w, capTick := s.time } }) := by
  change execPowerCapTick w s = _
  rw [execPowerCapTick, State.until_of_le s _ hdue]
  exact if_neg hpower

/-- PWR_BRAKE_N falls: it is counted and recorded, and applies in S0 (R411). -/
theorem exec_brakeAssert_of_released {t : State} (hpin : s.pin.brakeLow = false) (hstop : s.pwr.stop = 0)
    (ht : t = { s with pin := { s.pin with brakeLow := true },
                       pwr := { s.pwr with brakeIn := true, brakeCnt := Word.bump s.pwr.brakeCnt 1 } }) :
    exec .brakeAssert s = .next ((if s.pwr.state = .s0 then applyBrake t else t).writeErr
      { (reportErr St.powerBrake Kind.module 0 0) with mech := Mech.environment }) := by
  subst ht
  change execBrakeAssert s = _
  simp [execBrakeAssert, hpin, hpower, hstop]

/-- Each 10 µs after its release the brake's index falls by one. -/
theorem exec_brakeRampTick_of_due (hin : s.pwr.brakeIn = false) (hbrake : s.pwr.nBrake ≠ 0)
    (hdue : s.pwr.brakeAt + 10000 ≤ s.time) :
    exec .brakeRampTick s =
      .next (throttle { s with pwr := { s.pwr with nBrake := s.pwr.nBrake - 1, brakeAt := s.time } }) := by
  change execBrakeRampTick s = _
  rw [execBrakeRampTick, State.until_of_le s _ hdue]
  exact if_neg (by simp [hin, hbrake, hpower])

/-- An ordered stop that takes 1.5 ms becomes a fast one (R417). -/
theorem exec_orderedStopTimeout_of_due (hstop : s.pwr.stop = 1) (hhold : s.pwr.hold = false)
    (hdue : s.pwr.stopBegan + 1500000 ≤ s.time) : exec .orderedStopTimeout s = .next (fastStop s) := by
  change execOrderedStopTimeout s = _
  rw [execOrderedStopTimeout, State.until_of_le s _ hdue]
  exact if_pos (by simp [hstop, hhold, hpower])

/-- A hard cut: the records not yet copied are lost, and the latch stands (R370, R421). -/
theorem exec_thermalTrip_of_sensor {i : Nat} {t : State} (hi : i < 288)
    (ht : t = powerOff { s with pwr := { s.pwr with tripFlag := some (some i) }, flt := { s.flt with toStore := [] } }) :
    exec (.thermalTrip (some i)) s = .next { t with pin := { t.pin with tripLatch := true } } := by
  subst ht
  change execThermalTrip (some i) s = _
  exact if_neg (by simp [hpower, hi])

end

/-- Settles O57: each event of a powered module does what its rule above says. -/
theorem throttlingCompletes : Obligations.ThrottlingCompletes := by
  intro s hpower
  exact ⟨exec_powerCapTick_of_due hpower, fun hpin hstop _ => exec_brakeAssert_of_released hpower hpin hstop, rfl,
    exec_brakeRampTick_of_due hpower, fun _ hdue _ _ => exec_thermalSample_of_none hpower hdue,
    exec_orderedStopTimeout_of_due hpower, fun _ hi _ => exec_thermalTrip_of_sensor hpower hi⟩

end Sys2Proof.Machine
end

section
/-! Rails, urgent conversions and monitor sequences (R415, R423–R426). -/

namespace Sys2Proof.Machine

/-! ## Rails and urgent conversions (R415, R425) -/

theorem exec_railExcursion_of_inside {s : State} {v : Nat} (hpresent : vatPresent s v = true) (hpower : s.pwr.state = .s0)
    (hinside : (s.vatAt v).railOut = false) :
    exec (.railExcursion v) s = .next (askUrgent (s.setVat v { s.vatAt v with railOut := true })) := by
  change execRailExcursion v s = _
  exact if_pos (by simp [hpresent, hpower, hinside])

/-- The pending request is answered with the rail's code, and a code outside its window is recorded. -/
theorem exec_urgentConversion_of_asked {s t : State} {v code d : Nat} (hpower : s.pwr.state ≠ .s4)
    (hconv : (urgentConv s).isSome = true) (hv : v < 8) (hcode : code < 4096) (hasked : s.pwr.urgSince = some d)
    (hdue : d + 1100 ≤ s.time)
    (ht : t = ({ s with pwr := { s.pwr with
      urgSince := none, urgDone := Word.bump s.pwr.urgDone 1, lastCode := tput 0 s.pwr.lastCode v code } }).emit
        (.urgent (.power v) code)) :
    exec (.urgentConversion (.power v) v code) s = .next (if railBad v code then t.writeErr
      { mech := Mech.environment, status := St.supplyFault, unitKind := Kind.vat, unit := v } else t) := by
  have hinput : ¬ 64 ≤ v := by omega
  have hserved : ¬ (s.pwr.state = .s4 || (urgentConv s).isNone || 64 ≤ v || 4096 ≤ code) = true := by
    simp [hpower, Option.isSome_iff_ne_none.mp hconv, hinput, Nat.not_le.mpr hcode]
  have huntil : s.until (s.pwr.urgSince.getD s.time + 1100) = s := State.until_of_le s _ (by simpa [hasked] using hdue)
  subst ht
  change execUrgentConversion (.power v) v code s = _
  refine (if_neg hserved).trans ((if_neg (by simp [hv, hasked])).trans ?_)
  rw [huntil]
  exact (apply_ite Host.Outcome.next _ _ _).symm

/-! ## Sequences (R423, R424) -/

section
variable {s : State} {k : Nat} (hk : k < 4) (hpower : s.pwr.state ≠ .s4) (hconv : convReady s k = true)
include hk hpower hconv

theorem exec_monTimerTrigger_of_due (hen : (s.monSeq k).en = true) (htimer : (s.monSeq k).trig = 0)
    (hdue : (s.monSeq k).trigAt + (s.monSeq k).period * 1000 ≤ s.time) :
    exec (.monTimerTrigger k) s = .next (trigger (s.setMonSeq k { s.monSeq k with trigAt := s.time }) k) := by
  change execMonTimerTrigger k s = _
  rw [execMonTimerTrigger, State.until_of_le s _ hdue]
  exact if_pos (by simp [hk, monRuns, hpower, hen, htimer, hconv])

/-- A code joins the accumulator of its entry, and the run goes on. -/
theorem exec_monConversionDone_of_running {raw : Nat} {t : State} (hruns : (s.monSeq k).running = true) (hraw : raw < 4096)
    (hdue : (s.monSeq k).entryAt + 1000 ≤ s.time)
    (ht : t = s.setMonAcc (32 * k + (s.monSeq k).entry) (accumulate (s.monAcc (32 * k + (s.monSeq k).entry))
      (codeOf s k (tget 0 (s.monSeq k).inputs (s.monSeq k).entry) raw))) :
    exec (.monConversionDone k raw) s = .next (entryEnds { t with pwr := { t.pwr with
      lastCode := tput 0 t.pwr.lastCode (tget 0 (s.monSeq k).inputs (s.monSeq k).entry)
        (codeOf s k (tget 0 (s.monSeq k).inputs (s.monSeq k).entry) raw) } } k) := by
  subst ht
  change execMonConversionDone k raw s = _
  rw [execMonConversionDone, State.until_of_le s _ hdue]
  exact if_pos (by simp [hk, hruns, monRuns, hpower, hconv, hraw])

end

/-- A regulator's pulse triggers each sequence that waits for it. -/
theorem exec_monVrSync_of_regulator {s : State} {c : Nat} (hc : c < 12) :
    exec (.monVrSync c) s = .next ((List.range 4).foldl (fun t k =>
      if monRuns t && (t.monSeq k).en && (t.monSeq k).trig = 1 && (t.monSeq k).vrSel = c && convReady t k then
        trigger (t.until (s.time + (t.monSeq k).delay * 10)) k else t) s) := by
  change execMonVrSync c s = _
  simp only [execMonVrSync, hc, decide_true, Bool.and_true]

/-- A register of a row that the bus lets through is written. -/
theorem regRow_of_reached {s : State} {agent : RegAgent} {addr : Nat} (f : State → State) (hbus : busStatus s agent addr 32 = 0) :
    regRow agent addr f s = f s := if_pos hbus

/-! ## Calibration (R426) -/

theorem monCalBody_of_idle {s : State} {arg : Octets} (sess p : Nat) (hidle : s.pwr.calState ≠ 1) (hsome : leNat arg ≠ 0) :
    monCalBody sess p arg s = started (startMonCal s (leNat arg)) := (if_neg hidle).trans (if_neg hsome)

section
variable {s : State} {c : Nat} {rest : List Nat} {a b : TapPair} (htodo : s.pwr.calTodo = c :: rest)
  (hruns : s.pwr.calState = 1)
include htodo hruns

/-- Two runs that agree are accepted; two that do not leave the converter suspect until the next two. -/
theorem exec_monCalDone_of_pair :
    exec (.monCalDone c [a, b]) s = if tapsAgree a b then .next (calAccept s c rest (s.monConv c) b)
      else .next (s.setMonConv c { s.monConv c with suspect := true }) := by
  change execMonCalDone c [a, b] s = _
  rw [execMonCalDone, htodo]
  exact if_neg (by simp [hruns])

end

/-! ## Clears (R424) -/

theorem monClearBody_of_mask {s t : State} {arg : Octets} (sess p : Nat) (hsome : leNat arg ≠ 0)
    (ht : t = (bitsOf (leNat arg) 4).foldl seqClear s) :
    monClearBody sess p arg s = started { t with pwr := { t.pwr with clearWait := leNat arg } } := by
  rw [monClearBody, if_neg hsome, ← ht]

theorem exec_monClear_of_register {s : State} {agent : RegAgent} {i : Nat} (v : Nat) (hi : i < 4)
    (hbus : busStatus s agent (0x1040 + 16 * i) 32 = 0) :
    exec (.monClear (.register agent i v)) s = .next (monRegWrite s (0x40 + 16 * i) v) := by
  have hseq : ¬ 3 < i := by omega
  change execMonClear (.register agent i v) s = _
  simp only [execMonClear, hseq, if_false, regRow_of_reached _ hbus]

/-- Settles O58: the commands are command rows or register rows, and each event does what its rule above says. -/
theorem measurementCompletes : Obligations.MeasurementCompletes := by
  intro s
  refine ⟨fun v => exec_railExcursion_of_inside, fun v => rfl,
    fun v code hpower hconv hv hcode d hasked hdue t => exec_urgentConversion_of_asked hpower hconv hv hcode hasked hdue,
    fun k hk hpower hconv => ⟨exec_monTimerTrigger_of_due hk hpower hconv,
      fun raw hruns hraw hdue => fun t => exec_monConversionDone_of_running hk hpower hconv hruns hraw hdue⟩,
    fun c hc hpower => exec_monVrSync_of_regulator hc, fun sess arg hready hrange hidle hsome => ?calStart,
    fun agent i v hbus => congrArg _ (regRow_of_reached _ hbus),
    fun c rest a b htodo hruns => ⟨fun hagree => ?accepted, fun hdiffer => ?suspect⟩,
    fun sess arg hready hrange hsome t ht => ?clear, fun agent i v hi hbus => exec_monClear_of_register v hi hbus⟩
  case calStart => exact exec_of_cmdRow rfl hready hrange (monCalBody_of_idle sess _ hidle hsome)
  case accepted => exact (exec_monCalDone_of_pair htodo hruns).trans (if_pos hagree)
  case suspect => exact (exec_monCalDone_of_pair htodo hruns).trans (if_neg (by simp [hdiffer]))
  case clear => exact exec_of_cmdRow rfl hready hrange (monClearBody_of_mask sess _ hsome ht)

end Sys2Proof.Machine
end

section
/-! The security core (R439, R443, R446–R452, R460–R463, R467): what each command does once its checks pass. -/

namespace Sys2Proof.Machine

/-! ## Lifecycle (R446, R447) -/

section
variable {s : State} {arg : Octets} (sess p : Nat) (hstatus : lcStatus s (s.sessAt sess).cls (leNat arg) = 0)
include hstatus

/-- Entry to RETURNED, and to SCRAPPED from a state other than RETURNED, begins with the release of every partition. -/
theorem lcBody_of_releasing {t : State}
    (hreleases : leNat arg = Lc.returned ∨ (leNat arg = Lc.scrapped ∧ lifecycleOf s ≠ Lc.returned))
    (ht : t = { s with sec := { s.sec with lcTarget := some (leNat arg, sess) } }) :
    lcBody sess p arg s = started (((partsOf t).filter (fun p => (t.partAt p).state = 1)).foldl beginRelease t) := by
  subst ht
  exact (if_neg (by simp [hstatus])).trans (if_pos (by simpa using hreleases))

/-- Any other transition blows its fuse at once. -/
theorem lcBody_of_blowing (hreturned : leNat arg ≠ Lc.returned)
    (hscrapped : leNat arg ≠ Lc.scrapped ∨ lifecycleOf s = Lc.returned) :
    lcBody sess p arg s = doneAt (lcBlow s (leNat arg)) 0 := by
  refine (if_neg (by simp [hstatus])).trans (if_neg ?_)
  rcases hscrapped with h | h <;> simp [hreturned, h]

end

/-- With every partition released and zeroed, the effect is done and the fuse is blown (R447). -/
theorem exec_lcEffectDone_of_released {s : State} {to_ n : Nat} (htarget : s.sec.lcTarget = some (to_, n))
    (hparts : partsOf s = []) (hzeroed : s.mem.zero = []) :
    exec .lcEffectDone s = .next (lcBlow (cmdEnd (lcErase s) Key.lcTransition 0 (cmdWord 2 0 0 0)) to_) := by
  change execLcEffectDone s = _
  rw [execLcEffectDone, htarget]
  exact if_neg (by simp [hparts, hzeroed])

/-! ## Partitions (R449, R450, R452) -/

/-- A new partition gets a key of its own. -/
theorem partCreateBody_of_new {s t : State} {arg : Octets} {k : Nat} (sess p : Nat) (hallowed : createForbidden s = false)
    (hnew : (s.partAt (fld arg 0 2)).state = 0) (hkey : freeKeySlot s = some k)
    (ht : t = s.setPart (fld arg 0 2) { state := 1, rights := fld arg 4 4 }) :
    partCreateBody sess p arg s = doneAt { t with
      mem := { t.mem with keys := tput none t.mem.keys k (some (fld arg 0 2, t.mem.keyGen)), keyGen := t.mem.keyGen + 1 }
      sec := { t.sec with drbg := t.sec.drbg + 1 } } 0 := by
  subst ht
  simp [partCreateBody, hallowed, hnew, hkey]

theorem partAssignBody_of_admitted {s : State} {p : Nat} {arg : Octets} (sess : Nat)
    (hstatus : assignStatus (plannedAssigns s) arg = 0) :
    partAssignBody sess p arg s = stepPend Key.secPartAssign sess p arg s := refuse_unless_of_zero s _ hstatus

theorem partReleaseBody_of_active {s : State} {arg : Octets} (sess p : Nat) (hactive : (s.partAt (leNat arg)).state = 1) :
    partReleaseBody sess p arg s = started (beginRelease s (leNat arg)) := if_neg (by simp [hactive])

/-! ## Debugging (R460–R463) -/

/-- A valid token consumes the nonce and sets its level until its time is over. -/
theorem unlockBody_of_valid {s t : State} {arg : Octets} {signer : TokenSigner} {sess : Nat} (p : Nat)
    (hstatus : unlockStatus s (s.sessAt sess).cls arg signer = 0)
    (ht : t = (if 2 ≤ tokenLevel arg then eraseRetained s else s)) :
    unlockBody signer sess p arg s = doneAt (setDebug
      { t with sec := { t.sec with nonce := none } } (tokenLevel arg) (t.time + fld arg 48 4 * 10 ^ 9)) 0 := by
  subst ht
  exact if_neg (by simp [hstatus])

/-- A challenge that is read is the one that is valid (R461). -/
theorem exec_secDebugChallenge_of_admitted {s : State} {sess : Nat} (nonce : Octets) (hsession : sessReady s sess = true)
    (hrights : admitted 3 (s.sessAt sess).cls = true) :
    exec (.secDebugChallenge sess nonce) s = .next (({ s with sec := { s.sec with
      nonce := some (padTo nonce 32, s.time), drbg := s.sec.drbg + 1 } } : State).emit
        (.fap sess ⟨1, 0, 0, Key.secDebugChallenge / 256, Key.secDebugChallenge % 256, 0, challengeOctets s nonce⟩)) := by
  change execSecDebugChallenge sess nonce s = _
  exact (if_neg (by simp [hsession])).trans (if_neg (by simp [hrights]))

theorem exec_debugExpiry_of_due {s : State} (hpower : s.pwr.state ≠ .s4) (hlevel : s.sec.debug ≠ 0)
    (hdue : s.sec.debugUntil ≤ s.time) : exec .debugExpiry s = .next (setDebug s 0 0) := by
  change execDebugExpiry s = _
  rw [execDebugExpiry, State.until_of_le s _ hdue]
  exact if_neg (by simp [hpower, hlevel])

section
variable {s : State} {core : Nat} (hdebug : debugCore s core = true)
include hdebug

theorem exec_coreHalt_of_running (hruns : s.flt.halted.contains core = false) :
    exec (.coreHalt core) s = .next { s with flt := { s.flt with halted := s.flt.halted ++ [core] } } := by
  change execCoreHalt core s = _
  rw [execCoreHalt, hdebug, hruns]
  rfl

theorem exec_coreSingleStep_of_halted (hhalted : s.flt.halted.contains core = true) :
    exec (.coreSingleStep core) s = .next { s with flt := { s.flt with
      coreSteps := tput 0 s.flt.coreSteps core (tget 0 s.flt.coreSteps core + 1) } } := by
  change execCoreSingleStep core s = _
  rw [execCoreSingleStep, hdebug, hhalted]
  rfl

theorem exec_coreResume_of_debugged :
    exec (.coreResume core) s = .next { s with flt := { s.flt with halted := s.flt.halted.filter (· != core) } } := by
  change execCoreResume core s = _
  exact if_pos hdebug

end

/-! ## Packages and enrolment (R439, R443) -/

theorem pkgLoadBody_of_admitted {s : State} {crypto : ImageCrypto} {sess p : Nat} (arg : Octets)
    (hstatus : pkgStatus s p ((s.sessAt sess).pkgStage.getD []) crypto = 0) :
    pkgLoadBody crypto sess p arg s =
      stepPend Key.secPkgLoad sess p (pkgOctets (pkgOf p ((s.sessAt sess).pkgStage.getD []))) s :=
  refuse_unless_of_zero s _ hstatus

/-- Whole rows that lie in the table and pass the checks of R439 are written. -/
theorem enrollWrite_of_admitted {s : State} {row : Nat} {rows : List Octets} (hsome : rows ≠ [])
    (hlength : ∀ r ∈ rows, r.length = 56) (hfits : row + rows.length ≤ 64) (hstatus : enrollStatus s row rows = 0) :
    enrollWrite row rows s = (0, enrollApply s row rows) := by
  have hwhole : (rows.isEmpty || rows.any (fun r => r.length != 56)) = false := by simpa [hsome] using hlength
  have hshape : firstBad [(rows.isEmpty || rows.any (fun r => r.length != 56), St.formatMismatch),
      (64 < row + rows.length, St.lengthExceedsBuffer)] = 0 := by
    simp [firstBad, hwhole, Nat.not_lt.mpr hfits]
  exact (if_neg (by simp [hshape])).trans (if_neg (by simp [hstatus]))

/-- An OPERATOR session writes them. -/
theorem exec_secEnrollWrite_of_operator {s : State} {sess row : Nat} {rows : List Octets} {a : Nat × State}
    (hsession : sessReady s sess = true) (hoperator : (s.sessAt sess).cls = 2) (hwrite : enrollWrite row rows s = a) :
    exec (.secEnrollWrite sess row rows) s = .next (cmdAnswer Key.secEnroll sess a) := by
  have hrights : admitted 2 (s.sessAt sess).cls = true := by rw [hoperator]; decide
  change execSecEnrollWrite sess row rows s = _
  simp [execSecEnrollWrite, hsession, hrights, hwrite]

/-! ## Memory keys (R467) -/

section
variable {s : State} {slot : Nat} (hslot : slot < 256)
include hslot

/-- The LOAD bit with a slot loads that slot's key, and clears none. -/
theorem keyRegWrite_load :
    keyRegWrite s (slot % 256 + 2 ^ 8) = loadKey { s with mem := { s.mem with keySlot := slot } } slot := by
  have hfield : bits (slot % 256 + 2 ^ 8) 7 0 = slot := by unfold bits; omega
  have hload : bit (slot % 256 + 2 ^ 8) 8 = true := Nat.testBit_eq_decide_div_mod_eq.trans (decide_eq_true (by omega))
  have hclear : bit (slot % 256 + 2 ^ 8) 9 = false := Nat.testBit_eq_decide_div_mod_eq.trans (decide_eq_false (by omega))
  simp only [keyRegWrite, hfield, hload, hclear, if_true, Bool.false_eq_true, if_false]

/-- The CLEAR bit with a slot clears that slot's key, and loads none. -/
theorem keyRegWrite_clear :
    keyRegWrite s (slot % 256 + 2 ^ 9) = clearKey { s with mem := { s.mem with keySlot := slot } } slot := by
  have hfield : bits (slot % 256 + 2 ^ 9) 7 0 = slot := by unfold bits; omega
  have hload : bit (slot % 256 + 2 ^ 9) 8 = false := Nat.testBit_eq_decide_div_mod_eq.trans (decide_eq_false (by omega))
  have hclear : bit (slot % 256 + 2 ^ 9) 9 = true := Nat.testBit_eq_decide_div_mod_eq.trans (decide_eq_true (by omega))
  simp only [keyRegWrite, hfield, hload, hclear, if_true, Bool.false_eq_true, if_false]

end

/-- Settles O59: the commands are command rows whose bodies do what the rules above say, and so do the other events. -/
theorem securityCompletes : Obligations.SecurityCompletes := by
  intro s
  refine ⟨fun sess arg hready hrange hstatus => ⟨fun hreleases t ht => ?releases, fun hreturned hscrapped => ?blows⟩,
    fun to_ n => exec_lcEffectDone_of_released, fun sess arg k hready hrange hallowed hnew hkey t ht => ?create,
    fun sess arg hready hstatus => exec_of_cmdRow rfl hready rfl (partAssignBody_of_admitted sess hstatus),
    fun sess arg hready hactive => exec_of_cmdRow rfl hready rfl (partReleaseBody_of_active sess _ hactive),
    fun sess arg signer hquiet hready hstatus t ht =>
      exec_of_peerRow rfl hquiet hready rfl (unlockBody_of_valid _ hstatus ht),
    fun sess nonce => exec_secDebugChallenge_of_admitted nonce,
    fun sess arg hready harg => exec_of_cmdRow rfl hready (oneRange_of_one s harg) rfl, exec_debugExpiry_of_due,
    fun core hdebug => ⟨exec_coreHalt_of_running hdebug, exec_coreSingleStep_of_halted hdebug,
      exec_coreResume_of_debugged hdebug⟩,
    fun sess arg crypto => fun hquiet hready harg hstatus =>
      exec_of_peerRow rfl hquiet hready (oneRange_of_one s harg) (pkgLoadBody_of_admitted arg hstatus),
    fun sess row rows hsession hoperator hsome hlength hfits hstatus =>
      exec_secEnrollWrite_of_operator hsession hoperator (enrollWrite_of_admitted hsome hlength hfits hstatus),
    fun agent slot hbus hslot => ⟨?load, ?clear⟩⟩
  case releases => exact exec_of_cmdRow rfl hready hrange (lcBody_of_releasing sess _ hstatus hreleases ht)
  case blows => exact exec_of_cmdRow rfl hready hrange (lcBody_of_blowing sess _ hstatus hreturned hscrapped)
  case create => exact exec_of_cmdRow rfl hready hrange (partCreateBody_of_new sess _ hallowed hnew hkey ht)
  case load => exact congrArg _ ((regRow_of_reached _ hbus).trans (keyRegWrite_load hslot))
  case clear => exact congrArg _ ((regRow_of_reached _ hbus).trans (keyRegWrite_clear hslot))

end Sys2Proof.Machine
end

section
/-! Releases, the supply, the pins and the test access port (R441, R442, R446, R469, R470, R475, R485–R489). -/

namespace Sys2Proof.Machine

/-! ## Releases (R441, R442) -/

section
variable {s : State} {crypto : ImageCrypto} {sess : Nat} (p : Nat) (arg : Octets) {b : Octets}
  (hstaged : b = (s.sessAt sess).fwStage.getD []) (hstatus : firmwareStatus s b crypto = 0)
include hstaged hstatus

/-- From bank 0 the release goes to bank 1, which the next boot takes. -/
theorem fwActivateBody_of_bank0 (hbank : s.sec.bank = 0) :
    fwActivateBody crypto sess p arg s =
      doneAt { s with sec := { s.sec with bank1 := some (imageOf b), marked := 1 } } 0 := by
  subst hstaged
  simp [fwActivateBody, hstatus, hbank]

theorem fwActivateBody_of_bank1 (hbank : s.sec.bank = 1) :
    fwActivateBody crypto sess p arg s =
      doneAt { s with sec := { s.sec with bank0 := some (imageOf b), marked := 0 } } 0 := by
  subst hstaged
  simp [fwActivateBody, hstatus, hbank]

end

section
variable {s : State} (hpower : s.pwr.state ≠ .s4) (htest : s.sec.selfTest = false)
include hpower htest

section
variable {svn : Nat} (hsvn : svn = ((bankAt s s.sec.bank).map (·.svn)).getD 0)
include hsvn

/-- In PROVISIONED and DEPLOYED the self-test blows the rollback fuses up to its release (R442). -/
theorem exec_fwSelfTestDone_of_newer (hnewer : s.fuse.rollback < svn)
    (hlifecycle : lifecycleOf s = Lc.provisioned ∨ lifecycleOf s = Lc.deployed) :
    exec .fwSelfTestDone s =
      .next { s with sec := { s.sec with selfTest := true }, fuse := { s.fuse with rollback := svn } } := by
  have hblows : (decide (s.fuse.rollback < svn) &&
      (decide (lifecycleOf s = Lc.provisioned) || decide (lifecycleOf s = Lc.deployed))) = true := by
    simpa [hnewer] using hlifecycle
  subst hsvn
  change execFwSelfTestDone s = _
  refine (if_neg (by simp [hpower, htest])).trans ?_
  simp only [hblows, if_true]

theorem exec_fwSelfTestDone_of_older (holder : svn ≤ s.fuse.rollback) :
    exec .fwSelfTestDone s = .next { s with sec := { s.sec with selfTest := true } } := by
  have hkeeps : (decide (s.fuse.rollback < svn) &&
      (decide (lifecycleOf s = Lc.provisioned) || decide (lifecycleOf s = Lc.deployed))) = false := by
    simp [Nat.not_lt.mpr holder]
  subst hsvn
  change execFwSelfTestDone s = _
  refine (if_neg (by simp [hpower, htest])).trans ?_
  simp only [hkeeps, Bool.false_eq_true, if_false]

end

/-- A self-test that does not end within 30 s of its boot falls back to the other bank. -/
theorem exec_fwSelfTestTimeout_of_due (hfirst : s.sec.fallback = false) (hdue : 30 * 10 ^ 9 ≤ s.time)
    (hother : bankStatus s (bankImage s (1 - s.sec.bank)) 0 = 0) :
    exec .fwSelfTestTimeout s = .next (bootBank (powerOff (copyRecords s.fresh.2)) (1 - s.sec.bank) true
      (Config.openStatus s.fresh.1) (trainedSlices s) (trainedPorts s) s.dic.distance) := by
  change execFwSelfTestTimeout s = _
  rw [execFwSelfTestTimeout, State.until_of_le s _ hdue]
  exact (if_neg (by simp [hpower, htest, hfirst])).trans (if_neg (by simp [hother]))

end

/-! ## The supply and the reset pin (R469, R470, R475, R485, R486) -/

section
variable {s : State}

theorem exec_powerUp_of_unpowered (straps : Nat) (check : BootCheck) (hinput : s.pin.input = false) :
    exec (.powerUp straps check) s = .next (bootIfFree { s with pin := { s.pin with input := true } } straps check) := by
  change execPowerUp straps check s = _
  exact if_neg (by simp [hinput])

/-- Hold-up power copies the records of a powered module before it is off. -/
theorem exec_supplyLoss_of_input (ov : Bool) (hinput : s.pin.input = true) (hlockout : s.pin.overvolt = false) :
    exec (.supplyLoss ov) s =
      let t := if s.pwr.state = .s4 then s else powerOff (copyRecords s)
      .next { t with pin := { t.pin with input := ov, overvolt := ov } } := by
  change execSupplyLoss ov s = _
  exact if_neg (by simp [hinput, hlockout])

theorem exec_resetAssert_eq :
    exec .resetAssert s =
      let t := if s.pwr.state = .s4 then s else powerOff (copyRecords s)
      .next { t with pin := { t.pin with reset := true } } := rfl

theorem exec_resetRelease_of_reset (straps : Nat) (check : BootCheck) (hreset : s.pin.reset = true) :
    exec (.resetRelease straps check) s =
      .next (bootIfFree { s with pin := { s.pin with reset := false } } straps check) := by
  change execResetRelease straps check s = _
  exact if_neg (by simp [hreset])

theorem exec_overvoltageLockoutRelease_of_lockout (straps : Nat) (check : BootCheck) (hlockout : s.pin.overvolt = true) :
    exec (.overvoltageLockoutRelease straps check) s =
      .next (bootIfFree { s with pin := { s.pin with overvolt := false } } straps check) := by
  change execOvervoltageLockoutRelease straps check s = _
  exact if_neg (by simp [hlockout])

theorem exec_thermTripLatchClear_of_off (hoff : s.pwr.state = .s4) :
    exec .thermTripLatchClear s =
      .next { s with pin := { s.pin with tripLatch := false, input := false, overvolt := false } } := by
  change execThermTripLatchClear s = _
  exact if_neg (by simp [hoff])

/-! ## The test access port (R487) -/

section
variable (hpower : s.pwr.state ≠ .s4)
include hpower

/-- With the module powered an instruction is selected. -/
theorem selectIr_of_powered (ir : JtagIr) : selectIr s ir = { s with pin := { s.pin with tap := some ir } } :=
  if_pos (by simp [tapRuns, hpower])

theorem exec_jtagIdcode_of_powered :
    exec .jtagIdcode s =
      .next (({ s with pin := { s.pin with tap := some .idcode } } : State).emit
        (.jtag (steppingNumber s.fuse.stepping % 16 * 2 ^ 28 + 0xD160 * 2 ^ 12 + 0x2AF * 2 + 1))) := by
  change execJtagIdcode s = _
  rw [execJtagIdcode, selectIr_of_powered hpower, if_pos (by simp [tapRuns, hpower])]
  rfl

theorem exec_jtagBypass_of_powered : exec .jtagBypass s = .next { s with pin := { s.pin with tap := some .bypass } } :=
  congrArg _ (selectIr_of_powered hpower _)

/-- The boundary scan is there in the lifecycles that allow it; elsewhere its instructions are BYPASS. -/
theorem exec_jtagSamplePreload_of_powered :
    exec .jtagSamplePreload s =
      .next { s with pin := { s.pin with tap := some (if boundaryAllowed s then .samplePreload else .bypass) } } :=
  congrArg _ (selectIr_of_powered hpower _)

theorem exec_jtagExtest_of_powered :
    exec .jtagExtest s =
      .next { s with pin := { s.pin with tap := some (if boundaryAllowed s then .extest else .bypass) } } :=
  congrArg _ (selectIr_of_powered hpower _)

/-- Fuses are programmed in BLANK, and the module is in VENDOR_TEST (R432, R446). -/
theorem exec_jtagFuseProgram_of_blank (f : FuseImage) (hblank : lifecycleOf s = Lc.blank) :
    exec (.jtagFuseProgram f) s = .next (lcBlow { s with
      pin := { s.pin with tap := some .fuse }
      fuse := { s.fuse with
        lot := padTo f.lot 8, wafer := f.wafer % 256, dieX := BitVec.ofInt 8 f.dieX, dieY := BitVec.ofInt 8 f.dieY
        serial := BitVec.ofNat 64 f.serial, mac := padTo f.mac 6, product := padTo f.product 16, uds := padTo f.uds 32 } }
      Lc.vendorTest) := by
  change execJtagFuseProgram f s = _
  rw [execJtagFuseProgram, if_neg (by simp [tapRuns, hpower, hblank]), selectIr_of_powered hpower]

theorem exec_jtagFuseProgram_of_programmed (f : FuseImage) (hprogrammed : lifecycleOf s ≠ Lc.blank) :
    exec (.jtagFuseProgram f) s = .next { s with pin := { s.pin with tap := some .bypass } } := by
  change execJtagFuseProgram f s = _
  rw [execJtagFuseProgram, if_pos (by simp [hprogrammed]), selectIr_of_powered hpower]

end
end

/-- Settles O60: FW_ACTIVATE is a command row that awaits no peer, and each event and instruction does what its rule above says. -/
theorem firmwareBootAndPinsComplete : Obligations.FirmwareBootAndPinsComplete := by
  refine ⟨fun s => ⟨fun sess arg crypto => ?activate,
      fun hpower htest svn hsvn => ⟨exec_fwSelfTestDone_of_newer hpower htest hsvn,
        exec_fwSelfTestDone_of_older hpower htest hsvn⟩, exec_fwSelfTestTimeout_of_due⟩,
    fun s => ⟨fun straps check => exec_powerUp_of_unpowered straps check, fun ov hinput hlockout => ?supply,
      fun hoff => by rw [exec_resetAssert_eq, if_pos hoff],
      fun hon t ht => by rw [exec_resetAssert_eq, if_neg hon, ← ht],
      fun straps check => exec_resetRelease_of_reset straps check,
      fun straps check => exec_overvoltageLockoutRelease_of_lockout straps check, exec_thermTripLatchClear_of_off,
      fun _ => rfl, fun hpower => ?port, rfl⟩⟩
  case activate =>
    intro b hquiet hready harg hstatus
    have hrow := fun a => exec_of_peerRow (i := .fwActivate sess arg crypto) (a := a) rfl hquiet hready (oneRange_of_one s harg)
    exact ⟨fun hbank => hrow _ (fwActivateBody_of_bank0 _ arg rfl hstatus hbank),
      fun hbank => hrow _ (fwActivateBody_of_bank1 _ arg rfl hstatus hbank)⟩
  case supply =>
    exact ⟨fun hoff => by rw [exec_supplyLoss_of_input ov hinput hlockout, if_pos hoff],
      fun hon t ht => by rw [exec_supplyLoss_of_input ov hinput hlockout, if_neg hon, ← ht]⟩
  case port =>
    refine ⟨exec_jtagIdcode_of_powered hpower, exec_jtagBypass_of_powered hpower, fun hscan => ?_, fun hclosed => ?_,
      exec_jtagFuseProgram_of_blank hpower, exec_jtagFuseProgram_of_programmed hpower⟩
    · rw [exec_jtagSamplePreload_of_powered hpower, exec_jtagExtest_of_powered hpower, hscan]
      exact ⟨rfl, rfl⟩
    · rw [exec_jtagSamplePreload_of_powered hpower, exec_jtagExtest_of_powered hpower, hclosed]
      exact ⟨rfl, rfl⟩

end Sys2Proof.Machine
end
